-- ==== Sys2Proof/Word.lean ====
section
/-! DEFINITION. The word types of the T9 (spec/00_scope.md R2, R3): bits are numbered from 0 at the
least significant bit and every field is little-endian. -/

namespace Sys2Proof

/-- One byte of data. -/
abbrev Byte := BitVec 8

/-- One 32-bit instruction word (R78). -/
abbrev Word := BitVec 32

/-- A 64-bit scalar register, address or CSR value (R101, R105). -/
abbrev Dword := BitVec 64

/-- A scalar register number s0 to s31 (R101). -/
abbrev Reg := BitVec 5

/-- The six bits and more of a prefix word below its class and kind (R89 to R92). -/
abbrev PxBits := BitVec 26

end Sys2Proof
end

