-- ==== Sys2Proof/Config.lean ====
section
/-! DEFINITION. The free values of the manual: constants with no body, so that nothing can be proved
of them but what the machine itself enforces where it uses them. -/

namespace Sys2Proof

/-- The transcendental functions of R71 and R223, and the derivatives of GELU and SILU (R234). -/
inductive Trans where
  | exp | log | tanh | sigm | rsq | gelu | silu | dgelu | dsilu
  deriving DecidableEq, Repr

/-- Which of the two adjacent FP32 values a transcendental operation takes for the FP32-exact or
exact operand written as numerator, denominator and sign (R71: "a fixed function of the input").
True takes the upper neighbour. DESIGN CHOICE (log 6). -/
opaque Config.transUpper : Trans → Bool → Nat → Nat → Bool

/-- The choice of the agent that acts next where the plan of the state is empty, as a seed that the
machine turns into an act. DESIGN CHOICE (log 2). -/
opaque Config.nextChoice : Nat → Nat

/-- A value the manual leaves undefined or to an implementation (R6, R8), by a counter of draws. -/
opaque Config.freeDword : Nat → BitVec 64

/-- The bytes of an SPDM answer that R427 does not fix, by the request counter. -/
opaque Config.spdmAnswer : Nat → BitVec 384

/-- The SHA-384 digest of a measurement index (R425, R427): of a die's firmware image, which is the vendor's and stands
outside the manual, taken together with its configuration section, as numbers; or of the configuration record itself. -/
opaque Config.measurement : Nat → List Nat → BitVec 384

/-- The digest of the responder's certificate chain (R427), which is the vendor's. -/
opaque Config.certificate : BitVec 384

/-- A physical compute die works (R18, R426). -/
opaque Config.dieWorks : Nat → Bool

/-- The owner that the page table of another package of the domain gives a page at a time (R402): what stands there is that
package's own. -/
opaque Config.farOwner : Nat → Nat → Nat → Nat

/-- The key material that the trust die draws for a key index at a given generation (R428). -/
opaque Config.keyMaterial : Nat → Nat → BitVec 512

/-- The cipher of a frame's 16-byte blocks, as the raw frame windows show it (R373): AES-XTS-256 with
the key material of the page's index and the block's DPA as tweak. The manual names the cipher and
states no ciphertext; a block cipher is a permutation of blocks. -/
opaque Config.cipher : BitVec 512 → Nat → Equiv.Perm (BitVec 128)

end Sys2Proof
end

