-- ==== Sys2Proof/Syntax.lean ====
section
/-! DEFINITION. The syntax of the T9: cause codes, engine classes, templates, prefixes, and the one
inductive of instructions and steps, one constructor per row of spec/opcode_table.json. -/

namespace Sys2Proof

/-- The trap causes of R265. -/
inductive Cause where
  | illegalOpcode | reservedField | patchFieldAbsent | patchValueRange
  | templateEmpty | templateInvalid | landReserved | dieDivergentBranch | privilege
  | misaligned | engineDeadlock | serviceCall
  | forbiddenFormatPair | containerMismatch | invalidClassRead | poisonRead | malformedTag
  | malformedBlockScale | partialBlockStore | storeFormatOverflow | futureReadAsData
  | kttMiss | kttPermission | pagePoisoned | pageAbsent
  | staleScopeIndex | notScopeMember | scopeIllFormed
  | lateFutureRead | waiterTableFull | notFutureCell
  | barrierMisaligned | barrierOvercount
  | leaseNotHeld | ringUnderflow | ringMixed | partnerAbort | queueSlotMismatch
  | ringDescInvalid | ringNotOwner
  | tapeFull | tapeClobber | tapeCorrupt | gmapMiss | tapeRecompDepth | tapeDieRows
  | jobFootprintInvalid | jobCardInvalid | linkDown
  | mcUncorrectable | debugBreak | watch
  deriving DecidableEq, Repr

/-- The engines that take commands (R78, R79). -/
inductive Eng where
  | ld | xv | mx | st | jb
  deriving DecidableEq, Repr

/-- The three CSR instructions (R135). -/
inductive CsrOp where
  | rw | rs | rc
  deriving DecidableEq, Repr

/-- The prefixes of one instruction (R89 to R91): the low 26 bits of a DIEP and of a VALX. -/
structure Px where
  diep : Option PxBits
  valx : Option PxBits
  deriving DecidableEq, Repr

/-- A 256-byte sector with its tag and block metadata (R30, R33). Data byte 0 is the least
significant byte of `data`. -/
structure Sector where
  tag   : BitVec 24
  bmeta : BitVec 128
  data  : BitVec 2048
  deriving DecidableEq, Repr

/-- An engine template (R84), field by field. -/
structure Template where
  opc   : BitVec 8
  mod   : BitVec 8
  cw    : BitVec 3
  fmt   : BitVec 5
  d     : BitVec 8
  a     : BitVec 8
  b     : BitVec 8
  cmask : BitVec 3
  cscal : BitVec 5
  wait  : BitVec 8
  seten : BitVec 1
  setsl : BitVec 3
  land  : BitVec 8
  len   : BitVec 20
  imm   : BitVec 32
  deriving DecidableEq, Repr

/-- One memory access that met a page-absent reply (R368): its DPA, whether it writes, and the job
that made it, where a job did. -/
structure Access where
  dpa   : Nat
  write : Bool
  job   : Option Nat
  deriving DecidableEq, Repr

/-- The RISC-V read-modify-write operations of an application hart (R280). -/
inductive HostAmo where
  | swap | add | xor | and | or | min | max | minu | maxu
  deriving DecidableEq, Repr

/-- An access of `size` bytes at a DPA by an application hart, a device or another package; an AMO, LR or SC carries the
bits aq and rl (R280). -/
inductive HostAccess where
  | load  (dpa size : Nat)
  | store (dpa size : Nat) (v : Dword)
  | amo   (op : HostAmo) (dpa size : Nat) (v : Dword) (aq rl : Bool)
  | lr    (dpa size : Nat) (aq rl : Bool)
  | sc    (dpa size : Nat) (v : Dword) (aq rl : Bool)
  deriving DecidableEq, Repr

/-- An access from another package (R402): raw, or of a whole sector, whose tag and block metadata cross with its data. -/
inductive DomainAccess where
  | raw (k : HostAccess)
  | getSector (dpa : Nat)
  | putSector (dpa : Nat) (x : Sector)
  deriving DecidableEq, Repr

/-- The configuration of one 256 GiB window (R401). -/
inductive WindowCfg where
  | unused
  | cxl (port offset : Nat) (metaBits : Nat)
  | domain (pkg base : Nat)
  deriving DecidableEq, Repr

/-- One watch unit (R432): a virtual range, a context, and the kinds of access it matches. -/
structure WatchCfg where
  lo     : Nat
  hi     : Nat
  ctx    : Nat
  loads  : Bool
  stores : Bool
  deriving DecidableEq, Repr

/-- The fields of a tensor request (R382). -/
structure TensorReq where
  handle : Nat
  row0   : Nat
  col0   : Nat
  rows   : Nat
  cols   : Nat
  layout : Nat
  deriving DecidableEq, Repr

/-- The unit on which a step acts and the data presented with it: the tile hart and its engine, the
number of the unit (a core, a job, a launch, a link, a stack, a queue ...) with a second number where
one is needed, and a value, sectors or a tensor request where the step carries them. -/
structure Focus where
  hart : Nat
  eng  : Eng
  unit : Nat
  sub  : Nat
  val  : Dword
  data : List Sector
  req  : TensorReq
  deriving DecidableEq, Repr

/-- The signed configuration record (R426): the ports' bifurcations are 0 for one port, 1 for two halves and 2 for four
quarters. -/
structure BootRecord where
  pkg        : Nat
  domain     : Nat
  cxlSplit   : List Nat
  rootSplit  : List Nat
  dieMap     : List (Option Nat)
  hmasks     : List (List Dword)
  scrubHours : List Nat
  linkRates  : List (Nat × Nat)
  powerLimit : Nat
  bootAddr   : Dword
  deriving DecidableEq, Repr

/-- The instructions and steps of the part: one constructor per row of spec/opcode_table.json. Scalar
words carry their prefixes and the fields of R81, R112, R114 and R115; engine operations carry the
amended template of R84; the other rows are steps of the hart, the core and the package, which act
on the unit that the state's `Focus` names. -/
inductive Instr where
  /-- ADD (R125): Writes a + b modulo 2^64 into d in each active die row. -/
  | add (px : Px) (d : Reg) (a : Reg) (b : Reg)
  /-- SUB (R125): Writes a − b into d in each active row. -/
  | sub (px : Px) (d : Reg) (a : Reg) (b : Reg)
  /-- AND (R125): Writes the bitwise AND of a and b into d. -/
  | and (px : Px) (d : Reg) (a : Reg) (b : Reg)
  /-- OR (R125): Writes the bitwise OR of a and b into d. -/
  | or (px : Px) (d : Reg) (a : Reg) (b : Reg)
  /-- XOR (R125): Writes the bitwise XOR of a and b into d. -/
  | xor (px : Px) (d : Reg) (a : Reg) (b : Reg)
  /-- SLL (R125): Shifts a left by b[5:0]. -/
  | sll (px : Px) (d : Reg) (a : Reg) (b : Reg)
  /-- SRL (R125): Shifts a right logically by b[5:0]. -/
  | srl (px : Px) (d : Reg) (a : Reg) (b : Reg)
  /-- SRA (R125): Shifts a right arithmetically by b[5:0]. -/
  | sra (px : Px) (d : Reg) (a : Reg) (b : Reg)
  /-- SLT (R125): Writes 1 if a < b signed, else 0. -/
  | slt (px : Px) (d : Reg) (a : Reg) (b : Reg)
  /-- SLTU (R125): Writes 1 if a < b unsigned, else 0. -/
  | sltu (px : Px) (d : Reg) (a : Reg) (b : Reg)
  /-- MUL (R125): Writes the low 64 bits of a × b. -/
  | mul (px : Px) (d : Reg) (a : Reg) (b : Reg)
  /-- MULH (R125): Writes the high 64 bits of the signed product. -/
  | mulh (px : Px) (d : Reg) (a : Reg) (b : Reg)
  /-- MULHU (R125): Writes the high 64 bits of the unsigned product. -/
  | mulhu (px : Px) (d : Reg) (a : Reg) (b : Reg)
  /-- DIV (R126): Signed quotient rounded toward zero, never trapping. -/
  | div (px : Px) (d : Reg) (a : Reg) (b : Reg)
  /-- DIVU (R126): Unsigned quotient, never trapping. -/
  | divu (px : Px) (d : Reg) (a : Reg) (b : Reg)
  /-- REM (R126): Signed remainder with the sign of a. -/
  | rem (px : Px) (d : Reg) (a : Reg) (b : Reg)
  /-- REMU (R126): Unsigned remainder. -/
  | remu (px : Px) (d : Reg) (a : Reg) (b : Reg)
  /-- MIN (R125): Signed minimum of a and b. -/
  | min (px : Px) (d : Reg) (a : Reg) (b : Reg)
  /-- MAX (R125): Signed maximum of a and b. -/
  | max (px : Px) (d : Reg) (a : Reg) (b : Reg)
  /-- MINU (R125): Unsigned minimum of a and b. -/
  | minu (px : Px) (d : Reg) (a : Reg) (b : Reg)
  /-- MAXU (R125): Unsigned maximum of a and b. -/
  | maxu (px : Px) (d : Reg) (a : Reg) (b : Reg)
  /-- ADDW (R125): Sign-extended 32-bit sum. -/
  | addw (px : Px) (d : Reg) (a : Reg) (b : Reg)
  /-- SUBW (R125): Sign-extended 32-bit difference. -/
  | subw (px : Px) (d : Reg) (a : Reg) (b : Reg)
  /-- CLZ (R125): Counts leading zeros of a. -/
  | clz (px : Px) (d : Reg) (a : Reg)
  /-- CTZ (R125): Counts trailing zeros of a. -/
  | ctz (px : Px) (d : Reg) (a : Reg)
  /-- POPC (R125): Counts set bits of a. -/
  | popc (px : Px) (d : Reg) (a : Reg)
  /-- SEXT (R125): Sign-extends a byte, half or word of a. -/
  | sext (px : Px) (d : Reg) (a : Reg) (w : BitVec 2)
  /-- ZEXT (R125): Zero-extends a byte, half or word of a. -/
  | zext (px : Px) (d : Reg) (a : Reg) (w : BitVec 2)
  /-- BFX (R125): Extracts a bit field of a at position and length from b. -/
  | bfx (px : Px) (d : Reg) (a : Reg) (b : Reg) (x : BitVec 1)
  /-- CMOV (R125): Writes a into d when b is nonzero. -/
  | cmov (px : Px) (d : Reg) (a : Reg) (b : Reg)
  /-- ADDI (R125): Adds the signed immediate to a. -/
  | addi (px : Px) (d : Reg) (a : Reg) (i : BitVec 13)
  /-- ANDI (R125): ANDs a with the immediate. -/
  | andi (px : Px) (d : Reg) (a : Reg) (i : BitVec 13)
  /-- ORI (R125): ORs a with the immediate. -/
  | ori (px : Px) (d : Reg) (a : Reg) (i : BitVec 13)
  /-- XORI (R125): XORs a with the immediate. -/
  | xori (px : Px) (d : Reg) (a : Reg) (i : BitVec 13)
  /-- SLLI (R125): Shifts a left by imm13[5:0]. -/
  | slli (px : Px) (d : Reg) (a : Reg) (h : BitVec 6)
  /-- SRLI (R125): Shifts a right logically by imm13[5:0]. -/
  | srli (px : Px) (d : Reg) (a : Reg) (h : BitVec 6)
  /-- SRAI (R125): Shifts a right arithmetically by imm13[5:0]. -/
  | srai (px : Px) (d : Reg) (a : Reg) (h : BitVec 6)
  /-- SLTI (R125): Writes 1 if a is below the immediate, signed. -/
  | slti (px : Px) (d : Reg) (a : Reg) (i : BitVec 13)
  /-- SLTIU (R125): Writes 1 if a is below the immediate, unsigned. -/
  | sltiu (px : Px) (d : Reg) (a : Reg) (i : BitVec 13)
  /-- LUI (R125): Writes sext(imm18) << 13 into d. -/
  | lui (px : Px) (d : Reg) (u : BitVec 18)
  /-- AUIPC (R125): Writes PC + (sext(imm18) << 13) into d. -/
  | auipc (px : Px) (d : Reg) (u : BitVec 18)
  /-- FADD32 (R127): FP32 add rounded once with mode and SATF. -/
  | fadd32 (px : Px) (d : Reg) (a : Reg) (b : Reg) (s : BitVec 1) (m : BitVec 3)
  /-- FSUB32 (R127): FP32 subtract rounded once. -/
  | fsub32 (px : Px) (d : Reg) (a : Reg) (b : Reg) (s : BitVec 1) (m : BitVec 3)
  /-- FMUL32 (R127): FP32 multiply rounded once. -/
  | fmul32 (px : Px) (d : Reg) (a : Reg) (b : Reg) (s : BitVec 1) (m : BitVec 3)
  /-- FMA32 (R127): Fused FP32 a × b + d rounded once. -/
  | fma32 (px : Px) (d : Reg) (a : Reg) (b : Reg) (s : BitVec 1) (m : BitVec 3)
  /-- FDIV32 (R127): FP32 divide rounded once. -/
  | fdiv32 (px : Px) (d : Reg) (a : Reg) (b : Reg) (s : BitVec 1) (m : BitVec 3)
  /-- FSQRT32 (R127): FP32 square root rounded once. -/
  | fsqrt32 (px : Px) (d : Reg) (a : Reg) (s : BitVec 1) (m : BitVec 3)
  /-- FMIN32 (R127): FP32 minimum with −0 below +0. -/
  | fmin32 (px : Px) (d : Reg) (a : Reg) (b : Reg)
  /-- FMAX32 (R127): FP32 maximum with −0 below +0. -/
  | fmax32 (px : Px) (d : Reg) (a : Reg) (b : Reg)
  /-- FCMP32 (R127): Writes 1 if the FP32 predicate holds. -/
  | fcmp32 (px : Px) (d : Reg) (a : Reg) (b : Reg) (p : BitVec 3)
  /-- FCVTIF (R127): Converts an integer to FP32 by round. -/
  | fcvtif (px : Px) (d : Reg) (a : Reg) (k : BitVec 2) (m : BitVec 3)
  /-- FCVTFI (R127): Converts FP32 to an integer kind, saturating. -/
  | fcvtfi (px : Px) (d : Reg) (a : Reg) (k : BitVec 2) (m : BitVec 3)
  /-- FCVTFF_TO (R127): Rounds FP32 into a narrow float format code. -/
  | fcvtffTo (px : Px) (d : Reg) (a : Reg) (s : BitVec 1) (f : BitVec 5) (m : BitVec 3)
  /-- FCVTFF_FROM (R127): Decodes a narrow float code exactly into FP32. -/
  | fcvtffFrom (px : Px) (d : Reg) (a : Reg) (f : BitVec 5) (m : BitVec 3)
  /-- LB (R129): Loads a byte, sign-extended, possibly timed. -/
  | lb (px : Px) (d : Reg) (a : Reg) (c : BitVec 5) (o : BitVec 8)
  /-- LBU (R129): Loads a byte, zero-extended. -/
  | lbu (px : Px) (d : Reg) (a : Reg) (c : BitVec 5) (o : BitVec 8)
  /-- LH (R129): Loads a half, sign-extended. -/
  | lh (px : Px) (d : Reg) (a : Reg) (c : BitVec 5) (o : BitVec 8)
  /-- LHU (R129): Loads a half, zero-extended. -/
  | lhu (px : Px) (d : Reg) (a : Reg) (c : BitVec 5) (o : BitVec 8)
  /-- LW (R129): Loads a word, sign-extended. -/
  | lw (px : Px) (d : Reg) (a : Reg) (c : BitVec 5) (o : BitVec 8)
  /-- LWU (R129): Loads a word, zero-extended. -/
  | lwu (px : Px) (d : Reg) (a : Reg) (c : BitVec 5) (o : BitVec 8)
  /-- LD (R129): Loads a doubleword as a raw read. -/
  | ld (px : Px) (d : Reg) (a : Reg) (c : BitVec 5) (o : BitVec 8)
  /-- SB (R130): Stores a byte into container bytes, tag unchanged. -/
  | sb (px : Px) (d : Reg) (a : Reg) (i : BitVec 13)
  /-- SH (R130): Stores a half. -/
  | sh (px : Px) (d : Reg) (a : Reg) (i : BitVec 13)
  /-- SW (R130): Stores a word. -/
  | sw (px : Px) (d : Reg) (a : Reg) (i : BitVec 13)
  /-- SD (R130): Stores a doubleword. -/
  | sd (px : Px) (d : Reg) (a : Reg) (i : BitVec 13)
  /-- BWAIT (R252): Registers at the barrier and waits until PHASE differs from p, then acquires. -/
  | bwait (px : Px) (a : Reg) (p : BitVec 1)
  /-- BARRIVE (R252): Releases, then adds bytes and arrivals to the barrier and tests for a flip. -/
  | barrive (px : Px) (d : Reg) (a : Reg) (n : BitVec 8)
  /-- BARARM (R252): Adds expected bytes to the barrier and tests for a flip. -/
  | bararm (px : Px) (d : Reg) (a : Reg)
  /-- BARINIT (R252): Initialises the barrier's counts, phase, error and scope. -/
  | barinit (px : Px) (a : Reg) (n : BitVec 8) (k : BitVec 5)
  /-- BEQ (R132): Branches when the comparands are equal, in agreement across rows. -/
  | beq (px : Px) (x : Reg) (y : Reg) (i : BitVec 13)
  /-- BNE (R132): Branches when the comparands differ. -/
  | bne (px : Px) (x : Reg) (y : Reg) (i : BitVec 13)
  /-- BLT (R132): Branches on signed less-than. -/
  | blt (px : Px) (x : Reg) (y : Reg) (i : BitVec 13)
  /-- BGE (R132): Branches on signed greater-or-equal. -/
  | bge (px : Px) (x : Reg) (y : Reg) (i : BitVec 13)
  /-- BLTU (R132): Branches on unsigned less-than. -/
  | bltu (px : Px) (x : Reg) (y : Reg) (i : BitVec 13)
  /-- BGEU (R132): Branches on unsigned greater-or-equal. -/
  | bgeu (px : Px) (x : Reg) (y : Reg) (i : BitVec 13)
  /-- JAL (R134): Writes the link and jumps by a word displacement. -/
  | jal (px : Px) (d : Reg) (j : BitVec 18)
  /-- JALR (R134): Jumps to a + offset, rows agreeing, writing the link. -/
  | jalr (px : Px) (d : Reg) (a : Reg) (i : BitVec 13)
  /-- CSRRW (R135): Reads a CSR into d and writes the source value. -/
  | csrrw (px : Px) (d : Reg) (a : Reg) (c : BitVec 12)
  /-- CSRRS (R135): Reads a CSR and sets the source bits. -/
  | csrrs (px : Px) (d : Reg) (a : Reg) (c : BitVec 12)
  /-- CSRRC (R135): Reads a CSR and clears the source bits. -/
  | csrrc (px : Px) (d : Reg) (a : Reg) (c : BitVec 12)
  /-- PRTABA_WRITE (R55): Reads and installs a promotion table on every core of the context and writes PRTIMG. -/
  | prtabaWrite (px : Px) (op : CsrOp) (d a : Reg)
  /-- DMASK_ACCESS (R137): CSR access to DMASK sourced from row 0 whatever the mask. -/
  | dmaskAccess (px : Px) (op : CsrOp) (d a : Reg)
  /-- XSTAT_SRSEED_ACCESS (R138): Access to XSTAT or SRSEED after earlier engine commands complete. -/
  | xstatSrseedAccess (px : Px) (op : CsrOp) (d a : Reg) (c : BitVec 12)
  /-- TAPE_CSR_ACCESS (R226): Access to TAPEB, TAPEL, TAPEP or TAPEN after earlier MX commands complete. -/
  | tapeCsrAccess (px : Px) (op : CsrOp) (d a : Reg) (c : BitVec 12)
  /-- VLSET (R139): Sets GVL.VL and VLCW for a container code and returns VL. -/
  | vlset (px : Px) (d : Reg) (a : Reg) (w : BitVec 3)
  /-- SCOPEWR (R248): Installs a scope descriptor into an entry, waiting or returning busy while operations are in flight. -/
  | scopewr (px : Px) (d : Reg) (a : Reg) (n : BitVec 1) (e : BitVec 5)
  /-- SCOPEINV (R248): Invalidates a scope entry, waiting or returning busy while operations are in flight. -/
  | scopeinv (px : Px) (d : Reg) (n : BitVec 1) (e : BitVec 5)
  /-- RECORD_OFF (R226): Clears RECCTL.ON after earlier MX commands. -/
  | recordOff (px : Px)
  /-- RECORD_ON (R226): Reads the policy block and sets RECCTL.ON. -/
  | recordOn (px : Px)
  /-- RECORD_MARK (R226): Sets RECCTL.MARK to TAPEN. -/
  | recordMark (px : Px)
  /-- REVERSE (R232): Hands the tape to the Spatula and holds until records down to MARK are applied. -/
  | reverse (px : Px) (a : Reg)
  /-- ECALL (R261): Raises SERVICE_CALL with the service code. -/
  | ecall (px : Px) (n : BitVec 12)
  /-- EBREAK (R261): Raises DEBUG_BREAK. -/
  | ebreak (px : Px)
  /-- TRAPRET (R261): Reads the trap record and resumes, retrying or skipping, returning to U. -/
  | trapret (px : Px)
  /-- WFE (R149): Suspends the scalar pipeline until the event flag is set, then clears it. -/
  | wfe (px : Px)
  /-- FENCES (R241): LSYNC plus job completion, then release and acquire at a scope. -/
  | fences (px : Px) (k : BitVec 5)
  /-- LSYNC (R240): Waits until every earlier memory access of the hart has completed. -/
  | lsync (px : Px)
  /-- DRAIN_SPAD (R242): Waits for the core's earlier jobs' scratchpad writes. -/
  | drainSpad (px : Px)
  /-- DRAIN_DEV (R242): Waits for the core's earlier jobs' device-memory writes and invalidates L1 copies. -/
  | drainDev (px : Px)
  /-- DRAIN_DOM (R242): Waits for the core's earlier jobs' domain-memory writes. -/
  | drainDom (px : Px)
  /-- NODEB (R145): Node boundary: waits for engines, zeroes scratch scalars, may park for pre-emption. -/
  | nodeb (px : Px)
  /-- YIELD (R146): Offers the slot to a waiting ready hart of equal or higher class. -/
  | yield (px : Px)
  /-- TEXIT (R148): Waits for all commands and jobs, then ends the hart's work in the group. -/
  | texit (px : Px)
  /-- CURSOR (R144): Steps the schedule cursor, sleeping until an entry is eligible, and returns it. -/
  | cursor (px : Px) (d : Reg)
  /-- PSTEP (R147): Returns the next panel step and updates PANELPOS. -/
  | pstep (px : Px) (d : Reg)
  /-- FRD (R253): Reads a future cell word, or squashes the task on an empty cell. -/
  | frd (px : Px) (d : Reg) (a : Reg) (i : BitVec 5)
  /-- FWR (R254): Writes a future cell word, sets FFULL and releases its waiters. -/
  | fwr (px : Px) (d : Reg) (a : Reg) (i : BitVec 5)
  /-- TMLD (R140): Loads and checks templates from memory into a template table. -/
  | tmld (px : Px) (a : Reg) (c : BitVec 3) (f : BitVec 6) (n : BitVec 4)
  /-- TMPLI (R92): Loads the four following template words into a slot. -/
  | tmpli (c : BitVec 3) (n : BitVec 6) (w0 w1 w2 w3 : Word)
  /-- AMOADD (R244): Atomic add at the home slice, returning the old value. -/
  | amoadd (px : Px) (d : Reg) (a : Reg) (w : BitVec 2) (o : BitVec 2) (k : BitVec 5)
  /-- AMOAND (R244): Atomic bitwise AND. -/
  | amoand (px : Px) (d : Reg) (a : Reg) (w : BitVec 2) (o : BitVec 2) (k : BitVec 5)
  /-- AMOOR (R244): Atomic bitwise OR. -/
  | amoor (px : Px) (d : Reg) (a : Reg) (w : BitVec 2) (o : BitVec 2) (k : BitVec 5)
  /-- AMOXOR (R244): Atomic bitwise XOR. -/
  | amoxor (px : Px) (d : Reg) (a : Reg) (w : BitVec 2) (o : BitVec 2) (k : BitVec 5)
  /-- AMOMIN (R244): Atomic signed minimum. -/
  | amomin (px : Px) (d : Reg) (a : Reg) (w : BitVec 2) (o : BitVec 2) (k : BitVec 5)
  /-- AMOMAX (R244): Atomic signed maximum. -/
  | amomax (px : Px) (d : Reg) (a : Reg) (w : BitVec 2) (o : BitVec 2) (k : BitVec 5)
  /-- AMOMINU (R244): Atomic unsigned minimum. -/
  | amominu (px : Px) (d : Reg) (a : Reg) (w : BitVec 2) (o : BitVec 2) (k : BitVec 5)
  /-- AMOMAXU (R244): Atomic unsigned maximum. -/
  | amomaxu (px : Px) (d : Reg) (a : Reg) (w : BitVec 2) (o : BitVec 2) (k : BitVec 5)
  /-- AMOSWAP (R244): Atomic swap. -/
  | amoswap (px : Px) (d : Reg) (a : Reg) (w : BitVec 2) (o : BitVec 2) (k : BitVec 5)
  /-- AMOCAS (R244): Atomic compare-and-swap using d and d + 1. -/
  | amocas (px : Px) (d : Reg) (a : Reg) (w : BitVec 2) (o : BitVec 2) (k : BitVec 5)
  /-- LDAQ (R245): Load that is an acquire at a scope. -/
  | ldaq (px : Px) (d : Reg) (a : Reg) (w : BitVec 2) (k : BitVec 5)
  /-- STRL (R245): LSYNC then a store that is a release at a scope. -/
  | strl (px : Px) (d : Reg) (a : Reg) (w : BitVec 2) (k : BitVec 5)
  /-- AMOFADD (R244): Atomic FP32 add in RNE. -/
  | amofadd (px : Px) (d : Reg) (a : Reg) (o : BitVec 2) (k : BitVec 5)
  /-- DMSETC (R141): Clears DMASK bits of rows whose condition fails. -/
  | dmsetc (px : Px) (a : Reg) (z : BitVec 1)
  /-- DRED (R142): Combines a value over the active rows into every active row. -/
  | dred (px : Px) (d : Reg) (a : Reg) (o : BitVec 3)
  /-- DBCAST (R142): Broadcasts a source row's value to every active row. -/
  | dbcast (px : Px) (d : Reg) (a : Reg) (r : BitVec 3)
  /-- COMMAND_FORMATION (R87): The Sieve resolves the template, applies the patch, captures scalars and queues the engine command. -/
  | commandFormation (px : Px) (e : Eng) (tix : BitVec 6) (tok : BitVec 4) (fsel : BitVec 3) (val : BitVec 16)
  /-- PAGE_ABSENT_REPLY (R368): A home slice answers an access to an ABSENT page with a page-absent reply. -/
  | pageAbsentReply (a : Access)
  /-- ALD (R192): Streams consecutive sectors verbatim into a strip queue or the scratchpad. -/
  | ald (t : Template)
  /-- ALDS (R192): Streams strided sectors verbatim. -/
  | alds (t : Template)
  /-- ALD2 (R192): Streams a two-dimensional block of sectors verbatim. -/
  | ald2 (t : Template)
  /-- AGATH (R194): Gathers sectors at offsets read from a vector register. -/
  | agath (t : Template)
  /-- ALDT (R195): Loads a matrix and writes its transpose. -/
  | aldt (t : Template)
  /-- ARING (R197): Loads and optionally converts one tile into the tail slot of a ring. -/
  | aring (t : Template)
  /-- ASPX (R192): Streams scratchpad sectors into a strip queue. -/
  | aspx (t : Template)
  /-- AQCFG (R198): Writes a strip queue's format registers and slot bindings once it is idle. -/
  | aqcfg (t : Template)
  /-- APREF (R199): Hints that a range be brought to a cache level. -/
  | apref (t : Template)
  /-- SST (R205): Pops strips and stores them to consecutive sectors. -/
  | sst (t : Template)
  /-- SSTS (R205): Pops strips and stores them with a stride. -/
  | ssts (t : Template)
  /-- SST2 (R205): Pops strips and stores a two-dimensional block. -/
  | sst2 (t : Template)
  /-- SSCAT (R205): Pops strips and scatters them to vector offsets. -/
  | sscat (t : Template)
  /-- SACC (R207): Stores accumulator tile rows to memory, optionally converting. -/
  | sacc (t : Template)
  /-- SSPX (R205): Pops strips into the scratchpad. -/
  | sspx (t : Template)
  /-- STAG (R208): Writes a tag into a run of sectors. -/
  | stag (t : Template)
  /-- FESET (R209): Makes sectors future cells, empty or full. -/
  | feset (t : Template)
  /-- VADD (R160): Elementwise add in the promoted format. -/
  | vadd (t : Template)
  /-- VSUB (R160): Elementwise subtract. -/
  | vsub (t : Template)
  /-- VMUL (R160): Elementwise multiply. -/
  | vmul (t : Template)
  /-- VFMA (R160): Fused multiply-add into D. -/
  | vfma (t : Template)
  /-- VFMS (R160): Fused multiply-subtract into D. -/
  | vfms (t : Template)
  /-- VMIN (R160): Elementwise minimum. -/
  | vmin (t : Template)
  /-- VMAX (R160): Elementwise maximum. -/
  | vmax (t : Template)
  /-- VABS (R160): Elementwise absolute value. -/
  | vabs (t : Template)
  /-- VNEG (R160): Elementwise negation. -/
  | vneg (t : Template)
  /-- VDIV (R160): Elementwise divide. -/
  | vdiv (t : Template)
  /-- VSQRT (R161): Elementwise correctly rounded square root. -/
  | vsqrt (t : Template)
  /-- VRSQ (R161): Elementwise reciprocal square root. -/
  | vrsq (t : Template)
  /-- VEXP (R161): Elementwise exponential. -/
  | vexp (t : Template)
  /-- VLOG (R161): Elementwise natural logarithm. -/
  | vlog (t : Template)
  /-- VTANH (R161): Elementwise hyperbolic tangent. -/
  | vtanh (t : Template)
  /-- VSIGM (R161): Elementwise sigmoid. -/
  | vsigm (t : Template)
  /-- VAND (R162): Elementwise bitwise AND of integers. -/
  | vand (t : Template)
  /-- VOR (R162): Elementwise bitwise OR of integers. -/
  | vor (t : Template)
  /-- VXOR (R162): Elementwise bitwise XOR of integers. -/
  | vxor (t : Template)
  /-- VNOT (R162): Elementwise bitwise NOT of integers. -/
  | vnot (t : Template)
  /-- VSHL (R163): Elementwise left shift. -/
  | vshl (t : Template)
  /-- VSHR (R163): Elementwise right shift. -/
  | vshr (t : Template)
  /-- VSHRR (R163): Elementwise rounding right shift. -/
  | vshrr (t : Template)
  /-- VDOT2 (R165): Accumulates two-way packed integer products into D. -/
  | vdot2 (t : Template)
  /-- VDOT4 (R165): Accumulates four-way packed integer products into D. -/
  | vdot4 (t : Template)
  /-- VSADD (R164): Saturating integer add. -/
  | vsadd (t : Template)
  /-- VSSUB (R164): Saturating integer subtract. -/
  | vssub (t : Template)
  /-- VMULH (R164): Upper half of the double-width integer product. -/
  | vmulh (t : Template)
  /-- VCMP (R166): Compares elements and writes a mask register. -/
  | vcmp (t : Template)
  /-- VSEL (R167): Selects elements from A or B by a mask. -/
  | vsel (t : Template)
  /-- VCLASS (R168): Writes the class index of each element. -/
  | vclass (t : Template)
  /-- VSLIDE (R170): Slides elements by an offset with zero, from or edge fill. -/
  | vslide (t : Template)
  /-- VPERM (R171): Permutes elements by indices in B. -/
  | vperm (t : Template)
  /-- VZIP (R172): Interleaves elements of A and B. -/
  | vzip (t : Template)
  /-- VUNZIP (R172): Takes the even-indexed elements of A followed by B. -/
  | vunzip (t : Template)
  /-- VBCAST (R173): Broadcasts a scalar code into every active element. -/
  | vbcast (t : Template)
  /-- VEXTR (R174): Extracts one element's raw bytes into a scalar register. -/
  | vextr (t : Template)
  /-- VREDSUM (R175): Pairwise tree sum of a row's elements. -/
  | vredsum (t : Template)
  /-- VREDSUMO (R175): Ordered sum of a row's elements. -/
  | vredsumo (t : Template)
  /-- VREDMAX (R175): Maximum of a row's active elements. -/
  | vredmax (t : Template)
  /-- VREDMIN (R175): Minimum of a row's active elements. -/
  | vredmin (t : Template)
  /-- VCVT (R176): Converts elements to a named format and container. -/
  | vcvt (t : Template)
  /-- VQNT (R177): Quantises A into E2M1B. -/
  | vqnt (t : Template)
  /-- VTAGR (R178): Reads a register sector's tag into a scalar. -/
  | vtagr (t : Template)
  /-- VTAGW (R178): Writes a tag into a register sector. -/
  | vtagw (t : Template)
  /-- VSEXP (R179): Adds to the sector exponent of each in-range sector. -/
  | vsexp (t : Template)
  /-- VPOP (R202): Pops XCL strips into register sectors, converting by the sink. -/
  | vpop (t : Template)
  /-- VPUSH (R202): Pushes register sectors verbatim as strips. -/
  | vpush (t : Template)
  /-- VLDR (R200): Loads in-range register sectors from memory, possibly timed. -/
  | vldr (t : Template)
  /-- VSTR (R206): Stores in-range register sectors as full or partial stores. -/
  | vstr (t : Template)
  /-- KAND (R181): ANDs two mask registers. -/
  | kand (t : Template)
  /-- KOR (R181): ORs two mask registers. -/
  | kor (t : Template)
  /-- KNOT (R181): Inverts a mask register. -/
  | knot (t : Template)
  /-- KPOPC (R181): Counts set mask bits into a scalar. -/
  | kpopc (t : Template)
  /-- KFIRST (R181): Writes the index of the lowest set mask bit. -/
  | kfirst (t : Template)
  /-- VRDA (R182): Reads an accumulator tile row into a vector register. -/
  | vrda (t : Template)
  /-- VWRA (R183): Writes vector elements into an accumulator tile row. -/
  | vwra (t : Template)
  /-- VMOV (R185): Copies in-range register sectors. -/
  | vmov (t : Template)
  /-- VID (R173): Writes each active element's index. -/
  | vid (t : Template)
  /-- VSETI (R173): Writes an immediate code into every active element. -/
  | vseti (t : Template)
  /-- MLEASE (R212): Requests the matrix array lease with a command count. -/
  | mlease (t : Template)
  /-- MRELEASE (R212): Ends the hart's lease. -/
  | mrelease (t : Template)
  /-- RINGCFG (R334): Reads, checks and installs a ring descriptor once the ring is idle. -/
  | ringcfg (t : Template)
  /-- RINGPUT (R216): Marks the ring's tail slot full and advances the tail. -/
  | ringput (t : Template)
  /-- RINGPOP (R216): Clears the head slot's full bit and advances the head. -/
  | ringpop (t : Template)
  /-- RINGQRY (R216): Returns a snapshot of a ring's full mask, head, tail and slots. -/
  | ringqry (t : Template)
  /-- TMMA (R219): Matrix command C += A·Bᵀ from two ring head tiles. -/
  | tmma (t : Template)
  /-- TMMAP (R221): Paired matrix command sharing B halves with the partner core. -/
  | tmmap (t : Template)
  /-- TZERO (R223): Sets an accumulator tile's tag to ZERO. -/
  | tzero (t : Template)
  /-- TADD (R223): Adds two tiles. -/
  | tadd (t : Template)
  /-- TSUB (R223): Subtracts two tiles. -/
  | tsub (t : Template)
  /-- TMUL (R223): Multiplies two tiles elementwise. -/
  | tmul (t : Template)
  /-- TSCL (R223): Scales a tile by an FP32 scalar. -/
  | tscl (t : Template)
  /-- TBIAS (R224): Adds a bias row from a vector register to every row. -/
  | tbias (t : Template)
  /-- TACT (R223): Applies an activation function to a tile. -/
  | tact (t : Template)
  /-- TRSUM (R223): Sums each tile row into column 0. -/
  | trsum (t : Template)
  /-- TCSUM (R223): Sums each tile column into row 0. -/
  | tcsum (t : Template)
  /-- TRMAX (R223): Takes each row's maximum into column 0. -/
  | trmax (t : Template)
  /-- TTRANS (R223): Transposes a tile. -/
  | ttrans (t : Template)
  /-- TCVT (R223): Converts a tile between FP32 and INT32. -/
  | tcvt (t : Template)
  /-- TLOADA (R225): Loads 256 rows from memory into an accumulator tile. -/
  | tloada (t : Template)
  /-- TCOPY (R223): Copies a tile verbatim. -/
  | tcopy (t : Template)
  /-- JCOPY (R256): Issues a copy job. -/
  | jcopy (t : Template)
  /-- JFILL (R256): Issues a pattern fill job. -/
  | jfill (t : Template)
  /-- JPREF (R256): Issues a prefetch job. -/
  | jpref (t : Template)
  /-- JCOPY2 (R258): Issues a two-dimensional copy job from a card. -/
  | jcopy2 (t : Template)
  /-- JGATH (R258): Issues an indexed gather job. -/
  | jgath (t : Template)
  /-- JSCAT (R258): Issues an indexed scatter job. -/
  | jscat (t : Template)
  /-- JRED (R258): Issues a memory-side reduction job. -/
  | jred (t : Template)
  /-- JCOLL (R403): Issues a collective job over a member group. -/
  | jcoll (t : Template)
  /-- JRECODE (R258): Issues a recoding job on the Mandoline. -/
  | jrecode (t : Template)
  /-- JTENS (R382): Issues a tensor request to a stack. -/
  | jtens (t : Template)
  /-- HMASK_CHANGE (R380): New hash masks are installed through a gate and sectors are moved. -/
  | hmaskChange (masks : List Dword)
  /-- DOMAIN_WINDOW_CONFIG (R401): A gate configures a CXL or domain window. -/
  | domainWindowConfig (cfg : WindowCfg)
  /-- TD_BOOT (R425): The trust die runs its ROM and verifies the configuration and images. -/
  | tdBoot (r : BootRecord) (signed : Bool)
  /-- WATCH_SET (R432): The management plane sets a watch unit through a gate. -/
  | watchSet (cfg : WatchCfg)
  /-- REGISTER_WRITE (R4): A write to a register or field with no row of its own, by its access code. -/
  | registerWrite (dpa : Nat) (v : Dword)
  /-- ILLEGAL_OPCODE (R106): A fetched word with an undefined SA or SM op6, a PX kind 3–7, or a misplaced or repeated prefix raises ILLEGAL_OPCODE at dispatch. -/
  | illegalOpcode (px : Px) (w : Word)
  /-- APPLICATION_HART_ACCESS (R368): A load, store or AMO of an application hart reaches a DPA and meets the page state, the frame windows or an MMIO structure. -/
  | applicationHartAccess (h ctx : Nat) (kind : HostAccess)
  /-- DOMAIN_ACCESS_ARRIVAL (R402): An access from another package arrives over Axdom at a home slice, is checked against the PIT OWNER, and is performed and acknowledged. -/
  | domainAccessArrival (pkg ctx : Nat) (kind : DomainAccess)
  /-- SCOPE_CHANGE_INSTALL (R248): When a PENDING entry's in-flight count reaches 0, the change takes effect and waiting operations issue. -/
  | scopeChangeInstall
  /-- SPATULA_RECORD (R234): The Spatula applies one record's adjoint to the gradient buffers. -/
  | spatulaRecord
  /-- WFE_TIMEOUT (R149): 65,536 cycles in WFE set the event flag. -/
  | wfeTimeout
  /-- FORMATION_FAULT_RAISE (R88): A command that faulted at formation raises its trap on reaching the head of its queue. -/
  | formationFaultRaise
  /-- COMMAND_COMPLETION (R96): An engine command completes in every active row, pushing tokens and setting its slot. -/
  | commandCompletion
  /-- ENGINE_DEADLOCK (R95): 2^20 cycles with no progress raise ENGINE_DEADLOCK. -/
  | engineDeadlock
  /-- LOAD_DATA_ARRIVAL (R98): Data of a load reaches the Trivet or the scoreboard. -/
  | loadDataArrival
  /-- LOAD_LANDING (R97): A timed load writes its destination at its landing cycle. -/
  | loadLanding
  /-- MC_UNCORRECTABLE (R265): An uncorrectable error strikes unmarkable state and raises an asynchronous trap. -/
  | mcUncorrectable
  /-- LEASE_GRANT (R214): The core grants a free lease to a waiting request by aging, priority and age. -/
  | leaseGrant
  /-- LEASE_TIMEOUT (R212): 16,384 cycles after a grant the lease returns to REQUESTED. -/
  | leaseTimeout
  /-- LEASE_IDLE_EXPIRY (R212): 512 idle cycles return a held lease to REQUESTED. -/
  | leaseIdleExpiry
  /-- TILE_SPILL (R316): The spill sequencer writes another context's tile to its image and frees it. -/
  | tileSpill
  /-- JOB_START (R298): A job starts moving data once every overlapping earlier job has completed. -/
  | jobStart
  /-- JOB_SECTOR_WRITE (R299): A job performs one sector write and counts its bytes on the barrier. -/
  | jobSectorWrite
  /-- JOB_COMPLETE (R301): A job completes, adds one arrival and frees its tracker entry. -/
  | jobComplete
  /-- JOB_RESUME (R260): A parked job resumes at its first unwritten sector when the page is present. -/
  | jobResume
  /-- JOB_FAULT_RAISE (R260): A job's post-issue fault is raised on the JB engine at its next boundary. -/
  | jobFaultRaise
  /-- CTXALLOC (R312): Allocates the next free context identifier and reads its descriptor. -/
  | ctxalloc
  /-- CTXFREE (R312): Frees an idle context identifier by starting the purge. -/
  | ctxfree
  /-- CTXABORT (R322): Ends everything a live context runs without saving it. -/
  | ctxabort
  /-- CTXCMD_INVALID (R311): An undefined CTXCMD OP completes with STATUS 5. -/
  | ctxcmdInvalid
  /-- PURGE_COMPLETE (R313): The last purge step completes and the identifier becomes FREE. -/
  | purgeComplete
  /-- HCMD_RESUME (R321): Resumes a suspended tile hart from its trap record. -/
  | hcmdResume
  /-- HCMD_INVALID (R321): An undefined HCMD OP completes with STATUS 1. -/
  | hcmdInvalid
  /-- QCMD_ENABLE (R329): Enables a queue from a well-formed descriptor. -/
  | qcmdEnable
  /-- QCMD_PAUSE (R329): Stops new admissions from an active queue. -/
  | qcmdPause
  /-- QCMD_RESUME (R329): Returns a paused or errored queue to ACTIVE. -/
  | qcmdResume
  /-- QCMD_DRAIN (R329): Drops unadmitted records and enters DRAINING. -/
  | qcmdDrain
  /-- QCMD_DISABLE (R329): Disables a paused or errored queue with no running launch. -/
  | qcmdDisable
  /-- QCMD_SKIP (R329): Passes over the head record of an errored queue. -/
  | qcmdSkip
  /-- QCMD_INVALID (R323): An undefined QCMD OP completes with STATUS 1. -/
  | qcmdInvalid
  /-- QTBASE_WRITE (R324): Sets the queue table base when every queue is disabled. -/
  | qtbaseWrite
  /-- DOORBELL_WRITE (R327): A doorbell store moves a queue's TAIL or sends it to ERROR. -/
  | doorbellWrite
  /-- LAUNCH_ADMISSION (R328): The package scheduler admits a head launch record and starts its graph. -/
  | launchAdmission
  /-- KERNEL_NODE (R336): Evaluates a KERNEL node, reading and checking its descriptor and KTT. -/
  | kernelNode
  /-- JOB_NODE (R336): Evaluates a JOB node and issues its job. -/
  | jobNode
  /-- EVENT_SET (R336): Writes the node's word as a release at scope 31. -/
  | eventSet
  /-- EVENT_WAIT (R336): Waits until the node's word reaches P0. -/
  | eventWait
  /-- EVENT_WAIT_REREAD (R336): The waited word is re-read at least every 4 µs. -/
  | eventWaitReread
  /-- EVENT_MSI (R336): Sends an MSI to the context's application hart. -/
  | eventMsi
  /-- COND_NODE (R336): Chooses the next node by a masked word. -/
  | condNode
  /-- LOOP_NODE (R336): Loops back while the word is nonzero and the count is below LIMIT. -/
  | loopNode
  /-- SWITCH_NODE (R336): Chooses among up to four targets by a word. -/
  | switchNode
  /-- KERNEL_PLACEMENT (R347): The scheduler finds the first feasible placement and places the group. -/
  | kernelPlacement
  /-- CURSOR_WAKE (R353): A sleeping hart's entry becomes eligible and its clusters are granted. -/
  | cursorWake
  /-- PREEMPTION_DEADLINE (R356): The deadline expires and unparked harts are saved whole-context. -/
  | preemptionDeadline
  /-- HART_RESTORE (R356): A parked or saved hart is restored once its conditions are met. -/
  | hartRestore
  /-- DIE_REMAP_REQUEST (R320): A die map change drains the old die before the gate. -/
  | dieRemapRequest
  /-- QUIESCE_GATE_ACK (R28): The control plane acknowledges a gate and the management change takes effect. -/
  | quiesceGateAck
  /-- PITCMD_WRITE (R372): Installs a PIT entry after write-back and optional zeroing. -/
  | pitcmdWrite
  /-- PITCMD_MIGRATE (R374): Queues a migration pass to a new frame. -/
  | pitcmdMigrate
  /-- PITCMD_RECODE (R374): Queues a recoding pass to a float format. -/
  | pitcmdRecode
  /-- PITCMD_INVALID (R370): An undefined PITCMD OP completes with STATUS 1. -/
  | pitcmdInvalid
  /-- PASS_START (R374): The Mandoline starts the next commanded pass. -/
  | passStart
  /-- BACKGROUND_PASS_START (R374): With no commanded pass queued, the Mandoline starts a background recoding pass. -/
  | backgroundPassStart
  /-- PASS_SECTOR_STEP (R303): The Mandoline moves or converts one sector and raises the watermark. -/
  | passSectorStep
  /-- RD (R384): A pseudo-channel read request for a whole sector. -/
  | rd
  /-- WR (R384): A pseudo-channel write of a whole sector. -/
  | wr
  /-- WRM (R387): A masked data write, done as an internal read-modify-write. -/
  | wrm
  /-- TRD (R382): A tensor request on the tensor port. -/
  | trd
  /-- TAGW (R387): A side-band write of tag and block metadata. -/
  | tagw
  /-- MRR (R389): A read of a bank error-count mode register. -/
  | mrr
  /-- PACKET_REPLY (R384): A base die reply frees a port tag. -/
  | packetReply
  /-- REFRESH (R388): Each pseudo-channel is refreshed once per tREFI. -/
  | refresh
  /-- SCRUB_STEP (R388): The management core scrubs one sector. -/
  | scrubStep
  /-- HEARTBEAT_MISSING (R390): A missing heartbeat hands refresh to the fallback sequencer. -/
  | heartbeatMissing
  /-- REFRESH_HANDOVER (R390): A restarted management core takes refresh back at a tREFI boundary. -/
  | refreshHandover
  /-- LINK_TRAINING_START (R398): Bring-up or a management restart starts training a link. -/
  | linkTrainingStart
  /-- LINK_TRAINING_COMPLETE (R398): Training completes and the link becomes ACTIVE. -/
  | linkTrainingComplete
  /-- LINK_TRAINING_TIMEOUT (R398): Training not complete within 1 ms makes the link FAILED. -/
  | linkTrainingTimeout
  /-- LINK_STEP_UP (R399): 10 µs at high utilisation step the rate up and open a hold. -/
  | linkStepUp
  /-- LINK_STEP_DOWN (R399): 100 µs at low utilisation step the rate down and open a hold. -/
  | linkStepDown
  /-- LINK_RATE_POLICY (R399): A gate sets MINRATE and MAXRATE, stepping the link down if needed. -/
  | linkRatePolicy
  /-- FLIT_REPLAY (R398): A flit failing its check is replayed from the replay buffer. -/
  | flitReplay
  /-- LINK_RETRAIN_COMPLETE (R398): Retraining within the window sends the held flits in order. -/
  | linkRetrainComplete
  /-- LINK_HOLD_EXPIRY (R398): The hold window passes and the link goes DOWN with rerouting. -/
  | linkHoldExpiry
  /-- COLLECTIVE_CONTRIBUTION (R405): A member's contribution reaches the reduction point and is combined. -/
  | collectiveContribution
  /-- COLLECTIVE_TIMEOUT (R405): The collective timer expires before every acknowledgement and it aborts. -/
  | collectiveTimeout
  /-- COLLECTIVE_ACK (R405): A member acknowledges its staged result; the last one commits. -/
  | collectiveAck
  /-- DEVICE_READ (R407): A PCIe device read through the IOMMU of raw container bytes. -/
  | deviceRead
  /-- DEVICE_WRITE (R407): A PCIe device write through the IOMMU of raw container bytes. -/
  | deviceWrite
  /-- DIE_RELEASE (R425): TD measures and releases the next die after the previous is ready. -/
  | dieRelease
  /-- DIE_READY_TIMEOUT (R425): A die not ready within 100 ms stops further release and is reported. -/
  | dieReadyTimeout
  /-- REKEY_REQUEST (R428): An operating-system mailbox request rekeys one index through a gate. -/
  | rekeyRequest
  /-- GET_VERSION (R427): SPDM request answered by the TD responder. -/
  | getVersion
  /-- GET_CAPABILITIES (R427): SPDM capabilities request. -/
  | getCapabilities
  /-- NEGOTIATE_ALGORITHMS (R427): SPDM algorithm negotiation. -/
  | negotiateAlgorithms
  /-- GET_DIGESTS (R427): SPDM digests request. -/
  | getDigests
  /-- GET_CERTIFICATE (R427): SPDM certificate request. -/
  | getCertificate
  /-- CHALLENGE (R427): SPDM challenge request. -/
  | challenge
  /-- GET_MEASUREMENTS (R427): SPDM measurements request over the assigned indices. -/
  | getMeasurements
  /-- KEY_EXCHANGE (R427): SPDM key exchange request. -/
  | keyExchange
  /-- POWER_TICK (R430): Every 10 µs SY compares power with the limit and moves the issue permit. -/
  | powerTick
  /-- THERMAL_TRIP (R430): An over-temperature input makes TD reset the package. -/
  | thermalTrip
  /-- APPLICATION_HART_FENCE (R280): A FENCE rw,rw of an application hart acts as a release and an acquire at every scope entry of which the hart is a member. -/
  | applicationHartFence
  /-- ACCESS_PERFORMED (R285): A scalar store, atomic, LDAQ or STRL of a tile hart is performed at its home slice or scratchpad bank, taking its place in coherence order. -/
  | accessPerformed
  /-- CXL_BACK_INVALIDATION (R406): A CXL 3.x back-invalidation from a peer invalidates the clean copies of CXL-window lines held at the LLC. -/
  | cxlBackInvalidation
  deriving DecidableEq, Repr

end Sys2Proof
end

