-- ==== Sys2Proof/Machine/State.lean ====
section
/-! DEFINITION. The state of the package as plain data: every register, table, queue and mark that
the manual names, with its value after reset. -/

namespace Sys2Proof.Machine

/-- Data by key: pairs with strictly rising keys. A key that is not listed holds the default of the
table it belongs to. -/
abbrev Map (α : Type) := List (Nat × α)

/-- Byte memory: strictly rising keys, no entry equal to what an unlisted key reads as. -/
abbrev Memory := List Host.Cell

/-! ## The hart -/

/-- The registers of one die row of a hart (R101, R263). A vector register sector that is not listed
has tag 0x00_0000, zero metadata and zero data. -/
structure RowRegs where
  s  : Vector Dword 32
  hb : Vector Dword 8
  k  : Vector (BitVec 4096) 8
  /-- Register sector x of vector register n under key 8 n + x. -/
  v  : Map Sector
  deriving DecidableEq, Repr

/-- The per-hart control and status registers of R105. HSTAT is the hart's stage, slot, span,
priority and privilege; CYCLE belongs to the core. -/
structure Csrs where
  vl       : BitVec 16
  vlcw     : BitVec 3
  xcl      : Nat
  acl      : Nat
  trows    : Nat
  dmask    : BitVec 8
  ds       : Vector Dword 4
  xstat    : BitVec 9
  rmode    : BitVec 3
  ldFmt    : BitVec 5
  ldCw     : BitVec 3
  ldSexp   : BitVec 8
  srseed   : BitVec 32
  retired  : Dword
  tapeb    : Dword
  tapel    : Dword
  tapep    : Dword
  tapen    : BitVec 32
  recMark  : BitVec 32
  recording : Bool
  /-- The policy block that RECORD.on read, bits [159:0] (R227). -/
  policy   : BitVec 160
  revAct   : Bool
  revNext  : BitVec 32
  trapvec  : Dword
  traprec  : Dword
  trapEng  : BitVec 3
  trapCause : BitVec 10
  /-- The hart's copy of PRTABA; the installed table is the context's (R54, R136). -/
  prtaba   : Dword
  panelRow : BitVec 32
  panelCol : BitVec 32
  deriving DecidableEq, Repr

/-- The scalar values an engine command captured in one die row (R80). -/
structure Captured where
  d : Dword
  a : Dword
  b : Dword
  c : Dword
  deriving DecidableEq, Repr

/-- The first and last address a command touched in one die row and its active elements (R266). -/
structure Touched where
  row   : Nat
  first : Dword
  last  : Dword
  mpop  : Nat
  deriving DecidableEq, Repr

/-- A tape record ready to be written at completion (R229, R230), with its KEEP footprints. -/
structure TapeRecord where
  sectors : List Sector
  keeps   : List (List Nat)
  deriving DecidableEq, Repr

/-- What remains to be done when a command that has run completes (R96): its flags, the ring heads it
pops in each row's core, its tape record and its trace entries. -/
structure Completion where
  flags   : BitVec 9
  pops    : List (Nat × Nat)
  tape    : Option TapeRecord
  touched : List Touched
  deriving DecidableEq, Repr

/-- What an array command makes of tile D in a die row in which it has started: the tag and the rows of codes. They are
written when the command completes (R212, R219). -/
structure StartedRow where
  row   : Nat
  tag   : BitVec 24
  codes : List (List Nat)
  deriving DecidableEq, Repr

/-- One entry of an engine queue: the amended template with everything captured at dispatch (R80,
R86, R138), the trap found at formation, and how far the command has come. -/
structure Command where
  pc      : Dword
  tix     : BitVec 6
  t       : Template
  fault   : Option Cause
  /-- IMM was written by an FSEL 4 patch (R119). -/
  immPatched : Bool
  tok     : BitVec 4
  /-- The effective die mask (R91). -/
  mask    : BitVec 8
  stride  : Dword
  cap     : List Captured
  vl      : BitVec 16
  vlcw    : BitVec 3
  rmode   : BitVec 3
  ldFmt   : BitVec 5
  ldCw    : BitVec 3
  ldSexp  : BitVec 8
  recording : Bool
  order   : Nat
  /-- The promotion table in use when it issued, which serves all its pairs (R56); none is the default table. -/
  prt     : Option (List Byte)
  issued  : Bool
  /-- Its tokens and slots have been taken (R93, R96); a command that faults after that re-issues without
  taking them again (R261). -/
  consumed : Bool
  progress : Nat
  /-- The units of its work that each die row has done, where the rows go on apart (R188). -/
  rowDone : List Nat
  /-- The source sectors that it has read so far and has not yet used up, for a unit that reads in several steps (R188). -/
  carried : List Sector
  /-- The byte offsets that AGATH and SSCAT read at issue, by die row (R194). -/
  offs    : List (List Int)
  /-- The source sectors that a streaming load has read before their turn, by die row and unit (R269). -/
  fetched : List (Nat × Nat × Sector)
  flags   : BitVec 9
  touched : List Touched
  /-- The die rows in which an array command has started, with their results. -/
  started : List StartedRow
  /-- The die rows in which a TMMAP has arrived at its pair slot and waits for its partner (R222). -/
  arrived : List Nat
  done    : Option Completion
  deriving DecidableEq, Repr

/-- The destination a load writes when it lands. -/
inductive LoadDest where
  /-- A scalar register, of the H bank where `hbank` is set (R263). -/
  | scalar (d : Nat) (hbank : Bool) (size : Nat) (signed : Bool)
  | vector (v sector : Nat)
  deriving DecidableEq, Repr

/-- What a load's data reveals: what it read, or the fault of R100. -/
inductive Arrival where
  /-- A sector or a scalar's bytes, with the flags of a conversion (R204). -/
  | data (x : Sector) (fl : BitVec 9)
  | fault (c : Cause)
  deriving DecidableEq, Repr

/-- A load in flight: a Trivet entry of a timed load (R97, R98) or an interlocked load that the
scoreboard waits for. The data or the fault that it reveals is absent until LOAD_DATA_ARRIVAL. -/
structure LoadEntry where
  row   : Nat
  dest  : LoadDest
  addr  : Dword
  dpa   : Nat
  land  : Nat
  due   : Option Nat
  data  : Option Arrival
  pc    : Dword
  tix   : BitVec 6
  idx   : BitVec 16
  /-- A scalar load; otherwise a VLDR of the XV engine. -/
  scalarPipe : Bool
  /-- An unaligned VLDR's second sector, by DPA, with LDFMT as captured (R204). -/
  join  : Option (Nat × BitVec 5 × BitVec 3 × BitVec 8)
  /-- The promotion table in use when it issued (R56). -/
  prt   : Option (List Byte)
  order : Nat
  deriving DecidableEq, Repr

/-- What VSTR or an ST command stores into one memory sector: the sector that it comes from, with its data in place, the bits
stored, and LDFMT and the promotion table as its command has them (R204, R206). -/
structure VecStore where
  sector : Nat
  x      : Sector
  lo     : Nat
  hi     : Nat
  /-- The address is a multiple of 256, so that E2M1B sectors may be stored. -/
  whole  : Bool
  ldFmt  : BitVec 5
  ldCw   : BitVec 3
  ldSexp : BitVec 8
  prt    : Option (List Byte)
  deriving DecidableEq, Repr

/-- A scalar store issued and not yet performed, or one sector's part of a VSTR or of an ST command (R267, R285). -/
structure StoreEntry where
  row  : Nat
  /-- The issuing unit, none for the scalar pipeline, and the lane cluster (R267). -/
  unit : Option Eng
  cluster : Nat
  addr : Dword
  dpa  : Nat
  size : Nat
  val  : Dword
  vec  : Option VecStore
  order : Nat
  deriving DecidableEq, Repr

/-- The contents of a scope entry (R246). -/
structure Scope where
  cores : BitVec 128
  hset  : Dword
  pset  : Dword
  cset  : BitVec 10
  deriving DecidableEq, Repr

/-- Why the scalar pipeline of a hart issues nothing further at its PC. -/
inductive Wait where
  | none
  /-- WFE since the given cycle (R149). -/
  | wfe (since : Nat)
  /-- BWAIT registered with the objects at the given keys; released ones leave the list (R362). It then acquires at the
  scopes given, each with the contents under which it issued (R409). -/
  | bwait (bars : List Nat) (scopes : List (Nat × Option Scope))
  /-- FENCES, or an atomic, LDAQ or STRL issued and not yet performed, in flight on a scope entry (R241, R248), with the
  contents under which it issued (R409). -/
  | fence (k : Nat) (cur : Option Scope)
  /-- SCOPEWR or SCOPEINV queued on a PENDING entry (R248); the flag says that it has been applied. -/
  | scope (k : Nat) (done : Bool)
  /-- DRAIN, issued when this number was the next job's: it waits for jobs below it (R242). -/
  | drain (upto : Nat)
  /-- CURSOR with no eligible entry (R144). -/
  | cursor
  /-- REVERSE with the Spatula at work (R232), which has read the gradient map's entries at this address (R233). -/
  | reverse (a : Dword) (map : List (BitVec 256))
  deriving DecidableEq, Repr

/-- The states of R352; a group's hart that has retired TEXIT is gone. -/
inductive HartState where
  | running
  | sleeping
  | ready
  | parked
  | saved
  | savedPage (page : Nat)
  | suspended
  deriving DecidableEq, Repr

/-- The trap record of R264, field by field. -/
structure TrapRecord where
  cycle    : Dword
  slot     : BitVec 2
  vcore    : BitVec 7
  ctxid    : BitVec 12
  cls      : BitVec 3
  tix      : BitVec 6
  rows     : BitVec 8
  addr     : Dword
  idx      : Vector (BitVec 16) 6
  pc       : Dword
  status   : BitVec 32
  skip     : Bool
  nested   : Bool
  async    : Bool
  progress : Bool
  av       : Bool
  eng      : BitVec 3
  cause    : BitVec 10
  deriving DecidableEq, Repr

/-- A trap that has been raised and not yet ended (R261, R262): where the scalar pipeline is held,
whether its record went to the frame's trap area, and the wait of BWAIT that it interrupts, whose registration stands
(R362). -/
structure TrapLevel where
  hold    : Dword
  inFrame : Bool
  wait    : Wait
  deriving DecidableEq, Repr

/-- What CURSOR keeps of a hart and a squash of its task gives back (R143, R253): the scalar registers of each row,
the CSRs, the template tables and the command indices, as they stood before the CURSOR that took the task. -/
structure Checkpoint where
  s    : List (Vector Dword 32)
  csr  : Csrs
  tmpl : Map Template
  idx  : Vector (BitVec 16) 6
  deriving DecidableEq, Repr

/-- A schedule entry taken by CURSOR: the hart's current task (R144, R147, R253). -/
structure Task where
  entry  : Nat
  rows   : BitVec 32
  cols   : BitVec 32
  row0   : Nat
  col0   : Nat
  /-- The address of the CURSOR that took it, which a squash passes again. -/
  cursor : Dword
  stored : Bool
  before : Checkpoint
  deriving DecidableEq, Repr

/-- One tile hart (R279, R352). -/
structure Hart where
  ctx    : Nat
  group  : Nat
  coord  : Nat
  stage  : Nat
  /-- The virtual core of each die row, row 0 first. -/
  cores  : List Nat
  slot   : Nat
  frame  : Nat
  prio   : BitVec 2
  state  : HartState
  /-- Suspended before it was saved: restored to SUSPENDED (R352). -/
  wasSuspended : Bool
  pc     : Dword
  priv   : Bool
  rows   : List RowRegs
  csr    : Csrs
  /-- Slot n of the table of engine code e (LD 0, XV 1, MX 2, ST 3, JB 4) under key 64 e + n. -/
  tmpl   : Map Template
  /-- The queue of each engine, in the same codes, oldest command first. -/
  queues : Vector (List Command) 5
  /-- Commands that have left their queues with accesses in flight and complete once these are performed and landed: VLDRs,
  VSTRs and stores of strips and tile rows, each with its engine (R97, R269, R273). -/
  timed  : List (Eng × Command)
  /-- Command indices: scalar, LD, XV, MX, ST, JB (R264). -/
  idx    : Vector (BitVec 16) 6
  tokens : Vector (BitVec 4) 8
  slots  : BitVec 8
  loads  : List LoadEntry
  stores : List StoreEntry
  event  : Bool
  wait   : Wait
  /-- Dispatch has stopped behind a command that faulted at formation (R88). -/
  halted : Bool
  /-- A failing engine's command was stopped by a trap that is not yet ended. -/
  traps  : List TrapLevel
  /-- The clock period at which the hart last issued or completed anything (R95). -/
  lastProgress : Nat
  /-- The clock period in which the Sieve last took an instruction of the hart: at most one a cycle (R79). -/
  lastIssue : Option Nat
  order  : Nat
  task   : Option Task
  /-- A pre-emption request is pending since the given cycle, with its deadline (R356). -/
  preempt : Option Nat
  /-- The load that a restore executes again before anything else issues (R99). -/
  reissue : List LoadEntry
  /-- The lease count of each row while the hart is saved, 0 for none (R212). -/
  leaseKept : List Nat
  /-- The clock period since which the hart waits for clusters, to wake or to be restored (R351). -/
  waitSince : Option Nat
  /-- A machine check strikes the hart once it is on a slot again (R317). -/
  mcPending : Bool
  /-- Its own launch grant (XCL, ACL) (R350). -/
  launchX : Nat
  launchA : Nat
  deriving DecidableEq, Repr

/-! ## The core -/

/-- A ring: its descriptor (R332) and the source of the tile in each slot (R215). -/
structure Ring where
  sbase : Nat
  tileb : Nat
  ecw   : BitVec 3
  efmt  : BitVec 5
  slots : Nat
  head  : Nat
  tail  : Nat
  full  : BitVec 32
  owner : Nat
  srcBase   : Map Nat
  srcStride : Map Nat
  deriving DecidableEq, Repr

/-- A strip queue: the state record of R330 without COUNT, the group that owns it, and its strips. -/
structure StripQueue where
  prod    : Nat
  cons    : Nat
  smode   : BitVec 3
  sfmt    : BitVec 5
  srcFmt  : BitVec 5
  srcCw   : BitVec 3
  srcSexp : BitVec 8
  owner   : Option Nat
  strips  : List Sector
  deriving DecidableEq, Repr

/-- The states of a hart's lease on one core (R212). -/
inductive LeaseState where
  | none
  | requested
  | held
  deriving DecidableEq, Repr

/-- A lease with its count, request and grant cycles, bypass count and the cycle of its last use. -/
structure Lease where
  state  : LeaseState
  count  : Nat
  reqAt  : Nat
  grantAt : Nat
  bypass : Nat
  usedAt : Nat
  hart   : Nat
  deriving DecidableEq, Repr

/-- A pair slot of TMMAP (R222). RUN is not listed: both sides run in the step in which the second
arrives. -/
inductive PairState where
  | idle
  | half (core : Nat)
  | cancelled (core : Nat) (reason : Nat)
  deriving DecidableEq, Repr

/-- An entry of the retirement trace ring (R266). -/
structure TraceEntry where
  ctxid : BitVec 12
  slot  : BitVec 2
  mpop  : BitVec 13
  eng   : BitVec 3
  row   : BitVec 3
  cw    : BitVec 3
  vl    : BitVec 16
  last  : Dword
  first : Dword
  pc    : Dword
  deriving DecidableEq, Repr

/-- A sector as an L1 holds it (R281): its contents when it was brought in, and whether a job issued on the core has
written the sector since (R300). -/
structure L1Copy where
  sec   : Sector
  byJob : Bool
  deriving DecidableEq, Repr

/-- One tile core, named by its virtual core number (R19). -/
structure Core where
  /-- Clock periods in which CYCLE did not count (R99). -/
  lost    : Nat
  frozen  : Bool
  /-- The clock period from which the core acts again after a freeze (R99). -/
  thaw    : Nat
  /-- Copies of device-memory sectors in the core's L1s, under DPA / 256 (R281). -/
  l1      : Map L1Copy
  fused   : Bool
  owner   : Option Nat
  tileTag : Map (BitVec 24)
  /-- Owner tag of a tile: (CTXID, hart slot) (R316). -/
  tileOwner : Map (Nat × Nat)
  rings   : Map Ring
  queues  : Map StripQueue
  leases  : Map Lease
  trace   : List TraceEntry
  deriving DecidableEq, Repr

/-! ## The context -/

/-- A rewrite waiting on a scope entry: the hart that asked and the new contents, none to invalidate. -/
structure ScopeRewrite where
  hart : Nat
  new  : Option Scope
  deriving DecidableEq, Repr

/-- A scope entry: INVALID (none) or VALID, and the rewrites that wait for it (R248). They make it PENDING, except that
after one has been applied the operations that waited issue under its result before the next stops them again. Its
operations in flight are the harts that wait in one and the jobs that carry its index. -/
structure ScopeEntry where
  cur     : Option Scope
  pending : List ScopeRewrite
  admits  : Bool
  deriving DecidableEq, Repr

/-- What is held of the rings and strip queues written to a core image beside the image's bytes: the owner groups
of queues and the sources of ring tiles (R320). -/
structure CoreImage where
  rings  : Map Ring
  queues : Map StripQueue
  deriving DecidableEq, Repr

/-- A LIVE or PURGING context (R310, R312); an identifier that is not listed is FREE. -/
structure Ctx where
  purging  : Bool
  spill    : Nat
  frames   : Nat
  prtimg   : Nat
  deadline : Nat
  msiid    : Nat
  ahart    : Nat
  scopes   : Map ScopeEntry
  prtaba   : Dword
  /-- The installed table's 1,024 bytes (R55); none is the default table of R58. -/
  prt      : Option (List Byte)
  /-- Spilled tiles under key 32 c + t, true where the ZERO mark is set (R316). -/
  spilled  : Map Bool
  /-- Virtual cores whose image has been written and not filled since (R320). -/
  images   : Map CoreImage
  deriving DecidableEq, Repr

/-! ## Groups, launches and queues -/

/-- A KTT entry (R340), with page numbers. -/
structure KttEntry where
  npages : Nat
  dpapg  : Nat
  vapg   : Nat
  x      : Bool
  w      : Bool
  r      : Bool
  deriving DecidableEq, Repr

/-- A stage declaration (R342), with cluster and row counts. -/
structure Stage where
  entry : Dword
  inr   : BitVec 16
  outr  : BitVec 16
  inq   : BitVec 8
  outq  : BitVec 8
  xmin  : Nat
  xmax  : Nat
  amin  : Nat
  amax  : Nat
  tmin  : Nat
  tmax  : Nat
  deriving DecidableEq, Repr

/-- A kernel as its descriptor gives it, checked (R339 to R342). -/
structure Kernel where
  tmpl   : Nat
  ktta   : Nat
  sched  : Dword
  hlbase : Dword
  d      : Nat
  c      : Nat
  t      : Nat
  stages : List Stage
  fusion : Bool
  tvec   : Dword
  trec   : Dword
  prtab  : Dword
  ktt    : List KttEntry
  templates : Map Template
  deriving DecidableEq, Repr

/-- A squashed schedule entry with its dependence count (R353, R354). -/
structure Squashed where
  table : Nat
  entry : Nat
  deps  : Nat
  deriving DecidableEq, Repr

/-- A placed group (R344, R347). -/
structure Group where
  ctx    : Nat
  launch : Nat
  node   : Nat
  kernel : Kernel
  result : Nat
  /-- The visit of its KERNEL node (R337). -/
  visit  : Nat
  dies   : List Nat
  cidx   : List Nat
  /-- σ(c, s) at position c × S + s. -/
  sigma  : List Nat
  /-- Next unused entry of table c × S + s. -/
  cursors : Map Nat
  squashed : List Squashed
  /-- Harts that have not retired TEXIT. -/
  live   : Nat
  deriving DecidableEq, Repr

/-- Who asks for a set of cores (R356): a launch, a die drain, or a hart to be restored. -/
inductive Requester where
  | launch (id : Nat)
  | drain (v : Nat)
  | restore (hart : Nat)
  deriving DecidableEq, Repr

/-- A pre-emption request (R356): the harts that it asks to give up their cores, each of which stays away until it
has lapsed, and their launches. -/
structure Request where
  by_   : Requester
  harts : List Nat
  /-- The launches whose walks start no further node until it has lapsed. -/
  launches : List Nat
  deriving DecidableEq, Repr

/-- A node of a launch that has started and not completed (R344). -/
inductive Started where
  /-- A kernel in CHECKED, by a visit of its node. -/
  | checked (node visit : Nat) (k : Kernel) (args result : Nat)
  | placed (node group : Nat)
  | job (node job : Nat)
  /-- An EVENT WAIT node, with its word and the value that the word must reach, last read at the given time. -/
  | waiting (node word val readAt : Nat)
  deriving DecidableEq, Repr

/-- An admitted launch and its walk (R328, R337, R338). -/
structure Launch where
  queue   : Nat
  ctx     : Nat
  prio    : BitVec 2
  done    : Nat
  doneVal : Dword
  args    : Nat
  serial  : Bool
  /-- The next node to evaluate; none when the walk has ended. -/
  next    : Option Nat
  /-- The iteration count of each LOOP node (R337). -/
  counts  : Map Nat
  /-- Visits of KERNEL nodes so far, which tell two visits of one node apart. -/
  visits  : Nat
  started : List Started
  /-- The predecessor that must complete before the next node is evaluated. -/
  waitFor : Option Started
  fail    : Option (Nat × Nat)
  deriving DecidableEq, Repr

/-- The states of a hardware work queue (R325). -/
inductive QState where
  | disabled
  | active
  | paused
  | draining
  | error
  deriving DecidableEq, Repr

/-- The live copy of a queue descriptor (R325). -/
structure HwQueue where
  rbase : Nat
  head  : BitVec 32
  tail  : BitVec 32
  statw : Nat
  state : QState
  err   : BitVec 8
  prio  : BitVec 2
  logn  : Nat
  ctx   : Nat
  deriving DecidableEq, Repr

/-- A message-signalled interrupt sent to an application hart's IMSIC: hart and identity. -/
structure Msi where
  ahart : Nat
  id    : Nat
  deriving DecidableEq, Repr

/-- How an access from outside the tile cores completes (R368, R402, R407): with the bytes read, with an access
fault or the cause of a fault, with a poisoned completion or with a completer abort; or a base die's reply to its hub
(R384): the header and what follows it; or what a management request returns (R28). -/
inductive Reply where
  | bytes (xs : List Byte)
  | accessFault
  | cause (c : Cause)
  | poisoned
  | abort
  | packet (header : Dword) (data : List Sector)
  /-- A management request is pending (R28), or has taken effect, or was refused. -/
  | busy
  | accepted
  | refused
  /-- The management plane is told that a stack's fallback sequencer has taken refresh over (R390). -/
  | takeover (stack : Nat)
  deriving DecidableEq, Repr

/-- The registers of the package scheduler's block (R311, R321, R323, R370). -/
structure SchedRegs where
  qcmd    : Dword
  qtbase  : Dword
  ctxcmd  : Dword
  ctxdesc : Dword
  hcmd    : Dword
  pitcmd  : Dword
  pitarg0 : Dword
  pitarg1 : Dword
  psring  : Dword
  pstail  : BitVec 32
  pshead  : Dword
  psmsi   : Dword
  deriving DecidableEq, Repr

/-! ## Jobs -/

/-- Where a job stands (R260, R298, R301, R405). -/
inductive JobState where
  | registered
  | running
  | parked (page : Nat)
  | faulted (cause : Cause) (addr : Option Dword)
  /-- The fault has been raised on the JB engine and the job waits for TRAPRET. -/
  | trapped
  /-- A collective's member waiting for the outcome. -/
  | collecting
  deriving DecidableEq, Repr

/-- An asynchronous job (R255 to R260), with the fields of its card (R257). -/
structure Job where
  ctx    : Nat
  /-- The issuing hart, or none for a JOB node (R336). -/
  hart   : Option Nat
  launch : Nat
  node   : Nat
  core   : Nat
  row    : Nat
  group  : Nat
  idx    : BitVec 16
  pc     : Dword
  tix    : BitVec 6
  opc    : Nat
  op     : Nat
  fmt    : BitVec 5
  cw     : BitVec 3
  scope  : Nat
  /-- The contents of its scope entry when it issued (R409). -/
  scopeAt : Option Scope
  src    : Dword
  dst    : Dword
  sstr   : Dword
  dstr   : Dword
  n0     : Nat
  aux0   : Dword
  aux1   : Dword
  aux2   : Dword
  /-- Barrier object: its DPA, none for s0 (R255), and the address that named it. -/
  bar    : Option Nat
  barVa  : Dword
  /-- The sectors it reads and writes, as keys divided by 256 (R259). -/
  rd     : List Nat
  wr     : List Nat
  /-- LDFMT as its command captured it (R40). -/
  ldFmt  : BitVec 5
  ldCw   : BitVec 3
  ldSexp : BitVec 8
  /-- The promotion table in use when it was issued (R56). -/
  prt    : Option (List Byte)
  /-- Sectors to write, the sectors written from the first on, and those written beyond them (R295, R260). -/
  total  : Nat
  done   : Nat
  ahead  : List Nat
  state  : JobState
  /-- The result sectors of a tensor request or a collective, once it has them. -/
  staged : List Sector
  /-- SKIP or CTXABORT has abandoned it (R260, R322). -/
  skip   : Bool
  /-- A collective's key and this member's rank, the DPA of its status record, and the address that named it (R403, R405). -/
  coll   : Option (Nat × Nat)
  stata  : Nat
  stataVa : Dword
  /-- The outcome of its collective: REASON, FRANK and MASK, once it is decided (R405). -/
  outcome : Option (Nat × Nat × Nat)
  deriving DecidableEq, Repr

/-- A KEEP registration (R231, R305): the hart and core that recorded it, the record's index, and the
sectors or tile it covers, as memory keys divided by 256. -/
structure Keep where
  ctx     : Nat
  hart    : Nat
  core    : Nat
  record  : Nat
  sectors : List Nat
  deriving DecidableEq, Repr

/-- A waiter of a future cell (R354, R364). -/
structure Waiter where
  die   : Nat
  ctx   : Nat
  cell  : Nat
  group : Nat
  table : Nat
  entry : Nat
  deriving DecidableEq, Repr

/-- A collective in flight at the reduction point (R403 to R405). -/
structure Collective where
  ctx     : Nat
  kind    : Nat
  op      : Nat
  root    : Nat
  n0      : Nat
  pkgs    : Dword
  cores   : BitVec 128
  timeout : Nat
  members : Nat
  started : Option Nat
  got     : Map (List Sector)
  acc     : List Sector
  sent    : Bool
  acked   : List Nat
  /-- The ranks of this package that have joined. -/
  joined  : List Nat
  /-- The outcome of an aborted collective (REASON and FRANK), kept for members still to join. -/
  ended   : Option (Nat × Nat)
  deriving DecidableEq, Repr

/-! ## Page service -/

/-- A pass of a Mandoline over a page, with whether it is a background pass and the state before it. -/
structure Pass where
  page       : Nat
  background : Bool
  before     : BitVec 3
  deriving DecidableEq, Repr

/-- A page-service record (R371) without its index, which it takes when it is written. -/
structure PsRecord where
  cycle  : Nat
  page   : Nat
  sector : Nat
  ctxid  : Nat
  vcore  : Nat
  slot   : Nat
  job    : Bool
  write  : Bool
  kind   : Nat
  deriving DecidableEq, Repr

/-- How the data of a frame is stored (R367, R373): as raw bytes, or under a key of a generation with
a page's DPA as tweak. A frame that is not listed reads as it stands under the entry that names it. -/
inductive Seal where
  | raw
  | under (key gen page : Nat)
  deriving DecidableEq, Repr

/-! ## Stacks, links, trust die, power -/

/-- A packet queued at a base die port (R383, R384): its port and tag, what its opcode carries, and once it has been
performed the sectors of its reply and its status. -/
structure Packet where
  port : Nat
  tag  : Nat
  op   : Nat
  pca  : Nat
  arg  : BitVec 32
  data : Sector
  req  : TensorReq
  performed : Bool
  reply  : List Sector
  status : Nat
  deriving DecidableEq, Repr

/-- One stack with its base die (R377 to R390): its hash masks, the packets in flight and the requests that wait at the hub
for a tag, oldest first, the error counts of bank b of pseudo-channel p under key 16 p + b, the fallback sequencer's
takeover bit and whether the management plane has restarted the management core since, the refreshes issued, the sector that
scrub reads next and its period. -/
structure Stack where
  hmask    : List Dword
  packets  : List Packet
  waiting  : List Packet
  corr     : Map (BitVec 16)
  uncorr   : Map (BitVec 16)
  takeover : Bool
  restarted : Bool
  refreshes : Nat
  scrubPos : Nat
  scrubHours : Nat
  deriving DecidableEq, Repr

/-- The states of a link (R398). -/
inductive LinkState where
  | down
  | training
  | active
  | hold
  | failed
  deriving DecidableEq, Repr

/-- A link with its telemetry record (R398 to R400) and the times its rules use. -/
structure Link where
  state   : LinkState
  rate    : BitVec 2
  minRate : BitVec 2
  maxRate : BitVec 2
  flits   : Dword
  replays : Dword
  holdns  : Dword
  peer    : BitVec 6
  plink   : BitVec 8
  /-- The packages to which an Axdom link leads, its peer and those behind its switches (R402). -/
  reach   : Dword
  /-- The time of the last change of state. -/
  since   : Nat
  /-- The time of the last speed step. -/
  stepAt  : Option Nat
  /-- The times of the replays of the last microsecond, the newest first (R398). -/
  recent  : List Nat
  /-- Since when its utilisation has stood above 60 % and below 20 % (R399). -/
  highSince : Option Nat
  lowSince  : Option Nat
  deriving DecidableEq, Repr

/-- A management change waiting for its gate (R28). -/
inductive Gate where
  | dieMap (v : Nat) (d : Option Nat)
  | hmask (stack : Nat) (masks : List Dword)
  | rates (link : Nat) (lo hi : BitVec 2)
  | rekey (index : Nat)
  /-- The first load of the 64 keys (R428). -/
  | bootKeys
  | watch (core unit : Nat) (cfg : WatchCfg)
  | window (n : Nat) (cfg : WindowCfg)
  | linkRestart (link : Nat)
  deriving DecidableEq, Repr

/-- The SPDM requests of R427. -/
inductive SpdmReq where
  | getVersion
  | getCapabilities
  | negotiateAlgorithms
  | getDigests
  | getCertificate
  | challenge
  | getMeasurements
  | keyExchange
  deriving DecidableEq, Repr

/-- The algorithms of the responder (R427). -/
inductive SpdmAlg where
  | ecdsaP384
  | sha384
  deriving DecidableEq, Repr

/-- How a request reaches the responder, and its answer the requester (R427): the management bus, or PCIe DOE on root
port 0. -/
inductive SpdmVia where
  | managementBus
  | doe
  deriving DecidableEq, Repr

/-- An answer of the SPDM responder: the request and how it came, the SPDM version, the algorithms, the measured values
under their indices, the digest of the certificate chain, the failure that TD reports (R425), and bytes that the manual
leaves to the responder. -/
structure SpdmAnswer where
  req     : SpdmReq
  via     : SpdmVia
  version : Nat
  algorithms : List SpdmAlg
  digests : List (Nat × BitVec 384)
  certificate : Option (BitVec 384)
  failure : Bool
  opaqueBytes : BitVec 384
  deriving DecidableEq, Repr

/-- The trust die (R425 to R428). -/
structure Trust where
  record   : Option BootRecord
  verified : Bool
  /-- Dies released so far, in the order SY, MH0, MH1, SB0 to SB11, CD0 to CD7. -/
  released : Nat
  /-- The released die has reported its ready state. -/
  ready    : Bool
  releasedAt : Nat
  failure  : Bool
  /-- The board's fault pin (R425). -/
  faultPin : Bool
  measured : Map (BitVec 384)
  keysLoaded : Bool
  keyGen   : Map Nat
  answers  : List SpdmAnswer
  appStart : Option Dword
  deriving DecidableEq, Repr

/-- What a cache does by itself (R281, R288, R290, R291): a copy of the sector of a DPA comes into a core's L1, into the
L2 of a virtual die (of a line of another package) or into the LLC (of a line of a CXL window), or leaves it; or a dirty
line is written back. -/
inductive CacheAct where
  | fillL1 (core dpa : Nat)
  | dropL1 (core dpa : Nat)
  | fillL2 (die dpa : Nat)
  | dropL2 (die dpa : Nat)
  | fillLlc (dpa : Nat)
  | dropLlc (dpa : Nat)
  | writeBack (dpa : Nat)
  deriving DecidableEq, Repr

/-- A page as a device context or a process context of the IOMMU maps it (R407). -/
structure IoPage where
  page  : Nat
  read  : Bool
  write : Bool
  deriving DecidableEq, Repr

/-- One application hart (R16, R429): its integer registers, PC, privilege (3 is machine mode), and whether it waits for an
IMSIC interrupt. What its RVA23 instructions do is RISC-V's. -/
structure AppHart where
  x       : Vector Dword 32
  pc      : Dword
  priv    : BitVec 2
  waiting : Bool
  deriving DecidableEq, Repr

/-- What the operating system does on the application harts beside its memory accesses: it sets the current ASID of an
application hart (R280) or a mapping of the IOMMU, none to remove it (R407); and an application hart executes an
instruction of RVA23 that makes no access: it writes a register, goes on at a PC in a privilege, or waits (R16, R429); or it
sends an interrupt to the IMSIC of another. -/
inductive OsAct where
  | asid (ahart ctx : Nat)
  | map (key : Nat) (io : Option IoPage)
  | execute (ahart : Nat) (d : BitVec 5) (v pc : Dword) (priv : BitVec 2) (wait : Bool)
  | ipi (ahart target id : Nat)
  deriving DecidableEq, Repr

/-- What happens around the package beside its events: symbol `i` of a stored sector is upset by a pattern (R31); the
utilisation of a link changes, in per cent (R399); the management plane restarts a stack's management core (R390), or reads
a core's trace ring (R19, R266). -/
inductive WorldAct where
  | upset (sector i : Nat) (x : BitVec 16)
  | traffic (link percent : Nat)
  | restart (stack : Nat)
  | readTrace (core : Nat)
  deriving DecidableEq, Repr

/-- What a step of the plan does: one scalar instruction of a hart; one turn of a hart's engine, with the row and the unit that
a streaming load reads ahead where its accesses are not made in turn; one
event of the package or its surroundings, an act of a cache, of the operating system or of what stands around the package,
or one period of the core clock. -/
inductive Act where
  | scalar (hart : Nat) (defer : Bool)
  | engine (hart : Nat) (eng : Eng) (defer : Bool) (row unit : Nat)
  | event (i : Instr) (f : Focus)
  | cache (a : CacheAct)
  | os (a : OsAct)
  | world (a : WorldAct)
  | clock
  deriving DecidableEq, Repr

/-! ## The package -/

/-- The state of the package. -/
structure State where
  /-- The model's own: the acts to come, the choices drawn, the free values drawn, the unit at work
  and whether a scalar access may be deferred (log 2, 3). -/
  plan   : List Act
  tick   : Nat
  draws  : Nat
  focus  : Focus
  defer  : Bool
  /-- Core-clock periods since package reset. -/
  now    : Nat
  harts  : Map Hart
  cores  : Map Core
  pairs  : Map PairState
  ctxs   : Map Ctx
  lastCtx : Nat
  groups : Map Group
  nextGroup : Nat
  launches : Map Launch
  requests : List Request
  nextLaunch : Nat
  regs   : SchedRegs
  wqueues : Map HwQueue
  lastQueue : Nat
  msis   : List Msi
  jobs   : Map Job
  nextJob : Nat
  keeps  : List Keep
  waiters : List Waiter
  /-- The place, in the order of one period, of the last action on each barrier object in this period (R361). -/
  barrierTurn : Map Nat
  colls  : Map Collective
  /-- Page indirection table: the entry of page P under key P (R366). -/
  pit    : Map (BitVec 128)
  passQ  : Vector (List Pass) 2
  passCur : Vector (Option Pass) 2
  psWait : List PsRecord
  /-- The index of the next page-service record (R371). -/
  psSeq  : Dword
  seals  : Map Seal
  mem    : Memory
  /-- Tag (low 24 bits) and block metadata of the sector at key / 256. -/
  sides  : Map (BitVec 152)
  /-- The errors of stored sectors, under key / 256 (R31): the symbols in which a sector differs from the codeword that was
  written, each with its pattern. -/
  errors : Map (List (Nat × BitVec 16))
  /-- Clean copies of sectors of other packages in the L2s, under die × 2^64 + key / 256 (R290), and of CXL windows in the
  LLC, under key / 256 (R291). -/
  l2     : Map Sector
  llc    : Map Sector
  /-- Lines of device memory that stand dirty in the L2 of a virtual die, under DPA / 1,024 (R288). -/
  dirty  : Map Nat
  /-- The application harts, the current ASID of each (R280), its LR reservation by storage key, and the IOMMU's mapping of
  the pages of devices and processes (R407). -/
  ahosts : Map AppHart
  asids  : Map Nat
  hostRes : Map Nat
  iommu  : Map IoPage
  hbm    : Map Stack
  links  : Map Link
  windows : Map WindowCfg
  watches : Map WatchCfg
  gates  : List Gate
  trust  : Trust
  dieMap : List (Option Nat)
  pkg    : Nat
  powerLimit : Nat
  /-- The issue permits of the arrays and of the vector lanes, in sixteenths, and the time of SY's last comparison (R430). -/
  permit : Nat
  permitLanes : Nat
  permitAt : Option Nat
  /-- Outputs to devices and application harts: answers to their reads. -/
  replies : List (Nat × Reply)
  iommuFaults : List Nat
  deriving DecidableEq, Repr

/-- Why a run of the model stops. -/
inductive Fault where
  /-- Raised by a meaning of a hart instruction when the hart at work does not exist. No step raises
  it: the plan's scalar and engine acts name harts that exist. Safe: no hardware has such a step. -/
  | noHart
  /-- Raised by a meaning of an engine operation when the head of the queue at work is not a command
  holding that operation. No step raises it. Safe: no hardware has such a step. -/
  | noCommand
  deriving DecidableEq, Repr

/-- Why the model gives a step no meaning. -/
inductive Refusal where
  /-- Raised by `exec` for an instruction with no meaning yet, by its mnemonic. Safe: nothing can be
  proved of a next state. -/
  | notModelled (mnemonic : String)
  deriving DecidableEq, Repr

/-- A sector of class ZERO as hardware zeroing leaves it (R38). -/
def zeroSector : Sector := { tag := 0, bmeta := 0, data := 0 }

/-- The focus before any step. -/
def Focus.reset : Focus :=
  { hart := 0, eng := .ld, unit := 0, sub := 0, val := 0, data := [],
    req := { handle := 0, row0 := 0, col0 := 0, rows := 0, cols := 0, layout := 0 } }

/-- The registers of the scheduler block after reset (R323, R370). -/
def SchedRegs.reset : SchedRegs :=
  { qcmd := 0, qtbase := 0, ctxcmd := 0, ctxdesc := 0, hcmd := 0, pitcmd := 0, pitarg0 := 0,
    pitarg1 := 0, psring := 0, pstail := 0, pshead := 0, psmsi := 0 }

/-- The trust die before its boot ROM runs (R425). -/
def Trust.reset : Trust :=
  { record := none, verified := false, released := 0, ready := false, releasedAt := 0,
    failure := false, faultPin := false, measured := [], keysLoaded := false, keyGen := [], answers := [],
    appStart := none }

/-- The package right after reset: no context, queue, group or hart (R312, R325, R429), a zero PIT
(R366), memory with nothing listed, links down (R398), the die map the identity (log 12). -/
def State.reset : State :=
  { plan := [], tick := 0, draws := 0, focus := Focus.reset, defer := false, now := 0,
    harts := [], cores := [], pairs := [], ctxs := [], lastCtx := 0xFFF, groups := [],
    nextGroup := 0, launches := [], requests := [], nextLaunch := 0, regs := SchedRegs.reset, wqueues := [],
    lastQueue := 65535, msis := [], jobs := [], nextJob := 0, keeps := [], waiters := [],
    barrierTurn := [], colls := [], pit := [], passQ := ⟨#[[], []], rfl⟩, passCur := ⟨#[none, none], rfl⟩,
    psWait := [], psSeq := 0, seals := [], mem := [], sides := [], errors := [], l2 := [], llc := [], dirty := [],
    ahosts := [], asids := [], hostRes := [], iommu := [], hbm := [],
    links := [], windows := [], watches := [], gates := [], trust := Trust.reset,
    dieMap := [some 0, some 1, some 2, some 3, some 4, some 5, some 6, some 7], pkg := 0,
    powerLimit := 3600, permit := 16, permitLanes := 16, permitAt := none, replies := [], iommuFaults := [] }

end Sys2Proof.Machine
end

