-- ==== Sys2Proof/Machine/Maps.lean ====
section
/-! DEFINITION. The operations on tables by key and on byte memory, which keep the one canonical
form: keys strictly rising, and in memory no byte equal to what an unlisted key reads as. -/

namespace Sys2Proof.Machine

/-- The datum at a key, if the table lists it. -/
def look {α : Type} : Map α → Nat → Option α
  | [], _ => none
  | (j, x) :: m, k => if j = k then some x else look m k

/-- The datum at a key, or the table's default. -/
def lookD {α : Type} (m : Map α) (k : Nat) (d : α) : α := (look m k).getD d

/-- The table with a datum at a key. -/
def put {α : Type} : Map α → Nat → α → Map α
  | [], k, x => [(k, x)]
  | (j, y) :: m, k, x =>
    if k < j then (k, x) :: (j, y) :: m
    else if k = j then (k, x) :: m
    else (j, y) :: put m k x

/-- The table without a key. -/
def del {α : Type} : Map α → Nat → Map α
  | [], _ => []
  | (j, y) :: m, k => if j = k then m else (j, y) :: del m k

/-- The table with a datum at a key, the key being unlisted where the datum is the default. -/
def putD {α : Type} [DecidableEq α] (m : Map α) (k : Nat) (d x : α) : Map α :=
  if x = d then del m k else put m k x

/-- The table changed at a key that it lists. -/
def upd {α : Type} (m : Map α) (k : Nat) (f : α → α) : Map α :=
  match look m k with
  | some x => put m k (f x)
  | none => m

/-- Keys strictly rising. -/
def rising {α : Type} : Map α → Bool
  | [] => true
  | [_] => true
  | (j, _) :: (k, y) :: m => decide (j < k) && rising ((k, y) :: m)

/-- What a byte that nothing has written reads as. DESIGN CHOICE (log 4): the manual gives memory no
contents at power-on. -/
def unlistedByte : Byte := 0

/-- The canonical form of memory. -/
def Memory.wf (m : Memory) : Bool :=
  rising m && m.all (fun c => decide (c.2 ≠ unlistedByte))

/-- One byte of memory at a key. -/
def getByte (m : Memory) (a : Nat) : Byte := lookD m a unlistedByte

/-- Memory with one byte written at a key. -/
def setByte (m : Memory) (a : Nat) (b : Byte) : Memory := putD m a unlistedByte b

/-- `n` bytes from a key, the first at the lowest address. -/
def getBytes (m : Memory) (a : Nat) : Nat → List Byte
  | 0 => []
  | n + 1 => getByte m a :: getBytes m (a + 1) n

/-- Bytes as memory cells from a key upward, those equal to an unlisted byte left out. -/
def cellsFrom (a : Nat) : List Byte → Memory
  | [] => []
  | b :: bs => if b = unlistedByte then cellsFrom (a + 1) bs else (a, b) :: cellsFrom (a + 1) bs

/-- Memory with bytes written from a key upward. -/
def setBytes (m : Memory) (a : Nat) (bs : List Byte) : Memory :=
  m.filter (fun c => decide (c.1 < a)) ++ (cellsFrom a bs ++ m.filter (fun c => decide (a + bs.length ≤ c.1)))

/-- The little-endian number that bytes hold (R3). -/
def natOfBytes : List Byte → Nat
  | [] => 0
  | b :: bs => b.toNat + 256 * natOfBytes bs

/-- The `n` little-endian bytes of a number (R3). -/
def bytesOfNat (x : Nat) : Nat → List Byte
  | 0 => []
  | n + 1 => BitVec.ofNat 8 x :: bytesOfNat (x / 256) n

/-- `n` bytes from a key as one little-endian number (R3). -/
def getNat (m : Memory) (a n : Nat) : Nat := natOfBytes (getBytes m a n)

/-- A number written as `n` little-endian bytes from a key (R3). -/
def setNat (m : Memory) (a n x : Nat) : Memory := setBytes m a (bytesOfNat x n)

/-- Bits [hi:lo] of a number. -/
def bits (x hi lo : Nat) : Nat := x / 2 ^ lo % 2 ^ (hi + 1 - lo)

/-- Bit i of a number. -/
def bitOf (x i : Nat) : Bool := x.testBit i

/-- The list with position `i` replaced, unchanged where there is none. -/
def setAt {α : Type} (l : List α) (i : Nat) (x : α) : List α := l.set i x

/-- A two's complement reading of an n-bit number. -/
def signedOf (n x : Nat) : Int := if x < 2 ^ (n - 1) then (x : Int) else (x : Int) - (2 : Int) ^ n

/-- An integer modulo 2^n. -/
def wrapNat (n : Nat) (x : Int) : Nat := (x % ((2 : Int) ^ n)).toNat

/-- The largest element of a list of numbers, 0 for none. -/
def maxNat (l : List Nat) : Nat := l.foldl Nat.max 0

/-- A list without repeats, the first occurrence of each element kept. -/
def dedupNat (l : List Nat) : List Nat :=
  l.foldl (fun acc x => if acc.contains x then acc else acc ++ [x]) []

end Sys2Proof.Machine
end

