-- ==== Sys2Proof/Machine/Templates.lean ====
section
/-! DEFINITION. The template fields each engine opcode uses and their limits (spec/06_opcodes.md R116 to
R121), and the check of R85 made from them. -/

namespace Sys2Proof.Machine

/-- The register files a template field can name (R101, R116). `qs` is the DEST field of R117: a strip
queue with MOD[0] = 0, a scalar register with MOD[0] = 1. -/
inductive File where
  | v | s | k | q | g | acc | qs
  deriving DecidableEq, Repr

/-- How an opcode uses the FMT and CW fields. -/
inductive FmtUse where
  /-- Neither field is used. -/
  | none
  /-- Both are used and AUTO is allowed in each. -/
  | auto
  /-- Both are used and neither may be AUTO. -/
  | named
  /-- Only CW is used; AUTO is allowed and code 4 is not (VQNT, R177). -/
  | cwAuto
  /-- Only CW is used, with codes 1 to 3 (ALDT, R117). -/
  | cwAldt
  /-- Both named or both AUTO, the format fitting the container (JFILL, R121). -/
  | jfill
  /-- FMT INT32 or FP32 and CW 3 (TCVT, R120). -/
  | tcvt
  deriving DecidableEq, Repr

/-- The fields one opcode uses beside WAIT, SETEN and SETSL, which every opcode uses (R116). -/
structure TForm where
  d     : Option File := none
  a     : Option File := none
  b     : Option File := none
  cmask : Bool := false
  cscal : Bool := false
  /-- The MOD bits the opcode defines. -/
  mods  : BitVec 8 := 0
  /-- MOD[2:0] is a rounding mode 0 to 6. -/
  rm    : Bool := false
  fmt   : FmtUse := .none
  /-- The limits of LEN, where it is used. -/
  len   : Option (Nat × Nat) := none
  imm   : Bool := false
  land  : Bool := false

/-- A defined format code of R44. -/
def fmtDefined (f : BitVec 5) : Bool := 1 ≤ f.toNat && f.toNat ≤ 14

/-- An integer format code of R44. -/
def fmtInt (f : BitVec 5) : Bool := 1 ≤ f.toNat && f.toNat ≤ 7

/-- A float format code of R44, E2M1B among them. -/
def fmtFloat (f : BitVec 5) : Bool := 8 ≤ f.toNat && f.toNat ≤ 14

/-- The width of a format in bits (R44); 0 for a code that names none. -/
def fmtWidth (f : BitVec 5) : Nat :=
  match f.toNat with
  | 1 => 8 | 2 => 8 | 3 => 16 | 4 => 16 | 5 => 32 | 6 => 32 | 7 => 64
  | 8 => 4 | 9 => 8 | 10 => 8 | 11 => 8 | 12 => 16 | 13 => 16 | 14 => 32
  | _ => 0

/-- The container width in bits of a code 0 to 4 (R35); 0 for a reserved code. -/
def cwBits (c : BitVec 3) : Nat :=
  match c.toNat with
  | 0 => 4 | 1 => 8 | 2 => 16 | 3 => 32 | 4 => 64
  | _ => 0

/-- The format fits the container: not wider, and E2M1B only in codes 0 to 3 (R36, R42). -/
def fmtFits (f : BitVec 5) (c : BitVec 3) : Bool :=
  fmtWidth f ≤ cwBits c && !(f.toNat == 8 && c.toNat == 4)

/-- The form of an LD opcode (R117). -/
def formLd (t : Template) : Option TForm :=
  match t.opc.toNat with
  | 0x01 => some { d := some .qs, a := some .s, b := some .s, mods := 1, imm := true }
  | 0x02 => some { d := some .qs, a := some .s, b := some .s, cscal := true, mods := 1 }
  | 0x03 => some { d := some .qs, a := some .s, b := some .s, cscal := true, mods := 1, len := some (1, 65536) }
  | 0x04 => some { d := some .qs, a := some .s, b := some .v, cmask := true, mods := 1 }
  | 0x05 => some { d := some .qs, a := some .s, b := some .s, mods := 1, fmt := .cwAldt, len := some (1, 256), imm := true }
  | 0x06 => some { d := some .g, a := some .s, b := some .s, mods := 7, rm := true, fmt := .auto }
  | 0x07 => some { d := some .q, a := some .s, b := some .s }
  | 0x08 => some { d := some .q, fmt := .named, imm := true }
  | 0x09 => some { a := some .s, b := some .s, imm := true }
  | _ => none

/-- The form of an ST opcode (R118). -/
def formSt (t : Template) : Option TForm :=
  match t.opc.toNat with
  | 0x01 => some { d := some .s, a := some .q, len := some (1, 65536) }
  | 0x02 => some { d := some .s, a := some .q, b := some .s, len := some (1, 65536) }
  | 0x03 => some { d := some .s, a := some .q, b := some .s, cscal := true, len := some (1, 65536) }
  | 0x04 => some { d := some .s, a := some .q, b := some .v, cmask := true }
  | 0x05 => some { d := some .s, a := some .acc, b := some .s, mods := 15, rm := true, fmt := .auto, len := some (1, 256), imm := true }
  | 0x06 => some { d := some .s, a := some .q, len := some (1, 65536) }
  | 0x07 => some { d := some .s, a := some .s, len := some (1, 65536) }
  | 0x08 => some { d := some .s, mods := 1, len := some (1, 65536) }
  | _ => none

/-- The form of an XV opcode (R119). VSHL, VSHR and VSHRR use IMM only with MOD[7] = 1: with MOD[7] = 0 it must be zero, and
FSEL 4 names an absent field, where the table does not say so (DESIGN CHOICE, log 48). -/
def formXv (t : Template) : Option TForm :=
  let v := some File.v
  match t.opc.toNat with
  | 0x01 | 0x02 | 0x03 | 0x04 | 0x05 | 0x06 | 0x07 | 0x0A =>
    some { d := v, a := v, b := v, cmask := true, mods := 15, rm := true, fmt := .auto }
  | 0x08 | 0x09 | 0x0B | 0x0C | 0x0D | 0x0E | 0x0F | 0x10 =>
    some { d := v, a := v, cmask := true, mods := 15, rm := true, fmt := .auto }
  | 0x11 | 0x12 | 0x13 | 0x1A | 0x1B | 0x1C =>
    some { d := v, a := v, b := v, cmask := true, fmt := .auto }
  | 0x14 => some { d := v, a := v, cmask := true }
  | 0x15 | 0x16 | 0x17 =>
    if t.mod.getLsbD 7 then some { d := v, a := v, cmask := true, mods := 128, imm := true }
    else some { d := v, a := v, b := v, cmask := true, mods := 128 }
  | 0x18 | 0x19 => some { d := v, a := v, b := v, cmask := true, mods := 8 }
  | 0x20 => some { d := some .k, a := v, b := v, cmask := true, mods := 7, rm := true }
  | 0x21 => some { d := v, a := v, b := v, cmask := true }
  | 0x22 => some { d := v, a := v, cmask := true }
  | 0x28 => some { d := v, a := v, b := v, mods := 3, imm := true }
  | 0x29 => some { d := v, a := v, b := v, cmask := true }
  | 0x2A | 0x2B => some { d := v, a := v, b := v }
  | 0x2C => some { d := v, cscal := true, fmt := .named }
  | 0x2D => some { d := some .s, a := v, imm := true }
  | 0x30 | 0x31 | 0x32 | 0x33 => some { d := v, a := v, cmask := true, mods := 7, rm := true, fmt := .auto }
  | 0x38 => some { d := v, a := v, cmask := true, mods := 31, rm := true, fmt := .named, imm := true }
  | 0x39 => some { d := v, a := v, mods := 16, fmt := .cwAuto, imm := true }
  | 0x3A => some { d := some .s, a := v, imm := true }
  | 0x3B => some { d := v, a := some .s, imm := true }
  | 0x3C => some { d := v, a := v, imm := true }
  | 0x40 => some { d := v, a := some .q }
  | 0x41 => some { d := some .q, a := v }
  | 0x44 => some { d := v, a := some .s, imm := true, land := true }
  | 0x45 => some { a := v, b := some .s, imm := true }
  | 0x48 | 0x49 => some { d := some .k, a := some .k, b := some .k }
  | 0x4A => some { d := some .k, a := some .k }
  | 0x4B | 0x4C => some { d := some .s, a := some .k }
  | 0x50 => some { d := v, a := some .acc, imm := true }
  | 0x51 => some { d := some .acc, a := v, imm := true }
  | 0x58 => some { d := v, a := v, cmask := true }
  | 0x59 => some { d := v, cmask := true, fmt := .named }
  | 0x5A => some { d := v, cmask := true, fmt := .named, imm := true }
  | _ => none

/-- The form of an MX opcode (R120). -/
def formMx (t : Template) : Option TForm :=
  let a := some File.acc
  let g := some File.g
  match t.opc.toNat with
  | 0x01 => some { imm := true }
  | 0x02 => some {}
  | 0x03 => some { d := g, a := some .s }
  | 0x04 | 0x05 => some { d := g }
  | 0x06 => some { d := some .s, a := g }
  | 0x10 | 0x11 => some { d := a, a := g, b := g }
  | 0x12 => some { d := a }
  | 0x13 | 0x14 | 0x15 => some { d := a, a := a, b := a }
  | 0x16 => some { d := a, a := a, cscal := true }
  | 0x17 => some { d := a, a := a, b := some .v }
  | 0x18 => some { d := a, a := a, mods := 7 }
  | 0x19 | 0x1A | 0x1B | 0x1C | 0x1F => some { d := a, a := a }
  | 0x1D => some { d := a, a := a, fmt := .tcvt }
  | 0x1E => some { d := a, a := some .s, b := some .s, fmt := .auto }
  | _ => none

/-- The form of a JB opcode (R121). -/
def formJb (t : Template) : Option TForm :=
  let s := some File.s
  match t.opc.toNat with
  | 0x01 => some { d := s, a := s, b := s, cscal := true }
  | 0x05 => some { d := s, a := s, b := s, cscal := true, fmt := .jfill }
  | 0x0A => some { a := s, b := s, cscal := true, imm := true }
  | 0x02 | 0x03 | 0x04 | 0x06 | 0x07 | 0x08 | 0x09 => some { a := s, cscal := true }
  | _ => none

/-- The form of the template's opcode in its class; none where the class does not define it. -/
def templateForm (e : Eng) (t : Template) : Option TForm :=
  match e with
  | .ld => formLd t
  | .xv => formXv t
  | .mx => formMx t
  | .st => formSt t
  | .jb => formJb t

/-- A register number lies within its file (R101). -/
def File.holds (f : File) (mod0 : Bool) (n : BitVec 8) : Bool :=
  match f with
  | .v | .s | .acc => n.toNat < 32
  | .k | .q => n.toNat < 8
  | .g => n.toNat < 16
  | .qs => if mod0 then n.toNat < 32 else n.toNat < 8

/-- A register field is within its file where it is used and zero where it is not. -/
def regFieldOk (f : Option File) (mod0 : Bool) (n : BitVec 8) : Bool :=
  match f with
  | some f => f.holds mod0 n
  | none => n == 0

/-- The FMT and CW fields obey the opcode's use of them (R85, R116). -/
def fmtFieldOk (u : FmtUse) (f : BitVec 5) (c : BitVec 3) : Bool :=
  match u with
  | .none => f == 0 && c == 0
  | .auto => (fmtDefined f || f == 0x1F) && (c.toNat ≤ 4 || c == 7)
  | .named => fmtDefined f && c.toNat ≤ 4
  | .cwAuto => f == 0 && (c.toNat ≤ 3 || c == 7)
  | .cwAldt => f == 0 && 1 ≤ c.toNat && c.toNat ≤ 3
  | .jfill => (f == 0x1F && c == 7) || (fmtDefined f && c.toNat ≤ 4 && fmtWidth f ≤ cwBits c)
  | .tcvt => (f == 0x05 || f == 0x0E) && c == 3

/-- The low `n` bits of an immediate, the rest being zero. -/
def immBelow (i : BitVec 32) (n : Nat) : Bool := i.toNat < 2 ^ n

/-- The optional sector exponent of VCVT and VQNT: named by MOD[4], in IMM[7:0] (R119). -/
def sexpImmOk (t : Template) : Bool :=
  immBelow t.imm 8 && t.imm.toNat != 0x80 && (t.mod.getLsbD 4 || t.imm == 0)

/-- The limits of the remaining fields that one opcode states (R117 to R121, R173, R192). -/
def templateExtra (e : Eng) (t : Template) : Bool :=
  let i := t.imm.toNat
  match e, t.opc.toNat with
  | .ld, 0x01 => i % 256 == 0
  | .ld, 0x05 => 1 ≤ i && i ≤ 256
  | .ld, 0x08 =>
    (fmtDefined (t.imm.extractLsb' 8 5) || t.imm.extractLsb' 8 5 == 0x1F)
      && t.imm.extractLsb' 13 3 != 7 && immBelow t.imm 20
  | .ld, 0x09 => i < 3
  | .st, 0x05 => i < 256 && i + t.len.toNat ≤ 256
  | .xv, 0x15 | .xv, 0x16 | .xv, 0x17 => immBelow t.imm 6
  | .xv, 0x28 => t.mod.extractLsb' 0 2 != 3 && -512 ≤ t.imm.toInt && t.imm.toInt ≤ 512
  | .xv, 0x2D => i < 4096
  | .xv, 0x38 => sexpImmOk t
  | .xv, 0x39 => sexpImmOk t
  | .xv, 0x3A | .xv, 0x3B => i < 8
  | .xv, 0x3C => immBelow t.imm 8
  | .xv, 0x50 | .xv, 0x51 => i < 256
  | .xv, 0x59 => fmtInt t.fmt
  | .xv, 0x5A => immBelow t.imm (fmtWidth t.fmt)
  | .mx, 0x01 => 1 ≤ i && i ≤ 64
  | .mx, 0x18 => t.mod.toNat ≤ 5
  | .jb, 0x0A => i < 3
  | _, _ => true

/-- LAND is zero, or a landing time of an opcode that lands in a register (R85). -/
def landOk (f : TForm) (l : BitVec 8) : Bool :=
  l == 0 || (f.land && 4 ≤ l.toNat)

/-- The template check of R85 for a template with a nonzero OPC. -/
def templateOk (e : Eng) (t : Template) : Bool :=
  match templateForm e t with
  | none => false
  | some f =>
    let m0 := t.mod.getLsbD 0
    regFieldOk f.d m0 t.d && regFieldOk f.a m0 t.a && regFieldOk f.b m0 t.b
      && (f.cmask || t.cmask == 0) && (f.cscal || t.cscal == 0)
      && (t.mod &&& ~~~ f.mods) == 0 && !(f.rm && t.mod.extractLsb' 0 3 == 7)
      && fmtFieldOk f.fmt t.fmt t.cw
      && (match f.len with
          | some (lo, hi) => lo ≤ t.len.toNat && t.len.toNat ≤ hi
          | none => t.len == 0)
      && (f.imm || t.imm == 0) && landOk f t.land && templateExtra e t

/-- The template whose 128 bits are all zero: an EMPTY slot (R83). -/
def emptyTemplate : Template :=
  { opc := 0, mod := 0, cw := 0, fmt := 0, d := 0, a := 0, b := 0, cmask := 0, cscal := 0,
    wait := 0, seten := 0, setsl := 0, land := 0, len := 0, imm := 0 }

/-- A slot may hold the template: EMPTY with every other bit zero, or valid (R85). -/
def slotOk (e : Eng) (t : Template) : Bool :=
  if t.opc == 0 then t == emptyTemplate else templateOk e t

/-- FSEL 1 to 7 names a field that the opcode uses (R87); the Sync group is used by every opcode. FSEL 7 carries CW and FMT
together: of an opcode that uses CW alone it names a used field, so that a nonzero FMT raises PATCH_VALUE_RANGE and not
PATCH_FIELD_ABSENT (DESIGN CHOICE, log 48). -/
def patchUses (e : Eng) (t : Template) (fsel : Nat) : Bool :=
  match templateForm e t with
  | none => false
  | some f =>
    match fsel with
    | 1 => f.d.isSome
    | 2 => f.a.isSome
    | 3 => f.b.isSome
    | 4 => f.imm
    | 5 => f.len.isSome
    | 7 => f.fmt != .none
    | _ => true

end Sys2Proof.Machine
end

