-- ==== Sys2Proof/Machine/Flags.lean ====
section
/-! DEFINITION. Numbers and flags: exact values, the element formats (spec/03_formats.md R44 to R53),
rounding with its sticky flags (spec/04_arithmetic.md R60 to R63), the E2M1B quantiser (R64 to R68), the
stochastic generator (R61) and the transcendental functions (R71). -/

namespace Sys2Proof.Machine

/-! ## Flags -/

/-- The XSTAT flags (R105): [8] TAGJ, [7] SPX, [6] CLAMP, [5] SAT, [4] NV, [3] DZ, [2] OF, [1] UF,
[0] NX. -/
abbrev Flags := BitVec 9

def flagNx : Flags := 0x001
def flagUf : Flags := 0x002
def flagOf : Flags := 0x004
def flagDz : Flags := 0x008
def flagNv : Flags := 0x010
def flagSat : Flags := 0x020
def flagClamp : Flags := 0x040
def flagSpx : Flags := 0x080
def flagTagj : Flags := 0x100

/-- The flag where the condition holds. -/
def flagIf (c : Bool) (f : Flags) : Flags := if c then f else 0

/-! ## Exact values -/

/-- An exact value: not a number, an infinity, a signed fraction with a positive denominator (zero
keeps its sign), or the positive square root of a fraction. -/
inductive Exact where
  | nan
  | inf (neg : Bool)
  | fin (neg : Bool) (num den : Nat)
  | root (num den : Nat)
  deriving DecidableEq, Repr

def Exact.isNan : Exact → Bool
  | .nan => true
  | _ => false

def Exact.isInf : Exact → Bool
  | .inf _ => true
  | _ => false

def Exact.isZero : Exact → Bool
  | .fin _ n _ => n == 0
  | _ => false

/-- The sign of the value; a NaN has none. -/
def Exact.sign : Exact → Bool
  | .nan => false
  | .inf s => s
  | .fin s _ _ => s
  | .root _ _ => false

/-- +0 or −0. -/
def zeroOf (neg : Bool) : Exact := .fin neg 0 1

/-- The value times 2^k. -/
def Exact.scale (x : Exact) (k : Int) : Exact :=
  match x with
  | .fin s n d => if 0 ≤ k then .fin s (n * 2 ^ k.toNat) d else .fin s n (d * 2 ^ (-k).toNat)
  | .root n d =>
    if 0 ≤ k then .root (n * 4 ^ k.toNat) d else .root n (d * 4 ^ (-k).toNat)
  | x => x

def Exact.negate : Exact → Exact
  | .nan => .nan
  | .inf s => .inf (!s)
  | .fin s n d => .fin (!s) n d
  | .root n d => .root n d

def Exact.abs : Exact → Exact
  | .nan => .nan
  | .inf _ => .inf false
  | .fin _ n d => .fin false n d
  | .root n d => .root n d

/-- An integer as an exact value; zero is +0. -/
def exactOfInt (i : Int) : Exact := .fin (decide (i < 0)) i.natAbs 1

/-- The value of a fraction as a signed pair over a denominator; only for finite values. -/
def Exact.signedNum : Exact → Int
  | .fin s n _ => if s then -(n : Int) else (n : Int)
  | _ => 0

def Exact.denom : Exact → Nat
  | .fin _ _ d => d
  | _ => 1

/-- The square of a finite magnitude; 0 for a NaN or an infinity. Magnitudes are ordered as their squares are, a root
among them. -/
def Exact.square : Exact → Nat × Nat
  | .fin _ n d => (n * n, d * d)
  | .root n d => (n, d)
  | _ => (0, 1)

/-- The order of two fractions. -/
def fracCmp (a b : Nat × Nat) : Ordering := compare (a.1 * b.2) (b.1 * a.2)

/-- A finite value below zero. -/
def Exact.below0 : Exact → Bool
  | .fin s n _ => s && n != 0
  | _ => false

/-- Comparison of two values that are not NaN, −0 equal to +0 (R47): by sign, then by the squares of the magnitudes. -/
def Exact.cmp (x y : Exact) : Ordering :=
  match x, y with
  | .inf a, .inf b => if a == b then .eq else if a then .lt else .gt
  | .inf a, _ => if a then .lt else .gt
  | _, .inf b => if b then .gt else .lt
  | x, y =>
    match x.below0, y.below0 with
    | true, false => .lt
    | false, true => .gt
    | true, true => fracCmp y.square x.square
    | false, false => fracCmp x.square y.square

/-- Order with −0 below +0, as the minimum and maximum operations use it (R127, R160). -/
def Exact.lessTotal (x y : Exact) : Bool :=
  match x.cmp y with
  | .lt => true
  | .gt => false
  | .eq => x.sign && !y.sign

/-- A sum of two fractions over a shared denominator, not NaN or infinite. The sign of a zero sum is
that of R62: the common sign of two zeros, else −0 in RDN and +0 in every other mode. -/
def addFin (rdn : Bool) (x y : Exact) : Exact :=
  let dx := x.denom
  let dy := y.denom
  let (n, d) : Int × Nat :=
    if dx = dy then (x.signedNum + y.signedNum, dx)
    else if dx % dy = 0 then (x.signedNum + y.signedNum * ((dx / dy : Nat) : Int), dx)
    else if dy % dx = 0 then (x.signedNum * ((dy / dx : Nat) : Int) + y.signedNum, dy)
    else (x.signedNum * (dy : Int) + y.signedNum * (dx : Int), dx * dy)
  if n = 0 then
    if x.isZero && y.isZero && x.sign == y.sign then zeroOf x.sign else zeroOf rdn
  else .fin (decide (n < 0)) n.natAbs d

/-- Addition (R62): ∞ − ∞ is NaN with NV; a NaN operand gives NaN. -/
def addE (rdn : Bool) (x y : Exact) : Exact × Flags :=
  match x, y with
  | .nan, _ => (.nan, 0)
  | _, .nan => (.nan, 0)
  | .inf a, .inf b => if a == b then (.inf a, 0) else (.nan, flagNv)
  | .inf a, _ => (.inf a, 0)
  | _, .inf b => (.inf b, 0)
  | x, y => (addFin rdn x y, 0)

/-- Multiplication (R62): 0 × ∞ is NaN with NV; a zero product takes the exclusive-or of the signs. -/
def mulE (x y : Exact) : Exact × Flags :=
  match x, y with
  | .nan, _ => (.nan, 0)
  | _, .nan => (.nan, 0)
  | .inf a, y => if y.isZero then (.nan, flagNv) else (.inf (a != y.sign), 0)
  | x, .inf b => if x.isZero then (.nan, flagNv) else (.inf (x.sign != b), 0)
  | .fin a n d, .fin b m e => (.fin (a != b) (n * m) (d * e), 0)
  | _, _ => (.nan, 0)

/-- Division (R62): 0/0 and ∞/∞ are NaN with NV; a finite nonzero value over zero is ∞ with DZ. -/
def divE (x y : Exact) : Exact × Flags :=
  match x, y with
  | .nan, _ => (.nan, 0)
  | _, .nan => (.nan, 0)
  | .inf _, .inf _ => (.nan, flagNv)
  | .inf a, y => (.inf (a != y.sign), 0)
  | x, .inf b => (zeroOf (x.sign != b), 0)
  | .fin a n d, .fin b m e =>
    if m = 0 then
      if n = 0 then (.nan, flagNv) else (.inf (a != b), flagDz)
    else (.fin (a != b) (n * e) (d * m), 0)
  | _, _ => (.nan, 0)

/-- Square root (R62, R127): √(−0) = −0; a negative nonzero value gives NaN with NV. -/
def sqrtE (x : Exact) : Exact × Flags :=
  match x with
  | .nan => (.nan, 0)
  | .inf s => if s then (.nan, flagNv) else (.inf false, 0)
  | .fin s n d => if n = 0 then (zeroOf s, 0) else if s then (.nan, flagNv) else (.root n d, 0)
  | .root n d => (.root n d, 0)

/-- A rounding step's sum of terms (R70, R72): NaN with NV where a term is NaN or the terms hold
infinities of both signs; a zero sum by R62 over all terms. -/
def sumStep (rdn : Bool) (xs : List Exact) : Exact × Flags :=
  if xs.any Exact.isNan || (xs.any (fun x => x == .inf true) && xs.any (fun x => x == .inf false)) then
    (.nan, flagNv)
  else if xs.any Exact.isInf then (.inf (xs.any (fun x => x == .inf true)), 0)
  else
    match xs with
    | [] => (zeroOf false, 0)
    | x :: ys =>
      let r := ys.foldl (addFin rdn) x
      if r.isZero then
        if xs.all (fun y => y.isZero && y.sign == x.sign) then (zeroOf x.sign, 0) else (zeroOf rdn, 0)
      else (r, 0)

/-! ## Rounding -/

/-- A float format of R46 other than E2M1B: mantissa bits, bias, width, the largest finite magnitude
code, the infinity code where there is one, and the canonical NaN (R47). -/
structure FSpec where
  m     : Nat
  bias  : Nat
  width : Nat
  maxc  : Nat
  infc  : Option Nat
  nanc  : Nat
  unsigned : Bool
  deriving DecidableEq, Repr

def fp32 : FSpec := ⟨23, 127, 32, 0x7F7FFFFF, some 0x7F800000, 0x7FC00000, false⟩
def bf16 : FSpec := ⟨7, 127, 16, 0x7F7F, some 0x7F80, 0x7FC0, false⟩
def fp16 : FSpec := ⟨10, 15, 16, 0x7BFF, some 0x7C00, 0x7E00, false⟩
def e5m2 : FSpec := ⟨2, 15, 8, 0x7B, some 0x7C, 0x7E, false⟩
def e4m3 : FSpec := ⟨3, 7, 8, 0x7E, none, 0x7F, false⟩
def e4m3u : FSpec := ⟨3, 7, 8, 0x7E, none, 0x7F, true⟩

/-- The float format of a code other than E2M1B (R44). -/
def fspec (f : BitVec 5) : FSpec :=
  match f.toNat with
  | 9 => e4m3 | 10 => e5m2 | 11 => e4m3u | 12 => fp16 | 13 => bf16 | _ => fp32

/-- The exact value of a magnitude code. -/
def FSpec.mag (f : FSpec) (neg : Bool) (c : Nat) : Exact :=
  let e := c / 2 ^ f.m
  let r := c % 2 ^ f.m
  let n := if e = 0 then r else 2 ^ f.m + r
  (Exact.fin neg n 1).scale ((Nat.max e 1 : Int) - (f.bias : Int) - (f.m : Int))

/-- The exact value of a code of the format (R46, R48), without a sector exponent. -/
def FSpec.decode (f : FSpec) (c : Nat) : Exact :=
  let neg := decide (2 ^ (f.width - 1) ≤ c % 2 ^ f.width)
  let g := c % 2 ^ (f.width - 1)
  if f.unsigned && neg then .nan
  else if g ≤ f.maxc then f.mag neg g
  else if some g = f.infc then .inf neg
  else .nan

/-- floor(log₂ x) of a nonzero finite magnitude. -/
def log2Exact (x : Exact) : Int :=
  match x with
  | .fin _ n d =>
    let e : Int := (Nat.log2 n : Int) - (Nat.log2 d : Int)
    let below := if 0 ≤ e then n < d * 2 ^ e.toNat else n * 2 ^ (-e).toNat < d
    if below then e - 1 else e
  | .root n d =>
    let e : Int := (Nat.log2 n : Int) - (Nat.log2 d : Int)
    let below := if 0 ≤ e then n < d * 2 ^ e.toNat else n * 2 ^ (-e).toNat < d
    (if below then e - 1 else e) / 2
  | _ => 0

/-- The integer square root, bit by bit from the bit below `k`. -/
def isqrtFrom (y : Nat) : Nat → Nat → Nat
  | 0, r => r
  | k + 1, r =>
    let t := r + 2 ^ k
    isqrtFrom y k (if t * t ≤ y then t else r)

def isqrt (y : Nat) : Nat := isqrtFrom y (Nat.log2 y / 2 + 1) 0

/-- A magnitude cut at the bit 2^u: its whole part, and what is needed to compare the fraction:
n/d is the cut value, or its square where `sq` is set. -/
structure Cut where
  q  : Nat
  n  : Nat
  d  : Nat
  sq : Bool
  deriving DecidableEq, Repr

def cutAt (x : Exact) (u : Int) : Cut :=
  match x with
  | .fin _ n d =>
    let (a, b) := if 0 ≤ u then (n, d * 2 ^ u.toNat) else (n * 2 ^ (-u).toNat, d)
    ⟨a / b, a, b, false⟩
  | .root n d =>
    let (a, b) := if 0 ≤ u then (n, d * 4 ^ u.toNat) else (n * 4 ^ (-u).toNat, d)
    ⟨isqrt (a / b), a, b, true⟩
  | _ => ⟨0, 0, 1, false⟩

/-- The fraction beyond the whole part compared with t / 2^32. -/
def Cut.cmpFrac (c : Cut) (t : Nat) : Ordering :=
  let m := c.q * 2 ^ 32 + t
  if c.sq then compare (c.n * 2 ^ 64) (m * m * c.d) else compare (c.n * 2 ^ 32) (m * c.d)

def Cut.exact (c : Cut) : Bool := c.cmpFrac 0 == .eq

/-- Whether the magnitude rounds up, by the modes of R60; `s` is the generator state after the draw,
for SR (R61). -/
def roundsUp (mode : Nat) (neg : Bool) (s : Nat) (c : Cut) : Bool :=
  if c.exact then false
  else
    let half := c.cmpFrac (2 ^ 31)
    match mode with
    | 1 => false
    | 2 => neg
    | 3 => !neg
    | 4 => half != .lt
    | 5 => if neg then c.cmpFrac (2 ^ 32 - s) != .lt else c.cmpFrac s == .gt
    | _ => half == .gt || (half == .eq && c.q % 2 == 1)

/-- The magnitude code to which a nonzero finite value rounds with unbounded exponent range above,
and whether it is exact. -/
def roundMag (f : FSpec) (mode : Nat) (s : Nat) (x : Exact) : Nat × Bool :=
  let emin : Int := 1 - (f.bias : Int)
  let e := log2Exact x
  let e' := if e < emin then emin else e
  let c := cutAt x (e' - (f.m : Int))
  let q := c.q + (if roundsUp mode x.sign s c then 1 else 0)
  let ef := (e' + (f.bias : Int)).toNat
  (ef * 2 ^ f.m + q - 2 ^ f.m, c.exact)

/-- The code of a sign and a magnitude code. -/
def FSpec.code (f : FSpec) (neg : Bool) (g : Nat) : Nat :=
  g + (if neg then 2 ^ (f.width - 1) else 0)

/-- round(x, fmt, mode) for a float format other than E2M1B, with SATF (R62): the code and the flags. -/
def roundF (f : FSpec) (mode : Nat) (satf : Bool) (s : Nat) (x : Exact) : Nat × Flags :=
  match x with
  | .nan => (f.nanc, 0)
  | .inf neg =>
    match f.infc with
    | some c => (f.code neg c, 0)
    | none =>
      if f.unsigned && neg then (0, flagClamp ||| flagNx)
      else (f.code neg f.maxc, flagClamp ||| flagNx)
  | x =>
    if x.isZero then (if f.unsigned then 0 else f.code x.sign 0, 0)
    else
      let neg := x.sign
      let low := roundMag f 1 s x
      let beyond := f.maxc < low.1 || (low.1 == f.maxc && !low.2)
      let (g, exact) := roundMag f (if mode = 5 && beyond then 0 else mode) s x
      let tiny := decide (log2Exact x < 1 - (f.bias : Int))
      let inexact := flagIf (!exact) (flagNx ||| flagIf tiny flagUf)
      if f.unsigned && neg then
        if g = 0 then (0, inexact) else (0, flagClamp ||| flagNx ||| flagIf tiny flagUf)
      else if g ≤ f.maxc then (f.code neg g, inexact)
      else
        match f.infc with
        | none => (f.code neg f.maxc, flagClamp ||| flagNx)
        | some c =>
          if satf then (f.code neg f.maxc, flagClamp ||| flagNx)
          else
            let toMax := mode == 1 || (mode == 2 && !neg) || (mode == 3 && neg)
            (f.code neg (if toMax then f.maxc else c), flagOf ||| flagNx)

/-- round to a format with saturation to the largest finite value, as stores and recoding do (R75, R76):
RNE, CLAMP in place of OF, an infinity kept where the format has one. -/
def roundSat (f : FSpec) (x : Exact) : Nat × Flags := roundF f 0 true 0 x

/-- The integer to which a finite value rounds, and whether it is exact. -/
def roundToInt (mode : Nat) (s : Nat) (x : Exact) : Int × Bool :=
  let c := cutAt x 0
  let q := c.q + (if roundsUp mode x.sign s c then 1 else 0)
  (if x.sign then -(q : Int) else (q : Int), c.exact)

/-- The range of an integer format (R45). -/
def intLo (w : Nat) (signed : Bool) : Int := if signed then -((2 : Int) ^ (w - 1)) else 0
def intHi (w : Nat) (signed : Bool) : Int := if signed then (2 : Int) ^ (w - 1) - 1 else (2 : Int) ^ w - 1

/-- A signed integer format of R44. -/
def fmtSigned (f : BitVec 5) : Bool := f == 1 || f == 3 || f == 5 || f == 7

/-- The exact integer held to a range, and whether it was outside. -/
def satInt (w : Nat) (signed : Bool) (i : Int) : Int × Bool :=
  if i < intLo w signed then (intLo w signed, true)
  else if intHi w signed < i then (intHi w signed, true)
  else (i, false)

/-- A finite value lies beyond a range of integers. -/
def beyondInts (w : Nat) (signed : Bool) (x : Exact) : Bool :=
  x.cmp (exactOfInt (intHi w signed)) == .gt || x.cmp (exactOfInt (intLo w signed)) == .lt

/-- A float value rounded to an integer format (R62): saturated with NV, a NaN giving 0 with NV; in SR a value beyond
the format's range takes the RNE result (R61). -/
def roundI (w : Nat) (signed : Bool) (mode : Nat) (s : Nat) (x : Exact) : Nat × Flags :=
  match x with
  | .nan => (0, flagNv)
  | .inf neg => (wrapNat w (if neg then intLo w signed else intHi w signed), flagNv)
  | x =>
    let (i, exact) := roundToInt (if mode = 5 && beyondInts w signed x then 0 else mode) s x
    let (j, out) := satInt w signed i
    (wrapNat w j, if out then flagNv else flagIf (!exact) flagNx)

/-- An exact integer put into an integer format: saturated with SAT, or wrapped with no flag (R154, R165, R307; log 7). -/
def fitInt (w : Nat) (signed sat : Bool) (i : Int) : Nat × Flags :=
  if sat then
    let (j, out) := satInt w signed i
    (wrapNat w j, flagIf out flagSat)
  else (wrapNat w i, 0)

/-- An integer rounded into an integer format by R62: saturated with SAT, and NX since the result then differs (log 7). -/
def roundInts (w : Nat) (signed : Bool) (i : Int) : Nat × Flags :=
  let r := fitInt w signed true i
  (r.1, if r.2 == 0 then 0 else r.2 ||| flagNx)

/-! ## The stochastic generator -/

/-- One draw of the generator of R61: the state after it, which is the value compared. -/
def srNext (s : BitVec 32) : BitVec 32 :=
  let s := if s == 0 then 1 else s
  let s := s ^^^ (s <<< 13)
  let s := s ^^^ (s >>> 17)
  s ^^^ (s <<< 5)

/-- One draw where the mode is SR; the state otherwise stays (R61). -/
def srDraw (mode : Nat) (s : BitVec 32) : BitVec 32 := if mode = 5 then srNext s else s

/-- The draws of `n` elements in SR (R61). -/
def srDraws (mode : Nat) : Nat → BitVec 32 → BitVec 32
  | 0, s => s
  | n + 1, s => srDraws mode n (srDraw mode s)

/-! ## Element codes -/

/-- The value of a code of a format that is not E2M1B, without a sector exponent (R44 to R48). -/
def decodeFmt (f : BitVec 5) (c : Nat) : Exact :=
  if fmtInt f then
    let w := fmtWidth f
    exactOfInt (if fmtSigned f then signedOf w (c % 2 ^ w) else ((c % 2 ^ w : Nat) : Int))
  else (fspec f).decode c

/-- An exact value rounded into a format that is not E2M1B: float formats by R62, integer formats by
the float or the integer row of R62. -/
def roundFmt (f : BitVec 5) (mode : Nat) (satf : Bool) (s : Nat) (x : Exact) : Nat × Flags :=
  if fmtInt f then roundI (fmtWidth f) (fmtSigned f) mode s x else roundF (fspec f) mode satf s x

/-- The magnitudes of R49, doubled. -/
def e2m1Twice (c : Nat) : Nat :=
  match c % 8 with
  | 0 => 0 | 1 => 1 | 2 => 2 | 3 => 3 | 4 => 4 | 5 => 6 | 6 => 8 | _ => 12

/-- The value of an E2M1B code in a block with the given scale and special codes (R52), without a
sector exponent. -/
def decodeE2m1 (scale spec c : Nat) : Exact :=
  match e4m3u.decode scale with
  | .fin _ sn sd =>
    if c % 16 = 8 then
      match e4m3.decode spec with
      | .fin neg n d => .fin neg (n * sn) (d * sd)
      | _ => .nan
    else .fin (decide (8 ≤ c % 16)) (e2m1Twice c * sn) (2 * sd)
  | _ => .nan

/-! ## The quantiser -/

/-- The smallest E4M3U code whose square is at or above a fraction n/d, if any (R65 step 1). -/
def scaleAtLeast (n d : Nat) : Option Nat :=
  (List.range 127).find? (fun c => fracCmp (n, d) (e4m3u.decode c).square != .gt)

/-- A finite magnitude as a fraction; only for values that are not roots. -/
def Exact.magnitude : Exact → Nat × Nat
  | .fin _ n d => (n, d)
  | _ => (0, 1)

/-- n₁/d₁ < n₂/d₂. -/
def fracLt (a b : Nat × Nat) : Bool := decide (a.1 * b.2 < b.1 * a.2)

/-- The index of the largest of a list of fractions, the lowest on ties (R65). -/
def largestAt (xs : List (Nat × Nat)) : Nat :=
  (xs.foldl (fun (st : Nat × Nat × (Nat × Nat)) x =>
    let (i, best, b) := st
    if fracLt b x then (i + 1, i, x) else (i + 1, best, b)) (0, 0, (0, 1))).2.1

/-- The largest fraction of a list, 0 for none. -/
def largestFrac (xs : List (Nat × Nat)) : Nat × Nat :=
  xs.foldl (fun b x => if fracLt b x then x else b) (0, 1)

/-- The largest fraction of a list outside position p. -/
def largestBut (p : Nat) (xs : List (Nat × Nat)) : Nat × Nat :=
  largestFrac (xs.zipIdx.filterMap (fun x => if x.2 = p then none else some x.1))

/-- The midpoint of two fractions with their signs. -/
def midpoint (x y : Exact) : Exact :=
  match addFin false x y with
  | .fin s n d => .fin s n (2 * d)
  | z => z

/-- Whether x lies nearer to y (lt), nearer to z (gt) or halfway: x against the midpoint of the two (R65). -/
def nearer (x y z : Exact) : Ordering :=
  match y.cmp z with
  | .eq => .eq
  | .lt => x.cmp (midpoint y z)
  | .gt => (midpoint y z).cmp x

/-- The code of step 3 of R65: the nearest candidate, a tie going to a code with bit 0 clear and then
to the lower code; candidates are pairs of code and value. -/
def nearestCode (x : Exact) (cands : List (Nat × Exact)) : Nat :=
  (cands.foldl (fun (st : Option (Nat × Exact)) c =>
    match st with
    | none => some c
    | some b =>
      match nearer x c.2 b.2 with
      | .lt => some c
      | .gt => st
      | .eq => if c.1 % 2 < b.1 % 2 || (c.1 % 2 == b.1 % 2 && c.1 < b.1) then some c else st) none).elim 0 (·.1)

/-- A quantised block: scale, special, element codes and flags. -/
structure QBlock where
  scale : Nat
  spec  : Nat
  codes : List Nat
  flags : Flags
  deriving DecidableEq, Repr

/-- One block of 64 or fewer values, already divided by 2^t, quantised (R65, R66). -/
def quantBlock (us : List Exact) : QBlock :=
  let special := us.any (fun u => u.isNan || u.isInf)
  let squares := us.map Exact.square
  let p := largestAt squares
  let top := squares.getD p (0, 1)
  let m2 := if special then largestFrac squares else largestBut p squares
  if top.1 = 0 && !special then ⟨0, 0, us.map (fun _ => 0), 0⟩
  else
    let bound : Nat × Nat :=
      if m2.1 = 0 then (if special then (0, 1) else (top.1, top.2 * 448 ^ 2)) else (m2.1, m2.2 * 6 ^ 2)
    let (scale, fScale) : Nat × Flags :=
      match scaleAtLeast bound.1 bound.2 with
      | some c => (c, 0)
      | none => (0x7E, flagClamp)
    let (sn, sd) := (e4m3u.decode scale).magnitude
    let up := us.getD p (zeroOf false)
    let (spec, fSpec) : Nat × Flags :=
      if special then (0x7F, 0)
      else
        let quo : Exact := match up with
          | .root n d => .root (n * sd ^ 2) (d * sn ^ 2)
          | up => .fin up.sign (up.magnitude.1 * sd) (up.magnitude.2 * sn)
        ((roundF e4m3 0 true 0 quo).1, flagIf (quo.abs.cmp (.fin false 448 1) == .gt) flagClamp)
    let grid := (List.range 16).filterMap (fun c =>
      if c = 8 then (if special then none else some (8, decodeE2m1 scale spec 8))
      else some (c, decodeE2m1 scale spec c))
    let hi := grid.foldl (fun b c => if (b.cmp c.2) == .lt then c.2 else b) (zeroOf false)
    let lo := grid.foldl (fun b c => if (b.cmp c.2) == .gt then c.2 else b) (zeroOf false)
    let one (i : Nat) (u : Exact) : Nat × Flags :=
      if u.isNan || u.isInf then (8, flagIf u.isInf (flagNv ||| flagNx))
      else
        let c := if !special && i == p then 8 else nearestCode u grid
        let v := decodeE2m1 scale spec c
        let diff := flagIf (u.cmp v != .eq) flagNx
        let zero := flagIf (c == 0 && !u.isZero) (flagUf ||| flagNx)
        let spx := flagIf (c == 8 && i != p) flagSpx
        let clamp := flagIf (!(!special && i == p) && (u.cmp hi == .gt || u.cmp lo == .lt)) flagClamp
        (c, diff ||| zero ||| spx ||| clamp)
    let rs := us.zipIdx.map (fun u => one u.2 u.1)
    ⟨scale, spec, rs.map (·.1), rs.foldl (fun f r => f ||| r.2) (fScale ||| fSpec)⟩

/-- The values cut into blocks of 64 (R50). -/
def blocksOf (fuel : Nat) (xs : List Exact) : List (List Exact) :=
  match fuel with
  | 0 => []
  | fuel + 1 => if xs.isEmpty then [] else xs.take 64 :: blocksOf fuel (xs.drop 64)

/-- An exponent held to −127 to +127. -/
def clampExp (t : Int) : Int := if t < -127 then -127 else if 127 < t then 127 else t

/-- The AUTO exponent of the quantiser, over every block of the values (R64, R197). -/
def autoE2m1 (xs : List Exact) : Int :=
  let seconds := (blocksOf (xs.length / 64 + 1) xs).map (fun b =>
    let squares := b.map Exact.square
    largestBut (largestAt squares) squares)
  let m := largestFrac seconds
  if m.1 = 0 then 0 else clampExp (log2Exact (.root m.1 (m.2 * 6 ^ 2)))

/-- The AUTO exponent of the other float formats (R76): the smallest t at or above −127 for which no
finite magnitude times 2^−t exceeds the largest finite value. -/
def autoFloat (f : FSpec) (xs : List Exact) : Int :=
  let m := largestFrac (xs.map Exact.magnitude)
  if m.1 = 0 then 0
  else
    let (bn, bd) := (f.mag false f.maxc).magnitude
    let x : Exact := .fin false (m.1 * bd) (m.2 * bn)
    let e := log2Exact x
    let pow := if 0 ≤ e then decide (m.1 * bd = m.2 * bn * 2 ^ e.toNat)
      else decide (m.1 * bd * 2 ^ (-e).toNat = m.2 * bn)
    clampExp (if pow then e else e + 1)

/-! ## Transcendental functions

An enclosure of the exact result by two fractions; the FP32 values next to the exact result follow
from it, and `Config.transUpper` says which one the part takes (R71, log 6). -/

/-- Fractions as numerator and denominator. -/
abbrev Frac := Nat × Nat

/-- The fixed-point working precision. -/
def workBits : Nat := 256

/-- Taylor terms of e^y for a fixed-point y at most 1/2, summed downward: sum and the next term. -/
def expTerms (y : Nat) : Nat → Nat → Nat → Nat → Nat
  | 0, _, _, acc => acc
  | k + 1, i, term, acc =>
    let term := term * y / 2 ^ workBits / (i + 1)
    expTerms y k (i + 1) term (acc + term)

/-- Repeated squaring of fixed-point bounds, rounding outward. -/
def squareBounds : Nat → Nat × Nat → Nat × Nat
  | 0, b => b
  | k + 1, (lo, hi) => squareBounds k (lo * lo / 2 ^ workBits, hi * hi / 2 ^ workBits + 1)

/-- Bounds of e^(n/d) for a magnitude n/d below 256, as fractions over 2^256. -/
def expBounds (n d : Nat) : Frac × Frac :=
  let y := n * 2 ^ workBits / (d * 2 ^ 9)
  let one := 2 ^ workBits
  let lo := expTerms y 60 0 one one
  let hi := expTerms (y + 1) 60 0 one one + 128
  let (l, h) := squareBounds 9 (lo, hi)
  ((l, one), (h, one))

/-- The terms z^(2i+1)/(2i+1) of 2 atanh z for a fixed-point z, rounded down. -/
def atanhTerms (z2 : Nat) : Nat → Nat → Nat → Nat → Nat
  | 0, _, _, acc => acc
  | k + 1, i, pow, acc =>
    let pow := pow * z2 / 2 ^ workBits
    atanhTerms z2 k (i + 2) pow (acc + pow / (i + 2))

/-- Bounds of ln(n/d) for 1 ≤ n/d < 2 in fixed point. -/
def lnBounds (n d : Nat) : Nat × Nat :=
  let z := (n - d) * 2 ^ workBits / (n + d)
  let z2 := z * z / 2 ^ workBits
  let s := 2 * atanhTerms z2 120 1 z z
  (s, s + 1024)

/-- Bounds of ln 2 in fixed point. -/
def ln2Bounds : Nat × Nat :=
  let z := 2 ^ workBits / 3
  let s := 2 * atanhTerms (z * z / 2 ^ workBits) 120 1 z z
  (s, s + 1024)

/-- A signed interval of the exact result: sign and bounds of the magnitude. -/
structure Encl where
  neg : Bool
  lo  : Frac
  hi  : Frac
  deriving DecidableEq, Repr

/-- ln(n/d) for n/d > 0. -/
def enclLn (n d : Nat) : Encl :=
  let e := log2Exact (.fin false n d)
  let (a, b) := if 0 ≤ e then (n, d * 2 ^ e.toNat) else (n * 2 ^ (-e).toNat, d)
  let (l, h) := lnBounds a b
  let (l2, h2) := ln2Bounds
  let one := 2 ^ workBits
  if 0 ≤ e then ⟨false, (l + e.toNat * l2, one), (h + e.toNat * h2, one)⟩
  else ⟨true, ((-e).toNat * l2 - h, one), ((-e).toNat * h2 - l, one)⟩

/-- 1/x for a fraction. -/
def invFrac (x : Frac) : Frac := (x.2, x.1)

def addFrac (x y : Frac) : Frac := (x.1 * y.2 + y.1 * x.2, x.2 * y.2)
def mulFrac (x y : Frac) : Frac := (x.1 * y.1, x.2 * y.2)
def subFrac (x y : Frac) : Frac := (x.1 * y.2 - y.1 * x.2, x.2 * y.2)

/-- 1 / (1 + e^−a) for a magnitude n/d and a sign. -/
def enclSigm (neg : Bool) (n d : Nat) : Encl :=
  if 200 * d ≤ n then
    if neg then ⟨false, (0, 1), (1, 2 ^ 200)⟩ else ⟨false, (2 ^ 200 - 1, 2 ^ 200), (1, 1)⟩
  else
    let (l, h) := expBounds n d
    let one : Frac := (1, 1)
    if neg then ⟨false, invFrac (addFrac one h), invFrac (addFrac one l)⟩
    else ⟨false, invFrac (addFrac one (invFrac l)), invFrac (addFrac one (invFrac h))⟩

/-- tanh of a magnitude n/d. -/
def enclTanh (neg : Bool) (n d : Nat) : Encl :=
  if n * 2 ^ 20 < d then
    ⟨neg, (n * (3 * d * d) - n * n * n, 3 * d * d * d), (n, d)⟩
  else if 60 * d ≤ n then ⟨neg, (2 ^ 100 - 1, 2 ^ 100), (1, 1)⟩
  else
    let (l, h) := expBounds (2 * n) d
    let one : Frac := (1, 1)
    ⟨neg, (l.1 - l.2, l.1 + l.2), mulFrac (subFrac h one) (invFrac (addFrac h one))⟩

/-- e^a for a magnitude n/d and a sign; none where the magnitude of a is 256 or more. -/
def enclExp (neg : Bool) (n d : Nat) : Option Encl :=
  if 256 * d ≤ n then none
  else
    let (l, h) := expBounds n d
    some (if neg then ⟨false, invFrac h, invFrac l⟩ else ⟨false, l, h⟩)

/-- Bounds of √(2/π) (R223). -/
def gelu0 : Frac × Frac :=
  ((7978845608028653558798921198687637369517, 10 ^ 40), (7978845608028653558798921198687637369518, 10 ^ 40))

/-- GELU in its tanh form (R223): x / (1 + e^−2y) with y = √(2/π) (x + 0.044715 x³). -/
def enclGelu (neg : Bool) (n d : Nat) : Encl :=
  let y : Frac := addFrac (n, d) (mulFrac (44715, 1000000) (n * n * n, d * d * d))
  let lo := mulFrac (2, 1) (mulFrac gelu0.1 y)
  let hi := mulFrac (2, 1) (mulFrac gelu0.2 y)
  let a := enclSigm neg lo.1 lo.2
  let b := enclSigm neg hi.1 hi.2
  if neg then
    if 200 * lo.2 ≤ lo.1 then ⟨true, (0, 1), (1, 2 ^ 200)⟩ else ⟨true, mulFrac (n, d) b.lo, mulFrac (n, d) a.hi⟩
  else ⟨false, mulFrac (n, d) a.lo, mulFrac (n, d) b.hi⟩

/-- SILU (R223): x × sigmoid x. -/
def enclSilu (neg : Bool) (n d : Nat) : Encl :=
  let a := enclSigm neg n d
  if neg && 200 * d ≤ n then ⟨true, (0, 1), (1, 2 ^ 200)⟩ else ⟨neg, mulFrac (n, d) a.lo, mulFrac (n, d) a.hi⟩

/-- σ(±a) (1 ± w σ(∓a)) for a sigmoid argument a and a multiplier w, both given by bounds of their magnitudes and
positive, the upper signs where `neg` is false: the shape of both derivatives. -/
def enclDeriv (neg : Bool) (aLo aHi wLo wHi : Frac) : Encl :=
  if 200 * aLo.2 ≤ aLo.1 then
    if neg then ⟨true, (0, 1), (1, 2 ^ 200)⟩ else ⟨false, (1, 1), (2 ^ 200 + 1, 2 ^ 200)⟩
  else
    let up := enclSigm false aLo.1 aLo.2
    let up' := enclSigm false aHi.1 aHi.2
    let dn := enclSigm true aLo.1 aLo.2
    let dn' := enclSigm true aHi.1 aHi.2
    if neg then
      let hi := mulFrac wHi up'.hi
      let lo := mulFrac wLo up.lo
      if hi.1 < hi.2 then ⟨false, mulFrac dn'.lo (subFrac (1, 1) hi), mulFrac dn.hi (subFrac (1, 1) lo)⟩
      else ⟨true, mulFrac dn'.lo (subFrac lo (1, 1)), mulFrac dn.hi (subFrac hi (1, 1))⟩
    else
      ⟨false, mulFrac up.lo (addFrac (1, 1) (mulFrac wLo dn'.lo)), mulFrac up'.hi (addFrac (1, 1) (mulFrac wHi dn.hi))⟩

/-- The derivative of SILU (R234): σ(x) (1 + x σ(−x)). -/
def enclDsilu (neg : Bool) (n d : Nat) : Encl := enclDeriv neg (n, d) (n, d) (n, d) (n, d)

/-- The derivative of GELU's tanh form (R234): σ(2y) (1 + 2 √(2/π) (x + 3 × 0.044715 x³) σ(−2y)). -/
def enclDgelu (neg : Bool) (n d : Nat) : Encl :=
  let cube : Frac := (n * n * n, d * d * d)
  let y : Frac := addFrac (n, d) (mulFrac (44715, 1000000) cube)
  let z : Frac := addFrac (n, d) (mulFrac (134145, 1000000) cube)
  let lo := mulFrac (2, 1) gelu0.1
  let hi := mulFrac (2, 1) gelu0.2
  enclDeriv neg (mulFrac lo y) (mulFrac hi y) (mulFrac lo z) (mulFrac hi z)

/-- The flags of an inexact FP32 result above the magnitude code `below` (R62): UF where it is tiny. -/
def tinyFp32 (below : Nat) : Flags := flagNx ||| flagIf (decide (below < 2 ^ 23)) flagUf

/-- An exact result past the largest finite FP32 value: that value or ∞, with OF and NX; under SATF no OF is set, and
CLAMP where the largest finite value is taken (R63, log 6). -/
def pastFp32 (satf neg up : Bool) : Exact × Flags :=
  (if up then .inf neg else fp32.mag neg fp32.maxc,
   flagNx ||| (if satf then flagIf (!up) flagClamp else flagOf))

/-- The FP32 value that the part takes for an exact result between two magnitudes: one of the two
adjacent FP32 values, the upper one where `up` is set; where the bounds leave one FP32 value between
them, that value, which is adjacent to the exact result on either side. Beyond the largest finite value its
neighbours are that value and ∞. The flags are those of one inexact FP32 result (R62, R63). -/
def pickFp32 (satf : Bool) (e : Encl) (up : Bool) : Exact × Flags :=
  let lo : Exact := .fin false e.lo.1 e.lo.2
  let hi : Exact := .fin false e.hi.1 e.hi.2
  let below := if lo.isZero then 0 else (roundMag fp32 1 0 lo).1
  let above := (roundMag fp32 3 0 hi).1
  let c := if above ≤ below + 1 then (if up then above else below) else below + 1
  if fp32.maxc ≤ below then pastFp32 satf e.neg up else (fp32.mag e.neg c, tinyFp32 below)

/-- e^a where the magnitude of a is 256 or more: far above the largest FP32 value, or far below the
smallest. -/
def farExp (satf neg up : Bool) : Exact × Flags :=
  if neg then (if up then fp32.mag false 1 else zeroOf false, tinyFp32 0) else pastFp32 satf false up

/-- The reciprocal square root: an exact root, rounded to one of the adjacent FP32 values. -/
def rsqFp32 (satf : Bool) (n d : Nat) (up : Bool) : Exact × Flags :=
  let x : Exact := .root d n
  let (below, exact) := roundMag fp32 1 0 x
  if fp32.maxc < below || (fp32.maxc == below && !exact) then pastFp32 satf false up
  else if exact then (fp32.mag false below, 0)
  else (fp32.mag false (if up then below + 1 else below), tinyFp32 below)

/-- A transcendental function of an exact value: the FP32 value of R71, with the special operands of
R161 and R223; `satf` is the instruction's SATF, under which no OF is set (R63). -/
def transE (satf : Bool) (f : Trans) (x : Exact) : Exact × Flags :=
  match x with
  | .nan => (.nan, 0)
  | .inf s =>
    match f with
    | .exp => (if s then zeroOf false else .inf false, 0)
    | .log => if s then (.nan, flagNv) else (.inf false, 0)
    | .tanh => (.fin s 1 1, 0)
    | .sigm => (if s then zeroOf false else .fin false 1 1, 0)
    | .rsq => if s then (.nan, flagNv) else (zeroOf false, 0)
    | .gelu => (if s then zeroOf true else .inf false, 0)
    | .silu => (if s then zeroOf true else .inf false, 0)
    | .dgelu => (if s then zeroOf false else .fin false 1 1, 0)
    | .dsilu => (if s then zeroOf false else .fin false 1 1, 0)
  | .root n d => (.root n d, 0)
  | .fin s n d =>
    let up := Config.transUpper f s n d
    if n = 0 then
      match f with
      | .exp => (.fin false 1 1, 0)
      | .log => (.inf true, flagDz)
      | .tanh => (zeroOf s, 0)
      | .sigm => (.fin false 1 2, 0)
      | .rsq => (.inf s, flagDz)
      | .gelu => (zeroOf s, 0)
      | .silu => (zeroOf s, 0)
      | .dgelu => (.fin false 1 2, 0)
      | .dsilu => (.fin false 1 2, 0)
    else
      match f with
      | .exp =>
        match enclExp s n d with
        | some e => pickFp32 satf e up
        | none => farExp satf s up
      | .log =>
        if s then (.nan, flagNv)
        else if n = d then (zeroOf false, 0)
        else pickFp32 satf (enclLn n d) up
      | .tanh => pickFp32 satf (enclTanh s n d) up
      | .sigm => pickFp32 satf (enclSigm s n d) up
      | .rsq => if s then (.nan, flagNv) else rsqFp32 satf n d up
      | .gelu => pickFp32 satf (enclGelu s n d) up
      | .silu => pickFp32 satf (enclSilu s n d) up
      | .dgelu => pickFp32 satf (enclDgelu s n d) up
      | .dsilu => pickFp32 satf (enclDsilu s n d) up

end Sys2Proof.Machine
end

