-- ==== Sys2Proof/Machine/Operands.lean ====
section
/-! DEFINITION. Sectors as operands: tags and their checks (spec/03_formats.md R33 to R43), elements
(R35, R49 to R53), the promotion table (spec/04_arithmetic.md R54 to R59), sector encoding, typed merges
and demotion (R74 to R76), and the activity of elements (R102, R152). -/

namespace Sys2Proof.Machine

/-! ## Tags -/

/-- The fields of a tag (R33). -/
def tagCls (t : BitVec 24) : Nat := (t.extractLsb' 21 3).toNat
def tagFmt (t : BitVec 24) : BitVec 5 := t.extractLsb' 16 5
def tagCw (t : BitVec 24) : BitVec 3 := t.extractLsb' 13 3
def tagSexp (t : BitVec 24) : BitVec 8 := t.extractLsb' 0 8

/-- A tag from its fields (R33). -/
def mkTag (cls : Nat) (fmt : BitVec 5) (cw : BitVec 3) (sexp : BitVec 8) : BitVec 24 :=
  (BitVec.ofNat 3 cls) ++ fmt ++ cw ++ (0 : BitVec 5) ++ sexp

/-- The class codes of R37. -/
def clsZero : Nat := 0
def clsPlain : Nat := 1
def clsTyped : Nat := 2
def clsFempty : Nat := 3
def clsFfull : Nat := 4
def clsPoison : Nat := 5
def clsInvalid : Nat := 6

/-- The CLS and reserved-bit checks that every access makes (R42, R43). -/
def tagBasic (t : BitVec 24) : Bool := tagCls t != 7 && t.extractLsb' 8 5 == 0

/-- A format, container and sector exponent that go together (R42). -/
def tripleOk (fmt : BitVec 5) (cw : BitVec 3) (sexp : BitVec 8) : Bool :=
  fmtDefined fmt && cw.toNat ≤ 4 && fmtFits fmt cw && sexp != 0x80 && (!fmtInt fmt || sexp == 0)

/-- A tag is well-formed (R42). -/
def tagOk (t : BitVec 24) : Bool :=
  tagBasic t &&
  match tagCls t with
  | 0 =>
    if tagFmt t == 0 then (tagCw t).toNat ≤ 4 && tagSexp t != 0x80
    else tripleOk (tagFmt t) (tagCw t) (tagSexp t)
  | 2 | 3 | 4 => tripleOk (tagFmt t) (tagCw t) (tagSexp t)
  | _ => true

/-- The fault of a class under a typed read (R37). -/
def typedClassFault (cls : Nat) : Option Cause :=
  match cls with
  | 3 | 4 => some .futureReadAsData
  | 5 => some .poisonRead
  | 6 => some .invalidClassRead
  | 7 => some .malformedTag
  | _ => none

/-- The fault of a raw read or scalar store (R37, R43). -/
def rawFault (t : BitVec 24) : Option Cause :=
  if !tagBasic t then some .malformedTag
  else
    match tagCls t with
    | 3 | 4 => some .futureReadAsData
    | 5 => some .poisonRead
    | _ => none

/-- The fault of VLDR and of VPOP with an AUTO sink (R201). -/
def copyFault (t : BitVec 24) : Option Cause :=
  if !tagBasic t then some .malformedTag else typedClassFault (tagCls t)

/-- The sector that hardware zeroing or a ZERO class reads as: zero bytes (R37, R38). -/
def secVisible (s : Sector) : Sector :=
  if tagCls s.tag = 0 then { s with bmeta := 0, data := 0 } else s

/-- A ZERO sector materialised (R39); any other sector as it is. -/
def secMaterialise (s : Sector) : Sector :=
  if tagCls s.tag = 0 then
    { tag := if tagFmt s.tag == 0 then mkTag clsPlain 0 0 0
             else mkTag clsTyped (tagFmt s.tag) (tagCw s.tag) (tagSexp s.tag),
      bmeta := 0, data := 0 }
  else s

/-- A tag as an instruction writes it: a PLAIN tag takes zero fields (R40). -/
def normTag (t : BitVec 24) : BitVec 24 := if tagCls t = 1 then mkTag clsPlain 0 0 0 else t

/-- A sector retyped by VTAGW or STAG (R178, R208): a ZERO sector that leaves its class has its data and
metadata made zero. -/
def secRetag (s : Sector) (t : BitVec 24) : Sector :=
  if tagCls s.tag = 0 && tagCls t != 0 then { tag := normTag t, bmeta := 0, data := 0 }
  else { s with tag := normTag t }

/-! ## Bytes and elements of a sector -/

/-- Byte i of a sector's data. -/
def secByte (s : Sector) (i : Nat) : Byte := s.data.extractLsb' (8 * i) 8

/-- The `n` bytes from byte `i` as a little-endian number. -/
def secGet (s : Sector) (i n : Nat) : Nat := s.data.toNat / 2 ^ (8 * i) % 2 ^ (8 * n)

/-- A number with its bits [hi:lo] replaced. -/
def replaceBits (x lo w y : Nat) : Nat :=
  x % 2 ^ lo + (y % 2 ^ w) * 2 ^ lo + x / 2 ^ (lo + w) * 2 ^ (lo + w)

/-- The sector's data with `n` bytes from byte `i` replaced. -/
def secSet (s : Sector) (i n x : Nat) : Sector :=
  { s with data := BitVec.ofNat 2048 (replaceBits s.data.toNat (8 * i) (8 * n) x) }

/-- The number of elements of a sector in a container (R35); 0 for a reserved code. -/
def elemCount (cw : BitVec 3) : Nat := if cw.toNat ≤ 4 then 2048 / cwBits cw else 0

/-- The container contents of a sector, element 0 first. -/
def secSlots (s : Sector) (cw : BitVec 3) : List Nat :=
  let w := cwBits cw
  (List.range (elemCount cw)).map (fun i => s.data.toNat / 2 ^ (w * i) % 2 ^ w)

/-- Data from container contents, element 0 first. -/
def packSlots (w : Nat) (xs : List Nat) : BitVec 2048 :=
  BitVec.ofNat 2048 (xs.foldr (fun x acc => x % 2 ^ w + 2 ^ w * acc) 0)

/-- The scale and special codes of block j (R51). -/
def secScale (s : Sector) (j : Nat) : Nat := (s.bmeta.extractLsb' (16 * j) 8).toNat
def secSpec (s : Sector) (j : Nat) : Nat := (s.bmeta.extractLsb' (16 * j + 8) 8).toNat

/-- The block slots in use for a container (R50). -/
def blocksUsed (cw : BitVec 3) : Nat := elemCount cw / 64

/-- A format, container and exponent as a reader supplies them for PLAIN sectors (R40). -/
structure Reader where
  fmt  : BitVec 5
  cw   : BitVec 3
  sexp : BitVec 8
  deriving DecidableEq, Repr

/-- A sector whose format is known: its class checks passed. A ZERO sector keeps the triple of R38, a
format of 0 meaning that it has none. -/
structure Opened where
  zero : Bool
  fmt  : BitVec 5
  cw   : BitVec 3
  sexp : BitVec 8
  src  : Sector
  deriving DecidableEq, Repr

/-- A typed read (R37, R40, R43, R153) but for its block scales. -/
def openTyped (rd : Reader) (s : Sector) : Except Cause Opened :=
  if !tagOk s.tag then .error .malformedTag
  else
    match typedClassFault (tagCls s.tag) with
    | some c => .error c
    | none =>
      match tagCls s.tag with
      | 0 => .ok ⟨true, tagFmt s.tag, tagCw s.tag, tagSexp s.tag, secVisible s⟩
      | 1 =>
        if tripleOk rd.fmt rd.cw rd.sexp then .ok ⟨false, rd.fmt, rd.cw, rd.sexp, s⟩
        else .error .malformedTag
      | _ => .ok ⟨false, tagFmt s.tag, tagCw s.tag, tagSexp s.tag, s⟩

/-- The E2M1B format code. -/
def fE2m1 : BitVec 5 := 8

/-- A negative block scale in a slot in use (R53). -/
def Opened.badScale (o : Opened) : Bool :=
  !o.zero && o.fmt == fE2m1 && (List.range (blocksUsed o.cw)).any (fun j => 128 ≤ secScale o.src j)

/-- The block-scale check (R53). -/
def scaleCheck (o : Opened) : Except Cause Unit :=
  if o.badScale then .error .malformedBlockScale else .ok ()

/-- A typed read with its block-scale check. -/
def openScaled (rd : Reader) (s : Sector) : Except Cause Opened := do
  let o ← openTyped rd s
  scaleCheck o
  pure o

/-- The element codes of an opened sector in its own format, element 0 first; zeros for ZERO. -/
def Opened.codes (o : Opened) : List Nat :=
  (secSlots o.src o.cw).map (fun c => if o.zero then 0 else c % 2 ^ fmtWidth o.fmt)

/-- The value of element i with code c before the sector exponent is applied. -/
def Opened.rawValue (o : Opened) (i c : Nat) : Exact :=
  if o.zero then zeroOf false
  else if o.fmt == fE2m1 then decodeE2m1 (secScale o.src (i / 64)) (secSpec o.src (i / 64)) c
  else decodeFmt o.fmt c

/-- The value of element i with code c (R34, R46, R52). -/
def Opened.value (o : Opened) (i c : Nat) : Exact :=
  if o.zero then zeroOf false else (o.rawValue i c).scale o.sexp.toInt

/-- The exact values of the sector's elements in a container: those of the sector, or +0 throughout for
a ZERO sector. -/
def Opened.values (o : Opened) (cw : BitVec 3) : List Exact :=
  if o.zero then List.replicate (elemCount cw) (zeroOf false)
  else o.codes.zipIdx.map (fun x => o.value x.2 x.1)

/-! ## The promotion table -/

/-- The default table of R58 for f < g. -/
def defaultPromote (f g : Nat) : Option Nat :=
  match f, g with
  | 1, 3 => some 3 | 1, 5 => some 5 | 1, 7 => some 7 | 3, 5 => some 5 | 3, 7 => some 7 | 5, 7 => some 7
  | 2, 4 => some 4 | 2, 6 => some 6 | 4, 6 => some 6
  | 8, 9 => some 13 | 8, 10 => some 14 | 8, 11 => some 13 | 8, 12 => some 14 | 8, 13 => some 13
  | 8, 14 => some 14
  | 9, 10 => some 14 | 9, 11 => some 9 | 9, 12 => some 14 | 9, 13 => some 13 | 9, 14 => some 14
  | 10, 11 => some 14 | 10, 12 => some 12 | 10, 13 => some 14 | 10, 14 => some 14
  | 11, 12 => some 14 | 11, 13 => some 13 | 11, 14 => some 14
  | 12, 13 => some 14 | 12, 14 => some 14
  | 13, 14 => some 14
  | _, _ => none

/-- A table entry as R55 installs it: RFMT, or none for a forbidden pair. -/
def installedEntry (f g : Nat) (b : Byte) : Option Nat :=
  let r : BitVec 5 := b.extractLsb' 0 5
  let ff := BitVec.ofNat 5 f
  let gg := BitVec.ofNat 5 g
  if !b.getLsbD 7 then none
  else if !fmtDefined r || b.extractLsb' 5 2 != 0 then none
  else if fmtWidth r < fmtWidth ff || fmtWidth r < fmtWidth gg then none
  else if fmtInt r && (fmtFloat ff || fmtFloat gg) then none
  else if fmtFloat r && (fmtInt ff || fmtInt gg) then none
  else some r.toNat

/-- promote(f, g) of two formats (R57): the entry of the lower format's row. -/
def promote (prt : Option (List Byte)) (f g : BitVec 5) : Except Cause (BitVec 5 × Flags) :=
  if f == g then .ok (f, 0)
  else
    let lo := Nat.min f.toNat g.toNat
    let hi := Nat.max f.toNat g.toNat
    let r := match prt with
      | none => defaultPromote lo hi
      | some tab => installedEntry lo hi (tab.getD (32 * lo + hi) 0)
    match r with
    | some x => .ok (BitVec.ofNat 5 x, flagTagj)
    | none => .error .forbiddenFormatPair

/-- Formats of operand sectors combined in operand order; ZERO sectors are the identity (R57). None
where every sector is ZERO. -/
def promoteAll (prt : Option (List Byte)) (os : List Opened) : Except Cause (Option (BitVec 5) × Flags) :=
  os.foldlM (fun acc o =>
    if o.zero then .ok acc
    else
      match acc.1 with
      | none => .ok (some o.fmt, acc.2)
      | some f => do
        let (g, fl) ← promote prt f o.fmt
        pure (some g, acc.2 ||| fl)) (none, 0)

/-- The format that ZERO sectors give where every operand is ZERO: the first nonzero FMT (R38). -/
def zeroTriple (os : List Opened) : Option Opened := os.find? (fun o => o.fmt != 0)

/-! ## Encoding a sector -/

/-- How an exact value enters an integer format: wrapped or saturated with SAT by integer arithmetic, which no mode
concerns (R160), or by `round` from an integer or from a float (R62, R154). -/
inductive IntFit where
  | wrap
  | sat
  | fromInt
  | conv
  deriving DecidableEq, Repr

/-- How an element of a source format enters a result by `round`. -/
def fitFrom (int : Bool) : IntFit := if int then .fromInt else .conv

/-- An element takes a draw in SR (R61): it is rounded, which integer arithmetic is not. -/
def IntFit.rounds (fit : IntFit) (f : BitVec 5) : Bool := !fmtInt f || fit == .conv || fit == .fromInt

/-- An encoded sector, the flags it raised and the generator state after its draws. -/
structure Encoded where
  sector : Sector
  flags  : Flags
  sr     : BitVec 32
  deriving DecidableEq, Repr

/-- A code of a format as the part writes it: an E4M3U code with bit 7 set, which reads as NaN and which the part never
writes (R48), becomes that of NaN (DEDUCED, log 50). -/
def writtenCode (f : BitVec 5) (c : Nat) : Nat :=
  let c := c % 2 ^ fmtWidth f
  if f == 0x0B && 0x80 ≤ c then 0x7F else c

/-- One element rounded into a format that is not E2M1B. -/
def encodeElem (f : BitVec 5) (fit : IntFit) (mode : Nat) (satf : Bool) (s : BitVec 32) (x : Exact) :
    Nat × Flags :=
  if fmtInt f then
    match fit with
    | .conv => roundI (fmtWidth f) (fmtSigned f) mode s.toNat x
    | .wrap => fitInt (fmtWidth f) (fmtSigned f) false (roundToInt 1 0 x).1
    | .sat => fitInt (fmtWidth f) (fmtSigned f) true (roundToInt 1 0 x).1
    | .fromInt => roundInts (fmtWidth f) (fmtSigned f) (roundToInt 1 0 x).1
  else roundF (fspec f) mode satf s.toNat x

/-- The blocks of a sector's values quantised at exponent t (R64 to R66). -/
def quantBlocks (t : Int) (xs : List Exact) : List QBlock := (blocksOf 8 (xs.map (fun x => x.scale (-t)))).map quantBlock

/-- A sector's values quantised into E2M1B at exponent t (R64 to R66). -/
def quantSector (cw : BitVec 3) (t : Int) (xs : List Exact) : Sector × Flags :=
  let bs := quantBlocks t xs
  let md := bs.zipIdx.foldl (fun acc b => acc + (b.1.scale + 256 * b.1.spec) * 2 ^ (16 * b.2)) 0
  ({ tag := mkTag clsTyped fE2m1 cw (BitVec.ofInt 8 t), bmeta := BitVec.ofNat 128 md,
     data := packSlots (cwBits cw) (bs.flatMap QBlock.codes) },
   bs.foldl (fun f b => f ||| b.flags) 0)

/-- Elements in ascending order, each active one taking a draw in SR (R61); an inactive element is +0
and takes none. -/
def encodeList (f : BitVec 5) (mode : Nat) (satf : Bool) :
    BitVec 32 → List (Exact × Bool × IntFit) → List Nat × Flags × BitVec 32
  | s, [] => ([], 0, s)
  | s, (x, act, fit) :: xs =>
    if act then
      let s := if fit.rounds f then srDraw mode s else s
      let (c, fl) := encodeElem f fit mode satf s x
      let (cs, fl', s') := encodeList f mode satf s xs
      (c :: cs, fl ||| fl', s')
    else
      let (cs, fl', s') := encodeList f mode satf s xs
      (0 :: cs, fl', s')

/-- A whole result sector: tag TYPED, F, CW and the sector exponent t; elements that are not active are
+0. E2M1B is quantised over the whole sector, at t or under AUTO, and the mode has no effect, so no draw is
taken (R154, R156, R176). Each element comes with its activity and how it enters an integer format. -/
def encodeEach (f : BitVec 5) (cw : BitVec 3) (t : Option Int) (mode : Nat) (satf : Bool)
    (s : BitVec 32) (xs : List (Exact × Bool × IntFit)) : Encoded :=
  if f == fE2m1 then
    let vals := xs.map (fun x => if x.2.1 then x.1 else zeroOf false)
    let t := t.getD (autoE2m1 vals)
    let (sec, fl) := quantSector cw t vals
    ⟨sec, fl, s⟩
  else
    let e := t.getD 0
    let (cs, fl, s') := encodeList f mode satf s (xs.map (fun x => (x.1.scale (-e), x.2)))
    ⟨{ tag := mkTag clsTyped f cw (BitVec.ofInt 8 e), bmeta := 0, data := packSlots (cwBits cw) cs },
     fl, s'⟩

/-- A whole result sector whose elements all enter an integer format in one way. -/
def encodeSector (f : BitVec 5) (cw : BitVec 3) (t : Option Int) (fit : IntFit) (mode : Nat) (satf : Bool)
    (s : BitVec 32) (xs : List (Exact × Bool)) : Encoded :=
  encodeEach f cw t mode satf s (xs.map (fun x => (x.1, x.2, fit)))

/-- A sector of the values converted by R76 into a format: AUTO exponent, RNE, saturating, CLAMP in
place of OF. -/
def recodeSector (f : BitVec 5) (cw : BitVec 3) (xs : List Exact) : Sector × Flags :=
  if f == fE2m1 then quantSector cw (autoE2m1 xs) xs
  else
    let t : Int := if fmtInt f then 0 else autoFloat (fspec f) xs
    let r := encodeSector f cw (some t) .conv 0 true 0 (xs.map (fun x => (x, true)))
    (r.sector, r.flags)

/-! ## Activity -/

/-- The bits of a register that VL covers (R102). -/
def vlBits (vl : BitVec 16) (vlcw : BitVec 3) : Nat := vl.toNat * cwBits vlcw

/-- Element e of the register lies wholly within VL at container cw. -/
def inVl (vlb : Nat) (cw : BitVec 3) (e : Nat) : Bool := decide ((e + 1) * cwBits cw ≤ vlb)

/-- Register sector x holds an element within VL at container cw (R152). -/
def sectorInRange (vlb : Nat) (cw : BitVec 3) (x : Nat) : Bool :=
  decide (cw.toNat ≤ 4) && decide (x * 2048 + cwBits cw ≤ vlb)

/-- A mask bit: k0 reads as all ones (R180). -/
def maskBit (kreg : Nat) (m : BitVec 4096) (e : Nat) : Bool := kreg == 0 || m.getLsbD e

/-- The activity of each element of register sector x at container cw: within VL and enabled. -/
def activity (vlb : Nat) (cw : BitVec 3) (x : Nat) (kreg : Nat) (m : BitVec 4096) : List Bool :=
  (List.range (elemCount cw)).map (fun i =>
    let e := x * elemCount cw + i
    inVl vlb cw e && maskBit kreg m e)

/-! ## Typed stores (R74 to R76) -/

/-- The page's store-demote policy format, where it has one (R76, R367). -/
abbrev Policy := Option (BitVec 5)

/-- The policy format to which a page's store-demote policy converts a store of a sector (R76). -/
def demotes (pol : Policy) (s : Sector) : Option (BitVec 5) :=
  pol.filter (fun p => tagCls s.tag == clsTyped && tagOk s.tag && fmtFloat (tagFmt s.tag) && tagFmt s.tag != p
    && fmtFits p (tagCw s.tag))

/-- A whole-sector typed store under the page's policy: the sector as stored, or read (R53) and converted by R76. -/
def storeWhole (pol : Policy) (s : Sector) : Except Cause (Sector × Flags) :=
  match demotes pol s with
  | none => .ok (s, 0)
  | some p => do
    let o ← openScaled ⟨tagFmt s.tag, tagCw s.tag, tagSexp s.tag⟩ s
    pure (recodeSector p o.cw (o.values o.cw))

/-- The old sector of a merge, of which only the CLS and reserved-bit checks are made before its class faults (R43):
none where a TYPED tag fails another check of R42, so that its elements have no values. -/
def openMerge (rd : Reader) (s : Sector) : Except Cause (Option Opened) :=
  match copyFault s.tag with
  | some k => .error k
  | none =>
    if tagCls s.tag = clsZero then .ok (some ⟨true, tagFmt s.tag, tagCw s.tag, tagSexp s.tag, secVisible s⟩)
    else if tagCls s.tag = clsTyped && !tagOk s.tag then .ok none
    else (openTyped rd s).map some

/-- A merge into a TYPED sector whose tag is malformed (R43, R75): the container and promotion checks come first, and
then its result tag would be malformed. -/
def mergeMalformed (prt : Option (List Byte)) (old : BitVec 24) (n : Opened) : Cause :=
  if n.zero then .malformedTag
  else if n.cw != tagCw old then .containerMismatch
  else
    match promote prt (tagFmt old) n.fmt with
    | .error k => k
    | .ok _ => .malformedTag

/-- Whole blocks only: block j of 64 elements is written wholly or not at all. -/
def wholeBlocks (ws : List Bool) : Bool :=
  (List.range ((ws.length + 63) / 64)).all (fun j =>
    let b := (ws.drop (64 * j)).take 64
    b.all id || b.all not)

/-- A partial typed store merged by R75: `ws` says which elements are written. The old sector is
unchanged where a fault is given. -/
def mergeStore (prt : Option (List Byte)) (rd : Reader) (old new : Sector) (ws : List Bool) :
    Except Cause (Sector × Flags) := do
  let m ← openMerge rd old
  let n ← openTyped rd new
  let o ← match m with
    | some o => pure o
    | none => throw (mergeMalformed prt old.tag n)
  if o.zero && n.zero then return (old, 0)
  if !o.zero && !n.zero && o.cw != n.cw then throw .containerMismatch
  let (f, t, cw, fl) : BitVec 5 × Int × BitVec 3 × Flags ←
    if o.zero then pure (n.fmt, n.sexp.toInt, n.cw, 0)
    else if n.zero then pure (o.fmt, o.sexp.toInt, o.cw, 0)
    else do
      let (f, fl) ← promote prt o.fmt n.fmt
      pure (f, o.sexp.toInt, o.cw, fl)
  if !fmtFits f cw then throw .storeFormatOverflow
  if f == fE2m1 && !wholeBlocks ws then throw .partialBlockStore
  scaleCheck o
  scaleCheck n
  let xs := ((o.values cw).zip (n.values cw)).zip ws |>.map (fun x => if x.2 then x.1.2 else x.1.1)
  if f == fE2m1 then
    let q := (quantSector cw t xs).1
    -- uncovered blocks keep their codes and metadata, and raise no flag
    let qf := ((quantBlocks t xs).zipIdx.filter (fun b => ws.getD (64 * b.2) false)).foldl (fun g b => g ||| b.1.flags) 0
    let cs := ((secSlots q cw).zip (secSlots o.src cw)).zip ws |>.map (fun x => if x.2 then x.1.1 else x.1.2)
    let md := (List.range (blocksUsed cw)).foldl (fun acc j =>
      let src := if (ws.getD (64 * j) false) then q else o.src
      acc + (secScale src j + 256 * secSpec src j) * 2 ^ (16 * j)) 0
    return ({ q with bmeta := BitVec.ofNat 128 md, data := packSlots (cwBits cw) cs }, fl ||| qf)
  else
    let t := if fmtInt f then 0 else t
    let fit := fun (p : Opened) => fitFrom (p.zero || fmtInt p.fmt)
    let r := encodeEach f cw (some t) 0 true 0 ((xs.zip ws).map (fun x => (x.1, true, fit (if x.2 then n else o))))
    return (r.sector, fl ||| r.flags)

/-- A partial typed store under the page's policy (R76): the whole sector converted to the policy
format where the stored data is typed float data in another format, else the merge of R75. -/
def storePartial (prt : Option (List Byte)) (rd : Reader) (pol : Policy) (old new : Sector)
    (ws : List Bool) : Except Cause (Sector × Flags) :=
  match demotes pol new with
  | some p => do
    let m ← openMerge rd old
    let n ← openTyped rd new
    match m with
    | none => throw (if n.cw != tagCw old.tag then .containerMismatch else .malformedTag)
    | some o =>
      scaleCheck o
      scaleCheck n
      if !o.zero && o.cw != n.cw then throw .containerMismatch
      let xs := ((o.values n.cw).zip (n.values n.cw)).zip ws |>.map (fun x => if x.2 then x.1.2 else x.1.1)
      pure (recodeSector p n.cw xs)
  | none => mergeStore prt rd old new ws

/-! ## Strip conversion (R73) -/

/-- The smallest container that holds a format (R73, R207). -/
def smallestCw (f : BitVec 5) : BitVec 3 :=
  match fmtWidth f with
  | 4 => 0 | 8 => 1 | 16 => 2 | 32 => 3 | _ => 4

/-- A strip converted when it is popped (R73): verbatim for an AUTO sink, else rounded into the sink's
format. The AUTO-sink class checks of R202 are the caller's. A ZERO strip is not rounded, so it takes no draw in SR
(DESIGN CHOICE, log 16: R61 and R73 do not say). -/
def convertStrip (sink : BitVec 5) (mode : Nat) (rd : Reader) (sr : BitVec 32) (s : Sector) :
    Except Cause Encoded :=
  if sink == 0x1F || sink == 0 then .ok ⟨s, 0, sr⟩
  else do
    let o ← openTyped rd s
    if o.zero then
      let cw := if tagFmt s.tag != 0 && fmtFits sink o.cw
        then o.cw else smallestCw sink
      return ⟨{ tag := mkTag clsZero sink cw 0, bmeta := 0, data := 0 }, 0, sr⟩
    scaleCheck o
    if !fmtFits sink o.cw then throw .containerMismatch
    let xs := o.values o.cw
    if sink == fE2m1 then
      let (q, fl) := quantSector o.cw (autoE2m1 xs) xs
      return ⟨q, fl, sr⟩
    let t : Int := if fmtInt sink then 0 else autoFloat (fspec sink) xs
    let fit := fitFrom (fmtInt o.fmt)
    return encodeSector sink o.cw (some t) fit mode false sr (xs.map (fun x => (x, true)))

end Sys2Proof.Machine
end

