-- ==== Sys2Proof/Machine/CheckCode.lean ====
section
/-! DEFINITION. The check code of a sector (spec/03_formats.md R30, R31): its symbols, and the decoder that corrects errors
of up to three symbols. -/

namespace Sys2Proof.Machine

/-! ## The check code (R31) -/

/-- An element of GF(2^16) times α, with x^16 = x^12 + x^3 + x + 1. -/
def gfDouble (x : Nat) : Nat := if 32768 ≤ x then (2 * x - 65536) ^^^ 0x100B else 2 * x

/-- The product of two elements of GF(2^16). -/
def gfMul (x y : Nat) : Nat :=
  ((List.range 16).foldl (fun (p : Nat × Nat) i => (if bitOf y i then p.1 ^^^ p.2 else p.1, gfDouble p.2)) (0, x)).1

/-- A polynomial, its highest coefficient first, times (x − r). -/
def polyTimesRoot (p : List Nat) (r : Nat) : List Nat :=
  (p ++ [0]).zipWith (fun a b => a ^^^ b) (0 :: p.map (gfMul r))

/-- The generator polynomial, with roots α^0 to α^5. -/
def checkGenerator : List Nat :=
  ((List.range 6).foldl (fun (x : List Nat × Nat) _ => (polyTimesRoot x.1 x.2, gfDouble x.2)) ([1], 1)).1

/-- The six check symbols of information symbols: the remainder of their polynomial times x^6 by the generator. Symbol 0
has the highest power (DESIGN CHOICE, log 45). -/
def checkSymbols (info : List Nat) : List Nat :=
  info.foldl (fun r m =>
    let f := m ^^^ r.headD 0
    (r.drop 1 ++ [0]).zipWith (fun a b => a ^^^ b) ((checkGenerator.drop 1).map (gfMul f))) (List.replicate 6 0)

/-- CHK of a sector as it is stored: over its 256 data bytes and side-band bytes 0x0C to 0x1F, the data of a ZERO sector
being taken as zero (R30, R31). -/
def checkCode (x : Sector) : BitVec 96 :=
  let data := if tagCls x.tag = 0 then 0 else x.data.toNat
  let info := data + x.tag.toNat * 2 ^ 2048 + x.bmeta.toNat * 2 ^ 2080
  BitVec.ofNat 96 ((checkSymbols ((List.range 138).map (fun i => info / 2 ^ (16 * i) % 65536))).zipIdx.foldl
    (fun acc y => acc + y.1 * 2 ^ (16 * y.2)) 0)

/-- The 32-byte side-band of a stored sector (R30). -/
def sideBand (x : Sector) : Nat := (checkCode x).toNat + x.tag.toNat * 2 ^ 96 + x.bmeta.toNat * 2 ^ 128

/-! ## The decoder (R31) -/

/-- Errors of a sector: symbol positions in rising order, each with its nonzero pattern. -/
abbrev SymbolErrors := List (Nat × BitVec 16)

/-- The symbols of a sector. -/
def symbolCount : Nat := 144

/-- Powers of α, and the inverse x^(2^16 − 2) of a nonzero element. -/
def alphaPow (n : Nat) : Nat := (List.range n).foldl (fun x _ => gfDouble x) 1

def gfInv (x : Nat) : Nat :=
  ((List.range 15).foldl (fun (p : Nat × Nat) _ =>
    let y := gfMul p.2 p.2
    (gfMul p.1 y, y)) (1, x)).1

/-- The locator of a symbol: symbol 0 has the highest power (DESIGN CHOICE, log 45). -/
def locatorOf (p : Nat) : Nat := alphaPow (symbolCount - 1 - p)

/-- The six syndromes of some errors, at α^0 to α^5. -/
def syndromes (e : SymbolErrors) : List Nat :=
  let xs := e.map (fun y => (y.2.toNat, locatorOf y.1))
  ((List.range 6).foldl (fun (acc : List Nat × List (Nat × Nat)) _ =>
    (acc.1 ++ [acc.2.foldl (fun x y => x ^^^ y.1) 0], acc.2.map (fun y => (gfMul y.1 y.2, y.2)))) ([], xs)).1

/-- Polynomials with their lowest coefficient first: a sum, a multiple, and a value. -/
def polyXor : List Nat → List Nat → List Nat
  | [], ys => ys
  | xs, [] => xs
  | x :: xs, y :: ys => (x ^^^ y) :: polyXor xs ys

def polyScale (k : Nat) (p : List Nat) : List Nat := p.map (gfMul k)

def polyAt (p : List Nat) (x : Nat) : Nat := p.foldr (fun c acc => c ^^^ gfMul acc x) 0

/-- The state of the search for the shortest locator polynomial: the polynomial and the last one of another length, their
lengths, the distance between them and the last discrepancy. -/
structure Search where
  c : List Nat
  b : List Nat
  l : Nat
  m : Nat
  d : Nat
  deriving DecidableEq, Repr

/-- The search goes over one more syndrome. -/
def Search.next (x : Search) (ss : List Nat) (n : Nat) : Search :=
  let d := (List.range (x.l + 1)).foldl (fun acc i => acc ^^^ gfMul (x.c.getD i 0) (ss.getD (n - i) 0)) 0
  if d = 0 then { x with m := x.m + 1 }
  else
    let c := polyXor x.c (List.replicate x.m 0 ++ polyScale (gfMul d (gfInv x.d)) x.b)
    if 2 * x.l ≤ n then { c := c, b := x.c, l := n + 1 - x.l, m := 1, d := d } else { x with c := c, m := x.m + 1 }

/-- The locator polynomial of six syndromes and its length. -/
def locatorPoly (ss : List Nat) : List Nat × Nat :=
  let x := (List.range 6).foldl (fun x n => Search.next x ss n) ({ c := [1], b := [1], l := 0, m := 1, d := 1 } : Search)
  (x.c, x.l)

/-- The pattern at a locator's symbol. -/
def patternAt (ss c : List Nat) (x : Nat) : Nat :=
  let y := gfInv x
  let omega := (List.range 6).map (fun k =>
    (List.range (k + 1)).foldl (fun acc i => acc ^^^ gfMul (c.getD i 0) (ss.getD (k - i) 0)) 0)
  let slope := c.zipIdx.foldl (fun acc z => if z.2 % 2 = 1 then acc ^^^ gfMul z.1 ((List.range (z.2 - 1)).foldl (fun p _ => gfMul p y) 1) else acc) 0
  gfMul (gfMul x (polyAt omega y)) (gfInv slope)

/-- What the decoder changes in a sector with some errors (R31): the one set of up to three symbols that has the same
syndromes, which is the errors themselves where they are confined to three; none where there is no such set, and the sector
is uncorrectable. -/
def decodeErrors (e : SymbolErrors) : Option SymbolErrors :=
  let ss := syndromes e
  if ss.all (· == 0) then some []
  else
    let (c, l) := locatorPoly ss
    let at' := (List.range symbolCount).filter (fun p => polyAt c (gfInv (locatorOf p)) == 0)
    if l ≤ 3 && at'.length = l then some (at'.map (fun p => (p, BitVec.ofNat 16 (patternAt ss c (locatorOf p))))) else none

/-- Errors of two kinds together. -/
def errorSum (e f : SymbolErrors) : SymbolErrors :=
  f.foldl (fun acc y => putD acc y.1 0 (lookD acc y.1 0 ^^^ y.2)) e

/-- The errors that are checked: those of the stored data of a ZERO sector are not read (R31). -/
def errorsSeen (zero : Bool) (e : SymbolErrors) : SymbolErrors := if zero then e.filter (fun y => decide (128 ≤ y.1)) else e

/-- A sector with some errors in its data, tag and metadata. -/
def upsetSector (x : Sector) (e : SymbolErrors) : Sector :=
  let m := e.foldl (fun acc y => acc ^^^ (y.2.toNat * 2 ^ (16 * y.1))) 0
  { tag := x.tag ^^^ BitVec.ofNat 24 (m / 2 ^ 2048), bmeta := x.bmeta ^^^ BitVec.ofNat 128 (m / 2 ^ 2080),
    data := x.data ^^^ BitVec.ofNat 2048 m }

end Sys2Proof.Machine
end

