-- ==== Sys2Proof/Machine/Ops.lean ====
section
/-! DEFINITION. The named operations over the package: harts and their registers (spec/07_scalar.md R122,
R123), the two lookups of an address (spec/22_page.md R365, spec/09_access.md R189), sectors and bytes of
memory, page-service records and interrupts (R371), and taking a trap and returning from one
(spec/11_sync_system.md R261 to R265). -/

namespace Sys2Proof.Machine

/-- The outcome of a step of this machine. -/
abbrev Out := Host.Outcome State Fault Refusal

/-! ## Harts, cores and contexts -/

/-- A core that nothing has touched since core reset: tiles unowned, rings and queues zero (R316). -/
def Core.reset : Core :=
  { lost := 0, frozen := false, thaw := 0, l1 := [], fused := false, owner := none, tileTag := [], tileOwner := [],
    rings := [], queues := [], leases := [], trace := [] }

/-- A ring descriptor of zeros, with no owner group placed (R318, R332). -/
def Ring.reset : Ring :=
  { sbase := 0, tileb := 0, ecw := 0, efmt := 0, slots := 0, head := 0, tail := 0, full := 0, owner := 0,
    srcBase := [], srcStride := [] }

/-- A strip queue of zeros, not assigned to a group (R318, R330). -/
def StripQueue.reset : StripQueue :=
  { prod := 0, cons := 0, smode := 0, sfmt := 0, srcFmt := 0, srcCw := 0, srcSexp := 0, owner := none,
    strips := [] }

/-- A hart with no lease (R212). -/
def Lease.reset : Lease :=
  { state := .none, count := 0, reqAt := 0, grantAt := 0, bypass := 0, usedAt := 0, hart := 0 }

def State.core (s : State) (c : Nat) : Core := lookD s.cores c Core.reset
def State.setCore (s : State) (c : Nat) (x : Core) : State := { s with cores := put s.cores c x }
def State.modCore (s : State) (c : Nat) (f : Core → Core) : State := s.setCore c (f (s.core c))
def State.setHart (s : State) (h : Nat) (x : Hart) : State := { s with harts := put s.harts h x }
def State.modHart (s : State) (h : Nat) (f : Hart → Hart) : State := { s with harts := upd s.harts h f }
def State.modCtx (s : State) (c : Nat) (f : Ctx → Ctx) : State := { s with ctxs := upd s.ctxs c f }
def State.modGroup (s : State) (g : Nat) (f : Group → Group) : State := { s with groups := upd s.groups g f }

/-- A ring and a strip queue of a core. -/
def Core.ring (c : Core) (n : Nat) : Ring := lookD c.rings n Ring.reset
def Core.queue (c : Core) (n : Nat) : StripQueue := lookD c.queues n StripQueue.reset
def Core.lease (c : Core) (slot : Nat) : Lease := lookD c.leases slot Lease.reset
def Core.setRing (c : Core) (n : Nat) (r : Ring) : Core := { c with rings := put c.rings n r }
def Core.setQueue (c : Core) (n : Nat) (q : StripQueue) : Core := { c with queues := put c.queues n q }
def Core.setLease (c : Core) (slot : Nat) (l : Lease) : Core := { c with leases := put c.leases slot l }

/-- CYCLE of a core (R20, R105): clock periods without the frozen ones. -/
def State.cycle (s : State) (c : Nat) : Nat := s.now - (s.core c).lost

/-- A core stands still: it is frozen, or resumes only in a later period (R99). -/
def State.coreStopped (s : State) (c : Nat) : Bool := (s.core c).frozen || decide (s.now < (s.core c).thaw)

/-- A core of the hart stands still. -/
def State.stopped (s : State) (h : Hart) : Bool := h.cores.any s.coreStopped

/-- The identifier of a hart: its context, the virtual core of its die row 0 and its frame (R314). -/
def hartId (ctx core frame : Nat) : Nat := ctx * 2048 + core * 16 + frame

/-- The virtual core of a die row. -/
def Hart.coreOf (h : Hart) (row : Nat) : Nat := h.cores.getD row 0

/-- The die span D (R105). -/
def Hart.span (h : Hart) : Nat := h.cores.length

/-- The die rows of the span. -/
def Hart.allRows (h : Hart) : List Nat := List.range h.cores.length

/-- CYCLE as the hart sees it: that of its row 0's core. -/
def State.hartCycle (s : State) (h : Hart) : Nat := s.cycle (h.coreOf 0)

/-- The queue number of an engine. -/
def engIdx : Eng → Nat
  | .ld => 0 | .xv => 1 | .mx => 2 | .st => 3 | .jb => 4

/-- The engine code of a trap record (R264). -/
def engCode : Eng → Nat
  | .ld => 1 | .xv => 2 | .mx => 3 | .st => 4 | .jb => 5

/-- The engine class ECLS (R78). -/
def engEcls : Eng → Nat
  | .ld => 2 | .xv => 3 | .mx => 4 | .st => 5 | .jb => 6

def Hart.queue (h : Hart) (e : Eng) : List Command := (h.queues[engIdx e]?).getD []
def Hart.setQueue (h : Hart) (e : Eng) (q : List Command) : Hart :=
  { h with queues := h.queues.setIfInBounds (engIdx e) q }

/-- A template slot (R83). -/
def Hart.slotTemplate (h : Hart) (e : Eng) (n : Nat) : Template := lookD h.tmpl (64 * engIdx e + n) emptyTemplate

/-! ## Registers -/

/-- The registers of a row as launch leaves them (R345). -/
def RowRegs.zero : RowRegs :=
  { s := Vector.replicate 32 0, hb := Vector.replicate 8 0, k := Vector.replicate 8 0, v := [] }

/-- A scalar register of a row: s0 reads zero (R101), and in H s24 to s31 name the H bank (R263). -/
def RowRegs.get (r : RowRegs) (priv : Bool) (n : Nat) : Dword :=
  if n = 0 then 0
  else if priv && decide (24 ≤ n) then (r.hb[n - 24]?).getD 0
  else (r.s[n]?).getD 0

/-- A scalar register of a row written: writes to s0 are ignored (R101, R263). -/
def RowRegs.set (r : RowRegs) (priv : Bool) (n : Nat) (x : Dword) : RowRegs :=
  if n = 0 then r
  else if priv && decide (24 ≤ n) then { r with hb := r.hb.setIfInBounds (n - 24) x }
  else { r with s := r.s.setIfInBounds n x }

/-- A mask register of a row: k0 reads as all ones (R101). -/
def RowRegs.mask (r : RowRegs) (n : Nat) : BitVec 4096 :=
  if n = 0 then BitVec.allOnes 4096 else (r.k[n]?).getD 0

/-- A mask register written: writes to k0 are discarded (R180). -/
def RowRegs.setMask (r : RowRegs) (n : Nat) (x : BitVec 4096) : RowRegs :=
  if n = 0 then r else { r with k := r.k.setIfInBounds n x }

/-- A register sector. -/
def RowRegs.vec (r : RowRegs) (v x : Nat) : Sector := lookD r.v (8 * v + x) zeroSector
def RowRegs.setVec (r : RowRegs) (v x : Nat) (d : Sector) : RowRegs :=
  { r with v := putD r.v (8 * v + x) zeroSector d }

def Hart.row (h : Hart) (j : Nat) : RowRegs := h.rows.getD j RowRegs.zero
def Hart.setRow (h : Hart) (j : Nat) (r : RowRegs) : Hart := { h with rows := h.rows.set j r }

/-- A scalar register of row j in the hart's privilege. -/
def Hart.reg (h : Hart) (j n : Nat) : Dword := (h.row j).get h.priv n
def Hart.setReg (h : Hart) (j n : Nat) (x : Dword) : Hart := h.setRow j ((h.row j).set h.priv n x)

/-- A scalar register of row j of the U bank, which engine commands name. -/
def Hart.ureg (h : Hart) (j n : Nat) : Dword := (h.row j).get false n
def Hart.setUreg (h : Hart) (j n : Nat) (x : Dword) : Hart := h.setRow j ((h.row j).set false n x)

/-- A register written in each of some rows. -/
def Hart.setRegs (h : Hart) (js : List Nat) (n : Nat) (f : Nat → Dword) : Hart :=
  js.foldl (fun g j => g.setReg j n (f j)) h

/-- The rows below the span whose bit is set in a die mask (R91). -/
def rowsOf (span : Nat) (m : BitVec 8) : List Nat := (List.range span).filter (fun j => m.getLsbD j)

/-- The die mask of an instruction: that of its DIEP without MKEEP, else DMASK (R91). -/
def Hart.dieMask (h : Hart) (px : Px) : BitVec 8 :=
  match px.diep with
  | some x => if x.getLsbD 15 then h.csr.dmask else x.extractLsb' 18 8
  | none => h.csr.dmask

/-- The active rows of an instruction (R122). -/
def Hart.active (h : Hart) (px : Px) : List Nat := rowsOf h.span (h.dieMask px)

/-- The selected die stride (R91). -/
def Hart.stride (h : Hart) (px : Px) : Dword :=
  match px.diep with
  | some x => (h.csr.ds[(x.extractLsb' 16 2).toNat]?).getD 0
  | none => (h.csr.ds[0]?).getD 0

/-- Bytes of an instruction: its prefixes and its word (R78). -/
def pxBytes (px : Px) : Nat :=
  4 + (if px.diep.isSome then 4 else 0) + (if px.valx.isSome then 4 else 0)

/-- imm13 extended by VALX (R90): sext(VALX[25:7] :: imm13), or sext(imm13) without one. -/
def pxImm (px : Px) (i : BitVec 13) : Dword :=
  match px.valx with
  | some v => (v.extractLsb' 7 19 ++ i).signExtend 64
  | none => i.signExtend 64

/-- A load's offset extended by VALX (R90): a signed 27-bit value, in access units. -/
def pxLoadOffset (px : Px) (o : BitVec 8) : Dword :=
  match px.valx with
  | some v => (v.extractLsb' 7 19 ++ o).signExtend 64
  | none => o.signExtend 64

/-- The XV and MX commands that write a scalar register when they complete (R80, R119, R120). -/
def Command.writesScalar (e : Eng) (c : Command) : Option Nat :=
  if c.fault.isSome then none
  else
    match e, c.t.opc.toNat with
    | .xv, 0x2D | .xv, 0x3A | .xv, 0x4B | .xv, 0x4C => some c.t.d.toNat
    | .mx, 0x06 => some c.t.d.toNat
    | _, _ => none

/-- An interlocked load that has not returned its data to a register (R97). -/
def LoadEntry.pends (l : LoadEntry) (priv : Bool) (n : Nat) : Bool :=
  l.due.isNone &&
  match l.dest with
  | .scalar d hb _ _ => d == n && (decide (d < 24) || hb == priv)
  | .vector _ _ => false

/-- A register has a result pending from an engine command or an interlocked load (R80, R97). -/
def Hart.pending (h : Hart) (n : Nat) : Bool :=
  n != 0 &&
  ((!(h.priv && decide (24 ≤ n)) &&
      [Eng.xv, Eng.mx].any (fun e => (h.queue e).any (fun c => c.writesScalar e == some n)))
    || h.loads.any (fun l => l.pends h.priv n))

/-! ## Addresses -/

/-- The last HBM data DPA plus one, and the bounds of R23. -/
def hbmEnd : Nat := 0xC000000000
def cxlBase : Nat := 0x10000000000
def cxlEnd : Nat := 0xF0000000000
def spadWindow : Nat := 0xF1000000000

/-- An HBM data DPA (R23). -/
def isHbm (a : Nat) : Bool := decide (a < hbmEnd)

/-- The memory key of a scratchpad offset of a core: the model's numbering of storage. -/
def spadKey (core off : Nat) : Nat := 2 ^ 56 + core * 2 ^ 24 + off

/-- The memory key of element (i, j) of an accumulator tile of a core. -/
def tileKey (core t i j : Nat) : Nat := 2 ^ 57 + core * 2 ^ 23 + t * 2 ^ 18 + 4 * (256 * i + j)

/-- The memory key of a byte of another package of the domain (log 13). -/
def remoteKey (pkg a : Nat) : Nat := 2 ^ 60 + pkg * 2 ^ 52 + a

/-- The offset a swizzled view reaches (R189). -/
def swizzle (view off : Nat) : Nat :=
  if view = 0 then off else off ^^^ ((off >>> (view + 6)) % 8 * 16)

/-- The KTT entry that covers a virtual address (R340). -/
def kttEntry (ktt : List KttEntry) (va : Nat) : Option KttEntry :=
  ktt.find? (fun e => decide (e.vapg ≤ va / 65536) && decide (va / 65536 < e.vapg + e.npages))

/-- The permission an access needs. -/
inductive Perm where
  | r | w | x | rw
  deriving DecidableEq, Repr

/-- The access writes. -/
def Perm.writes : Perm → Bool
  | .w | .rw => true
  | _ => false

def KttEntry.allows (e : KttEntry) : Perm → Bool
  | .r => e.r
  | .w => e.w
  | .x => e.x
  | .rw => e.r && e.w

/-- The KTT lookup (R128, R340): the DPA, or KTT_MISS or KTT_PERMISSION. -/
def translate (ktt : List KttEntry) (p : Perm) (va : Nat) : Except Cause Nat :=
  match kttEntry ktt va with
  | none => .error .kttMiss
  | some e =>
    if e.allows p then .ok ((e.dpapg + (va / 65536 - e.vapg)) * 65536 + va % 65536)
    else .error .kttPermission

/-- The KTT of a hart's group. -/
def State.ktt (s : State) (g : Nat) : List KttEntry :=
  match look s.groups g with
  | some x => x.kernel.ktt
  | none => []

/-- How the bytes of a location's sector are seen: as stored, under another seal than the one they are stored
under (R367, R373), through a swizzled view of the scratchpad window (R189), or in a cache's copy (R286). -/
inductive Look where
  | plain
  | sealed (old new : Seal)
  | swizzled (view : Nat)
  | copied (x : Sector)
  deriving DecidableEq, Repr

/-- Where an access lands: a storage key, and how the bytes of its sector are seen. -/
structure Loc where
  key : Nat
  xf  : Look
  deriving DecidableEq, Repr

/-- What stops an access at its home slice: a fault, the page-absent reply (R368), or a link that holds traffic, behind
which it waits (R20, R398). -/
inductive Miss where
  | fault (c : Cause)
  | absent (page : Nat)
  | held
  deriving DecidableEq, Repr

/-- The fields of a PIT entry (R367). -/
def pitState (e : BitVec 128) : Nat := (e.extractLsb' 45 3).toNat
def pitFrame (e : BitVec 128) : Nat := (e.extractLsb' 48 40).toNat
def pitNframe (e : BitVec 128) : Nat := (e.extractLsb' 88 40).toNat
def pitOwner (e : BitVec 128) : Nat := (e.extractLsb' 33 12).toNat
def pitKey (e : BitVec 128) : Nat := (e.extractLsb' 27 6).toNat
def pitPfmt (e : BitVec 128) : BitVec 5 := e.extractLsb' 22 5
def pitPmode (e : BitVec 128) : Nat := (e.extractLsb' 20 2).toNat
def pitWmark (e : BitVec 128) : Nat := (e.extractLsb' 12 8).toNat
def pitRfmt (e : BitVec 128) : BitVec 5 := e.extractLsb' 7 5
def pitBgdone (e : BitVec 128) : Bool := e.getLsbD 6
def pitPend (e : BitVec 128) : Bool := e.getLsbD 5
def pitOwnv (e : BitVec 128) : Bool := e.getLsbD 4

/-- A field of a PIT entry replaced. -/
def pitSet (e : BitVec 128) (lo w x : Nat) : BitVec 128 := BitVec.ofNat 128 (replaceBits e.toNat lo w x)

def State.pitEntry (s : State) (p : Nat) : BitVec 128 := lookD s.pit p 0
def State.setPit (s : State) (p : Nat) (e : BitVec 128) : State := { s with pit := putD s.pit p 0 e }

/-- The memory key of a byte of the memory behind a CXL port (R401). -/
def cxlKey (port a : Nat) : Nat := 2 ^ 59 + port * 2 ^ 53 + a

/-- The memory key that a DPA of the CXL-window range reaches: its window's port and device offset (R401); one of a window
that is no CXL window reaches none. -/
def State.cxlKeyAt (s : State) (dpa : Nat) : Nat :=
  match lookD s.windows ((dpa - cxlBase) / 2 ^ 38) .unused with
  | .cxl port off _ => cxlKey port (off + (dpa - cxlBase) % 2 ^ 38)
  | _ => cxlKey 63 dpa

/-- The storage key of byte `off` of a frame (R367): stack and frame index, or a CXL page. -/
def State.frameKey (s : State) (f off : Nat) : Nat :=
  if bitOf f 39 then s.cxlKeyAt (bits f 35 0 * 65536 + off)
  else bits f 23 20 * 2 ^ 36 + bits f 19 0 * 65536 + off

/-- The seal that an entry's KEY gives a page (R367, R428). -/
def State.sealOf (s : State) (key page : Nat) : Seal := .under key (lookD s.trust.keyGen key 0) page

/-- The location of byte `off` of a frame under an entry (R367). The bytes of an HBM frame that nobody has written under
another seal stand under the entry that names it; those of a CXL frame stand as the window shows them. -/
def State.frameLoc (s : State) (f off key page : Nat) : Loc :=
  let now := s.sealOf key page
  let old := if bitOf f 39 then (look s.seals f).getD .raw else (look s.seals f).getD now
  { key := s.frameKey f off, xf := if old = now then .plain else .sealed old now }

/-- An Axdom link leads to a package, as its peer or behind its switches (R402), and is up (R398): links 0 to 17 are the
Axdom links (log 13). -/
def leadsTo (p : Nat) (l : Nat × Link) : Bool :=
  decide (l.1 < 18) && (decide (l.2.peer.toNat = p) || l.2.reach.getLsbD p)
    && (l.2.state == .active || l.2.state == .hold)

/-- The paths to a package. -/
def State.pathsTo (s : State) (p : Nat) : List (Nat × Link) := s.links.filter (leadsTo p)

def State.hasPath (s : State) (p : Nat) : Bool := !(s.pathsTo p).isEmpty

/-- The link that carries the traffic for a sector of a package: one path for each sector address (R402; which one is a
DESIGN CHOICE, log 13). -/
def State.pathFor (s : State) (p a : Nat) : Option (Nat × Link) :=
  (s.pathsTo p)[a / 256 % Nat.max 1 (s.pathsTo p).length]?

/-- The traffic for a sector of a package is held (R398). -/
def State.pathHeld (s : State) (p a : Nat) : Bool := (s.pathFor p a).any (fun l => l.2.state == .hold)

/-- The lookup at the home slice (R365, R368): owner check before the page state's outcome, a page-absent
reply whatever the owner. `ctx` none is an application hart or a device, which is not checked. -/
def State.pageLoc (s : State) (ctx : Option Nat) (dpa : Nat) : Except Miss Loc :=
  let p := dpa / 65536
  let off := dpa % 65536
  let e := s.pitEntry p
  if pitState e = 0 then .error (.absent p)
  else if ctx.any (fun c => !pitOwnv e || decide (pitOwner e ≠ c)) then .error (.fault .kttPermission)
  else if pitState e = 4 then .error (.fault .pagePoisoned)
  else if pitState e = 2 && decide (off / 256 < pitWmark e) then
    .ok (s.frameLoc (pitNframe e) off (pitKey e) p)
  else .ok (s.frameLoc (pitFrame e) off (pitKey e) p)

/-- A DPA of the CXL-window range (R23). -/
def isWindow (a : Nat) : Bool := decide (cxlBase ≤ a) && decide (a < cxlEnd)

/-- The configuration of the window that a DPA lies in. -/
def State.windowOf (s : State) (dpa : Nat) : WindowCfg := lookD s.windows ((dpa - cxlBase) / 2 ^ 38) .unused

/-- The lookup of a DPA of this package (R23, R365, R401): HBM data by its page, a CXL window by its port and offset. -/
def State.ownLoc (s : State) (ctx : Option Nat) (dpa : Nat) : Except Miss Loc :=
  if isHbm dpa then s.pageLoc ctx dpa
  else if isWindow dpa then
    match s.windowOf dpa with
    | .cxl _ _ _ => .ok { key := s.cxlKeyAt dpa, xf := .plain }
    | _ => .error (.fault .kttPermission)
  else .error (.fault .kttPermission)

/-- The lookup of an address of another package (R292, R398, R402): a path that is up and does not hold its traffic, and
the owner check at the remote home slice. -/
def State.farLoc (s : State) (ctx : Option Nat) (p a : Nat) : Except Miss Loc :=
  if !s.hasPath p then .error (.fault .linkDown)
  else if s.pathHeld p a then .error .held
  else if ctx.any (fun c => decide (Config.farOwner p (a / 65536) s.now ≠ c)) then .error (.fault .kttPermission)
  else .ok { key := remoteKey p a, xf := .plain }

/-- The lookup of a DPA (R23, R189, R365, R401). -/
def State.dpaLoc (s : State) (ctx : Option Nat) (core : Nat) (dpa : Nat) : Except Miss Loc :=
  if isHbm dpa then s.pageLoc ctx dpa
  else if isWindow dpa then
    match s.windowOf dpa with
    | .domain p base =>
      let a := base + (dpa - cxlBase) % 2 ^ 38
      if p = s.pkg then s.ownLoc ctx a else s.farLoc ctx p a
    | _ => s.ownLoc ctx dpa
  else if ctx.isSome && decide (spadWindow ≤ dpa) && decide (dpa < spadWindow + 5 * 2 ^ 24) then
    let o := dpa - spadWindow
    .ok { key := spadKey core (o % 2 ^ 24), xf := if o / 2 ^ 24 = 0 then .plain else .swizzled (o / 2 ^ 24) }
  else .error (.fault .kttPermission)

/-- The DPA under which an access is handled: a window of this package's own memory is that memory (R401). -/
def State.localDpa (s : State) (dpa : Nat) : Nat :=
  if isWindow dpa then
    match s.windowOf dpa with
    | .domain p base =>
      let a := base + (dpa - cxlBase) % 2 ^ 38
      if p = s.pkg && (isHbm a || isWindow a) then a else dpa
    | _ => dpa
  else dpa

/-- A tile hart's access at a virtual address: the KTT, then the home slice. -/
def State.reach (s : State) (h : Hart) (row : Nat) (p : Perm) (va : Dword) : Except Miss (Loc × Nat) :=
  match translate (s.ktt h.group) p va.toNat with
  | .error c => .error (.fault c)
  | .ok dpa =>
    match s.dpaLoc (some h.ctx) (h.coreOf row) dpa with
    | .error m => .error m
    | .ok l => .ok (l, dpa)

/-! ## Sectors and bytes of memory -/

/-- Storage behind a CXL port. -/
def isCxlKey (k : Nat) : Bool := decide (2 ^ 59 ≤ k) && decide (k < 2 ^ 60)

/-- The CXL.mem metadata bits that the peer behind a key advertises, as its window has them (R376, R406). -/
def State.cxlMeta (s : State) (k : Nat) : Nat :=
  (s.windows.findSome? (fun w =>
    match w.2 with
    | .cxl port off m =>
      if decide (cxlKey port off ≤ k) && decide (k < cxlKey port off + 2 ^ 38) then some m else none
    | _ => none)).getD 0

/-- The side-band of a storage sector as its tag and block metadata. -/
def State.side (s : State) (k : Nat) : BitVec 152 := lookD s.sides (k / 256) 0

def State.tagAt (s : State) (k : Nat) : BitVec 24 :=
  if isCxlKey k && decide (s.cxlMeta k < 24) then mkTag clsPlain 0 0 0 else (s.side k).extractLsb' 0 24

def State.bmetaAt (s : State) (k : Nat) : BitVec 128 :=
  if isCxlKey k then 0 else (s.side k).extractLsb' 24 128

/-- A 16-byte block enciphered or deciphered under a seal. -/
def sealBlock (s : Seal) (block : Nat) (x : BitVec 128) : BitVec 128 :=
  match s with
  | .raw => x
  | .under k g p => Config.cipher (Config.keyMaterial k g) (p * 4096 + block) x

def unsealBlock (s : Seal) (block : Nat) (x : BitVec 128) : BitVec 128 :=
  match s with
  | .raw => x
  | .under k g p => (Config.cipher (Config.keyMaterial k g) (p * 4096 + block)).symm x

/-- The 16 blocks of a sector read under one seal as they stand under another. -/
def reseal (old new : Seal) (key : Nat) (d : BitVec 2048) : BitVec 2048 :=
  BitVec.ofNat 2048 ((List.range 16).foldl (fun acc i =>
    let b := key % 65536 / 16 + i
    acc + (unsealBlock new b (sealBlock old b (d.extractLsb' (128 * i) 128))).toNat * 2 ^ (128 * i)) 0)

/-- The 16-byte chunks of a sector exchanged as a swizzled view exchanges them (R189); the exchange undoes itself. -/
def swizzleData (view key : Nat) (d : BitVec 2048) : BitVec 2048 :=
  BitVec.ofNat 2048 ((List.range 16).foldl (fun acc i =>
    let j := swizzle view (key % 2 ^ 24 / 256 * 256 + 16 * i) % 256 / 16
    acc + (d.extractLsb' (128 * j) 128).toNat * 2 ^ (128 * i)) 0)

/-- Stored bytes as a location sees them, and bytes seen as they are stored. -/
def Look.see (x : Look) (k : Nat) (d : BitVec 2048) : BitVec 2048 :=
  match x with
  | .plain => d
  | .sealed old new => reseal old new k d
  | .swizzled v => swizzleData v k d
  | .copied x => x.data

def Look.put (x : Look) (k : Nat) (d : BitVec 2048) : BitVec 2048 :=
  match x with
  | .plain => d
  | .sealed old new => reseal new old k d
  | .swizzled v => swizzleData v k d
  | .copied _ => d

/-- The tag of the sector that holds a location, as its reader sees it. -/
def State.tagOf (s : State) (l : Loc) : BitVec 24 :=
  match l.xf with
  | .copied x => x.tag
  | _ => s.tagAt l.key

/-- The sector that holds a location, as its reader sees it; a ZERO sector shows no stale bytes (R38). -/
def State.readSector (s : State) (l : Loc) : Sector :=
  let k := l.key / 256 * 256
  match l.xf with
  | .copied x => secVisible x
  | _ =>
    secVisible { tag := s.tagAt k, bmeta := s.bmetaAt k, data := l.xf.see k (BitVec.ofNat 2048 (getNat s.mem k 256)) }

/-- What a write to a storage sector ends: the reservations of application harts there (R280), and the LLC's copy of a
CXL line, which goes to the device (R291). -/
def State.noteWrite (s : State) (k : Nat) : State :=
  if s.hostRes.isEmpty && s.llc.isEmpty then s
  else { s with hostRes := s.hostRes.filter (fun x => x.2 != k / 256), llc := del s.llc (k / 256) }

/-- A whole sector written: tag, block metadata and data together (R32), with its check code, so that an error there is gone
(R31). -/
def State.writeSector (s : State) (l : Loc) (x : Sector) : State :=
  let k := l.key / 256 * 256
  { s.noteWrite k with mem := setNat s.mem k 256 (l.xf.put k x.data).toNat,
                       sides := putD s.sides (k / 256) 0 (x.bmeta ++ x.tag), errors := del s.errors (k / 256) }

/-- A sector's tag and metadata written as hardware zeroing does, without its data (R38): its check code is then that
of zero data, so an error of the stored bytes counts no more (R31). -/
def State.zeroSectorAt (s : State) (k : Nat) : State :=
  { s with sides := putD s.sides (k / 256) 0 0, errors := del s.errors (k / 256) }

/-- `n` bytes at a location inside one sector as a number (R129): a ZERO sector gives zero bytes. -/
def State.readRaw (s : State) (l : Loc) (n : Nat) : Nat :=
  if tagCls (s.tagOf l) = 0 then 0
  else
    if l.xf = .plain then getNat s.mem l.key n else secGet (s.readSector l) (l.key % 256) n

/-- `n` bytes written at a location inside one sector (R130): a ZERO sector is materialised in the same
write (R39), any other sector keeps its tag and metadata. -/
def State.writeRaw (s : State) (l : Loc) (n x : Nat) : State :=
  if tagCls (s.tagAt l.key) = 0 then
    s.writeSector l (secSet (secMaterialise (s.readSector l)) (l.key % 256) n x)
  else if l.xf = .plain then { s.noteWrite l.key with mem := setNat s.mem l.key n x }
  else s.writeSector l (secSet (s.readSector l) (l.key % 256) n x)

/-- A system access of the package scheduler to an HBM data DPA: the page's frame, where it has one. -/
def State.sysLoc (s : State) (dpa : Nat) : Option Loc :=
  match s.dpaLoc none 0 dpa with
  | .ok l => some l
  | .error _ => none

/-- A raw little-endian number read by the package at a DPA, 0 where no frame holds it. -/
def State.sysRead (s : State) (dpa n : Nat) : Nat :=
  match s.sysLoc dpa with
  | some l => s.readRaw l n
  | none => 0

/-- A raw number written by the package at a DPA, dropped where no frame holds it. -/
def State.sysWrite (s : State) (dpa n x : Nat) : State :=
  match s.sysLoc dpa with
  | some l => s.writeRaw l n x
  | none => s

/-! ## Replies and management requests -/

/-- The reply delivered to its requester. -/
def State.answer (s : State) (who : Nat) (r : Reply) : State := { s with replies := s.replies ++ [(who, r)] }

/-- The requester number of the management plane (log 27). -/
def managementPlane : Nat := 5000

/-- A management change is requested: it is pending until its gate is acknowledged, and the request returns busy (R28). -/
def State.askGate (s : State) (g : Gate) : State :=
  { s with gates := s.gates ++ [g] }.answer managementPlane .busy

/-- A management request is refused with nothing changed (R380, R401). -/
def State.refuse (s : State) : State := s.answer managementPlane .refused

/-! ## Dies (R17, R425) -/

/-- Die k of the release order SY, MH0 and MH1, SB0 to SB11, CD0 to CD7 has left reset. -/
def State.dieUp (s : State) (k : Nat) : Bool := decide (k < s.trust.released)

/-- The compute die of a virtual core is in service and has left reset (R17, R18). -/
def State.coreUp (s : State) (c : Nat) : Bool :=
  match (s.dieMap[c / 16]?).getD none with
  | some d => s.dieUp (15 + d)
  | none => false

/-! ## Interrupts and page-service records -/

/-- An application hart before it starts (R429): in machine mode, waiting for an interrupt. -/
def AppHart.reset : AppHart := { x := Vector.replicate 32 0, pc := 0, priv := 3, waiting := true }

def State.ahost (s : State) (n : Nat) : AppHart := lookD s.ahosts n AppHart.reset

/-- An interrupt delivered to an application hart's IMSIC, which ends its wait for one (R429). -/
def State.sendMsi (s : State) (ahart id : Nat) : State :=
  { s with msis := s.msis ++ [{ ahart := ahart, id := id }],
           ahosts := put s.ahosts ahart { s.ahost ahart with waiting := false } }

/-- The MSI of a context (R310). -/
def State.ctxMsi (s : State) (ctx : Nat) : State :=
  match look s.ctxs ctx with
  | some c => s.sendMsi c.ahart c.msiid
  | none => s

/-- A page-service record as 32 bytes (R371). -/
def PsRecord.toNat (r : PsRecord) (seq : Nat) : Nat :=
  r.kind + (if r.write then 2 ^ 61 else 0) + (if r.job then 2 ^ 62 else 0) + r.slot * 2 ^ 63
    + r.vcore * 2 ^ 65 + r.ctxid * 2 ^ 72 + r.sector * 2 ^ 84 + r.page * 2 ^ 92 + seq * 2 ^ 128
    + r.cycle % 2 ^ 64 * 2 ^ 192

/-- log₂ of the ring's record count, where the ring is configured (R370). -/
def State.psLog (s : State) : Option Nat :=
  let n := (s.regs.psring.extractLsb' 0 4).toNat
  if decide (4 ≤ n) && decide (n ≤ 12) then some n else none

/-- The oldest waiting record written where the ring has room; an MSI when the ring was empty (R371). -/
def State.psWriteOne (s : State) : State :=
  match s.psLog, s.psWait with
  | some n, r :: rest =>
    let used := (s.regs.pstail - s.regs.pshead.extractLsb' 0 32).toNat
    if used < 2 ^ n then
      let base := s.regs.psring.toNat / 4096 * 4096
      let seq := s.psSeq.toNat
      let s := { s with psWait := rest, psSeq := s.psSeq + 1 }
      let s := s.sysWrite (base + s.regs.pstail.toNat % 2 ^ n * 32) 32 (r.toNat seq)
      let s := { s with regs := { s.regs with pstail := s.regs.pstail + 1 } }
      if used = 0 then s.sendMsi (s.regs.psmsi.extractLsb' 16 6).toNat (s.regs.psmsi.extractLsb' 0 11).toNat
      else s
    else s
  | _, _ => s

/-- Waiting records written, oldest first, while the ring has room. -/
def psFlush : Nat → State → State
  | 0, s => s
  | k + 1, s => psFlush k s.psWriteOne

/-- An event reported to the operating system, in the order of the events (R371). -/
def State.psRecord (s : State) (r : PsRecord) : State :=
  psFlush (s.psWait.length + 1) { s with psWait := s.psWait ++ [r] }

/-! ## Uncorrectable and corrected sectors -/

/-- A sector written back as class POISON with FMT, CW and SEXP kept, charged to the page's owner by a
KIND 3 record (R375). -/
def State.poisonSector (s : State) (k page : Nat) : State :=
  let t := (s.side k).extractLsb' 0 24
  let t' := mkTag clsPoison (tagFmt t) (tagCw t) (tagSexp t)
  let s := { s with sides := putD s.sides (k / 256) 0 ((s.side k).extractLsb' 24 128 ++ t'),
                    errors := del s.errors (k / 256) }
  s.psRecord { cycle := s.now, page := page, sector := k % 65536 / 256, ctxid := pitOwner (s.pitEntry page),
               vcore := 0, slot := 0, job := false, write := false, kind := 3 }

/-! ## Banks (R378, R379, R389) -/

/-- A base die after reset (R379, R388). -/
def Stack.reset : Stack :=
  { hmask := [0x04104100, 0x08208200, 0x10410400, 0x20820800, 0x41041000, 0x82082000], packets := [], waiting := [], corr := [],
    uncorr := [], takeover := false, restarted := false, refreshes := 0, scrubPos := 0, scrubHours := 24 }

def State.stack (s : State) (n : Nat) : Stack := lookD s.hbm n Stack.reset
def State.setStack (s : State) (n : Nat) (x : Stack) : State := { s with hbm := put s.hbm n x }

/-- The set bits of a mask below a bound. -/
def bitsSet (n x : Nat) : List Nat := (List.range n).filter (fun i => x.testBit i)

/-- Parity of a number's bits. -/
def parity (n x : Nat) : Bool := (bitsSet n x).length % 2 == 1

/-- The pseudo-channel of a stack-local address (R378). -/
def Stack.csel (x : Stack) (sla : Nat) : Nat :=
  x.hmask.zipIdx.foldl (fun acc m => if parity 36 (sla &&& m.1.toNat) then acc + 2 ^ m.2 else acc) 0

/-- A saturating count. -/
def count16 (x : BitVec 16) : BitVec 16 := if x = 0xFFFF then x else x + 1

/-- A finding counted on its bank. -/
def Stack.found (x : Stack) (port pca : Nat) (uncorrectable : Bool) : Stack :=
  let k := port * 16 + pca % 16
  if uncorrectable then { x with uncorr := put x.uncorr k (count16 (lookD x.uncorr k 0)) }
  else { x with corr := put x.corr k (count16 (lookD x.corr k 0)) }

/-- A finding of a stack's base die counted on the bank of a storage sector (R389). -/
def State.countFound (s : State) (k : Nat) (uncorrectable : Bool) : State :=
  if 12 * 2 ^ 36 ≤ k then s
  else
    let x := s.stack (k / 2 ^ 36)
    let sla := k % 2 ^ 36
    s.setStack (k / 2 ^ 36) (x.found (x.csel sla) (sla / 2 ^ 14) uncorrectable)

/-! ## Errors of stored sectors (R31, R375, R387) -/

/-- The frame code of an offset of the windows: stack and frame index. -/
def windowFrame (f : Nat) : Nat := f / 2 ^ 36 * 2 ^ 20 + f % 2 ^ 36 / 65536

/-- The bytes of a frame as they are stored, encrypted. -/
def State.storedLoc (s : State) (f key : Nat) : Loc :=
  { key := key, xf := match look s.seals f with
      | some (.under k g p) => .sealed (.under k g p) .raw
      | _ => .plain }

/-- A stored sector with its bytes as they stand in memory. -/
def State.sectorStored (s : State) (k : Nat) : Sector :=
  let k := k / 256 * 256
  { tag := (s.side k).extractLsb' 0 24, bmeta := (s.side k).extractLsb' 24 128,
    data := (s.storedLoc (windowFrame k) k).xf.see k (BitVec.ofNat 2048 (getNat s.mem k 256)) }

/-- The errors of a storage sector that its check sees. -/
def State.errorsAt (s : State) (k : Nat) : SymbolErrors :=
  match look s.errors (k / 256) with
  | some e => errorsSeen (tagCls ((s.side k).extractLsb' 0 24) == 0) e
  | none => []

/-- What the decoder says of a storage sector (R31): nothing, that it has corrected it, or that it is uncorrectable. -/
def State.errorKind (s : State) (k : Nat) : Option Bool :=
  match s.errorsAt k with
  | [] => none
  | e =>
    match decodeErrors e with
    | none => some true
    | some [] => none
    | some _ => some false

/-- A sector as its decoder leaves it: its errors are gone, and where the decoder took them for others, it stands changed by
the difference. -/
def State.correct (s : State) (k : Nat) : State :=
  let k := k / 256 * 256
  let e := s.errorsAt k
  match errorSum e ((decodeErrors e).getD []) with
  | [] => { s with errors := del s.errors (k / 256) }
  | r => s.writeSector (s.storedLoc (windowFrame k) k) (upsetSector (s.sectorStored k) r)

/-- The home slice meets a sector before an access: an uncorrectable one becomes POISON (R31, R375), a
correctable one is corrected and written back (R387). Either is counted on its bank (R389). -/
def State.settle (s : State) (l : Loc) (dpa : Nat) : State :=
  match look s.errors (l.key / 256) with
  | none => s
  | some _ =>
    match s.errorKind l.key with
    | some true => (s.countFound l.key true).poisonSector (l.key / 256 * 256) (dpa / 65536)
    | some false => (s.countFound l.key false).correct l.key
    | none => s.correct l.key

/-! ## Cached copies (R281, R286, R288, R290, R291) -/

/-- How an access uses its sector: a plain read, which a cached copy may serve, a read or a write made at the home slice
itself, or a plain write. -/
inductive Use where
  | plain | sync | syncWrite | write
  deriving DecidableEq, Repr

def Use.writes : Use → Bool
  | .write | .syncWrite => true
  | _ => false

/-- The use of a plain access. -/
def Perm.use (p : Perm) : Use := if p.writes then .write else .plain

/-- A DPA of the core-local scratchpad window (R189). -/
def isSpadDpa (dpa : Nat) : Bool := decide (spadWindow ≤ dpa) && decide (dpa < spadWindow + 5 * 2 ^ 24)

/-- The key of a copy in the L2 of a virtual die. -/
def l2Key (die key : Nat) : Nat := die * 2 ^ 64 + key / 256

/-- The copy in an L2 or the LLC that serves a read of a core: of a line of another package, or of a CXL window. -/
def State.farCopy (s : State) (core : Nat) (l : Loc) : Option Sector :=
  if 2 ^ 60 ≤ l.key then look s.l2 (l2Key (core / 16) l.key)
  else if isCxlKey l.key then look s.llc (l.key / 256)
  else none

/-- The copy that serves a plain read of a core, where a cache holds one: its L1 first. Scratchpad has no cache (R276). -/
def State.copyAt (s : State) (core dpa : Nat) (l : Loc) : Option Sector :=
  if isSpadDpa dpa then none
  else
    match look (s.core core).l1 (dpa / 256) with
    | some x => some x.sec
    | none => s.farCopy core l

/-- A core's L1s lose every copy (R281). -/
def State.clearL1 (s : State) (c : Nat) : State :=
  if (s.core c).l1.isEmpty then s else s.modCore c (fun x => { x with l1 := [] })

/-- Some cores' L1s lose their copy of the sector of a DPA. -/
def State.dropL1 (s : State) (cores : List Nat) (dpa : Nat) : State :=
  cores.foldl (fun s c =>
    if (look (s.core c).l1 (dpa / 256)).isSome then s.modCore c (fun x => { x with l1 := del x.l1 (dpa / 256) }) else s) s

/-- The DPAs of the sectors of a line. -/
def lineSectors (dpa : Nat) : List Nat := (List.range 4).map (fun i => dpa / 1024 * 1024 + 256 * i)

/-- The sector of a DPA is uncorrectable. -/
def State.badAt (s : State) (dpa : Nat) : Bool :=
  match s.dpaLoc none 0 dpa with
  | .ok l => s.errorKind l.key == some true
  | .error _ => false

/-- A line that stands dirty in an L2 is recalled before its home slice performs an operation (R288): an uncorrectable
sector of it becomes POISON. -/
def State.recall (s : State) (dpa : Nat) : State :=
  if (look s.dirty (dpa / 1024)).isNone then s
  else
    (lineSectors dpa).foldl (fun s a =>
      match s.dpaLoc none 0 a with
      | .ok l => if s.badAt a then s.settle l a else s
      | .error _ => s) { s with dirty := del s.dirty (dpa / 1024) }

/-- The recall of a dirty line finds an uncorrectable sector (R288). -/
def State.recallFinds (s : State) (dpa : Nat) : Bool :=
  (look s.dirty (dpa / 1024)).isSome && (lineSectors dpa).any s.badAt

/-- The L2s of some cores' dies lose their copy of a storage sector. -/
def State.dropL2 (s : State) (cores : List Nat) (key : Nat) : State :=
  if s.l2.isEmpty then s else cores.foldl (fun s c => { s with l2 := del s.l2 (l2Key (c / 16) key) }) s

/-- A write or a synchronising access from some cores' hart or job to a line of another package: the L2s of their dies keep
no copy (R285, R290). The LLC drops its copy of a CXL line at the write itself. -/
def State.writeFar (s : State) (cores : List Nat) (l : Loc) : State :=
  if 2 ^ 60 ≤ l.key then s.dropL2 cores l.key else s

/-- A core's L1 copy of the sector of a DPA changed, where it has one. -/
def State.modL1 (s : State) (core dpa : Nat) (f : L1Copy → L1Copy) : State :=
  match look (s.core core).l1 (dpa / 256) with
  | some x => s.modCore core (fun c => { c with l1 := put c.l1 (dpa / 256) (f x) })
  | none => s

/-- A core's own L1 copy of a sector takes a write that has been made; one that is older than the sector's tag as it stands
now is dropped (R304). -/
def State.patchL1 (s : State) (core dpa : Nat) (l : Loc) (f : Sector → Sector) : State :=
  match look (s.core core).l1 (dpa / 256) with
  | none => s
  | some x => if (f x.sec).tag = s.tagAt l.key then s.modL1 core dpa (fun x => { x with sec := f x.sec }) else s.dropL1 [core] dpa

/-- A plain write of a hart's row goes through its L1 and its L2 to the home slice (R191): its core's copy of the sector takes
the write, and a line of device memory stands dirty in the L2. Once performed it is visible to every row of the hart (R271,
R273, R289), whose other cores and dies keep no older copy. -/
def State.writeThrough (s : State) (h : Hart) (row dpa : Nat) (l : Loc) (f : Sector → Sector) : State :=
  if isSpadDpa dpa then s
  else
    let core := h.coreOf row
    let s := (s.dropL1 (h.cores.filter (fun c => c != core)) dpa).patchL1 core dpa l f
    if isHbm dpa then { s with dirty := put s.dirty (dpa / 1024) (core / 16) } else s.writeFar h.cores l

/-- A write of a job made at the home slice (R295): no cache takes it; the L1 copies that it makes old are marked for the
DRAIN that drops them (R300), and a line that stood dirty in an L2 has been recalled. -/
def State.writePast (s : State) (core dpa : Nat) (l : Loc) : State :=
  if isSpadDpa dpa then s
  else
    let s := (s.cores.map (·.1)).foldl (fun s c => s.modL1 c dpa (fun x => { x with byJob := true })) s
    if isHbm dpa then s.recall dpa else s.writeFar [core] l

/-- A store at a location: where it leaves a TYPED float sector of a page in a format other than PFMT, the
page's BGDONE is cleared (R374). -/
def State.noteStore (s : State) (dpa : Nat) (l : Loc) : State :=
  if isHbm dpa then
    let e := s.pitEntry (dpa / 65536)
    let t := s.tagAt l.key
    if pitBgdone e && decide (tagCls t = clsTyped) && fmtFloat (tagFmt t) && tagFmt t != pitPfmt e then
      s.setPit (dpa / 65536) (pitSet e 6 1 0)
    else s
  else s

/-- A raw store at a location (R130). -/
def State.storeRaw (s : State) (dpa : Nat) (l : Loc) (n x : Nat) : State :=
  (s.writeRaw l n x).noteStore dpa l

/-! ## Trap codes and records -/

/-- The code of a cause (R265). -/
def causeCode : Cause → Nat
  | .illegalOpcode => 0x001 | .reservedField => 0x002 | .patchFieldAbsent => 0x003
  | .patchValueRange => 0x004 | .templateEmpty => 0x010 | .templateInvalid => 0x011
  | .landReserved => 0x012 | .dieDivergentBranch => 0x020 | .privilege => 0x030
  | .misaligned => 0x040 | .engineDeadlock => 0x050 | .serviceCall => 0x060
  | .forbiddenFormatPair => 0x080 | .containerMismatch => 0x081 | .invalidClassRead => 0x082
  | .poisonRead => 0x083 | .malformedTag => 0x084 | .malformedBlockScale => 0x085
  | .partialBlockStore => 0x086 | .storeFormatOverflow => 0x087 | .futureReadAsData => 0x088
  | .kttMiss => 0x100 | .kttPermission => 0x101 | .pagePoisoned => 0x102 | .pageAbsent => 0x103
  | .staleScopeIndex => 0x180 | .notScopeMember => 0x181 | .scopeIllFormed => 0x182
  | .lateFutureRead => 0x190 | .waiterTableFull => 0x191 | .notFutureCell => 0x192
  | .barrierMisaligned => 0x1A0 | .barrierOvercount => 0x1A1
  | .leaseNotHeld => 0x200 | .ringUnderflow => 0x201 | .ringMixed => 0x202 | .partnerAbort => 0x203
  | .queueSlotMismatch => 0x204 | .ringDescInvalid => 0x205 | .ringNotOwner => 0x206
  | .tapeFull => 0x210 | .tapeClobber => 0x211 | .tapeCorrupt => 0x212 | .gmapMiss => 0x213
  | .tapeRecompDepth => 0x214 | .tapeDieRows => 0x215
  | .jobFootprintInvalid => 0x280 | .jobCardInvalid => 0x281 | .linkDown => 0x381
  | .mcUncorrectable => 0x3C0 | .debugBreak => 0x3F0 | .watch => 0x3F1

/-- The fields of the trap record as one number (R264). -/
def TrapRecord.toNat (r : TrapRecord) : Nat :=
  r.cause.toNat + r.eng.toNat * 2 ^ 10 + r.av.toNat * 2 ^ 13 + r.progress.toNat * 2 ^ 14
    + r.async.toNat * 2 ^ 15 + r.nested.toNat * 2 ^ 16 + r.skip.toNat * 2 ^ 17
    + r.status.toNat * 2 ^ 32 + r.pc.toNat * 2 ^ 64
    + (r.idx.toList.zipIdx.foldl (fun acc x => acc + x.1.toNat * 2 ^ (128 + 16 * x.2)) 0)
    + r.addr.toNat * 2 ^ 256 + r.rows.toNat * 2 ^ 320 + r.tix.toNat * 2 ^ 328 + r.cls.toNat * 2 ^ 334
    + r.ctxid.toNat * 2 ^ 384 + r.vcore.toNat * 2 ^ 400 + r.slot.toNat * 2 ^ 408 + r.cycle.toNat * 2 ^ 448

/-- A bit of a record that is RZ is set (R261, R264). -/
def recordRz (x : Nat) : Bool :=
  bits x 447 410 != 0 || bitOf x 407 || bits x 399 396 != 0 || bits x 383 337 != 0
    || bits x 255 224 != 0 || bits x 31 18 != 0

/-- What raises a trap: its cause and engine code, the failing row, address, status word and progress,
and the failing word. -/
structure TrapInfo where
  cause    : Cause
  eng      : Nat
  row      : Nat
  addr     : Option Dword
  status   : BitVec 32
  progress : Bool
  pc       : Dword
  cls      : Nat
  tix      : BitVec 6
  /-- The index of the failing command, where it is not the engine's current one (R100). -/
  idx      : Option (BitVec 16) := none
  deriving DecidableEq, Repr

/-- The index of the command at the head of the queue of the engine with a code (R264): those before it that have left the
queue and not completed count too. -/
def Hart.curIdx (h : Hart) (n : Nat) : BitVec 16 :=
  (h.idx[n]?).getD 0 + BitVec.ofNat 16 (h.timed.filter (fun x => engCode x.1 == n)).length

/-- The record of a trap (R264). -/
def State.trapRecord (s : State) (h : Hart) (t : TrapInfo) : TrapRecord :=
  { cycle := BitVec.ofNat 64 (s.cycle (h.coreOf t.row)), slot := BitVec.ofNat 2 h.slot,
    vcore := BitVec.ofNat 7 (h.coreOf t.row), ctxid := BitVec.ofNat 12 h.ctx,
    cls := BitVec.ofNat 3 t.cls, tix := t.tix, rows := BitVec.ofNat 8 (2 ^ t.row),
    addr := t.addr.getD 0,
    idx := h.idx.setIfInBounds t.eng (t.idx.getD (h.curIdx t.eng)),
    pc := t.pc, status := t.status, skip := false,
    nested := h.priv, async := t.cause == .mcUncorrectable, progress := t.progress,
    av := t.addr.isSome, eng := BitVec.ofNat 3 t.eng, cause := BitVec.ofNat 10 (causeCode t.cause) }

/-- The DPA of a hart's save frame (R314). -/
def State.frameDpa (s : State) (h : Hart) : Nat :=
  match look s.ctxs h.ctx with
  | some c => c.frames + (16 * h.coreOf 0 + h.frame) * 2 ^ 20
  | none => 0

/-- The state in which no link holds its traffic: a record that must cross one is written when the hold ends, within the
step that raises the trap (log 13). -/
def State.unheld (s : State) : State :=
  { s with links := s.links.map (fun l => if l.2.state == .hold then (l.1, { l.2 with state := .active }) else l) }

/-- Where a record can be written at TRAPREC (R262): mapped with W, the page neither ABSENT nor POISONED
nor owned by another context. -/
def State.trecLoc (s : State) (h : Hart) : Option (Loc × Nat) :=
  match s.unheld.reach h 0 .w h.csr.traprec with
  | .ok x => some x
  | .error _ => none

/-- The record written at TRAPREC as a raw write; the hart's cores and dies keep no older copy of its sector, which its
handler reads. -/
def State.writeRecord (s : State) (h : Hart) (x : Loc × Nat) (r : TrapRecord) : State :=
  let dpa := s.localDpa x.2
  ((((s.dropL1 h.cores dpa).recall dpa).writeFar h.cores x.1)).storeRaw dpa x.1 64 r.toNat

/-- The record written into the trap area of the hart's frame (R262, R314). -/
def State.writeFrameRecord (s : State) (h : Hart) (r : TrapRecord) : State :=
  s.sysWrite (s.frameDpa h + 0x200) 64 r.toNat

/-- A hart suspended by a trap: the MSI of its context and a KIND 5 record (R262, R321). -/
def State.suspend (s : State) (hid : Nat) (h : Hart) : State :=
  let s := s.setHart hid { h with state := .suspended }
  (s.ctxMsi h.ctx).psRecord
    { cycle := s.now, page := 0, sector := 0, ctxid := h.ctx, vcore := h.coreOf 0, slot := h.slot,
      job := false, write := false, kind := 5 }

/-- What a trap level keeps of a scalar instruction's wait: a BWAIT stays registered (R362). -/
def Wait.kept (w : Wait) : Wait :=
  match w with
  | .bwait ks sc => .bwait ks sc
  | _ => .none

/-- Taking a trap (R262): TRAPCAUSE is set, the record is written where the table gives, and the hart
enters H at TRAPVEC or is suspended. The scalar pipeline is held at its PC, and every queued command
keeps its place. -/
def State.takeTrap (s : State) (hid : Nat) (t : TrapInfo) : State :=
  match look s.harts hid with
  | none => s
  | some h =>
    let r := s.trapRecord h t
    let g := { h with csr := { h.csr with trapEng := BitVec.ofNat 3 t.eng,
                                          trapCause := BitVec.ofNat 10 (causeCode t.cause) },
                      wait := .none, lastProgress := s.now }
    let level := fun (inFrame : Bool) => ({ hold := h.pc, inFrame := inFrame, wait := h.wait.kept } : TrapLevel)
    if h.priv then
      (s.writeFrameRecord h r).suspend hid { g with traps := level true :: h.traps }
    else
      match s.trecLoc h with
      | some l =>
        if h.csr.trapvec != 0 && t.cause != .mcUncorrectable then
          (s.writeRecord h l r).setHart hid { g with traps := level false :: h.traps, priv := true,
                                                     pc := h.csr.trapvec, state := .running }
        else if h.csr.traprec != 0 then
          (s.writeRecord h l r).suspend hid { g with traps := level false :: h.traps }
        else (s.writeFrameRecord h r).suspend hid { g with traps := level true :: h.traps }
      | none => (s.writeFrameRecord h r).suspend hid { g with traps := level true :: h.traps }

/-- The engine that a record's ENG names, where it is one of the five. -/
def engOfCode (n : Nat) : Option Eng :=
  match n with
  | 1 => some .ld | 2 => some .xv | 3 => some .mx | 4 => some .st | 5 => some .jb
  | _ => none

/-- A command that faulted at formation is queued on some engine (R88). -/
def Hart.faultQueued (h : Hart) : Bool := h.queues.toList.any (fun q => q.any (fun c => c.fault.isSome))

/-- A command that SKIP ends: it completes with no effect but its token pushes and slot set (R261), and it leaves no trace
entry (R266). -/
def Command.skipped (c : Command) : Command :=
  { c with fault := none, issued := true, started := [], arrived := [], touched := [], flags := 0,
           done := some { flags := 0, pops := [], tape := none, touched := [] } }

/-- Where the scalar pipeline is held behind the trap raised last, with the wait that stands there. -/
def Hart.held (h : Hart) : Dword × Wait :=
  match h.traps with
  | t :: _ => (t.hold, t.wait)
  | [] => (h.pc, .none)

/-- The hart resumed from a trap by its record (R261): a scalar or Spatula trap goes to the record's PC, or
past it with SKIP (`after` is the address of the instruction after the recorded one); an engine trap
leaves the command to issue again or to complete with no effect, and the scalar pipeline at its held
resume point. A VLDR that failed at its landing is taken back into its queue to issue again, and a store refused when it was
to be performed is performed again. Dispatch goes on unless a command that faulted at formation is still queued on some
engine (R88). -/
def Hart.resume (h : Hart) (rec : Nat) (after : Dword) (priv : Bool) : Hart :=
  let eng := bits rec 12 10
  let skip := bitOf rec 17
  let (hold, wait) := h.held
  let rest := h.traps.drop 1
  let h := { h with traps := rest, priv := priv, state := .running }
  match engOfCode eng with
  | none =>
    let pc := if skip then after else BitVec.ofNat 64 (bits rec 127 64)
    { h with pc := pc, wait := if pc = hold then wait else .none }
  | some e =>
    let g := match h.timed.find? (fun x => x.1 == e && !x.2.issued) with
      | some (_, c) =>
        let rest := h.timed.filter (fun (x : Eng × Command) => x.2.order != c.order)
        if skip then
          { h with timed := rest ++ [(e, c.skipped)], stores := h.stores.filter (fun x => x.order != c.order) }
        else if h.stores.any (fun x => x.order == c.order) then { h with timed := rest ++ [(e, { c with issued := true })] }
        else { h.setQueue e ({ c with done := none } :: h.queue e) with timed := rest }
      | none =>
        h.setQueue e (match h.queue e with
          | c :: cs => if skip then c.skipped :: cs else c :: cs
          | [] => [])
    { g with pc := hold, halted := g.faultQueued, wait := wait }

/-- The job whose fault a hart's trap on the JB engine reports (R260). -/
def State.trappedJob (s : State) (hid rec : Nat) : Option (Nat × Job) :=
  if bits rec 12 10 = 5 then s.jobs.find? (fun x => x.2.hart == some hid && x.2.state == .trapped) else none

/-- The return from a trap (R260, R261): a job's trap lets the job go on from its count, or abandons it with SKIP;
any other is the hart's own. -/
def State.resumeTrap (s : State) (hid : Nat) (h : Hart) (rec : Nat) (after : Dword) (priv : Bool) : State :=
  match s.trappedJob hid rec with
  | some (id, j) =>
    let g := { h with traps := h.traps.drop 1, priv := priv, state := .running, pc := h.held.1, wait := h.held.2 }
    { s.setHart hid g with jobs := put s.jobs id { j with state := .running, skip := j.skip || bitOf rec 17 } }
  | none => s.setHart hid (h.resume rec after priv)

/-! ## Retirement of scalar instructions -/

/-- A scalar instruction retires and the pipeline goes on at an address (R105, R264). -/
def Hart.retireTo (h : Hart) (now : Nat) (pc : Dword) : Hart :=
  { h with pc := pc, csr := { h.csr with retired := h.csr.retired + 1 },
           idx := h.idx.setIfInBounds 0 ((h.idx[0]?).getD 0 + 1), lastProgress := now, wait := .none }

/-- A scalar instruction retires and the pipeline goes on at the next instruction. -/
def Hart.retire (h : Hart) (now : Nat) (px : Px) : Hart :=
  h.retireTo now (h.pc + BitVec.ofNat 64 (pxBytes px))

/-- The acting hart's instruction retires with the hart as given. -/
def State.retire (s : State) (hid : Nat) (h : Hart) (px : Px) : State :=
  s.setHart hid (h.retire s.now px)

/-- A trap that a scalar word raises at its own address (R78). -/
def scalarInfo (h : Hart) (cls : Nat) (c : Cause) (row : Nat) (addr : Option Dword) : TrapInfo :=
  { cause := c, eng := 0, row := row, addr := addr, status := 0, progress := false, pc := h.pc,
    cls := cls, tix := 0 }

/-- The acting hart, or the fault of a step that names none. -/
def withHart (s : State) (f : Nat → Hart → Out) : Out :=
  match look s.harts s.focus.hart with
  | some h => f s.focus.hart h
  | none => .fault .noHart

/-- The instruction carries a prefix. -/
def pxAny (px : Px) : Bool := px.diep.isSome || px.valx.isSome

/-- The trap of a prefix or engine word in H (R263): the class recorded is that of the failing word. -/
def privilegeInfo (h : Hart) (cls : Nat) : TrapInfo := scalarInfo h cls .privilege 0 none

/-- A scalar meaning that reads some registers: a prefix raises PRIVILEGE in H (R263); otherwise it waits,
changing nothing, while one of the registers has a result pending (R80, R97). -/
def withRegs (s : State) (px : Px) (regs : List Nat) (f : Nat → Hart → Out) : Out :=
  withHart s (fun hid h =>
    if h.priv && pxAny px then .next (s.takeTrap hid (privilegeInfo h 7))
    else if regs.any h.pending then .next s
    else f hid h)

/-! ## The page-absent reply -/

/-- PEND set and a KIND 1 record written for the first page-absent reply of a page (R371). -/
def State.absentRecord (s : State) (page sector ctx vcore slot : Nat) (job write : Bool) : State :=
  let e := s.pitEntry page
  if pitPend e then s
  else
    (s.setPit page (pitSet e 5 1 1)).psRecord
      { cycle := s.now, page := page, sector := sector, ctxid := ctx, vcore := vcore, slot := slot,
        job := job, write := write, kind := 1 }

end Sys2Proof.Machine
end

