-- ==== Sys2Proof/Machine/Csr.lean ====
section
/-! DEFINITION. The control and status registers (spec/05_words.md R104, R105): what each reads as, and how a
write enters it (spec/00_scope.md R4, R5; spec/07_scalar.md R135 to R138), with the installation of a promotion
table (spec/04_arithmetic.md R55). -/

namespace Sys2Proof.Machine

/-- The CSR numbers of R105. -/
def csrDmask : Nat := 0x003
def csrXstat : Nat := 0x008
def csrSrseed : Nat := 0x00B
def csrPrtaba : Nat := 0x040

/-- Bit fields of a 64-bit register put together: pairs of a value and the bit it starts at. -/
def dwordOf (fs : List (Nat × Nat)) : Dword :=
  BitVec.ofNat 64 (fs.foldl (fun acc x => acc + x.1 * 2 ^ x.2) 0)

/-- HSTAT (R105). -/
def State.hstat (s : State) (h : Hart) : Dword :=
  dwordOf [(h.stage, 24), (h.slot, 16), (h.span - 1, 8), ((s.core (h.coreOf 0)).fused.toNat, 3),
    (h.prio.toNat, 1), (h.priv.toNat, 0)]

/-- What a CSR reads as (R105); RZ fields read zero. -/
def State.csrValue (s : State) (h : Hart) (n : Nat) : Dword :=
  let c := h.csr
  match n with
  | 0x000 => s.hstat h
  | 0x001 => dwordOf [(c.acl, 36), (c.xcl, 32), (c.vlcw.toNat, 16), (c.vl.toNat, 0)]
  | 0x002 => BitVec.ofNat 64 c.trows
  | 0x003 => c.dmask.zeroExtend 64
  | 0x004 => (c.ds[0]?).getD 0
  | 0x005 => (c.ds[1]?).getD 0
  | 0x006 => (c.ds[2]?).getD 0
  | 0x007 => (c.ds[3]?).getD 0
  | 0x008 => c.xstat.zeroExtend 64
  | 0x009 => c.rmode.zeroExtend 64
  | 0x00A => dwordOf [(c.ldFmt.toNat, 16), (c.ldCw.toNat, 13), (c.ldSexp.toNat, 0)]
  | 0x00B => c.srseed.zeroExtend 64
  | 0x010 => BitVec.ofNat 64 (s.hartCycle h)
  | 0x011 => c.retired
  | 0x020 => c.tapeb
  | 0x021 => c.tapel
  | 0x022 => c.tapep
  | 0x023 => c.tapen.zeroExtend 64
  | 0x024 => dwordOf [(c.recMark.toNat, 32), (c.recording.toNat, 0)]
  | 0x025 => dwordOf [(c.revAct.toNat, 63), (c.revNext.toNat, 0)]
  | 0x030 => c.trapvec
  | 0x031 => c.traprec
  | 0x032 => dwordOf [(c.trapEng.toNat, 10), (c.trapCause.toNat, 0)]
  | 0x040 => c.prtaba
  | 0x041 => dwordOf [(c.panelCol.toNat, 32), (c.panelRow.toNat, 0)]
  | _ => 0

/-- The RZ bits of a CSR (R105). -/
def csrRz (n : Nat) : Dword :=
  match n with
  | 0x000 => ~~~ (dwordOf [(3, 24), (3, 16), (7, 8), (15, 0)])
  | 0x001 => ~~~ (dwordOf [(0xFF, 32), (0x7FFFF, 0)])
  | 0x002 => ~~~ 0x1F
  | 0x003 => ~~~ 0xFF
  | 0x008 => ~~~ 0x1FF
  | 0x009 => ~~~ 7
  | 0x00A => ~~~ 0x1FE0FF
  | 0x00B => ~~~ 0xFFFFFFFF
  | 0x020 => 0xFF
  | 0x021 => 0xFF
  | 0x022 => 0x3F
  | 0x023 => ~~~ 0xFFFFFFFF
  | 0x024 => 0xFFFFFFFE
  | 0x025 => 0x7FFFFFFF00000000
  | 0x030 => 3
  | 0x031 => 0x3F
  | 0x032 => ~~~ 0x1FFF
  | _ => 0

/-- The CSRs whose write is for H only (R104). -/
def csrHOnly (n : Nat) : Bool := n == 0x030 || n == 0x031 || n == 0x032 || n == 0x040

/-- The hart with a CSR's writable fields set, RO fields ignoring the write (R4, R105). -/
def Hart.csrStore (h : Hart) (n : Nat) (x : Dword) : Hart :=
  let c := h.csr
  let c := match n with
    | 0x003 => { c with dmask := x.extractLsb' 0 8 &&& BitVec.ofNat 8 (2 ^ h.span - 1) }
    | 0x004 => { c with ds := c.ds.setIfInBounds 0 x }
    | 0x005 => { c with ds := c.ds.setIfInBounds 1 x }
    | 0x006 => { c with ds := c.ds.setIfInBounds 2 x }
    | 0x007 => { c with ds := c.ds.setIfInBounds 3 x }
    | 0x008 => { c with xstat := x.extractLsb' 0 9 }
    | 0x009 => { c with rmode := x.extractLsb' 0 3 }
    | 0x00A => { c with ldFmt := x.extractLsb' 16 5, ldCw := x.extractLsb' 13 3, ldSexp := x.extractLsb' 0 8 }
    | 0x00B => { c with srseed := x.extractLsb' 0 32 }
    | 0x020 => { c with tapeb := x }
    | 0x021 => { c with tapel := x }
    | 0x022 => { c with tapep := x }
    | 0x023 => { c with tapen := x.extractLsb' 0 32 }
    | 0x030 => { c with trapvec := x }
    | 0x031 => { c with traprec := x }
    | 0x040 => { c with prtaba := x }
    | _ => c
  { h with csr := c }

/-- The cause of R5 and R60 that a value put into a CSR raises. -/
def csrReject (n : Nat) (x : Dword) : Option Cause :=
  if x &&& csrRz n != 0 then some .reservedField
  else if n = 0x009 && decide (6 ≤ x.toNat) then some .reservedField
  else none

/-! ## Waiting for engine commands -/

/-- A command for which a waiting scalar instruction waits (R138, R226): any command not yet completed; with a
trap pending, only one that has issued, the others being held (R396). -/
def Hart.awaits (h : Hart) (e : Eng) : Bool :=
  (h.queue e).any (fun c => h.traps.isEmpty || c.issued)

/-- Every engine command of the hart dispatched so far has completed, but for those that a trap holds. -/
def Hart.enginesIdle (h : Hart) : Bool :=
  !([Eng.ld, .xv, .mx, .st, .jb].any h.awaits) && !(h.timed.any (fun x => h.traps.isEmpty || x.2.issued))

/-- A CSR access waits: XSTAT and SRSEED for every engine (R138), the tape registers for MX (R226). -/
def Hart.csrWaits (h : Hart) (n : Nat) : Bool :=
  if n = csrXstat || n = csrSrseed then !h.enginesIdle
  else if 0x020 ≤ n && n ≤ 0x023 then h.awaits .mx
  else false

/-! ## Promotion tables -/

/-- Bytes written by the package from a DPA upward, one by one, each in its page's frame. -/
def State.sysPut (s : State) (dpa : Nat) (bs : List Byte) : State :=
  (bs.zipIdx).foldl (fun s x => s.sysWrite (dpa + x.2) 1 x.1.toNat) s

/-- Bytes read by the package from a DPA upward. -/
def State.sysGet (s : State) (dpa n : Nat) : List Byte :=
  (List.range n).map (fun i => BitVec.ofNat 8 (s.sysRead (dpa + i) 1))

end Sys2Proof.Machine
end

