-- ==== Sys2Proof/Machine/Mem.lean ====
section
/-! DEFINITION. The accesses of a hart to memory: the checks made at issue (spec/07_scalar.md R128), the
checks at the home slice (R37, R365, R368), and raw reads of the structures that instructions consume. -/

namespace Sys2Proof.Machine

/-- What stops an instruction at an access: a cause in a die row with its address, a page-absent reply to
the access at a DPA (R368), or a link that holds its traffic: nothing has happened, and the access waits (R398). -/
inductive Stop where
  | cause (c : Cause) (row : Nat) (addr : Option Dword)
  | absent (row dpa : Nat) (write : Bool)
  | held
  deriving DecidableEq, Repr

/-- A watch unit matches an access (R432). Unit u of core c has the key 2 c + u. -/
def State.watched (s : State) (core ctx : Nat) (va n : Nat) (p : Perm) : Bool :=
  [0, 1].any (fun u =>
    match look s.watches (2 * core + u) with
    | none => false
    | some w =>
      decide (w.ctx = ctx) && decide (w.lo < va + n) && decide (va ≤ w.hi)
        && (match p with
            | .r => w.loads
            | .w => w.stores
            | .rw => w.loads || w.stores
            | .x => false))

/-- The number under which a KEEP registration holds the sector of a DPA, as a core reaches it (R231, R305):
scratchpad by its storage, memory by its DPA, which no pass changes. -/
def keepKey (core dpa : Nat) : Nat :=
  if decide (spadWindow ≤ dpa) && decide (dpa < spadWindow + 5 * 2 ^ 24) then
    spadKey core ((dpa - spadWindow) % 2 ^ 24) / 256
  else dpa / 256

/-- A write to a sector that a registration of the context holds (R305). -/
def State.clobbers (s : State) (ctx key : Nat) : Bool :=
  s.keeps.any (fun k => decide (k.ctx = ctx) && k.sectors.contains key)

/-- The checks of an access at issue: alignment, the KTT, KEEP registrations and the watch units (R128, R305,
R432). -/
def State.issueCheck (s : State) (h : Hart) (row : Nat) (p : Perm) (va : Dword) (n align : Nat) :
    Except Stop Nat :=
  if va.toNat % align ≠ 0 then .error (.cause .misaligned row (some va))
  else
    match translate (s.ktt h.group) p va.toNat with
    | .error c => .error (.cause c row (some va))
    | .ok d =>
      let dpa := s.localDpa d
      if p.writes && s.clobbers h.ctx (keepKey (h.coreOf row) dpa) then
        .error (.cause .tapeClobber row (some va))
      else if s.watched (h.coreOf row) h.ctx va.toNat n p then .error (.cause .watch row (some va))
      else .ok dpa

/-- An access that crosses to another package, as the link that carries it counts it (R400): each takes one flit (DESIGN
CHOICE, log 13). -/
def State.crossed (s : State) (l : Loc) : State :=
  if l.key < 2 ^ 60 then s
  else
    match s.pathFor ((l.key - 2 ^ 60) / 2 ^ 52) (l.key % 2 ^ 52) with
    | some (n, x) => { s with links := put s.links n { x with flits := x.flits + 1 } }
    | none => s

/-- The access at the home slice: the owner and the page state (R365, R368), and a sector with an error settled. A plain
read may be served by a copy; what it returns is no older for a later read of the hart on another core, whose copy goes
(R285). An operation at the home slice recalls the line, raises POISON_READ where the recall finds an uncorrectable sector
(R288), and leaves the hart no copy in any of its cores and dies (R243, R285). -/
def State.home (s : State) (h : Hart) (row dpa : Nat) (va : Dword) (u : Use) : Except Stop (State × Loc) :=
  match s.dpaLoc (some h.ctx) (h.coreOf row) dpa with
  | .error (.absent _) => .error (.absent row dpa u.writes)
  | .error (.fault c) => .error (.cause c row (some va))
  | .error .held => .error .held
  | .ok l =>
    match u with
    | .plain =>
      let s := s.dropL1 (h.cores.filter (fun c => c != h.coreOf row)) dpa
      let s := s.dropL2 (h.cores.filter (fun c => c / 16 != h.coreOf row / 16)) l.key
      match s.copyAt (h.coreOf row) dpa l with
      | some x => .ok (s, { l with xf := .copied x })
      | none => .ok ((s.settle l dpa).crossed l, l)
    | .write => .ok ((s.settle l dpa).crossed l, l)
    | _ =>
      if s.recallFinds dpa then .error (.cause .poisonRead row (some va))
      else .ok ((((((s.dropL1 h.cores dpa).recall dpa).writeFar h.cores l)).settle l dpa).crossed l, l)

/-- The sector of an access that stopped on POISON_READ, settled, with its line recalled where it stood dirty: an
uncorrectable one is written back as POISON with its record (R288, R375). -/
def State.settleStop (s : State) (h : Hart) (x : Stop) : State :=
  match x with
  | .cause .poisonRead row (some va) =>
    match kttEntry (s.ktt h.group) va.toNat with
    | none => s
    | some e =>
      let dpa := (e.dpapg + (va.toNat / 65536 - e.vapg)) * 65536 + va.toNat % 65536
      match s.dpaLoc (some h.ctx) (h.coreOf row) dpa with
      | .ok l => (s.recall dpa).settle l dpa
      | .error _ => s
  | _ => s

/-- An access that was checked at issue, again at its home slice: its DPA and location. -/
def State.unitLoc (s : State) (h : Hart) (row : Nat) (p : Perm) (va : Dword) : Except Stop (State × Nat × Loc) :=
  match translate (s.ktt h.group) p va.toNat with
  | .error c => .error (.cause c row (some va))
  | .ok d =>
    match s.home h row (s.localDpa d) va p.use with
    | .error x => .error x
    | .ok (s, l) => .ok (s, s.localDpa d, l)

/-- A raw store that materialises a ZERO sector with the format E2M1B on CXL memory behind a page (R39, R376). -/
def State.rawBarred (s : State) (dpa : Nat) (l : Loc) : Bool :=
  isHbm dpa && isCxlKey l.key && tagCls (s.tagAt l.key) == 0 && tagFmt (s.tagAt l.key) == fE2m1

/-- The raw access at the home slice: the class check of R37 and R43 besides, and that of R376. -/
def State.homeRaw (s : State) (h : Hart) (row dpa : Nat) (va : Dword) (u : Use) :
    Except Stop (State × Loc) := do
  let (s, l) ← s.home h row dpa va u
  match rawFault (s.tagOf l) with
  | some c => .error (.cause c row (some va))
  | none => if u.writes && s.rawBarred dpa l then .error (.cause .storeFormatOverflow row (some va)) else .ok (s, l)

/-- Bytes written into a sector, a ZERO one materialised (R39). -/
def secWrite (y : Sector) (off n x : Nat) : Sector :=
  secSet (if tagCls y.tag = 0 then secMaterialise y else y) off n x

/-- A plain raw store of a hart's row at a location. -/
def State.storeThrough (s : State) (h : Hart) (row dpa : Nat) (l : Loc) (n x : Nat) : State :=
  (s.storeRaw dpa l n x).writeThrough h row dpa l (fun y => secWrite y (dpa % 256) n x)

/-- The context's promotion table in use (R56). -/
def State.prtOf (s : State) (h : Hart) : Option (List Byte) :=
  match look s.ctxs h.ctx with
  | some c => c.prt
  | none => none

/-! ## Typed stores at a location -/

/-- The store-demote policy of a page (R76, R367). -/
def State.policyOf (s : State) (dpa : Nat) : Policy :=
  if isHbm dpa then
    let e := s.pitEntry (dpa / 65536)
    if pitPmode e = 1 || pitPmode e = 3 then some (pitPfmt e) else none
  else none

/-- An E2M1B sector may not stand on CXL memory behind a page (R376). -/
def barredOnCxl (dpa : Nat) (l : Loc) (x : Sector) : Bool :=
  isHbm dpa && isCxlKey l.key && tagCls x.tag == clsTyped && tagFmt x.tag == fE2m1

/-- A sector to be stored, unless R376 bars it. -/
def storable (dpa : Nat) (l : Loc) (x : Sector × Flags) : Except Cause (Sector × Flags) :=
  if barredOnCxl dpa l x.1 then .error .storeFormatOverflow else .ok x

/-- The sector that a full-sector store leaves, with its flags (R74, R76). -/
def fullStore (s : State) (dpa : Nat) (l : Loc) (x : Sector) : Except Cause (Sector × Flags) := do
  storable dpa l (← storeWhole (s.policyOf dpa) x)

/-- The elements of a container that lie wholly within bits [lo, hi) of a sector. -/
def withinBits (w : BitVec 3) (lo hi : Nat) : List Bool :=
  (List.range (elemCount w)).map (fun i => decide (lo ≤ i * cwBits w) && decide ((i + 1) * cwBits w ≤ hi))

/-- The sector that a partial store of bits [lo, hi) leaves, with its flags (R75, R76): elements are counted at the
stored sector's own container, those of a ZERO one at the old sector's. -/
def partStore (s : State) (prt : Option (List Byte)) (rd : Reader) (dpa : Nat) (l : Loc) (x : Sector) (lo hi : Nat) :
    Except Cause (Sector × Flags) := do
  let old := s.readSector l
  let o ← openMerge rd old
  let n ← openTyped rd x
  let w := if n.zero then (o.map (fun (o : Opened) => o.cw)).getD 0 else n.cw
  let y ← storePartial prt rd (s.policyOf dpa) old x (withinBits w lo hi)
  storable dpa l y

/-! ## Future cells -/

/-- The squashed entry with its count lowered once; at 0 it goes to the tail of its stage's list (R354). -/
def lowerDeps (q : List Squashed) (table entry : Nat) : List Squashed :=
  match q.find? (fun x => x.table == table && x.entry == entry) with
  | none => q
  | some x =>
    let y := { x with deps := x.deps - 1 }
    if y.deps = 0 then q.filter (fun z => !(z.table == table && z.entry == entry)) ++ [y]
    else q.map (fun z => if z.table == table && z.entry == entry then y else z)

/-- Every waiter on a cell is removed and lowers its entry's dependence count (R354, R363). -/
def State.releaseCell (s : State) (ctx cell : Nat) : State :=
  let mine := s.waiters.filter (fun w => decide (w.ctx = ctx) && decide (w.cell = cell))
  if mine.isEmpty then s
  else
    let s := { s with waiters := s.waiters.filter (fun w => !(decide (w.ctx = ctx) && decide (w.cell = cell))) }
    mine.foldl (fun s w =>
      s.modGroup w.group (fun g => { g with squashed := lowerDeps g.squashed w.table w.entry })) s

/-- A whole sector stored by a hart's row. -/
def State.storeSector (s : State) (h : Hart) (row dpa : Nat) (l : Loc) (x : Sector) : State :=
  ((s.writeSector l x).noteStore dpa l).writeThrough h row dpa l (fun _ => x)

/-- A whole sector stored by a hart's row, with the waiters of the cell that it replaces released (R41, R363). -/
def State.putSector (s : State) (h : Hart) (row dpa : Nat) (l : Loc) (x : Sector) : State :=
  (s.storeSector h row dpa l x).releaseCell h.ctx (keepKey (h.coreOf row) dpa)

/-- The issue checks of one access per row, in ascending row order. -/
def State.checkRows (s : State) (h : Hart) (p : Perm) (n align : Nat) (va : Nat → Dword) :
    List Nat → Except Stop (List (Nat × Nat))
  | [] => .ok []
  | j :: js => do
    let dpa ← s.issueCheck h j p (va j) n align
    let rest ← s.checkRows h p n align va js
    pure ((j, dpa) :: rest)

/-- The home-slice checks of one raw access per row, in ascending row order. -/
def State.homeRows (s : State) (h : Hart) (u : Use) (va : Nat → Dword) :
    List (Nat × Nat) → Except Stop (State × List (Nat × Loc))
  | [] => .ok (s, [])
  | (j, dpa) :: js => do
    let (s, l) ← s.homeRaw h j dpa (va j) u
    let (s, rest) ← s.homeRows h u va js
    pure (s, (j, l) :: rest)

/-- A raw read of some sector pieces of `chunk` bytes from an address, as one number (R129). -/
def State.rawPieces (s : State) (h : Hart) (row : Nat) (chunk : Nat) (va : Dword) :
    Nat → Except Stop (State × Nat)
  | 0 => .ok (s, 0)
  | k + 1 => do
    let dpa ← s.issueCheck h row .r va chunk 1
    let (s, l) ← s.homeRaw h row dpa va .plain
    let x := s.readRaw l chunk
    let (s, y) ← s.rawPieces h row chunk (va + BitVec.ofNat 64 chunk) k
    pure (s, x + 2 ^ (8 * chunk) * y)

/-- A structure of `chunk * k` bytes read as raw reads at an aligned address. -/
def State.rawStruct (s : State) (h : Hart) (row : Nat) (align chunk k : Nat) (va : Dword) :
    Except Stop (State × Nat) :=
  if va.toNat % align ≠ 0 then .error (.cause .misaligned row (some va))
  else s.rawPieces h row chunk va k

end Sys2Proof.Machine
end

