-- ==== Sys2Proof/Machine/Slots.lean ====
section
/-! DEFINITION. Harts on their slots: whose groups count as placed, the clusters that they hold, when a pre-emption deadline
stands against one, and when a trap may be raised for one (spec/20_group.md R347, R349, R352, R356, R358). -/

namespace Sys2Proof.Machine

/-! ## Harts on cores (R347, R349) -/

/-- The hart holds its slot: it runs, sleeps or is suspended. -/
def Hart.onSlot (h : Hart) : Bool :=
  match h.state with
  | .running | .sleeping | .suspended => true
  | _ => false

/-- A hart whose group counts as placed on the hart's cores: it is neither PARKED nor SAVED (R347). -/
def Hart.placed (h : Hart) : Bool :=
  match h.state with
  | .parked | .saved | .savedPage _ => false
  | _ => true

/-- The harts that hold a slot on a core. -/
def State.onCore (s : State) (core : Nat) : List (Nat × Hart) :=
  s.harts.filter (fun x => x.2.cores.contains core && x.2.onSlot)

/-- The harts whose groups count as placed on a core through them. -/
def State.placedOn (s : State) (core : Nat) : List (Nat × Hart) :=
  s.harts.filter (fun x => x.2.cores.contains core && x.2.placed)

/-- The lane clusters of a hart in use: a sleeping hart has lent them (R349, R351). -/
def Hart.clusters (h : Hart) : Nat := if h.state == .sleeping then 0 else h.csr.xcl + h.csr.acl

/-- The free lane clusters of a core (R349). -/
def clustersFree (hs : List (Nat × Hart)) : Nat := 16 - (hs.map (fun x => x.2.clusters)).sum

/-- The clusters free on every core of a hart, its own not counted. -/
def State.poolFor (s : State) (hid : Nat) (h : Hart) : Nat :=
  (h.cores.map (fun c => clustersFree ((s.onCore c).filter (fun x => x.1 != hid)))).foldl Nat.min 16

/-! ## Pre-emption deadlines (R356, R358) -/

/-- DEADLINE of a context in core-clock periods (R310). -/
def State.deadlineOf (s : State) (ctx : Nat) : Nat :=
  match look s.ctxs ctx with
  | some c => (if c.deadline = 0 then 10000 else c.deadline) * 940
  | none => 10000 * 940

/-- The deadline of a request has passed for a hart that has neither parked nor been saved (R356). -/
def State.expired (s : State) (h : Hart) : Bool :=
  match h.preempt with
  | some t => h.placed && decide (t + s.deadlineOf h.ctx ≤ s.now)
  | none => false

/-- A trap may be raised for a hart now: no deadline takes effect first (R358), and it runs, or it sleeps and the clusters of
its grant are free, which it takes back with the trap (R351, R352). One that is SUSPENDED meets the trap once it has been
resumed (DEDUCED, log 33). -/
def State.mayTrap (s : State) (hid : Nat) (h : Hart) : Bool :=
  !s.expired h &&
  match h.state with
  | .running => true
  | .sleeping => decide (h.csr.xcl + h.csr.acl ≤ s.poolFor hid h)
  | _ => false

end Sys2Proof.Machine
end

