-- ==== Sys2Proof/Machine/Loads.lean ====
section
/-! DEFINITION. Loads in flight: the arrival of their data, their landing, and the freeze of a late one
(spec/05_words.md R97 to R100; spec/07_scalar.md R129; spec/09_access.md R201). -/

namespace Sys2Proof.Machine

/-- The value of `size` loaded bytes in a 64-bit register (R129). -/
def extLoad (size : Nat) (signed : Bool) (x : Nat) : Dword :=
  if signed then BitVec.ofInt 64 (signedOf (8 * size) (x % 2 ^ (8 * size))) else BitVec.ofNat 64 (x % 2 ^ (8 * size))

/-! ## Unaligned register accesses (R204) -/

/-- A sector is E2M1B, by its tag or, PLAIN, by LDFMT. -/
def isE2m1 (rd : Reader) (s : Sector) : Bool :=
  match tagCls s.tag with
  | 1 => rd.fmt == fE2m1
  | _ => tagFmt s.tag == fE2m1

/-- 256 bytes from byte `off` of two adjacent sectors' data. -/
def joinData (off : Nat) (x y : Sector) : BitVec 2048 :=
  BitVec.ofNat 2048 (x.data.toNat / 2 ^ (8 * off) + y.data.toNat * 2 ^ (8 * (256 - off)))

/-- The elements from element `n` of two adjacent lists. -/
def joinElems {α : Type} (n : Nat) (xs ys : List α) : List α := xs.drop n ++ ys.take n

/-- Two PLAIN sectors, whose bytes VLDR joins without a format. -/
def bothPlain (x y : Sector) : Bool := tagCls x.tag == clsPlain && tagCls y.tag == clsPlain

/-- The register sector that VLDR makes of two adjacent memory sectors, `off` bytes into the first (R204). The PLAIN
sector made of two has zero block metadata, and a PLAIN sector resolved by LDFMT does not count as TYPED where both are to
be TYPED with one FMT and SEXP, so it is rounded (DESIGN CHOICE, log 50). -/
def joinSectors (prt : Option (List Byte)) (rd : Reader) (off : Nat) (x y : Sector) :
    Except Cause (Sector × Flags) :=
  if bothPlain x y then
    .ok ({ tag := mkTag clsPlain 0 0 0, bmeta := 0, data := joinData off x y }, 0)
  else do
    let ox ← openTyped rd x
    let oy ← openTyped rd y
    if !ox.zero && !oy.zero && ox.cw != oy.cw then throw .containerMismatch
    let (f, fl) ← promoteAll prt [ox, oy]
    match f, zeroTriple [ox, oy] with
    | none, none => pure (zeroSector, fl)
    | none, some o =>
      pure ({ tag := mkTag clsTyped o.fmt o.cw 0, bmeta := 0, data := 0 }, fl)
    | some f, _ =>
      let cw := if ox.zero then oy.cw else ox.cw
      let n := 8 * off / cwBits cw
      if tagCls x.tag = clsTyped && x.tag == y.tag then
        pure ({ tag := x.tag, bmeta := 0, data := packSlots (cwBits cw) (joinElems n ox.codes oy.codes) }, fl)
      else
        if !fmtFits f cw then throw .containerMismatch
        let vals := fun (o : Opened) => (o.values cw).map (fun v => (v, true, fitFrom (o.zero || fmtInt o.fmt)))
        let out := encodeEach f cw (some 0) 0 false 0 (joinElems n (vals ox) (vals oy))
        pure (out.sector, fl ||| out.flags)

/-- The fault of a sector that VLDR touches (R201): its class, then the scales of an E2M1B sector (R53). -/
def loadSectorFault (x : Sector) : Option Cause :=
  match copyFault x.tag with
  | some c => some c
  | none =>
    if tagCls x.tag = clsTyped && (tagCw x.tag).toNat ≤ 3
        && (Opened.badScale ⟨false, tagFmt x.tag, tagCw x.tag, tagSexp x.tag, x⟩) then some .malformedBlockScale
    else none

/-- The register sector that VLDR makes of its memory sectors at an address (R201, R204). -/
def loadSector (prt : Option (List Byte)) (rd : Reader) (off : Nat) (x : Sector) (y : Option Sector) :
    Except Cause (Sector × Flags) :=
  match loadSectorFault x, y.bind loadSectorFault with
  | some c, _ => .error c
  | none, some c => .error c
  | none, none =>
    match y with
    | none => .ok (x, 0)
    | some y =>
      if !bothPlain x y && (isE2m1 rd x || isE2m1 rd y) then .error .misaligned else joinSectors prt rd off x y

/-! ## Access streams and order slices (R267 to R269) -/

/-- The order slice of an access (R191, R268): h(a) over the DPA for device memory; for scratchpad the slice of the
offset reached, numbered behind the 16 of device memory. -/
def orderSlice (dpa : Nat) : Nat :=
  if isSpadDpa dpa then 16 + bits dpa 23 20
  else (List.range 11).foldl (fun x i => x ^^^ bits dpa (4 * i + 11) (4 * i + 8)) 0

/-- An access stream of a hart (R267): the die row, the issuing unit (none is the scalar pipeline) and the lane cluster, of
which the access clusters are numbered behind the execute clusters from 8. -/
structure Stream where
  row     : Nat
  unit    : Option Eng
  cluster : Nat
  deriving DecidableEq, Repr

/-- The scalar stream of a row. -/
def scalarStream (row : Nat) : Stream := ⟨row, none, 0⟩

/-- The stream of register sector k of VLDR and VSTR in a row. -/
def vectorStream (row k : Nat) : Stream := ⟨row, some .xv, k⟩

/-- The lane cluster of an LD command's accesses (R267): access cluster 0, or execute cluster 0 where the hart has none. -/
def Hart.loadCluster (h : Hart) : Nat := if h.csr.acl = 0 then 0 else 8

/-- The lane cluster of an ST command's accesses (R267): the highest-numbered access cluster, or execute cluster 0. -/
def Hart.storeCluster (h : Hart) : Nat := if h.csr.acl = 0 then 0 else 7 + h.csr.acl

/-- The stream of an engine's access in a row, for register sector k of the XV engine (R267). -/
def Hart.engStream (h : Hart) (e : Eng) (row k : Nat) : Stream :=
  match e with
  | .ld => ⟨row, some .ld, h.loadCluster⟩
  | .st => ⟨row, some .st, h.storeCluster⟩
  | .xv => vectorStream row k
  | e => ⟨row, some e, 0⟩

/-- The stream of a load in flight, and the DPAs of the sectors that it touches. -/
def LoadEntry.stream (e : LoadEntry) : Stream :=
  match e.dest with
  | .scalar _ _ _ _ => scalarStream e.row
  | .vector _ k => vectorStream e.row k

def LoadEntry.dpas (e : LoadEntry) : List Nat :=
  e.dpa :: (match e.join with
    | some j => [j.1]
    | none => [])

/-- The stream of a store in flight. -/
def StoreEntry.stream (x : StoreEntry) : Stream := ⟨x.row, x.unit, x.cluster⟩

/-- Two accesses lie in one order slice. -/
def sameSlice (as bs : List Nat) : Bool := as.any (fun a => bs.any (fun b => orderSlice a == orderSlice b))

/-- A store of the hart in flight comes before an access in lane-slice order (R269): it is of the same stream and the same
order slice, and earlier in program order. -/
def Hart.storeAhead (h : Hart) (st : Stream) (dpas : List Nat) (order : Nat) : Bool :=
  h.stores.any (fun x => x.stream == st && decide (x.order < order) && sameSlice [x.dpa] dpas)

/-- A load of the hart that has not read comes before an access in lane-slice order (R269, R272). -/
def Hart.loadAhead (h : Hart) (st : Stream) (dpas : List Nat) (order : Nat) : Bool :=
  h.loads.any (fun e => e.data.isNone && e.stream == st && decide (e.order < order) && sameSlice e.dpas dpas)

/-- An access must wait for one in flight. -/
def Hart.ahead (h : Hart) (st : Stream) (dpas : List Nat) (order : Nat) : Bool :=
  h.storeAhead st dpas order || h.loadAhead st dpas order

/-- Two accesses of `n` and `m` bytes meet in some byte. Scratchpad is each row's own. -/
def meets (row a n row' b m : Nat) : Bool :=
  (!isSpadDpa a || row == row') && decide (a < b + m) && decide (b < a + n)

/-- The bytes of a scalar load. -/
def LoadEntry.size (e : LoadEntry) : Nat :=
  match e.dest with
  | .scalar _ _ n _ => n
  | .vector _ _ => 256

/-- A scalar access of a row must wait for an earlier scalar one to the same bytes, in whatever row, and a store for the part
of a lower-numbered row of the same instruction (R131). -/
def Hart.scalarAhead (h : Hart) (row dpa n order : Nat) : Bool :=
  h.stores.any (fun x => x.unit.isNone && (decide (x.order < order) || (x.order == order && decide (x.row < row)))
      && meets x.row x.dpa x.size row dpa n)
    || h.loads.any (fun e => e.scalarPipe && e.data.isNone && decide (e.order < order) && meets e.row e.dpa e.size row dpa n)

/-- A scalar instruction's accesses of `n` bytes, given by row and DPA, must wait for one in flight. -/
def Hart.accessAhead (h : Hart) (n : Nat) (acc : List (Nat × Nat)) : Bool :=
  acc.any (fun y => h.ahead (scalarStream y.1) [y.2] h.order || h.scalarAhead y.1 y.2 n h.order)

/-- A load, or a store, in flight must wait for another. -/
def Hart.loadWaits (h : Hart) (e : LoadEntry) : Bool :=
  h.ahead e.stream e.dpas e.order || (e.scalarPipe && h.scalarAhead e.row e.dpa e.size e.order)

def Hart.storeWaits (h : Hart) (x : StoreEntry) : Bool :=
  h.ahead x.stream [x.dpa] x.order || (x.unit.isNone && h.scalarAhead x.row x.dpa x.size x.order)
    || (h.stores.takeWhile (fun y => y != x)).any (fun y =>
      y.order == x.order && y.stream == x.stream && sameSlice [y.dpa] [x.dpa])

/-- An engine's access made in its turn must wait for one in flight: of its own command too (R188, R269). -/
def Hart.engineWaits (h : Hart) (e : Eng) (row dpa order : Nat) : Bool := h.ahead (h.engStream e row 0) [dpa] (order + 1)

/-- An interlocked VLDR in flight is to write a vector register that an XV command names, which waits for it (R97, R159). -/
def Hart.vecPending (h : Hart) (c : Command) : Bool :=
  h.loads.any (fun e => e.due.isNone &&
    match e.dest with
    | .vector v _ => v == c.t.d.toNat || v == c.t.a.toNat || v == c.t.b.toNat
    | .scalar _ _ _ _ => false)

/-! ## Arrival and landing -/

/-- A scalar value carried as the data of an arrival. -/
def carry (x : Nat) : Sector := { tag := 0, bmeta := 0, data := BitVec.ofNat 2048 x }

/-- The data of a load read at its home slice, or the fault that it reveals (R100): a raw read for a scalar
load, a verbatim sector for VLDR (R201). A page-absent reply is a stop. -/
def State.arrive (s : State) (h : Hart) (e : LoadEntry) : Except Stop (State × Arrival) :=
  match s.home h e.row e.dpa e.addr .plain with
  | .error (.cause c _ _) => .ok (s, .fault c)
  | .error x => .error x
  | .ok (s, l) =>
    match e.dest with
    | .scalar _ _ size _ =>
      match rawFault (s.tagOf l) with
      | some c => .ok (s, .fault c)
      | none => .ok (s, .data (carry (s.readRaw l size)) 0)
    | .vector _ _ =>
      let x := s.readSector l
      match e.join with
      | none =>
        match loadSector e.prt ⟨0, 0, 0⟩ 0 x none with
        | .error c => .ok (s, .fault c)
        | .ok (y, fl) => .ok (s, .data y fl)
      | some (dpa, f, w, t) =>
        match s.home h e.row dpa e.addr .plain with
        | .error (.cause c _ _) => .ok (s, .fault c)
        | .error z => .error z
        | .ok (s, m) =>
          match loadSector e.prt ⟨f, w, t⟩ (e.addr.toNat % 256) x (some (s.readSector m)) with
          | .error c => .ok (s, .fault c)
          | .ok (y, fl) => .ok (s, .data y fl)

/-- The destination register of a load written in its row, with the flags of its conversion. -/
def Hart.landReg (h : Hart) (e : LoadEntry) (x : Sector) (fl : Flags) : Hart :=
  let h := { h with csr := { h.csr with xstat := h.csr.xstat ||| fl } }
  let r := h.row e.row
  match e.dest with
  | .scalar d hb size sg => h.setRow e.row (r.set hb d (extLoad size sg x.data.toNat))
  | .vector v i => h.setRow e.row (r.setVec v i x)

/-- Two entries of one load instruction. -/
def LoadEntry.sameLoad (e : LoadEntry) (o : Nat) : Bool := e.order == o

/-- The trap that a load's data reveals, which names the load's address and command index (R100). -/
def loadInfo (e : LoadEntry) (c : Cause) : TrapInfo :=
  { cause := c, eng := if e.scalarPipe then 0 else 2, row := e.row, addr := some e.addr, status := 0,
    progress := false, pc := e.pc, cls := if e.scalarPipe then 1 else 3, tix := e.tix, idx := some e.idx }

/-- The first fault among a load's entries, in row order. -/
def firstFault : List LoadEntry → Option (LoadEntry × Cause)
  | [] => none
  | e :: es =>
    match e.data with
    | some (.fault c) => some (e, c)
    | _ => firstFault es

/-- Every entry of a load has its data. -/
def Hart.allArrived (h : Hart) (o : Nat) : Bool := (h.loads.filter (·.sameLoad o)).all (fun e => e.data.isSome)

/-- A command that has run leaves its queue with its accesses in flight. -/
def Hart.leave (h : Hart) (e : Eng) (o : Nat) : Hart :=
  match (h.queue e).find? (fun c => c.order == o && c.done.isSome) with
  | some c => { h.setQueue e ((h.queue e).filter (fun c => c.order != o)) with timed := h.timed ++ [(e, c)] }
  | none => h

/-- The command of a VLDR that fails at its landing, or of a store that is refused when it is performed, waits for the return
from its trap (R100, R261). -/
def Hart.failTimed (h : Hart) (e : Eng) (o : Nat) : Hart :=
  let h := h.leave e o
  { h with timed := h.timed.map (fun x => if x.2.order = o then (x.1, { x.2 with issued := false }) else x) }

/-- A load lands (R97): every row writes its destination, or the trap of R100 is raised and none does; where no trap can be
raised for the hart yet, the load has not landed. -/
def State.landLoad (s : State) (hid : Nat) (o : Nat) : State :=
  match look s.harts hid with
  | none => s
  | some h =>
    let es := h.loads.filter (·.sameLoad o)
    if (firstFault es).isSome && !s.mayTrap hid h then s
    else
    let h := { h with loads := h.loads.filter (fun e => !e.sameLoad o),
                      reissue := h.reissue.filter (fun e => !e.sameLoad o), lastProgress := s.now }
    match firstFault es with
    | some (e, c) => (s.setHart hid (if e.scalarPipe then h else h.failTimed .xv o)).takeTrap hid (loadInfo e c)
    | none =>
      s.setHart hid (es.foldl (fun g e =>
        match e.data with
        | some (.data x fl) => g.landReg e x fl
        | _ => g) h)

/-- A timed load is due and its data has not arrived (R99). -/
def State.lateLoad (s : State) (h : Hart) : Bool :=
  h.loads.any (fun e =>
    match e.due with
    | some d => decide (d ≤ s.hartCycle h) && e.data.isNone
    | none => false)

/-- A core's freeze set or ended as the late loads of the harts there require; once it ends, the core acts again in the
next period (R99). -/
def State.refreezeCore (s : State) (c : Nat) : State :=
  let late := s.harts.any (fun x => x.2.onSlot && x.2.cores.contains c && s.lateLoad x.2)
  if (s.core c).frozen == late then s
  else s.modCore c (fun x => { x with frozen := late, thaw := if late then x.thaw else s.now + 1 })

def State.refreeze (s : State) (h : Hart) : State := h.cores.foldl State.refreezeCore s

/-- The loads of a hart that can land now: timed ones that are due with all their data, and interlocked ones with all their
data. -/
def State.landable (s : State) (h : Hart) : List Nat :=
  dedupNat ((h.loads.filter (fun e =>
    (match e.due with
      | some d => decide (d ≤ s.hartCycle h)
      | none => true) && h.allArrived e.order)).map (·.order))

/-- Every landable load of a hart lands, the older first. -/
def State.landAll (s : State) (hid : Nat) : State :=
  match look s.harts hid with
  | none => s
  | some h => (s.landable h).foldl (fun s o => s.landLoad hid o) s

end Sys2Proof.Machine
end

