-- ==== Sys2Proof/Machine/Save.lean ====
section
/-! DEFINITION. Saving a hart to its save frame and restoring it (spec/17_context.md R314, R315), and the
page-absent reply of a hart's access (spec/22_page.md R368, R371). -/

namespace Sys2Proof.Machine

/-! ## The frame's images -/

/-- The per-hart CSRs in CSR-number order (R314). -/
def savedCsrs : List Nat :=
  [0x000, 0x001, 0x002, 0x003, 0x004, 0x005, 0x006, 0x007, 0x008, 0x009, 0x00A, 0x00B, 0x011,
   0x020, 0x021, 0x022, 0x023, 0x024, 0x025, 0x030, 0x031, 0x032, 0x040, 0x041]

/-- Doublewords as bytes. -/
def dwordBytes (xs : List Nat) : List Byte := xs.flatMap (fun x => bytesOfNat x 8)

/-- A template as its 16 bytes (R84). -/
def templateNat (t : Template) : Nat :=
  t.imm.toNat + t.len.toNat * 2 ^ 32 + t.land.toNat * 2 ^ 52 + t.setsl.toNat * 2 ^ 60 + t.seten.toNat * 2 ^ 63
    + t.wait.toNat * 2 ^ 64 + t.cscal.toNat * 2 ^ 72 + t.cmask.toNat * 2 ^ 77 + t.b.toNat * 2 ^ 80
    + t.a.toNat * 2 ^ 88 + t.d.toNat * 2 ^ 96 + t.fmt.toNat * 2 ^ 104 + t.cw.toNat * 2 ^ 109
    + t.mod.toNat * 2 ^ 112 + t.opc.toNat * 2 ^ 120

/-- A template from its 128 bits (R84). -/
def templateOfNat (x : Nat) : Template :=
  { imm := BitVec.ofNat 32 x, len := BitVec.ofNat 20 (x / 2 ^ 32), land := BitVec.ofNat 8 (x / 2 ^ 52),
    setsl := BitVec.ofNat 3 (x / 2 ^ 60), seten := BitVec.ofNat 1 (x / 2 ^ 63), wait := BitVec.ofNat 8 (x / 2 ^ 64),
    cscal := BitVec.ofNat 5 (x / 2 ^ 72), cmask := BitVec.ofNat 3 (x / 2 ^ 77), b := BitVec.ofNat 8 (x / 2 ^ 80),
    a := BitVec.ofNat 8 (x / 2 ^ 88), d := BitVec.ofNat 8 (x / 2 ^ 96), fmt := BitVec.ofNat 5 (x / 2 ^ 104),
    cw := BitVec.ofNat 3 (x / 2 ^ 109), mod := BitVec.ofNat 8 (x / 2 ^ 112), opc := BitVec.ofNat 8 (x / 2 ^ 120) }

/-- The offsets of the frame's areas (R314). -/
def frameCsrs : Nat := 0x100
def frameTrap : Nat := 0x200
def frameTemplates : Nat := 0x1000
def frameRow (j : Nat) : Nat := 0x30000 + 0x14000 * j

/-- The 32-bit words of a row's vector register for n execute clusters (R315). -/
def vecWords (r : RowRegs) (v xcl : Nat) : List Nat :=
  (List.range xcl).flatMap (fun x => secSlots (r.vec v x) 3)

/-- The signed differences of R315. -/
def deltas (w0 : Nat) (ws : List Nat) : List Int :=
  ws.map (fun (w : Nat) => signedOf 32 (wrapNat 32 ((w : Int) - (w0 : Int))))

/-- The format byte and the stored data of a vector register: the first form of R315 that applies. -/
def packVec (ws : List Nat) : Nat × List Byte :=
  let w0 := ws.headD 0
  let ds := deltas w0 ws
  if ws.all (· == 0) then (0xC0, [])
  else if ds.all (fun d => -128 ≤ d && d ≤ 127) then
    (0x40, bytesOfNat w0 4 ++ (ds.drop 1).flatMap (fun d => bytesOfNat (wrapNat 8 d) 1))
  else if ds.all (fun d => -32768 ≤ d && d ≤ 32767) then
    (0x80, bytesOfNat w0 4 ++ (ds.drop 1).flatMap (fun d => bytesOfNat (wrapNat 16 d) 2))
  else (0x00, ws.flatMap (fun w => bytesOfNat w 4))

/-- The sector records of a vector slot: tag, zeros, block metadata (R314). -/
def sectorRecord (x : Sector) : List Byte := bytesOfNat x.tag.toNat 16 ++ bytesOfNat x.bmeta.toNat 16

/-- A vector slot: its format byte with 63 zero bytes, eight sector records, and the stored data (R314). -/
def vecSlot (r : RowRegs) (v xcl : Nat) : List Byte :=
  let p := packVec (vecWords r v xcl)
  bytesOfNat p.1 64 ++ (List.range 8).flatMap (fun x => sectorRecord (r.vec v x)) ++ p.2

/-- Doublewords with no value of the manual's: the header, queue and token areas, whose layout R314 leaves
open, take free values (log 14). -/
def State.putFree (s : State) (dpa : Nat) : Nat → State
  | 0 => s
  | k + 1 =>
    let s := { s.sysWrite dpa 8 (Config.freeDword s.draws).toNat with draws := s.draws + 1 }
    s.putFree (dpa + 8) k

/-- How much of a hart a save writes (R314): at NODEB, at CURSOR or YIELD, or the whole context. -/
inductive SaveKind where
  | nodeb
  | yield
  | whole
  deriving DecidableEq, Repr

/-- The scalars that a save writes for a row (R314). -/
def State.saveScalars (s : State) (base : Nat) (r : RowRegs) (k : SaveKind) : State :=
  match k with
  | .nodeb =>
    s.sysPut (base + 32) (dwordBytes ((List.range 8).map (fun i => (r.get false (4 + i)).toNat)))
  | _ =>
    let s := s.sysPut base (dwordBytes (r.s.toList.map (·.toNat)))
    s.sysPut (base + 0x100) (dwordBytes (r.hb.toList.map (·.toNat)))

/-- The masks and vectors of a row (R314, R315). -/
def State.saveVectors (s : State) (base : Nat) (r : RowRegs) (xcl : Nat) : State :=
  let s := s.sysPut (base + 0x200) (r.k.toList.flatMap (fun m => bytesOfNat m.toNat 512))
  (List.range 32).foldl (fun s v => s.sysPut (base + 0x1400 + 2368 * v) (vecSlot r v xcl)) s

/-- The trap area as a save leaves it (R314): the record that stands there while its trap lasts, else values that the manual
does not give (log 14). -/
def State.saveTraps (s : State) (h : Hart) (f : Nat) : State :=
  if h.traps.any (fun t => t.inFrame) then s else s.putFree (f + frameTrap) 8

/-- The hart's frame written by a save (R314). The hart's own record holds the header's contents. -/
def State.writeFrame (s : State) (h : Hart) (k : SaveKind) : State :=
  let f := s.frameDpa h
  let s := s.putFree f 32
  let s := s.sysPut (f + frameCsrs) (dwordBytes (savedCsrs.map (fun n => (s.csrValue h n).toNat)))
  let s := s.saveTraps h f
  let s := (List.range 320).foldl (fun s i =>
    s.sysPut (f + frameTemplates + 16 * i) (bytesOfNat (templateNat (lookD h.tmpl i emptyTemplate)) 16)) s
  let s := h.allRows.foldl (fun s j => s.saveScalars (f + frameRow j) (h.row j) k) s
  if k = .whole then
    let s := s.putFree (f + 0x240) 8
    let s := (List.range 5).foldl (fun s e =>
      s.putFree (f + 0x4000 + 0x8000 * e) (64 * ((h.queues[e]?).getD []).length)) s
    h.allRows.foldl (fun s j => s.saveVectors (f + frameRow j) (h.row j) h.csr.xcl) s
  else s

/-! ## Reading a frame back -/

/-- `k` doublewords read by the package. -/
def State.sysDwords (s : State) (dpa k : Nat) : List Dword :=
  (List.range k).map (fun i => BitVec.ofNat 64 (s.sysRead (dpa + 8 * i) 8))

/-- Words from stored differences. -/
def unpackDeltas (w0 bytes : Nat) (bs : List Byte) : Nat → Nat → List Nat
  | _, 0 => []
  | i, n + 1 =>
    let d := signedOf (8 * bytes) (natOfBytes ((bs.drop (bytes * i)).take bytes))
    wrapNat 32 ((w0 : Int) + d) :: unpackDeltas w0 bytes bs (i + 1) n

/-- The words of a vector register from its format byte and stored data (R315); none for another byte. -/
def State.unpackVec (s : State) (fmt dpa n : Nat) : Option (List Nat) :=
  match fmt with
  | 0xC0 => some (List.replicate n 0)
  | 0x40 =>
    let w0 := natOfBytes (s.sysGet dpa 4)
    some (w0 :: unpackDeltas w0 1 (s.sysGet (dpa + 4) (n - 1)) 0 (n - 1))
  | 0x80 =>
    let w0 := natOfBytes (s.sysGet dpa 4)
    some (w0 :: unpackDeltas w0 2 (s.sysGet (dpa + 4) (2 * (n - 1))) 0 (n - 1))
  | 0x00 => some ((List.range n).map (fun i => natOfBytes (s.sysGet (dpa + 4 * i) 4)))
  | _ => none

/-- One vector slot read back into a row; none where it breaks R314 or R315. -/
def State.loadVec (s : State) (base : Nat) (xcl : Nat) (r : RowRegs) (v : Nat) : Option RowRegs :=
  let a := base + 0x1400 + 2368 * v
  let head := natOfBytes (s.sysGet a 64)
  if 256 ≤ head then none
  else do
    let ws ← s.unpackVec head (a + 320) (64 * xcl)
    (List.range 8).foldlM (fun r x =>
      let y := natOfBytes (s.sysGet (a + 64 + 32 * x) 32)
      if y / 2 ^ 24 % 2 ^ 104 ≠ 0 then none
      else
        some (r.setVec v x { tag := BitVec.ofNat 24 y, bmeta := BitVec.ofNat 128 (y / 2 ^ 128),
                             data := packSlots 32 ((ws.drop (64 * x)).take 64) })) r

/-- A vector of given length from a list, the old elements kept where the list is short. -/
def refill {α : Type} {n : Nat} (v : Vector α n) (xs : List α) : Vector α n :=
  (xs.zipIdx).foldl (fun v x => v.setIfInBounds x.2 x.1) v

/-- One row read back (R314). -/
def State.loadRow (s : State) (base : Nat) (h : Hart) (j : Nat) (k : SaveKind) : Option RowRegs :=
  let r := h.row j
  match k with
  | .nodeb =>
    some { r with s := ((s.sysDwords (base + 32) 8).zipIdx).foldl (fun v x => v.setIfInBounds (4 + x.2) x.1) r.s }
  | .yield =>
    some { r with s := refill r.s (s.sysDwords base 32), hb := refill r.hb (s.sysDwords (base + 0x100) 8) }
  | .whole =>
    let r := { r with s := refill r.s (s.sysDwords base 32), hb := refill r.hb (s.sysDwords (base + 0x100) 8),
                      k := refill r.k ((List.range 8).map (fun i =>
                        BitVec.ofNat 4096 (natOfBytes (s.sysGet (base + 0x200 + 512 * i) 512)))) }
    (List.range 32).foldlM (fun r v => s.loadVec base h.csr.xcl r v) r

/-- The hart's CSRs from the image: the writable fields and the counters; none where an RZ bit is set or
a field that the hart's place fixes differs (R314, R315). -/
def State.loadCsrs (s : State) (f : Nat) (h : Hart) : Option Hart :=
  ((s.sysDwords (f + frameCsrs) 24).zip savedCsrs).foldlM (fun h x =>
    let (v, n) := x
    if v &&& csrRz n != 0 then none
    else
      match n with
      | 0x001 => some { h with csr := { h.csr with vl := v.extractLsb' 0 16, vlcw := v.extractLsb' 16 3 } }
      | 0x011 => some { h with csr := { h.csr with retired := v } }
      | 0x024 => some { h with csr := { h.csr with recMark := v.extractLsb' 32 32, recording := v.getLsbD 0 } }
      | 0x025 => some { h with csr := { h.csr with revAct := v.getLsbD 63, revNext := v.extractLsb' 0 32 } }
      | 0x032 => some { h with csr := { h.csr with trapEng := v.extractLsb' 10 3, trapCause := v.extractLsb' 0 10 } }
      | 0x041 => some { h with csr := { h.csr with panelCol := v.extractLsb' 32 32, panelRow := v.extractLsb' 0 32 } }
      | _ => some (h.csrStore n v)) h

/-- The hart's template tables from the image. -/
def State.loadTemplates (s : State) (f : Nat) (h : Hart) : Hart :=
  { h with tmpl := (List.range 320).foldl (fun m i =>
      let t := templateOfNat (natOfBytes (s.sysGet (f + frameTemplates + 16 * i) 16))
      if t = emptyTemplate then del m i else put m i t) h.tmpl }

/-- A hart read back from its frame (R314, R315); none where the frame breaks them. -/
def State.readFrame (s : State) (h : Hart) (k : SaveKind) : Option Hart := do
  let f := s.frameDpa h
  let h ← s.loadCsrs f h
  let h := s.loadTemplates f h
  h.allRows.foldlM (fun g j => do
    let r ← s.loadRow (f + frameRow j) g j k
    pure (g.setRow j r)) h

/-! ## The whole-context save -/

/-- A part that stores no bit: an unaligned register sector whose elements in VL end in its first memory sector only has
the second one looked at (R204). -/
def VecStore.looks (v : VecStore) : Bool := decide (v.hi ≤ v.lo)

/-- The sector that VSTR's part leaves in a memory sector (R204, R206). -/
def VecStore.made (v : VecStore) (s : State) (dpa : Nat) (l : Loc) : Except Cause (Sector × Flags) :=
  let rd : Reader := ⟨v.ldFmt, v.ldCw, v.ldSexp⟩
  if v.lo = 0 && v.hi = 2048 then fullStore s dpa l v.x
  else if !v.whole && isE2m1 rd (s.readSector l) then .error .misaligned
  else if v.looks then .ok (s.readSector l, 0)
  else partStore s v.prt rd dpa l v.x v.lo v.hi

/-- What a store of a hart makes when it is performed at its home slice or scratchpad bank, with its flags (R130, R204,
R285), or what keeps it from being performed. A scalar store's checks were made when it issued. -/
def State.madeStore (s : State) (h : Hart) (x : StoreEntry) : Except Stop (State × Flags) :=
  match s.dpaLoc (some h.ctx) (h.coreOf x.row) x.dpa with
  | .error .held => .error .held
  | .error (.absent _) => .error (.absent x.row x.dpa true)
  | .error (.fault c) => .error (.cause c x.row (some x.addr))
  | .ok l =>
    match x.vec with
    | none => .ok ((s.storeThrough h x.row x.dpa l x.size x.val.toNat).crossed l, 0)
    | some v =>
      match v.made s x.dpa l with
      | .error c => .error (.cause c x.row (some x.addr))
      | .ok (y, fl) => .ok ((s.putSector h x.row x.dpa l y).crossed l, fl)

/-- A hart with a store of those in flight performed: its flags are set, as the command's completion would (R96). -/
def Hart.stored (h : Hart) (x : StoreEntry) (fl : Flags) (now : Nat) : Hart :=
  { h with stores := h.stores.filter (fun y => y != x), csr := { h.csr with xstat := h.csr.xstat ||| fl }, lastProgress := now }

/-- A store in flight of a save is performed; one that cannot be now stays in flight, and its fault is met after the restore
(R292, R358). A scalar store that can be performed nowhere any longer is dropped (log 3). -/
def State.finishStore (s : State) (hid : Nat) (x : StoreEntry) : State :=
  match look s.harts hid with
  | none => s
  | some h =>
    match s.madeStore h x with
    | .ok (s', fl) => s'.modHart hid (fun g => g.stored x fl s.now)
    | .error (.cause .linkDown _ _) => s
    | .error (.cause _ _ _) => if x.unit.isNone then s.modHart hid (fun g => g.stored x 0 s.now) else s
    | .error _ => s

/-- A store in flight cannot reach its package (R292). -/
def State.unreachable (s : State) (h : Hart) (x : StoreEntry) : Bool :=
  match s.dpaLoc (some h.ctx) (h.coreOf x.row) x.dpa with
  | .error (.fault .linkDown) => true
  | _ => false

/-- The hart's leases given back at a save: their counts are kept for the restore (R212). -/
def State.leaseBack (s : State) (h : Hart) : State :=
  h.cores.foldl (fun s c => s.modCore c (fun x => x.setLease h.slot Lease.reset)) s

/-- The counts of the hart's leases by row, 0 where it has none. -/
def State.leaseCounts (s : State) (h : Hart) : List Nat :=
  h.cores.map (fun c =>
    let l := (s.core c).lease h.slot
    if l.state = .none then 0 else l.count)

/-- The key of a pair slot (R222): the group, the stage and the even core of the pair. -/
def pairKey (h : Hart) (core : Nat) : Nat := h.group * 2 ^ 16 + h.stage * 2 ^ 8 + core / 2

def State.pair (s : State) (h : Hart) (core : Nat) : PairState := lookD s.pairs (pairKey h core) .idle
def State.setPair (s : State) (h : Hart) (core : Nat) (p : PairState) : State :=
  { s with pairs := putD s.pairs (pairKey h core) .idle p }

/-- The halves that a hart's TMMAP had sent are withdrawn with a reason (R222). -/
def State.cancelHalves (s : State) (h : Hart) (reason : Nat) : State :=
  h.cores.foldl (fun s k => if s.pair h k = .half k then s.setPair h k (.cancelled k reason) else s) s

/-- The pair halves that a hart had sent are withdrawn without a trace: its commands are discarded (R253, R322). -/
def State.clearHalves (s : State) (h : Hart) : State :=
  h.cores.foldl (fun s k => if s.pair h k = .half k then s.setPair h k .idle else s) s

/-- A list in ascending order of a number, equal ones as they stood. -/
def sortBy {α : Type} (f : α → Nat) (xs : List α) : List α := xs.insertionSort (fun x y => f x ≤ f y)

/-- A load of a hart takes its data now, where nothing keeps it and it shows no fault. -/
def State.finishRead (s : State) (hid : Nat) (e : LoadEntry) : State :=
  match look s.harts hid with
  | none => s
  | some h =>
    match s.arrive h e with
    | .ok (s', .data x fl) =>
      s'.modHart hid (fun g =>
        { g with loads := g.loads.map (fun y => if y = e then { y with data := some (.data x fl) } else y) })
    | _ => s

/-- The accesses in flight of one instruction made now. -/
def State.finishOrder (s : State) (hid o : Nat) : State :=
  match look s.harts hid with
  | none => s
  | some h =>
    let s := (h.loads.filter (fun e => e.data.isNone && e.sameLoad o)).foldl (fun s e => s.finishRead hid e) s
    (h.stores.filter (fun x => x.order == o)).foldl (fun s x => s.finishStore hid x) s

/-- A load of a hart that has all its data lands; one that does not, or shows a fault, is left to be executed again on the
restore (R99). -/
def State.finishLoad (s : State) (hid o : Nat) : State :=
  match look s.harts hid with
  | none => s
  | some h =>
    let es := h.loads.filter (·.sameLoad o)
    if h.allArrived o && (firstFault es).isNone then s.landLoad hid o
    else
      s.setHart hid { h with loads := h.loads.filter (fun e => !e.sameLoad o),
                             reissue := h.reissue.filter (fun e => !e.sameLoad o)
                               ++ es.map (fun e => { e with data := none, due := none }) }

/-- A save's wait for the hart's accesses (R99, R314): those in flight are made in program order, which keeps R269 and
R272, and then the loads land in the order of their landing cycles. -/
def State.finishAccesses (s : State) (hid : Nat) : State :=
  match look s.harts hid with
  | none => s
  | some h =>
    let orders := sortBy (fun o => o) (dedupNat (h.loads.map (·.order) ++ h.stores.map (·.order)))
    let s := orders.foldl (fun s o => s.finishOrder hid o) s
    (dedupNat ((sortBy (fun e => e.due.getD 0) h.loads).map (·.order))).foldl (fun s o => s.finishLoad hid o) s

/-- What a scalar instruction that waits leaves when its hart is saved whole-context: a registration of BWAIT ends
(R362), a scoped operation that had not been performed issues afresh, and REVERSE reads its map again (R233); each
executes again. -/
def Wait.saved (w : Wait) : Wait :=
  match w with
  | .bwait _ _ | .fence _ _ | .reverse _ _ => .none
  | w => w

/-- The commands of a saved hart read their sources again where they have read ahead of their turn. -/
def Hart.unread (h : Hart) : Hart :=
  { h with queues := h.queues.map (fun q => q.map (fun (c : Command) => { c with fetched := [], arrived := [] })) }

/-- A whole-context save (R314, R356, R99): the hart's accesses finish, its lease and its pair slot are given
back, its frame is written, and its slot is free. -/
def State.saveWhole (s : State) (hid : Nat) (st : HartState) : State :=
  let s := s.finishAccesses hid
  match look s.harts hid with
  | none => s
  | some h =>
    let kept := s.leaseCounts h
    let s := (s.cancelHalves h 1).leaseBack h
    let s := s.writeFrame h .whole
    let g := { h.unread with state := st, leaseKept := kept, wasSuspended := h.wasSuspended || h.state == .suspended,
                             preempt := none, wait := h.wait.saved,
                             traps := h.traps.map (fun t => { t with wait := t.wait.saved }) }
    (s.setHart hid g).refreeze g

/-- A hart's access met a page-absent reply (R368, R371): the record, then the whole-context save. Nothing of
the instruction that made the access has taken effect; it executes again after the restore. -/
def State.pageAbsent (s : State) (hid dpa : Nat) (write : Bool) : State :=
  match look s.harts hid with
  | none => s
  | some h =>
    let s := s.absentRecord (dpa / 65536) (dpa % 65536 / 256) h.ctx (h.coreOf 0) h.slot false write
    s.saveWhole hid (.savedPage (dpa / 65536))

/-- What stops a scalar instruction of the acting hart: its trap (R262), or the page-absent reply. -/
def State.stopScalar (s : State) (hid : Nat) (h : Hart) (cls : Nat) (x : Stop) : State :=
  match x with
  | .cause c row addr => (s.settleStop h x).takeTrap hid (scalarInfo h cls c row addr)
  | .absent _ dpa w => s.pageAbsent hid dpa w
  | .held => s

end Sys2Proof.Machine
end

