-- ==== Sys2Proof/Machine/Integer.lean ====
section
/-! DEFINITION. The integer instructions (spec/07_scalar.md R122, R125, R126). -/

namespace Sys2Proof.Machine

/-- A scalar instruction that computes one value per active row into d (R122): it waits while a register it
names has a result pending, and retires with the rows written. -/
def rowOp (s : State) (px : Px) (regs : List Nat) (d : Nat) (f : Hart → Nat → Dword) : Out :=
  withRegs s px (d :: regs) (fun hid h => .next (s.retire hid (h.setRegs (h.active px) d (f h)) px))

/-- The register form: d := f(a, b). -/
def op2 (s : State) (px : Px) (d a b : Reg) (f : Dword → Dword → Dword) : Out :=
  rowOp s px [a.toNat, b.toNat] d.toNat (fun h j => f (h.reg j a.toNat) (h.reg j b.toNat))

/-- The register form with one source: d := f(a). -/
def op1 (s : State) (px : Px) (d a : Reg) (f : Dword → Dword) : Out :=
  rowOp s px [a.toNat] d.toNat (fun h j => f (h.reg j a.toNat))

/-- The immediate form: d := f(a, i), with i extended by VALX (R90, R125). -/
def opImm (s : State) (px : Px) (d a : Reg) (i : BitVec 13) (f : Dword → Dword → Dword) : Out :=
  rowOp s px [a.toNat] d.toNat (fun h j => f (h.reg j a.toNat) (pxImm px i))

/-- 1 where a condition holds, else 0. -/
def flag64 (c : Bool) : Dword := if c then 1 else 0

/-- The shift amount b[5:0]. -/
def shamt (b : Dword) : Nat := b.toNat % 64

/-- MULH and MULHU: the high 64 bits of the product (R125). -/
def mulHighS (a b : Dword) : Dword := BitVec.ofInt 64 (a.toInt * b.toInt / 2 ^ 64)
def mulHighU (a b : Dword) : Dword := BitVec.ofNat 64 (a.toNat * b.toNat / 2 ^ 64)

/-- Division, never trapping (R126). -/
def divS (a b : Dword) : Dword := if b = 0 then BitVec.allOnes 64 else BitVec.ofInt 64 (a.toInt.tdiv b.toInt)
def divU (a b : Dword) : Dword := if b = 0 then BitVec.allOnes 64 else BitVec.ofNat 64 (a.toNat / b.toNat)
def remS (a b : Dword) : Dword := if b = 0 then a else BitVec.ofInt 64 (a.toInt.tmod b.toInt)
def remU (a b : Dword) : Dword := if b = 0 then a else BitVec.ofNat 64 (a.toNat % b.toNat)

/-- The low 32 bits of a sum or difference, sign-extended (R125). -/
def sextW (x : Dword) : Dword := (x.extractLsb' 0 32).signExtend 64

/-- Leading zeros among the low n bits of a number. -/
def leadingZeros (x : Nat) : Nat → Nat
  | 0 => 0
  | n + 1 => if x.testBit n then 0 else 1 + leadingZeros x n

/-- Trailing zeros, at most n. -/
def trailingZeros (x : Nat) : Nat → Nat
  | 0 => 0
  | n + 1 => if x.testBit 0 then 0 else 1 + trailingZeros (x / 2) n

/-- Set bits among the low n. -/
def bitCount (x : Nat) : Nat → Nat
  | 0 => 0
  | n + 1 => (x % 2) + bitCount (x / 2) n

/-- The byte, half or word that SEXT and ZEXT extend, by code 0 to 2 (R125). -/
def narrowBits (w : BitVec 2) : Nat := 8 * 2 ^ w.toNat

def sextTo (w : BitVec 2) (a : Dword) : Dword := BitVec.ofInt 64 (signedOf (narrowBits w) (a.toNat % 2 ^ narrowBits w))
def zextTo (w : BitVec 2) (a : Dword) : Dword := BitVec.ofNat 64 (a.toNat % 2 ^ narrowBits w)

/-- BFX (R125). -/
def bitField (signed : Bool) (a b : Dword) : Dword :=
  let p := bits b.toNat 5 0
  let n := bits b.toNat 13 8
  if n = 0 then 0
  else
    let x := a.toNat / 2 ^ p % 2 ^ n
    if signed then BitVec.ofInt 64 (signedOf n x) else BitVec.ofNat 64 x

/-- sext(imm18) << 13 (R125). -/
def upper (u : BitVec 18) : Dword := u.signExtend 64 <<< 13

/-- ADD (R125). -/
def execAdd (px : Px) (d a b : Reg) (s : State) : Out := op2 s px d a b (fun a b => a + b)

/-- SUB (R125). -/
def execSub (px : Px) (d a b : Reg) (s : State) : Out := op2 s px d a b (fun a b => a - b)

/-- AND (R125). -/
def execAnd (px : Px) (d a b : Reg) (s : State) : Out := op2 s px d a b (fun a b => a &&& b)

/-- OR (R125). -/
def execOr (px : Px) (d a b : Reg) (s : State) : Out := op2 s px d a b (fun a b => a ||| b)

/-- XOR (R125). -/
def execXor (px : Px) (d a b : Reg) (s : State) : Out := op2 s px d a b (fun a b => a ^^^ b)

/-- SLL (R125). -/
def execSll (px : Px) (d a b : Reg) (s : State) : Out := op2 s px d a b (fun a b => a <<< shamt b)

/-- SRL (R125). -/
def execSrl (px : Px) (d a b : Reg) (s : State) : Out := op2 s px d a b (fun a b => a >>> shamt b)

/-- SRA (R125). -/
def execSra (px : Px) (d a b : Reg) (s : State) : Out := op2 s px d a b (fun a b => a.sshiftRight (shamt b))

/-- SLT (R125). -/
def execSlt (px : Px) (d a b : Reg) (s : State) : Out := op2 s px d a b (fun a b => flag64 (a.slt b))

/-- SLTU (R125). -/
def execSltu (px : Px) (d a b : Reg) (s : State) : Out := op2 s px d a b (fun a b => flag64 (a.ult b))

/-- MUL (R125). -/
def execMul (px : Px) (d a b : Reg) (s : State) : Out := op2 s px d a b (fun a b => a * b)

/-- MULH (R125). -/
def execMulh (px : Px) (d a b : Reg) (s : State) : Out := op2 s px d a b (fun a b => mulHighS a b)

/-- MULHU (R125). -/
def execMulhu (px : Px) (d a b : Reg) (s : State) : Out := op2 s px d a b (fun a b => mulHighU a b)

/-- DIV (R125, R126). -/
def execDiv (px : Px) (d a b : Reg) (s : State) : Out := op2 s px d a b (fun a b => divS a b)

/-- DIVU (R125, R126). -/
def execDivu (px : Px) (d a b : Reg) (s : State) : Out := op2 s px d a b (fun a b => divU a b)

/-- REM (R125, R126). -/
def execRem (px : Px) (d a b : Reg) (s : State) : Out := op2 s px d a b (fun a b => remS a b)

/-- REMU (R125, R126). -/
def execRemu (px : Px) (d a b : Reg) (s : State) : Out := op2 s px d a b (fun a b => remU a b)

/-- MIN (R125). -/
def execMin (px : Px) (d a b : Reg) (s : State) : Out := op2 s px d a b (fun a b => if a.slt b then a else b)

/-- MAX (R125). -/
def execMax (px : Px) (d a b : Reg) (s : State) : Out := op2 s px d a b (fun a b => if a.slt b then b else a)

/-- MINU (R125). -/
def execMinu (px : Px) (d a b : Reg) (s : State) : Out := op2 s px d a b (fun a b => if a.ult b then a else b)

/-- MAXU (R125). -/
def execMaxu (px : Px) (d a b : Reg) (s : State) : Out := op2 s px d a b (fun a b => if a.ult b then b else a)

/-- ADDW (R125). -/
def execAddw (px : Px) (d a b : Reg) (s : State) : Out := op2 s px d a b (fun a b => sextW (a + b))

/-- SUBW (R125). -/
def execSubw (px : Px) (d a b : Reg) (s : State) : Out := op2 s px d a b (fun a b => sextW (a - b))

/-- CLZ (R125). -/
def execClz (px : Px) (d a : Reg) (s : State) : Out := op1 s px d a (fun a => BitVec.ofNat 64 (leadingZeros a.toNat 64))

/-- CTZ (R125). -/
def execCtz (px : Px) (d a : Reg) (s : State) : Out := op1 s px d a (fun a => BitVec.ofNat 64 (trailingZeros a.toNat 64))

/-- POPC (R125). -/
def execPopc (px : Px) (d a : Reg) (s : State) : Out := op1 s px d a (fun a => BitVec.ofNat 64 (bitCount a.toNat 64))

/-- SEXT (R125). -/
def execSext (px : Px) (d a : Reg) (w : BitVec 2) (s : State) : Out := op1 s px d a (sextTo w)

/-- ZEXT (R125). -/
def execZext (px : Px) (d a : Reg) (w : BitVec 2) (s : State) : Out := op1 s px d a (zextTo w)

/-- BFX (R125). -/
def execBfx (px : Px) (d a b : Reg) (x : BitVec 1) (s : State) : Out := op2 s px d a b (bitField (x == 1))

/-- CMOV (R125): a where b is nonzero; otherwise d keeps its value. -/
def execCmov (px : Px) (d a b : Reg) (s : State) : Out :=
  rowOp s px [a.toNat, b.toNat] d.toNat (fun h j =>
    if h.reg j b.toNat != 0 then h.reg j a.toNat else h.reg j d.toNat)

/-- ADDI (R125). -/
def execAddi (px : Px) (d a : Reg) (i : BitVec 13) (s : State) : Out :=
  opImm s px d a i (fun a i => a + i)

/-- ANDI (R125). -/
def execAndi (px : Px) (d a : Reg) (i : BitVec 13) (s : State) : Out :=
  opImm s px d a i (fun a i => a &&& i)

/-- ORI (R125). -/
def execOri (px : Px) (d a : Reg) (i : BitVec 13) (s : State) : Out :=
  opImm s px d a i (fun a i => a ||| i)

/-- XORI (R125). -/
def execXori (px : Px) (d a : Reg) (i : BitVec 13) (s : State) : Out :=
  opImm s px d a i (fun a i => a ^^^ i)

/-- SLTI (R125). -/
def execSlti (px : Px) (d a : Reg) (i : BitVec 13) (s : State) : Out :=
  opImm s px d a i (fun a i => flag64 (a.slt i))

/-- SLTIU (R125). -/
def execSltiu (px : Px) (d a : Reg) (i : BitVec 13) (s : State) : Out :=
  opImm s px d a i (fun a i => flag64 (a.ult i))

/-- SLLI (R125), by imm13[5:0]. -/
def execSlli (px : Px) (d a : Reg) (h : BitVec 6) (s : State) : Out := op1 s px d a (fun a => a <<< h.toNat)

/-- SRLI (R125), by imm13[5:0]. -/
def execSrli (px : Px) (d a : Reg) (h : BitVec 6) (s : State) : Out := op1 s px d a (fun a => a >>> h.toNat)

/-- SRAI (R125), by imm13[5:0]. -/
def execSrai (px : Px) (d a : Reg) (h : BitVec 6) (s : State) : Out := op1 s px d a (fun a => a.sshiftRight h.toNat)

/-- LUI (R125). -/
def execLui (px : Px) (d : Reg) (u : BitVec 18) (s : State) : Out :=
  rowOp s px [] d.toNat (fun _ _ => upper u)

/-- AUIPC (R125): the PC is the instruction's address, that of its first prefix (R78). -/
def execAuipc (px : Px) (d : Reg) (u : BitVec 18) (s : State) : Out :=
  rowOp s px [] d.toNat (fun h _ => h.pc + upper u)

end Sys2Proof.Machine
end

