-- ==== Sys2Proof/Machine/Float.lean ====
section
/-! DEFINITION. The scalar floating-point instructions (spec/07_scalar.md R127). -/

namespace Sys2Proof.Machine

/-- The rounding mode in force for a code: DYN takes RMODE (R60). -/
def effMode (rmode m : BitVec 3) : Nat := if m = 6 then rmode.toNat else m.toNat

/-- The FP32 operand in bits [31:0] of a register. -/
def fp32Of (x : Dword) : Exact := fp32.decode (x.toNat % 2 ^ 32)

/-- One row's result of a scalar float instruction: the value of d and the flags raised. -/
abbrev FRow := Dword × Flags

/-- The rows of a float instruction in ascending order, each taking one draw in SR (R61, R127). -/
def floatRows (h : Hart) (mode : Nat) (d : Nat) (f : Nat → Nat → FRow) : List Nat → Hart → Hart
  | [], g => g
  | j :: js, g =>
    let sr := srDraw mode g.csr.srseed
    let (x, fl) := f j sr.toNat
    let g := (g.setReg j d x)
    floatRows h mode d f js { g with csr := { g.csr with srseed := sr, xstat := g.csr.xstat ||| fl } }

/-- A scalar float instruction: flags go to XSTAT and the rows are written (R63, R127). -/
def floatOp (s : State) (px : Px) (regs : List Nat) (d : Nat) (m : BitVec 3)
    (f : Hart → Nat → Nat → Nat → FRow) : Out :=
  withRegs s px (d :: regs) (fun hid h =>
    let mode := effMode h.csr.rmode m
    .next (s.retire hid (floatRows h mode d (f h mode) (h.active px) h) px))

/-- An exact FP32 result rounded once (R62, R127). -/
def roundFp32 (mode : Nat) (satf : Bool) (sr : Nat) (x : Exact × Flags) : FRow :=
  let (c, fl) := roundF fp32 mode satf sr x.1
  (BitVec.ofNat 64 c, x.2 ||| fl)

/-- A float operation of two operands rounded once. -/
def float2 (s : State) (px : Px) (d a b : Reg) (t : BitVec 1) (m : BitVec 3)
    (f : Nat → Exact → Exact → Exact × Flags) : Out :=
  floatOp s px [a.toNat, b.toNat] d.toNat m (fun h mode j sr =>
    roundFp32 mode (t == 1) sr (f mode (fp32Of (h.reg j a.toNat)) (fp32Of (h.reg j b.toNat))))

/-- FADD32 (R127). -/
def execFadd32 (px : Px) (d a b : Reg) (t : BitVec 1) (m : BitVec 3) (s : State) : Out :=
  float2 s px d a b t m (fun mode x y => addE (mode == 2) x y)

/-- FSUB32 (R127). -/
def execFsub32 (px : Px) (d a b : Reg) (t : BitVec 1) (m : BitVec 3) (s : State) : Out :=
  float2 s px d a b t m (fun mode x y => addE (mode == 2) x y.negate)

/-- FMUL32 (R127). -/
def execFmul32 (px : Px) (d a b : Reg) (t : BitVec 1) (m : BitVec 3) (s : State) : Out :=
  float2 s px d a b t m (fun _ x y => mulE x y)

/-- A fused product and sum, with the flags of both (R127); a NaN operand gives NaN and no flag (R160). -/
def fmaE (rdn : Bool) (x y z : Exact) : Exact × Flags :=
  if z.isNan then (.nan, 0)
  else
    let (p, f) := mulE x y
    let (r, g) := addE rdn p z
    (r, f ||| g)

/-- FMA32 (R127): round(a × b + d), fused. -/
def execFma32 (px : Px) (d a b : Reg) (t : BitVec 1) (m : BitVec 3) (s : State) : Out :=
  floatOp s px [a.toNat, b.toNat] d.toNat m (fun h mode j sr =>
    roundFp32 mode (t == 1) sr
      (fmaE (mode == 2) (fp32Of (h.reg j a.toNat)) (fp32Of (h.reg j b.toNat)) (fp32Of (h.reg j d.toNat))))

/-- FDIV32 (R127). -/
def execFdiv32 (px : Px) (d a b : Reg) (t : BitVec 1) (m : BitVec 3) (s : State) : Out :=
  float2 s px d a b t m (fun _ x y => divE x y)

/-- FSQRT32 (R127). -/
def execFsqrt32 (px : Px) (d a : Reg) (t : BitVec 1) (m : BitVec 3) (s : State) : Out :=
  floatOp s px [a.toNat] d.toNat m (fun h mode j sr =>
    roundFp32 mode (t == 1) sr (sqrtE (fp32Of (h.reg j a.toNat))))

/-- The smaller or larger of two FP32 codes, −0 below +0, the canonical NaN if either is NaN (R127). -/
def pickCode (smaller : Bool) (a b : Dword) : Dword :=
  let x := fp32Of a
  let y := fp32Of b
  if x.isNan || y.isNan then BitVec.ofNat 64 fp32.nanc
  else if x.lessTotal y == smaller then BitVec.ofNat 64 (a.toNat % 2 ^ 32)
  else BitVec.ofNat 64 (b.toNat % 2 ^ 32)

/-- FMIN32 (R127). -/
def execFmin32 (px : Px) (d a b : Reg) (s : State) : Out := op2 s px d a b (pickCode true)

/-- FMAX32 (R127). -/
def execFmax32 (px : Px) (d a b : Reg) (s : State) : Out := op2 s px d a b (pickCode false)

/-- The predicates 0 EQ, 1 LT, 2 LE, 3 UN, 4 NE over two values, with NV for LT and LE on a NaN (R127). -/
def predE (p : Nat) (x y : Exact) : Bool × Flags :=
  if x.isNan || y.isNan then
    match p with
    | 1 | 2 => (false, flagNv)
    | 3 | 4 => (true, 0)
    | _ => (false, 0)
  else
    match p with
    | 0 => (x.cmp y == .eq, 0)
    | 1 => (x.cmp y == .lt, 0)
    | 2 => (x.cmp y != .gt, 0)
    | 4 => (x.cmp y != .eq, 0)
    | _ => (false, 0)

/-- FCMP32 (R127): it does not round, so no mode and no draw apply. -/
def execFcmp32 (px : Px) (d a b : Reg) (p : BitVec 3) (s : State) : Out :=
  floatOp s px [a.toNat, b.toNat] d.toNat 0 (fun h _ j _ =>
    let r := predE p.toNat (fp32Of (h.reg j a.toNat)) (fp32Of (h.reg j b.toNat))
    (flag64 r.1, r.2))

/-- The integer kinds 0 INT32, 1 UINT32, 2 INT64, 3 UINT64 (R112). -/
def kindWidth (k : BitVec 2) : Nat := if k.toNat < 2 then 32 else 64
def kindSigned (k : BitVec 2) : Bool := k.toNat % 2 == 0

/-- The integer that a register holds in a kind (R127). -/
def kindValue (k : BitVec 2) (a : Dword) : Int :=
  let w := kindWidth k
  if kindSigned k then signedOf w (a.toNat % 2 ^ w) else ((a.toNat % 2 ^ w : Nat) : Int)

/-- FCVTIF (R127). -/
def execFcvtif (px : Px) (d a : Reg) (k : BitVec 2) (m : BitVec 3) (s : State) : Out :=
  floatOp s px [a.toNat] d.toNat m (fun h mode j sr =>
    roundFp32 mode false sr (exactOfInt (kindValue k (h.reg j a.toNat)), 0))

/-- FCVTFI (R127): rounded to an integer kind; 32-bit kinds are extended to 64 bits by their sign or zeros. -/
def execFcvtfi (px : Px) (d a : Reg) (k : BitVec 2) (m : BitVec 3) (s : State) : Out :=
  floatOp s px [a.toNat] d.toNat m (fun h mode j sr =>
    let (c, fl) := roundI (kindWidth k) (kindSigned k) mode sr (fp32Of (h.reg j a.toNat))
    (extLoad (kindWidth k / 8) (kindSigned k) c, fl))

/-- FCVTFF with b[0] = 0 (R127): rounded into a narrow format, its code in the low bits of d. -/
def execFcvtffTo (px : Px) (d a : Reg) (t : BitVec 1) (f : BitVec 5) (m : BitVec 3) (s : State) : Out :=
  floatOp s px [a.toNat] d.toNat m (fun h mode j sr =>
    let (c, fl) := roundF (fspec f) mode (t == 1) sr (fp32Of (h.reg j a.toNat))
    (BitVec.ofNat 64 c, fl))

/-- FCVTFF with b[0] = 1 (R127): a narrow code decoded exactly into FP32, NV for an E4M3U code with bit 7
set. -/
def execFcvtffFrom (px : Px) (d a : Reg) (f : BitVec 5) (m : BitVec 3) (s : State) : Out :=
  floatOp s px [a.toNat] d.toNat m (fun h mode j sr =>
    let c := (h.reg j a.toNat).toNat % 2 ^ fmtWidth f
    let fl := flagIf (f == 11 && decide (128 ≤ c)) flagNv
    ((roundFp32 mode false sr ((fspec f).decode c, 0)).1, fl))

end Sys2Proof.Machine
end

