-- ==== Sys2Proof/Machine/LoadStore.lean ====
section
/-! DEFINITION. Scalar loads and stores (spec/07_scalar.md R128 to R131), with their landing (spec/05_words.md
R82, R97 to R100). -/

namespace Sys2Proof.Machine

/-- The address of a row's access: a + offset + j × stride (R128). -/
def rowAddr (h : Hart) (px : Px) (a : Nat) (off : Dword) (j : Nat) : Dword :=
  h.reg j a + off + BitVec.ofNat 64 j * h.stride px

/-- Trivet entries in use (R98, R200): one for each timed scalar load that has not landed, and one for each
register sector of a VLDR in each row. -/
def Hart.trivetUsed (h : Hart) : Nat :=
  let timed := h.loads.filter (fun e => e.due.isSome)
  (dedupNat ((timed.filter (·.scalarPipe)).map (·.order))).length + (timed.filter (fun e => !e.scalarPipe)).length

/-- The entries of a scalar load, one for each active row. -/
def loadEntries (s : State) (h : Hart) (acc : List (Nat × Nat)) (va : Nat → Dword) (d size : Nat) (sg : Bool)
    (land : Nat) : List LoadEntry :=
  acc.map (fun y =>
    { row := y.1, dest := .scalar d h.priv size sg, addr := va y.1, dpa := y.2, land := land,
      due := if land = 0 then none else some (s.hartCycle h + land), data := none, pc := h.pc, tix := 0,
      idx := (h.idx[0]?).getD 0, scalarPipe := true, join := none, prt := none, order := h.order })

/-- A load (R128, R129): the checks of every row at issue; then a timed load takes a Trivet entry, and an
interlocked one reads at its home slice, at once or, where the access is deferred, later (log 3). What reads later reads
in lane-slice order (R269), and what reads at once waits until no access in flight comes before it. -/
def scalarLoad (s : State) (px : Px) (d a : Reg) (c : BitVec 5) (o : BitVec 8) (size : Nat) (sg : Bool) : Out :=
  withRegs s px [d.toNat, a.toNat] (fun hid h =>
    let va := rowAddr h px a.toNat (pxLoadOffset px o * BitVec.ofNat 64 size)
    match s.checkRows h .r size size va (h.active px) with
    | .error x => .next (s.stopScalar hid h 1 x)
    | .ok acc =>
      let land := 8 * c.toNat
      if acc.isEmpty then .next (s.retire hid h px)
      else if land != 0 && decide (64 ≤ h.trivetUsed) then .next s
      else if land != 0 then
        let g := { h with loads := h.loads ++ loadEntries s h acc va d.toNat size sg land, order := h.order + 1 }
        .next (s.retire hid g px)
      else if !s.defer && h.accessAhead size acc then .next s
      else
        match s.homeRows h .plain va acc with
        | .error x => .next (s.stopScalar hid h 1 x)
        | .ok (s, locs) =>
          if s.defer then
            let g := { h with loads := h.loads ++ loadEntries s h acc va d.toNat size sg 0, order := h.order + 1 }
            .next (s.retire hid g px)
          else
            let g := locs.foldl (fun g y => g.setReg y.1 d.toNat (extLoad size sg (s.readRaw y.2 size))) h
            .next (s.retire hid g px))

/-- LB (R129). -/
def execLb (px : Px) (d a : Reg) (c : BitVec 5) (o : BitVec 8) (s : State) : Out := scalarLoad s px d a c o 1 true
/-- LBU (R129). -/
def execLbu (px : Px) (d a : Reg) (c : BitVec 5) (o : BitVec 8) (s : State) : Out := scalarLoad s px d a c o 1 false
/-- LH (R129). -/
def execLh (px : Px) (d a : Reg) (c : BitVec 5) (o : BitVec 8) (s : State) : Out := scalarLoad s px d a c o 2 true
/-- LHU (R129). -/
def execLhu (px : Px) (d a : Reg) (c : BitVec 5) (o : BitVec 8) (s : State) : Out := scalarLoad s px d a c o 2 false
/-- LW (R129). -/
def execLw (px : Px) (d a : Reg) (c : BitVec 5) (o : BitVec 8) (s : State) : Out := scalarLoad s px d a c o 4 true
/-- LWU (R129). -/
def execLwu (px : Px) (d a : Reg) (c : BitVec 5) (o : BitVec 8) (s : State) : Out := scalarLoad s px d a c o 4 false
/-- LD (R129). -/
def execLd (px : Px) (d a : Reg) (c : BitVec 5) (o : BitVec 8) (s : State) : Out := scalarLoad s px d a c o 8 true

/-- The hart's current task has stored, run an atomic or issued a job since its CURSOR (R253). -/
def Hart.markStored (h : Hart) : Hart := { h with task := h.task.map (fun t => { t with stored := true }) }

/-- The plain stores of the rows made at once, in ascending row order (R131). -/
def storeLocs (s : State) (h : Hart) (va : Nat → Nat) (val : Nat → Dword) (size : Nat) (locs : List (Nat × Loc)) :
    State :=
  locs.foldl (fun s y => s.storeThrough h y.1 (va y.1) y.2 size (val y.1).toNat) s

/-- The DPA of a row among checked accesses. -/
def dpaOf (acc : List (Nat × Nat)) (j : Nat) : Nat := ((acc.find? (fun y => y.1 == j)).map (·.2)).getD 0

/-- A store (R128, R130): a fault in any row writes nothing in any row. It is performed at once, once no access in flight
comes before it, or, where it is deferred, later in lane-slice order (R269, log 3). -/
def scalarStore (s : State) (px : Px) (d a : Reg) (i : BitVec 13) (size : Nat) : Out :=
  withRegs s px [d.toNat, a.toNat] (fun hid h =>
    let va := rowAddr h px a.toNat (pxImm px i * BitVec.ofNat 64 size)
    match s.checkRows h .w size size va (h.active px) with
    | .error x => .next (s.stopScalar hid h 1 x)
    | .ok acc =>
      if acc.isEmpty then .next (s.retire hid h px)
      else if !s.defer && h.accessAhead size acc then .next s
      else
        match s.homeRows h .write va acc with
        | .error x => .next (s.stopScalar hid h 1 x)
        | .ok (s, locs) =>
          let val := fun j => h.reg j d.toNat
          if s.defer then
            let es := acc.map (fun y =>
              { row := y.1, unit := none, cluster := 0, addr := va y.1, dpa := y.2, size := size, val := val y.1, vec := none,
                order := h.order : StoreEntry })
            .next (s.retire hid { h.markStored with stores := h.stores ++ es, order := h.order + 1 } px)
          else
            .next ((storeLocs s h (dpaOf acc) val size locs).retire hid h.markStored px))

/-- SB (R130). -/
def execSb (px : Px) (d a : Reg) (i : BitVec 13) (s : State) : Out := scalarStore s px d a i 1
/-- SH (R130). -/
def execSh (px : Px) (d a : Reg) (i : BitVec 13) (s : State) : Out := scalarStore s px d a i 2
/-- SW (R130). -/
def execSw (px : Px) (d a : Reg) (i : BitVec 13) (s : State) : Out := scalarStore s px d a i 4
/-- SD (R130). -/
def execSd (px : Px) (d a : Reg) (i : BitVec 13) (s : State) : Out := scalarStore s px d a i 8

/-! ## Steps of loads and stores in flight -/

/-- The part of a load that an arrival names: its order, its die row and, of a VLDR, its register sector. -/
def LoadEntry.isPart (e : LoadEntry) (order row sector : Nat) : Bool :=
  e.sameLoad order && e.row == row && (match e.dest with
    | .scalar _ _ _ _ => true
    | .vector _ k => k == sector)

/-- LOAD_DATA_ARRIVAL (R98, R269, R272): the data of the load of the focus hart with order `unit`, in row `sub` and, of a
VLDR, for register sector `val`, is read, once no access in flight comes before that read; a late load then lands and its
core resumes (R99). An event that names no such load leaves the state. -/
def execLoadDataArrival (s : State) : Out :=
  let hid := s.focus.hart
  match look s.harts hid with
  | none => .next s
  | some h =>
    let part := fun (y : LoadEntry) => y.isPart s.focus.unit s.focus.sub s.focus.val.toNat
    match h.loads.find? (fun e => part e && e.data.isNone) with
    | none => .next s
    | some e =>
      if h.loadWaits e then .next s
      else
      match s.arrive h e with
      | .ok (s, x) =>
        let g := { h with loads := h.loads.map (fun y => if part y then { y with data := some x } else y) }
        .next (((s.setHart hid g).landAll hid).refreeze g)
      | .error (.absent _ dpa w) =>
        .next ((s.setHart hid h).pageAbsent hid dpa w)
      | .error _ => .next s

/-- LOAD_LANDING (R97): the timed loads of the focus hart that are due land, or freeze the hart's cores where
their data is late (R99). -/
def execLoadLanding (s : State) : Out :=
  let hid := s.focus.hart
  match look s.harts hid with
  | none => .next s
  | some h => .next ((s.landAll hid).refreeze h)

/-- The command of a store in flight and its engine. -/
def Hart.commandOf (h : Hart) (x : StoreEntry) : Option (Eng × Command) :=
  match x.unit with
  | none => none
  | some e => ((h.queue e ++ h.timed.map (·.2)).find? (fun c => c.order == x.order)).map (fun c => (e, c))

/-- A store in flight of an engine that what another agent has made of the sector refuses: its trap is raised, and the store
stays in flight for the return (DESIGN CHOICE, log 3). -/
def State.refuseStore (s : State) (hid : Nat) (h : Hart) (x : StoreEntry) (k : Cause) : State :=
  match h.commandOf x with
  | some (e, c) =>
    if s.mayTrap hid h && h.traps.isEmpty then
      (s.setHart hid (h.failTimed e x.order)).takeTrap hid
        { cause := k, eng := engCode e, row := x.row, addr := some x.addr, status := 0, progress := false, pc := c.pc,
          cls := engEcls e, tix := c.tix }
    else s
  | none => s.modHart hid (fun g => g.stored x 0 s.now)

/-- ACCESS_PERFORMED (R269, R285): the store of the focus hart at position `unit` of those in flight is performed, once
no access in flight comes before it and its package can be reached (R292, R398), and takes its place in coherence order. -/
def execAccessPerformed (s : State) : Out :=
  let hid := s.focus.hart
  match look s.harts hid with
  | none => .next s
  | some h =>
    match h.stores[s.focus.unit]? with
    | none => .next s
    | some x =>
      if h.storeWaits x || s.unreachable h x then .next s
      else
        match s.madeStore h x with
        | .ok (s', fl) => .next (s'.modHart hid (fun g => g.stored x fl s.now))
        | .error (.cause k _ _) => .next (s.refuseStore hid h x k)
        | .error _ => .next s

end Sys2Proof.Machine
end

