-- ==== Sys2Proof/Machine/Sync.lean ====
section
/-! DEFINITION. Joins, fences, the scope table, atomics, barrier objects and future cells
(spec/11_sync_system.md R238 to R254; spec/21_barrier.md R359 to R364; spec/20_group.md R354). -/

namespace Sys2Proof.Machine

/-! ## Joins -/

/-- An engine command accesses memory, or pushes strips that LSYNC orders (R203, R240): every LD command but
AQCFG and APREF, every ST command, VPUSH, VLDR, VSTR, RINGCFG, TLOADA, and a recorded array command for its tape
write (R230). -/
def Command.accesses (e : Eng) (c : Command) : Bool :=
  match e, c.t.opc.toNat with
  | .ld, n => n != 0x08 && n != 0x09
  | .st, _ => true
  | .xv, n => n == 0x41 || n == 0x44 || n == 0x45
  | .mx, n => n == 0x03 || n == 0x1E || (c.recording && decide (0x10 ≤ n))
  | .jb, _ => false

/-- A command that has not performed its accesses: it has not run, or it still has a tape record to write. -/
def Command.unperformed (c : Command) : Bool :=
  c.fault.isNone && (match c.done with
    | none => true
    | some d => d.tape.isSome)

/-- Every memory access of the hart dispatched so far has completed (R240, R272): a timed load counts once its
data has arrived. -/
def Hart.accessesDone (h : Hart) : Bool :=
  h.stores.isEmpty && h.loads.all (fun e => e.data.isSome)
    && !([Eng.ld, .xv, .mx, .st].any (fun e => (h.queue e).any (fun c => c.unperformed && c.accesses e)))

/-- An array command, VWRA or SACC (R278). -/
def Command.writesTile (e : Eng) (c : Command) : Bool :=
  match e, c.t.opc.toNat with
  | .mx, n => decide (0x10 ≤ n)
  | .xv, n => n == 0x51
  | .st, n => n == 0x05
  | _, _ => false

/-- A release may take effect: LSYNC, and every array command, VWRA and SACC completed (R278). -/
def Hart.releaseReady (h : Hart) : Bool :=
  h.accessesDone
    && !([Eng.xv, .mx, .st].any (fun e => (h.queue e).any (fun c => c.fault.isNone && c.writesTile e)))

/-- Every job that the hart has issued or dispatched has completed (R241, R301). -/
def State.jobsDone (s : State) (hid : Nat) (h : Hart) : Bool :=
  !((h.queue .jb).any (fun c => c.fault.isNone && c.done.isNone))
    && !(s.jobs.any (fun x => x.2.hart == some hid))

/-- LSYNC (R240). -/
def execLsync (px : Px) (s : State) : Out :=
  withRegs s px [] (fun hid h => if h.accessesDone then .next (s.retire hid h px) else .next s)

/-- The space of a sector, by its key divided by 256: 0 scratchpad, 1 memory of the package, 2 other packages (R242). -/
def State.spaceOf (s : State) (k : Nat) : Nat :=
  let a := k * 256
  if 2 ^ 56 ≤ a then 0
  else
    match (if cxlBase ≤ a then lookD s.windows ((a - cxlBase) / 2 ^ 38) .unused else WindowCfg.unused) with
    | .domain p _ => if p = s.pkg then 1 else 2
    | _ => 1

/-- A job writes into a space; a collective writes its status record as well (R242, R300, R405). -/
def State.writesSpace (s : State) (j : Job) (space : Nat) : Bool :=
  j.wr.any (fun k => s.spaceOf k == space) || (j.coll.isSome && s.spaceOf (keepKey j.core j.stata) == space)

/-- A job that DRAIN waits for: of the context, issued on one of the cores before DRAIN, with writes into the
space, and not yet complete (R242, R300, R301). -/
def State.drains (s : State) (h : Hart) (cores : List Nat) (upto space : Nat) : Bool :=
  s.jobs.any (fun x => decide (x.1 < upto) && decide (x.2.ctx = h.ctx) && cores.contains x.2.core
    && s.writesSpace x.2 space)

/-- The L1s of a core lose their copies of the sectors that jobs issued there have written (R300). -/
def State.dropJobCopies (s : State) (c : Nat) : State :=
  if (s.core c).l1.any (fun x => x.2.byJob) then s.modCore c (fun k => { k with l1 := k.l1.filter (fun x => !x.2.byJob) })
  else s

/-- DRAIN (R242, R300) for the active rows' cores: it notes the jobs issued so far and waits for those. It first waits for the
hart's own JB commands that are queued and not yet issued, of which R242 does not speak (DESIGN CHOICE, log 50). -/
def drain (s : State) (px : Px) (space : Nat) : Out :=
  withRegs s px [] (fun hid h =>
    if (h.queue .jb).any (fun c => c.fault.isNone && c.done.isNone) then .next s
    else
      let upto := match h.wait with
        | .drain n => n
        | _ => s.nextJob
      if s.drains h ((h.active px).map h.coreOf) upto space then
        .next (s.setHart hid { h with wait := .drain upto })
      else .next ((((h.active px).map h.coreOf).foldl State.dropJobCopies s).retire hid h px))

/-- DRAIN.spad (R242). -/
def execDrainSpad (px : Px) (s : State) : Out := drain s px 0
/-- DRAIN.dev (R242). -/
def execDrainDev (px : Px) (s : State) : Out := drain s px 1
/-- DRAIN.dom (R242). -/
def execDrainDom (px : Px) (s : State) : Out := drain s px 2

/-! ## The scope table -/

def ScopeEntry.invalid : ScopeEntry := { cur := none, pending := [], admits := false }

/-- An entry of a context's scope table; entries 0 and 31 are not held there (R246). -/
def State.scopeEntry (s : State) (ctx k : Nat) : ScopeEntry :=
  match look s.ctxs ctx with
  | some c => lookD c.scopes k ScopeEntry.invalid
  | none => ScopeEntry.invalid

def State.setScope (s : State) (ctx k : Nat) (e : ScopeEntry) : State :=
  s.modCtx ctx (fun c => { c with scopes := putD c.scopes k ScopeEntry.invalid e })

/-- Agents as a scope entry names them (R279): what runs on a core, an application hart, the CXL peer, and one that is a
member of entries 0 and 31 only (R336). -/
inductive Agent where
  | core (n : Nat)
  | host (n : Nat)
  | peer
  | other
  deriving DecidableEq, Repr

/-- PSET names a package: 0 means the issuing one only (R246). -/
def Scope.names (x : Scope) (own pkg : Nat) : Bool := if x.pset == 0 then own == pkg else x.pset.getLsbD pkg

/-- An agent of this package is a member of an entry's contents (R279). -/
def Scope.member (x : Scope) (pkg : Nat) (a : Agent) : Bool :=
  match a with
  | .core n => x.cores.getLsbD n && x.names pkg pkg
  | .host n => x.hset.getLsbD n && x.names pkg pkg
  | .peer => x.cset.getLsbD 9
  | .other => false

/-- The check of an operation that carries index k, made by an agent (R250). -/
def State.scopeCheck (s : State) (ctx k : Nat) (a : Agent) : Option Cause :=
  if k = 0 || k = 31 then none
  else
    match (s.scopeEntry ctx k).cur with
    | none => some .staleScopeIndex
    | some x => if x.member s.pkg a then none else some .notScopeMember

/-- The contents of an entry: those under which an operation that issues now takes its membership and its meet point
(R248, R409). -/
def State.contents (s : State) (ctx k : Nat) : Option Scope := (s.scopeEntry ctx k).cur

/-- An agent is a member of an entry under some contents (R279): of entry 31 always; of entry 0 only the one that issues. -/
def State.memberUnder (s : State) (k : Nat) (cur : Option Scope) (a : Agent) : Bool :=
  k == 31 || (k != 0 && cur.any (fun x => x.member s.pkg a))

/-- An agent is a member of entry k of a context as it stands (R279). -/
def State.isMember (s : State) (ctx k : Nat) (a : Agent) : Bool := s.memberUnder k (s.contents ctx k) a

/-- A release of one agent and an acquire of another can synchronise (R282, R409): both agents are members of both entries,
each under the contents that its operation used. -/
def State.bothMembers (s : State) (rel acq : Nat × Option Scope) (a b : Agent) : Bool :=
  [rel, acq].all (fun x => s.memberUnder x.1 x.2 a && s.memberUnder x.1 x.2 b)

/-- The virtual dies on which member cores lie. -/
def memberDies (cores : BitVec 128) : List Nat :=
  (List.range 8).filter (fun v => cores.extractLsb' (16 * v) 16 != 0)

/-- Where a scope's order is made (R279): the hart's own streams, the L2 of a virtual die, or the LLC. -/
inductive MeetPoint where
  | own
  | l2 (v : Nat)
  | llc
  deriving DecidableEq, Repr

/-- The meet point of a scope's contents (R247, R279): an L2 where every member lies on one virtual die. -/
def Scope.meet (x : Scope) (pkg : Nat) : MeetPoint :=
  match memberDies x.cores with
  | [v] =>
    if x.hset == 0 && (x.pset == 0 || x.pset == BitVec.ofNat 64 (2 ^ pkg)) && !x.cset.getLsbD 9 then .l2 v else .llc
  | _ => .llc

/-- The meet point of an operation on entry k under some contents (R279, R409). -/
def State.meetPoint (s : State) (k : Nat) (cur : Option Scope) : MeetPoint :=
  if k = 0 then .own
  else
    match cur with
    | some x => if k = 31 then .llc else x.meet s.pkg
    | none => .llc

/-- A scope names another package of the domain (R290), and the CXL peers (R291); SYSTEM names both. -/
def State.scopeNamesFar (s : State) (k : Nat) (cur : Option Scope) : Bool :=
  k == 31 || (k != 0 && cur.any (fun x => x.pset &&& ~~~ (BitVec.ofNat 64 (2 ^ s.pkg)) != 0))

def State.scopeNamesPeer (s : State) (k : Nat) (cur : Option Scope) : Bool :=
  k == 31 || (k != 0 && cur.any (fun x => x.member s.pkg .peer))

/-- An acquire of a hart at scope k under some contents, for its rows (R281, R289): their L1s lose every copy before any
access after it, the L2s of their dies the copies of other packages' lines where the scope names one (R290), and the LLC its
copies of CXL lines where it names the peer (R291). -/
def State.acquire (s : State) (h : Hart) (rows : List Nat) (k : Nat) (cur : Option Scope) : State :=
  let s := rows.foldl (fun s j => s.clearL1 (h.coreOf j)) s
  let dies := rows.map (fun j => h.coreOf j / 16)
  let s := if s.scopeNamesFar k cur && !s.l2.isEmpty then
      { s with l2 := s.l2.filter (fun x => !dies.contains (x.1 / 2 ^ 64)) } else s
  if s.scopeNamesPeer k cur && !s.llc.isEmpty then { s with llc := [] } else s

/-- A release that covers a write to a package that cannot be reached raises LINK_DOWN (R292): the row of that write. -/
def State.releaseDown (s : State) (h : Hart) : Option Nat := (h.stores.find? (s.unreachable h)).map (·.row)

/-- The first row whose core fails the check. -/
def State.scopeRows (s : State) (h : Hart) (k : Nat) : List Nat → Option (Nat × Cause)
  | [] => none
  | j :: js =>
    match s.scopeCheck h.ctx k (.core (h.coreOf j)) with
    | some c => some (j, c)
    | none => s.scopeRows h k js

/-- The contents under which an operation that is in flight on entry k has issued. -/
def Wait.fenceOn (w : Wait) (k : Nat) : Option (Option Scope) :=
  match w with
  | .fence j cur => if j = k then some cur else Option.none
  | _ => Option.none

/-- Operations of the context in flight on an entry (R248): harts whose operation has issued and waits, and jobs
that carry the index. -/
def State.flight (s : State) (ctx k : Nat) : Nat :=
  (s.harts.filter (fun x => decide (x.2.ctx = ctx) && (x.2.wait.fenceOn k).isSome)).length
    + (s.jobs.filter (fun x => decide (x.2.ctx = ctx) && decide (x.2.scope = k))).length

/-- An entry is PENDING (R248). -/
def State.scopePending (s : State) (ctx k : Nat) : Bool :=
  let e := s.scopeEntry ctx k
  !e.pending.isEmpty && !e.admits

/-- A scoped operation of the acting hart (R243, R248, R250): it waits at issue while its entry is PENDING, is
checked, counts as in flight while it waits for what its order asks, and is then performed under the contents of its entry
at issue (R409). A release that cannot reach a covered write raises LINK_DOWN and has no effect (R292). -/
def scopedOp (s : State) (hid : Nat) (h : Hart) (k : Nat) (rows : List Nat) (va : Nat → Option Dword) (rel ready : Bool)
    (perform : Option Scope → Out) : Out :=
  match h.wait.fenceOn k with
  | some cur =>
    match (if rel then s.releaseDown h else none) with
    | some j => .next (s.takeTrap hid (scalarInfo h 1 .linkDown j none))
    | none => if ready then perform cur else .next s
  | none =>
    if s.scopePending h.ctx k then .next s
    else
      match s.scopeRows h k rows with
      | some (j, c) => .next (s.takeTrap hid (scalarInfo h 1 c j (va j)))
      | none =>
        let cur := s.contents h.ctx k
        if ready && !s.defer then perform cur else .next (s.setHart hid { h with wait := .fence k cur })

/-- FENCES (R241): LSYNC, the hart's jobs, then a release and an acquire at scope k, for the whole hart. Its scope index
is checked in the active rows: with an empty die mask nothing is checked, an INVALID entry raises nothing, and it fences
and retires, where R241 and R250 could be read against R122 (DESIGN CHOICE, log 38). -/
def execFences (px : Px) (k : BitVec 5) (s : State) : Out :=
  withRegs s px [] (fun hid h =>
    scopedOp s hid h k.toNat (h.active px) (fun _ => none) true (h.releaseReady && s.jobsDone hid h)
      (fun cur => .next ((s.acquire h h.allRows k.toNat cur).retire hid h px)))

/-- A descriptor breaks a rule of R247. -/
def scopeIllFormed (pkg : Nat) (d : BitVec 512) : Bool :=
  let cores := d.extractLsb' 0 128
  let hset := d.extractLsb' 128 64
  let pset := d.extractLsb' 192 64
  let cset := d.extractLsb' 256 10
  let dies := memberDies cores
  let own := pset == 0 || pset == BitVec.ofNat 64 (2 ^ pkg)
  let oneDie := match dies with
    | [v] => hset == 0 && own && cset.getLsbD v
    | _ => false
  !d.getLsbD 288 || d.extractLsb' 289 223 != 0 || d.extractLsb' 266 22 != 0
    || (cores == 0 && hset == 0)
    || (List.range 8).any (fun v => cset.getLsbD v && !dies.contains v)
    || (!cset.getLsbD 8 && !oneDie)
    || (pset != 0 && !pset.getLsbD pkg)
    || (cset.getLsbD 9 && !cset.getLsbD 8)

/-- The contents that a descriptor gives an entry (R246). -/
def scopeOf (d : BitVec 512) : Scope :=
  { cores := d.extractLsb' 0 128, hset := d.extractLsb' 128 64, pset := d.extractLsb' 192 64,
    cset := d.extractLsb' 256 10 }

/-- SCOPEWR and SCOPEINV on an entry, with the new contents of each active row in order, none to invalidate it (R122,
R248, R249): at once where nothing is in flight, busy or queued otherwise. -/
def rewriteScope (s : State) (px : Px) (hid : Nat) (h : Hart) (d : Reg) (nb : Bool) (k : Nat) (news : List (Option Scope)) :
    Out :=
  let answer := fun (x : Dword) => h.setRegs (h.active px) d.toNat (fun _ => x)
  let e := s.scopeEntry h.ctx k
  if e.pending.isEmpty && s.flight h.ctx k == 0 then
    .next ((s.setScope h.ctx k { e with cur := news.getLastD e.cur }).retire hid (answer 0) px)
  else if nb then .next (s.retire hid (answer 0x183) px)
  else
    .next ((s.setScope h.ctx k { e with pending := e.pending ++ news.map (fun n => { hart := hid, new := n }) }).setHart hid
      { h with wait := .scope k false })

/-- A blocking rewrite that waits: it retires after the cycle in which its change took effect (R249). -/
def scopeWait (s : State) (px : Px) (hid : Nat) (h : Hart) (d : Reg) (done : Bool) : Out :=
  if done then .next (s.retire hid (h.setRegs (h.active px) d.toNat (fun _ => 0)) px) else .next s

/-- The descriptors that SCOPEWR reads in its rows, in ascending order, each checked (R246, R247). -/
def State.scopeDescs (s : State) (h : Hart) (va : Nat → Dword) : List Nat → Except Stop (State × List (Option Scope))
  | [] => .ok (s, [])
  | j :: js => do
    let (s, x) ← s.rawStruct h j 64 64 1 (va j)
    let desc := BitVec.ofNat 512 x
    if scopeIllFormed s.pkg desc then .error (.cause .scopeIllFormed j (some (va j)))
    else
      let (s, rest) ← s.scopeDescs h va js
      pure (s, some (scopeOf desc) :: rest)

/-- SCOPEWR (R246 to R249), once in each active row (R122). -/
def execScopewr (px : Px) (d a : Reg) (n : BitVec 1) (e : BitVec 5) (s : State) : Out :=
  withRegs s px [d.toNat, a.toNat] (fun hid h =>
    match h.active px, h.wait with
    | [], _ => .next (s.retire hid h px)
    | _, .scope _ done => scopeWait s px hid h d done
    | js, _ =>
      match s.scopeDescs h (fun j => h.reg j a.toNat) js with
      | .error x => .next (s.stopScalar hid h 1 x)
      | .ok (s, news) => rewriteScope s px hid h d (n == 1) e.toNat news)

/-- SCOPEINV (R248, R249). -/
def execScopeinv (px : Px) (d : Reg) (n : BitVec 1) (e : BitVec 5) (s : State) : Out :=
  withRegs s px [d.toNat] (fun hid h =>
    match h.active px, h.wait with
    | [], _ => .next (s.retire hid h px)
    | _, .scope _ done => scopeWait s px hid h d done
    | js, _ => rewriteScope s px hid h d (n == 1) e.toNat (js.map (fun _ => none)))

/-- SCOPE_CHANGE_INSTALL (R248): the oldest change of entry `sub` of context `unit` takes effect once nothing is in flight
on it, and the operations that wait issue under the result. Where a change was queued behind it, that one makes the entry
PENDING again with the operations that have issued meanwhile in flight. -/
def execScopeChangeInstall (s : State) : Out :=
  let ctx := s.focus.unit
  let k := s.focus.sub
  let e := s.scopeEntry ctx k
  match e.pending with
  | [] => .next s
  | r :: rest =>
    if s.flight ctx k ≠ 0 then
      if e.admits then .next (s.setScope ctx k { e with admits := false }) else .next s
    else
      let s := s.setScope ctx k { cur := r.new, pending := rest, admits := !rest.isEmpty }
      .next (s.modHart r.hart (fun h =>
        match h.wait with
        | .scope i _ => if i = k then { h with wait := .scope k (!rest.any (fun q => q.hart == r.hart)) } else h
        | _ => h))

/-! ## Atomics -/

/-- The operations of R244. -/
inductive AmoOp where
  | add | and | or | xor | min | max | minu | maxu | swap | cas | fadd
  deriving DecidableEq, Repr

/-- The new value, none where nothing is written, and the flags (R244). -/
def amoNew (op : AmoOp) (w old v d1 : Nat) : Option Nat × Flags :=
  let n := 8 * w
  let m := 2 ^ n
  match op with
  | .add => (some ((old + v) % m), 0)
  | .and => (some (old &&& v), 0)
  | .or => (some (old ||| v), 0)
  | .xor => (some (old ^^^ v), 0)
  | .min => (some (if signedOf n old ≤ signedOf n v then old else v), 0)
  | .max => (some (if signedOf n old ≤ signedOf n v then v else old), 0)
  | .minu => (some (if old ≤ v then old else v), 0)
  | .maxu => (some (if old ≤ v then v else old), 0)
  | .swap => (some v, 0)
  | .cas => (if old = v then some (d1 % m) else none, 0)
  | .fadd =>
    let (x, f) := addE false (fp32.decode old) (fp32.decode v)
    let (c, g) := roundF fp32 0 false 0 x
    (some c, f ||| g)

/-- Bytes of a width code (R114). -/
def amoBytes (w : BitVec 2) : Nat := if w = 0 then 4 else 8

/-- One row's operation at its home slice, the lower row first (R243). -/
structure AmoRow where
  row : Nat
  dpa : Nat
  loc : Loc
  deriving DecidableEq, Repr

def amoRows (s : State) (op : AmoOp) (w : Nat) (v d1 : Nat → Nat) :
    List AmoRow → State × List (Nat × Nat) × Flags
  | [] => (s, [], 0)
  | r :: rs =>
    let old := s.readRaw r.loc w
    let (new, fl) := amoNew op w old (v r.row % 2 ^ (8 * w)) (d1 r.row)
    let s := match new with
      | some x => s.storeRaw r.dpa r.loc w x
      | none => s
    let (s, rest, fl') := amoRows s op w v d1 rs
    (s, (r.row, old) :: rest, fl ||| fl')

/-- The order field asks for a release, and for an acquire (R114). -/
def orderReleases (o : BitVec 2) : Bool := o.getLsbD 1
def orderAcquires (o : BitVec 2) : Bool := o.getLsbD 0

/-- The accesses of rows with their locations. -/
def amoList (acc : List (Nat × Nat)) (locs : List (Nat × Loc)) : List AmoRow :=
  (acc.zip locs).map (fun x => { row := x.1.1, dpa := x.1.2, loc := x.2.2 })

/-- An atomic (R243, R244): the checks of every row, the scope, a release where its order asks for one, the class
checks of every row, and then each row's operation. -/
def atomic (s : State) (px : Px) (op : AmoOp) (d a : Reg) (w : Nat) (o : BitVec 2) (k : BitVec 5) : Out :=
  let regs := if op = .cas then [d.toNat, d.toNat + 1, a.toNat] else [d.toNat, a.toNat]
  withRegs s px regs (fun hid h =>
    let va := rowAddr h px a.toNat 0
    match s.checkRows h .rw w w va (h.active px) with
    | .error x => .next (s.stopScalar hid h 1 x)
    | .ok acc =>
      if acc.isEmpty then .next (s.retire hid h px)
      else
        let ready := !h.accessAhead w acc && (!orderReleases o || h.releaseReady)
        scopedOp s hid h k.toNat (h.active px) (fun j => some (va j)) (orderReleases o) ready (fun cur =>
          match s.homeRows h .syncWrite va acc with
          | .error x => .next (s.stopScalar hid h 1 x)
          | .ok (s, locs) =>
            let (s, olds, fl) := amoRows s op w (fun j => (h.reg j d.toNat).toNat)
              (fun j => (h.reg j (d.toNat + 1)).toNat) (amoList acc locs)
            let g := olds.foldl (fun g y => g.setReg y.1 d.toNat (extLoad w (op != .fadd) y.2)) h.markStored
            let s := if orderAcquires o then s.acquire h (h.active px) k.toNat cur else s
            .next (s.retire hid { g with csr := { g.csr with xstat := g.csr.xstat ||| fl } } px)))

/-- AMOADD (R244). -/
def execAmoadd (px : Px) (d a : Reg) (w o : BitVec 2) (k : BitVec 5) (s : State) : Out :=
  atomic s px .add d a (amoBytes w) o k
/-- AMOAND (R244). -/
def execAmoand (px : Px) (d a : Reg) (w o : BitVec 2) (k : BitVec 5) (s : State) : Out :=
  atomic s px .and d a (amoBytes w) o k
/-- AMOOR (R244). -/
def execAmoor (px : Px) (d a : Reg) (w o : BitVec 2) (k : BitVec 5) (s : State) : Out :=
  atomic s px .or d a (amoBytes w) o k
/-- AMOXOR (R244). -/
def execAmoxor (px : Px) (d a : Reg) (w o : BitVec 2) (k : BitVec 5) (s : State) : Out :=
  atomic s px .xor d a (amoBytes w) o k
/-- AMOMIN (R244). -/
def execAmomin (px : Px) (d a : Reg) (w o : BitVec 2) (k : BitVec 5) (s : State) : Out :=
  atomic s px .min d a (amoBytes w) o k
/-- AMOMAX (R244). -/
def execAmomax (px : Px) (d a : Reg) (w o : BitVec 2) (k : BitVec 5) (s : State) : Out :=
  atomic s px .max d a (amoBytes w) o k
/-- AMOMINU (R244). -/
def execAmominu (px : Px) (d a : Reg) (w o : BitVec 2) (k : BitVec 5) (s : State) : Out :=
  atomic s px .minu d a (amoBytes w) o k
/-- AMOMAXU (R244). -/
def execAmomaxu (px : Px) (d a : Reg) (w o : BitVec 2) (k : BitVec 5) (s : State) : Out :=
  atomic s px .maxu d a (amoBytes w) o k
/-- AMOSWAP (R244). -/
def execAmoswap (px : Px) (d a : Reg) (w o : BitVec 2) (k : BitVec 5) (s : State) : Out :=
  atomic s px .swap d a (amoBytes w) o k
/-- AMOCAS (R244). -/
def execAmocas (px : Px) (d a : Reg) (w o : BitVec 2) (k : BitVec 5) (s : State) : Out :=
  atomic s px .cas d a (amoBytes w) o k
/-- AMOFADD (R244), of width 4. -/
def execAmofadd (px : Px) (d a : Reg) (o : BitVec 2) (k : BitVec 5) (s : State) : Out :=
  atomic s px .fadd d a 4 o k

/-- LDAQ (R245): a load at the home slice that is an acquire at scope k. -/
def execLdaq (px : Px) (d a : Reg) (w : BitVec 2) (k : BitVec 5) (s : State) : Out :=
  let n := amoBytes w
  withRegs s px [d.toNat, a.toNat] (fun hid h =>
    let va := rowAddr h px a.toNat 0
    match s.checkRows h .r n n va (h.active px) with
    | .error x => .next (s.stopScalar hid h 1 x)
    | .ok acc =>
      if acc.isEmpty then .next (s.retire hid h px)
      else
        scopedOp s hid h k.toNat (h.active px) (fun j => some (va j)) false (!h.accessAhead n acc) (fun cur =>
          match s.homeRows h .sync va acc with
          | .error x => .next (s.stopScalar hid h 1 x)
          | .ok (s, locs) =>
            let g := locs.foldl (fun g y => g.setReg y.1 d.toNat (extLoad n true (s.readRaw y.2 n))) h
            .next ((s.acquire h (h.active px) k.toNat cur).retire hid g px)))

/-- STRL's stores at the home slice, in ascending row order. -/
def storeHome (s : State) (va : Nat → Nat) (val : Nat → Dword) (size : Nat) (locs : List (Nat × Loc)) : State :=
  locs.foldl (fun s y => s.storeRaw (va y.1) y.2 size (val y.1).toNat) s

/-- STRL (R245): LSYNC, then a store at the home slice that is a release at scope k. -/
def execStrl (px : Px) (d a : Reg) (w : BitVec 2) (k : BitVec 5) (s : State) : Out :=
  let n := amoBytes w
  withRegs s px [d.toNat, a.toNat] (fun hid h =>
    let va := rowAddr h px a.toNat 0
    match s.checkRows h .w n n va (h.active px) with
    | .error x => .next (s.stopScalar hid h 1 x)
    | .ok acc =>
      if acc.isEmpty then .next (s.retire hid h px)
      else
        scopedOp s hid h k.toNat (h.active px) (fun j => some (va j)) true h.releaseReady (fun _ =>
          match s.homeRows h .syncWrite va acc with
          | .error x => .next (s.stopScalar hid h 1 x)
          | .ok (s, locs) =>
            .next ((storeHome s (dpaOf acc) (fun j => h.reg j d.toNat) n locs).retire hid h.markStored px)))

/-! ## Barrier objects -/

/-- The event flag of every hart of a context is set (R149). -/
def State.wakeContext (s : State) (ctx : Nat) : State :=
  { s with harts := s.harts.map (fun (x : Nat × Hart) =>
      if x.2.ctx = ctx then (x.1, { x.2 with event := true }) else x) }

/-- The number under which BWAIT registers with an object (R362). -/
def objectKey (core dpa : Nat) : Nat :=
  if decide (spadWindow ≤ dpa) && decide (dpa < spadWindow + 5 * 2 ^ 24) then
    spadKey core ((dpa - spadWindow) % 2 ^ 24)
  else dpa

/-- A wait released by the flip of an object. -/
def Wait.flipped (w : Wait) (key : Nat) : Wait :=
  match w with
  | .bwait ks sc => .bwait (ks.filter (fun k => k != key)) sc
  | w => w

/-- The BWAITs registered with an object are released by its flip, also where a trap has come between (R362). -/
def State.releaseBwaits (s : State) (key : Nat) : State :=
  { s with harts := s.harts.map (fun (x : Nat × Hart) =>
      (x.1, { x.2 with wait := x.2.wait.flipped key,
                       traps := x.2.traps.map (fun t => { t with wait := t.wait.flipped key }) })) }

/-- A count or arrival at a barrier object (R252). -/
structure BarAct where
  expb : Nat := 0
  arrb : Nat := 0
  arra : Nat := 0
  err  : Bool := false
  deriving DecidableEq, Repr

/-- The object after an action, whether it flips, and whether it is over-counted (R252). The sums are exact (R7); the
fields hold what fits them. -/
def barrierNext (x : Nat) (a : BarAct) : Nat × Bool × Bool :=
  let expb := bits x 31 0 + a.expb
  let arrb := bits x 63 32 + a.arrb
  let expa := bits x 79 64
  let arra := bits x 95 80 + a.arra
  let ovr := (expb != 0 && decide (expb < arrb)) || decide (expa < arra)
  let flip := ovr || (arrb == expb && arra == expa && (expa != 0 || expb != 0))
  let err := bitOf x 97 || a.err || ovr
  let phase := bitOf x 96 != flip
  let y := replaceBits x 0 32 (if flip then 0 else expb)
  let y := replaceBits y 32 32 (if flip then 0 else arrb)
  let y := replaceBits y 80 16 (if flip then 0 else arra)
  let y := replaceBits y 96 2 (phase.toNat + 2 * err.toNat)
  (y, flip, ovr)

/-- The scope index of an object (R251). -/
def barrierScope (x : Nat) : Nat := bits x 108 104

/-- An object has a nonzero RZ bit (R251): it is rejected when it is consumed (R5), with RESERVED_FIELD, since its chapter
names no cause (DESIGN CHOICE, log 39). -/
def barrierRz (x : Nat) : Bool := bits x 127 109 != 0 || bits x 103 98 != 0

/-- An action at an object's home slice by an agent, as a core reaches the object (R250, R252): the object's new contents,
the flip's effects on waiters and event flags, and the cause that the arriving agent raises. None where the action would
flip at a PENDING entry: it waits (R248). -/
def State.barrierAct (s : State) (ctx core : Nat) (agent : Agent) (dpa : Nat) (l : Loc) (a : BarAct) :
    Option (State × Option Cause) :=
  let x := s.readRaw l 32
  let (y, flip, ovr) := barrierNext x a
  if barrierRz x then some (s, some .reservedField)
  else if !flip then some (s.storeRaw dpa l 32 y, none)
  else if s.scopePending ctx (barrierScope x) then none
  else
    let bad := s.scopeCheck ctx (barrierScope x) agent
    let y := if bad.isSome then replaceBits y 97 1 1 else y
    let s := ((s.storeRaw dpa l 32 y).releaseBwaits (objectKey core dpa)).wakeContext ctx
    some (s, if ovr then some .barrierOvercount else bad)

/-- The places of a hart's actions on the objects of its rows in the order of one cycle (R361): by virtual core and hart
slot. -/
def Hart.barrierPlaces (h : Hart) (acc : List (Nat × Nat)) : List (Nat × Nat) :=
  acc.map (fun y => (objectKey (h.coreOf y.1) y.2, h.coreOf y.1 * 4 + h.slot))

/-- Actions at some places take effect in this cycle: none that comes later has done so (R361). -/
def State.barrierMay (s : State) (ps : List (Nat × Nat)) : Bool :=
  ps.all (fun p => decide (lookD s.barrierTurn p.1 0 ≤ p.2))

/-- The places of the actions that have taken effect noted. -/
def State.barrierTook (s : State) (ps : List (Nat × Nat)) : State :=
  { s with barrierTurn := ps.foldl (fun m p => put m p.1 (Nat.max (lookD m p.1 0) p.2)) s.barrierTurn }

/-- The checks of a barrier instruction in each row at issue (R251): an address that is no multiple of 32 raises
BARRIER_MISALIGNED. -/
def State.barrierRows (s : State) (h : Hart) (p : Perm) (va : Nat → Dword) (rows : List Nat) :
    Except Stop (List (Nat × Nat)) :=
  match s.checkRows h p 32 32 va rows with
  | .error (.cause .misaligned j ad) => .error (.cause .barrierMisaligned j ad)
  | r => r

/-- BARARM's and BARRIVE's actions of the rows, in ascending order; the first cause is raised after all. None
where one of them waits. -/
def barrierActs (s : State) (h : Hart) (act : Nat → BarAct) :
    List AmoRow → Option (State × Option (Nat × Cause))
  | [] => some (s, none)
  | r :: rs => do
    let (s, c) ← s.barrierAct h.ctx (h.coreOf r.row) (.core (h.coreOf r.row)) r.dpa r.loc (act r.row)
    let (s, d) ← barrierActs s h act rs
    pure (s, match c with
      | some k => some (r.row, k)
      | none => d)

/-- BARARM, and BARRIVE, which releases, from the checks on. -/
def barrierInstr (s : State) (px : Px) (hid : Nat) (h : Hart) (va : Nat → Dword) (rel : Bool)
    (act : Nat → BarAct) (acc : List (Nat × Nat)) : Out :=
  match (if rel then s.releaseDown h else none) with
  | some j => .next (s.takeTrap hid (scalarInfo h 1 .linkDown j none))
  | none =>
  if acc.isEmpty then .next (s.retire hid h px)
  else if (rel && !h.releaseReady) || h.accessAhead 32 acc || !s.barrierMay (h.barrierPlaces acc) then .next s
  else
    match s.homeRows h .syncWrite va acc with
    | .error x => .next (s.stopScalar hid h 1 x)
    | .ok (s, locs) =>
      match barrierActs (s.barrierTook (h.barrierPlaces acc)) h act (amoList acc locs) with
      | none => .next s
      | some (s, r) =>
        match look s.harts hid with
        | none => .next s
        | some g =>
          match r with
          | some (j, c) => .next ((s.setHart hid g.markStored).takeTrap hid (scalarInfo h 1 c j (some (va j))))
          | none => .next (s.retire hid g.markStored px)

/-- BARARM (R252). -/
def execBararm (px : Px) (d a : Reg) (s : State) : Out :=
  withRegs s px [d.toNat, a.toNat] (fun hid h =>
    let va := fun j => h.reg j a.toNat
    match s.barrierRows h .rw va (h.active px) with
    | .error x => .next (s.stopScalar hid h 1 x)
    | .ok acc =>
      match (h.active px).find? (fun j => (h.reg j d.toNat).toNat ≥ 2 ^ 32) with
      | some j => .next (s.takeTrap hid (scalarInfo h 1 .reservedField j none))
      | none => barrierInstr s px hid h va false (fun j => { expb := (h.reg j d.toNat).toNat }) acc)

/-- BARRIVE (R252): a release of the hart's earlier writes, then its bytes and arrivals. -/
def execBarrive (px : Px) (d a : Reg) (n : BitVec 8) (s : State) : Out :=
  withRegs s px [d.toNat, a.toNat] (fun hid h =>
    let va := fun j => h.reg j a.toNat
    match s.barrierRows h .rw va (h.active px) with
    | .error x => .next (s.stopScalar hid h 1 x)
    | .ok acc =>
      barrierInstr s px hid h va true
        (fun j => { arrb := (h.reg j d.toNat).toNat % 2 ^ 32, arra := n.toNat }) acc)

/-- An object as BARINIT leaves it (R252). -/
def barrierInit (n k : Nat) : Nat := n * 2 ^ 64 + k * 2 ^ 104

/-- BARINIT (R250, R252). It waits while its entry is PENDING and is then checked under the result, though R248's list of
the operations that use an entry does not name it (DESIGN CHOICE, log 40). -/
def execBarinit (px : Px) (a : Reg) (n : BitVec 8) (k : BitVec 5) (s : State) : Out :=
  withRegs s px [a.toNat] (fun hid h =>
    let va := fun j => h.reg j a.toNat
    match s.barrierRows h .rw va (h.active px) with
    | .error x => .next (s.stopScalar hid h 1 x)
    | .ok acc =>
      if acc.isEmpty then .next (s.retire hid h px)
      else if s.scopePending h.ctx k.toNat || h.accessAhead 32 acc || !s.barrierMay (h.barrierPlaces acc) then .next s
      else
        match s.scopeRows h k.toNat (h.active px) with
        | some (j, c) => .next (s.takeTrap hid (scalarInfo h 1 c j (some (va j))))
        | none =>
          match s.homeRows h .syncWrite va acc with
          | .error x => .next (s.stopScalar hid h 1 x)
          | .ok (s, locs) =>
            let s := (amoList acc locs).foldl (fun s r => s.storeRaw r.dpa r.loc 32 (barrierInit n.toNat k.toNat))
              (s.barrierTook (h.barrierPlaces acc))
            .next (s.retire hid h.markStored px))

/-- BWAIT returns as an acquire at the scopes of its objects, each under the contents at issue (R252, R281, R409). -/
def State.bwaitReturn (s : State) (hid : Nat) (h : Hart) (px : Px) (scopes : List (Nat × Option Scope)) : State :=
  (scopes.foldl (fun s k => s.acquire h (h.active px) k.1 k.2) s).retire hid h px

/-- What BWAIT checks of an object in a row (R5, R250). -/
def State.bwaitCheck (s : State) (h : Hart) (row x : Nat) : Option Cause :=
  if barrierRz x then some .reservedField else s.scopeCheck h.ctx (barrierScope x) (.core (h.coreOf row))

/-- BWAIT (R252, R362): it returns where PHASE differs from p, or registers and returns at the first flip. -/
def execBwait (px : Px) (a : Reg) (p : BitVec 1) (s : State) : Out :=
  withRegs s px [a.toNat] (fun hid h =>
    match h.wait with
    | .bwait [] ks => .next (s.bwaitReturn hid h px ks)
    | .bwait _ _ => .next s
    | _ =>
      let va := fun j => h.reg j a.toNat
      match s.barrierRows h .r va (h.active px) with
      | .error x => .next (s.stopScalar hid h 1 x)
      | .ok acc =>
        if h.accessAhead 32 acc || !s.barrierMay (h.barrierPlaces acc) then .next s
        else
          match s.homeRows h .sync va acc with
          | .error x => .next (s.stopScalar hid h 1 x)
          | .ok (s, locs) =>
            let s := s.barrierTook (h.barrierPlaces acc)
            let rows := amoList acc locs
            match rows.findSome? (fun r =>
                (s.bwaitCheck h r.row (s.readRaw r.loc 32)).map (fun c => (r.row, c))) with
            | some (j, c) => .next (s.takeTrap hid (scalarInfo h 1 c j (some (va j))))
            | none =>
              let ks := rows.map (fun r =>
                let k := barrierScope (s.readRaw r.loc 32)
                (k, s.contents h.ctx k))
              let regs := rows.filter (fun r => bitOf (s.readRaw r.loc 32) 96 == p.getLsbD 0)
              if regs.isEmpty then .next (s.bwaitReturn hid h px ks)
              else
                .next (s.setHart hid { h with wait := .bwait (regs.map (fun r =>
                  objectKey (h.coreOf r.row) r.dpa)) ks }))

/-! ## Future cells -/

/-- Entries of a die scheduler's waiter table (R354). -/
def waiterRoom : Nat := 4096

/-- The cells of the active rows with their locations, each of class FEMPTY or FFULL, or NOT_FUTURE_CELL. -/
def State.cellRows (s : State) (h : Hart) (u : Use) (va : Nat → Dword) :
    List (Nat × Nat) → Except Stop (State × List AmoRow)
  | [] => .ok (s, [])
  | (j, dpa) :: rest => do
    let (s, l) ← s.home h j dpa (va j) u
    let c := tagCls (s.tagAt l.key)
    if c ≠ clsFempty && c ≠ clsFfull then .error (.cause .notFutureCell j (some (va j)))
    else
      let (s, out) ← s.cellRows h u va rest
      pure (s, { row := j, dpa := dpa, loc := l } :: out)

/-- Position of a hart's schedule table among its group's tables (R343). -/
def State.tableOf (s : State) (h : Hart) : Nat :=
  match look s.groups h.group with
  | some g => h.coord * g.kernel.stages.length + h.stage
  | none => 0

/-- The dies' waiter tables have room for the cells (R364). -/
def State.waitersFit (s : State) (h : Hart) (cells : List AmoRow) : Bool :=
  (List.range 8).all (fun v =>
    let n := (cells.filter (fun r => decide (h.coreOf r.row / 16 = v))).length
    decide (n = 0) || decide ((s.waiters.filter (fun w => decide (w.die = v))).length + n ≤ waiterRoom))

/-- What a squash of a task taken now gives back (R253). -/
def Hart.checkpoint (h : Hart) : Checkpoint :=
  { s := h.rows.map (·.s), csr := h.csr, tmpl := h.tmpl, idx := h.idx }

/-- The hart with nothing of its task visible (R253): the scalar registers, CSRs, template tables and command indices
as before its CURSOR, and no load in flight. Its grant and its trap registers are not the task's. -/
def Hart.rollBack (h : Hart) (b : Checkpoint) : Hart :=
  { h with rows := h.rows.zipIdx.map (fun (x : RowRegs × Nat) => { x.1 with s := b.s.getD x.2 x.1.s }),
           csr := { b.csr with xcl := h.csr.xcl, acl := h.csr.acl, trapvec := h.csr.trapvec, traprec := h.csr.traprec,
                               trapEng := h.csr.trapEng, trapCause := h.csr.trapCause },
           tmpl := b.tmpl, idx := b.idx, loads := [], reissue := [] }

/-- A squash (R144, R253, R354): one waiter per empty cell, the entry's dependence count raised, the hart's queued
commands discarded, nothing of the task left visible in the hart (log 25), and its CURSOR passed again. -/
def State.squash (s : State) (hid : Nat) (h : Hart) (t : Task) (cells : List AmoRow) : State :=
  let table := s.tableOf h
  let s := s.clearHalves h
  let ws := cells.map (fun r => { die := h.coreOf r.row / 16, ctx := h.ctx, cell := keepKey (h.coreOf r.row) r.dpa,
                                  group := h.group, table := table, entry := t.entry : Waiter })
  let s := { s with waiters := s.waiters ++ ws }
  let s := s.modGroup h.group (fun g =>
    { g with squashed := g.squashed ++ [{ table := table, entry := t.entry, deps := cells.length }] })
  s.setHart hid { h.rollBack t.before with task := none, queues := Vector.replicate 5 [], timed := [], pc := t.cursor,
                                           wait := .none, lastProgress := s.now }

/-- FRD (R253). A read of filled cells acquires toward what filled them, whatever the scopes: as at SYSTEM. -/
def execFrd (px : Px) (d a : Reg) (i : BitVec 5) (s : State) : Out :=
  withRegs s px [d.toNat, a.toNat] (fun hid h =>
    let va := fun j => h.reg j a.toNat
    match s.checkRows h .r 256 256 va (h.active px) with
    | .error x => .next (s.stopScalar hid h 1 x)
    | .ok acc =>
      if h.accessAhead 256 acc then .next s
      else
        match s.cellRows h .sync va acc with
        | .error x => .next (s.stopScalar hid h 1 x)
        | .ok (s, rows) =>
          let empty := rows.filter (fun r => decide (tagCls (s.tagAt r.loc.key) = clsFempty))
          match empty, h.task with
          | [], _ =>
            let g := rows.foldl (fun (g : Hart) r =>
              g.setReg r.row d.toNat (BitVec.ofNat 64 (secGet (s.readSector r.loc) (8 * i.toNat) 8))) h
            .next ((s.acquire h (h.active px) 31 none).retire hid g px)
          | r :: _, none => .next (s.takeTrap hid (scalarInfo h 1 .lateFutureRead r.row (some (va r.row))))
          | r :: _, some t =>
            if t.stored then .next (s.takeTrap hid (scalarInfo h 1 .lateFutureRead r.row (some (va r.row))))
            else if !s.waitersFit h empty then
              .next (s.takeTrap hid (scalarInfo h 1 .waiterTableFull r.row (some (va r.row))))
            else .next (s.squash hid h t empty))

/-- A word written into a cell, whose class becomes FFULL (R254). -/
def fillCell (x : Sector) (i : Nat) (v : Dword) : Sector :=
  let t := x.tag
  { secSet x (8 * i) 8 v.toNat with tag := mkTag clsFfull (tagFmt t) (tagCw t) (tagSexp t) }

/-- FWR in the rows, in ascending order: a filled cell releases its waiters (R254, R363). -/
def fillCells (s : State) (h : Hart) (i : Nat) (v : Nat → Dword) (rows : List AmoRow) : State :=
  rows.foldl (fun s r =>
    let x := s.readSector r.loc
    let s' := s.writeSector r.loc (fillCell x i (v r.row))
    if tagCls x.tag = clsFempty then s'.releaseCell h.ctx (keepKey (h.coreOf r.row) r.dpa) else s') s

/-- FWR (R254). -/
def execFwr (px : Px) (d a : Reg) (i : BitVec 5) (s : State) : Out :=
  withRegs s px [d.toNat, a.toNat] (fun hid h =>
    let va := fun j => h.reg j a.toNat
    match s.checkRows h .w 256 256 va (h.active px) with
    | .error x => .next (s.stopScalar hid h 1 x)
    | .ok acc =>
      match s.releaseDown h with
      | some j => .next (s.takeTrap hid (scalarInfo h 1 .linkDown j none))
      | none =>
      if !h.releaseReady then .next s
      else
        match s.cellRows h .syncWrite va acc with
        | .error x => .next (s.stopScalar hid h 1 x)
        | .ok (s, rows) =>
          if rows.isEmpty then .next (s.retire hid h px)
          else
            let g := h.markStored
            let s := (fillCells (s.setHart hid g) h i.toNat (fun j => h.reg j d.toNat) rows).wakeContext h.ctx
            match look s.harts hid with
            | some g => .next (s.retire hid g px)
            | none => .next s)

end Sys2Proof.Machine
end

