-- ==== Sys2Proof/Decode.lean ====
section
/-! DEFINITION. Decoding of instruction words and of engine templates (spec/05_words.md R78 to R92,
spec/06_opcodes.md R106 to R115), and the encoder written from the same tables. -/

namespace Sys2Proof

open Sys2Proof.Machine

/-- What the words at the program counter are: an instruction and how many words it takes, the cause
of the trap their encoding raises at dispatch (R106), or a prefix of an instruction whose remaining
words must still be fetched. -/
inductive Decoded where
  | instr (i : Instr) (n : Nat)
  | trap (c : Cause)
  | more
  deriving DecidableEq, Repr

/-- A CSR number of the map of R105. -/
def csrDefined (c : BitVec 12) : Bool :=
  let n := c.toNat
  n ≤ 0x00B || n == 0x010 || n == 0x011 || (0x020 ≤ n && n ≤ 0x025) || (0x030 ≤ n && n ≤ 0x032)
    || n == 0x040 || n == 0x041

/-- Landing codes 1 to 3 are reserved (R82). -/
def landCodeOk (c : Reg) : Bool := c == 0 || 4 ≤ c.toNat

/-- TMLD's count, 0 meaning 16 (R115). -/
def tmldCount (n : BitVec 4) : Nat := if n == 0 then 16 else n.toNat

/-- First slot plus count is at most 64 (R115). -/
def tmldFits (f : BitVec 6) (n : BitVec 4) : Bool := f.toNat + tmldCount n ≤ 64

/-- A VALX before a literal shift must leave bits [31:6] of the extended immediate zero (R112): bits
[31:13] are VALX[25:7]. -/
def shiftValxOk (px : Px) : Bool :=
  match px.valx with
  | some v => v.extractLsb' 7 19 == 0
  | none => true

/-- The reserved bits of a DIEP are zero (R91): [14:0], and the mask field with MKEEP set. -/
def diepOk (x : PxBits) : Bool :=
  x.extractLsb' 0 15 == 0 && (x.extractLsb' 15 1 == 0 || x.extractLsb' 18 8 == 0)

/-- The prefixes are well-formed, with a VALX only where the word can carry one. VALX [6:0], which carry no field in any
use of R90 and which no rule calls RZ, are ignored (DESIGN CHOICE, log 47). -/
def pxOk (px : Px) (valx : Bool) : Bool :=
  (match px.diep with | some x => diepOk x | none => true) && (valx || px.valx.isNone)

/-- An instruction whose encoding checks hold, or RESERVED_FIELD (R106). -/
def chk (ok : Bool) (i : Instr) : Except Cause Instr :=
  if ok then .ok i else .error .reservedField

/-- A load: LAND_RESERVED for landing codes 1 to 3 (R82). -/
def chkLand (c : Reg) (i : Instr) : Except Cause Instr :=
  if landCodeOk c then .ok i else .error .landReserved

/-- A CSR word: ILLEGAL_OPCODE for a number outside the map, before the reserved bit (R104, R108). -/
def chkCsr (px : Px) (w : Word) (ok : Bool) (i : Instr) : Except Cause Instr :=
  if csrDefined (w.extractLsb' 0 12) then chk ok i else .ok (.illegalOpcode px w)

/-- The SA words by op6 (R110, R112): the instruction, or the cause of R106 in the order
of R108. An op6 the map leaves blank is the step ILLEGAL_OPCODE. -/
def decodeSa (px : Px) (w : Word) : Except Cause Instr :=
  match (w.extractLsb' 23 6).toNat with
  | 0x00 => chk (w.extractLsb' 0 8 == 0) (.add px (w.extractLsb' 18 5) (w.extractLsb' 13 5) (w.extractLsb' 8 5))
  | 0x01 => chk (w.extractLsb' 0 8 == 0) (.sub px (w.extractLsb' 18 5) (w.extractLsb' 13 5) (w.extractLsb' 8 5))
  | 0x02 => chk (w.extractLsb' 0 8 == 0) (.and px (w.extractLsb' 18 5) (w.extractLsb' 13 5) (w.extractLsb' 8 5))
  | 0x03 => chk (w.extractLsb' 0 8 == 0) (.or px (w.extractLsb' 18 5) (w.extractLsb' 13 5) (w.extractLsb' 8 5))
  | 0x04 => chk (w.extractLsb' 0 8 == 0) (.xor px (w.extractLsb' 18 5) (w.extractLsb' 13 5) (w.extractLsb' 8 5))
  | 0x05 => chk (w.extractLsb' 0 8 == 0) (.sll px (w.extractLsb' 18 5) (w.extractLsb' 13 5) (w.extractLsb' 8 5))
  | 0x06 => chk (w.extractLsb' 0 8 == 0) (.srl px (w.extractLsb' 18 5) (w.extractLsb' 13 5) (w.extractLsb' 8 5))
  | 0x07 => chk (w.extractLsb' 0 8 == 0) (.sra px (w.extractLsb' 18 5) (w.extractLsb' 13 5) (w.extractLsb' 8 5))
  | 0x08 => chk (w.extractLsb' 0 8 == 0) (.slt px (w.extractLsb' 18 5) (w.extractLsb' 13 5) (w.extractLsb' 8 5))
  | 0x09 => chk (w.extractLsb' 0 8 == 0) (.sltu px (w.extractLsb' 18 5) (w.extractLsb' 13 5) (w.extractLsb' 8 5))
  | 0x0A => chk (w.extractLsb' 0 8 == 0) (.mul px (w.extractLsb' 18 5) (w.extractLsb' 13 5) (w.extractLsb' 8 5))
  | 0x0B => chk (w.extractLsb' 0 8 == 0) (.mulh px (w.extractLsb' 18 5) (w.extractLsb' 13 5) (w.extractLsb' 8 5))
  | 0x0C => chk (w.extractLsb' 0 8 == 0) (.mulhu px (w.extractLsb' 18 5) (w.extractLsb' 13 5) (w.extractLsb' 8 5))
  | 0x0D => chk (w.extractLsb' 0 8 == 0) (.div px (w.extractLsb' 18 5) (w.extractLsb' 13 5) (w.extractLsb' 8 5))
  | 0x0E => chk (w.extractLsb' 0 8 == 0) (.divu px (w.extractLsb' 18 5) (w.extractLsb' 13 5) (w.extractLsb' 8 5))
  | 0x0F => chk (w.extractLsb' 0 8 == 0) (.rem px (w.extractLsb' 18 5) (w.extractLsb' 13 5) (w.extractLsb' 8 5))
  | 0x10 => chk (w.extractLsb' 0 8 == 0) (.remu px (w.extractLsb' 18 5) (w.extractLsb' 13 5) (w.extractLsb' 8 5))
  | 0x11 => chk (w.extractLsb' 0 8 == 0) (.min px (w.extractLsb' 18 5) (w.extractLsb' 13 5) (w.extractLsb' 8 5))
  | 0x12 => chk (w.extractLsb' 0 8 == 0) (.max px (w.extractLsb' 18 5) (w.extractLsb' 13 5) (w.extractLsb' 8 5))
  | 0x13 => chk (w.extractLsb' 0 8 == 0) (.minu px (w.extractLsb' 18 5) (w.extractLsb' 13 5) (w.extractLsb' 8 5))
  | 0x14 => chk (w.extractLsb' 0 8 == 0) (.maxu px (w.extractLsb' 18 5) (w.extractLsb' 13 5) (w.extractLsb' 8 5))
  | 0x15 => chk (w.extractLsb' 0 8 == 0) (.addw px (w.extractLsb' 18 5) (w.extractLsb' 13 5) (w.extractLsb' 8 5))
  | 0x16 => chk (w.extractLsb' 0 8 == 0) (.subw px (w.extractLsb' 18 5) (w.extractLsb' 13 5) (w.extractLsb' 8 5))
  | 0x17 => chk (w.extractLsb' 0 13 == 0) (.clz px (w.extractLsb' 18 5) (w.extractLsb' 13 5))
  | 0x18 => chk (w.extractLsb' 0 13 == 0) (.ctz px (w.extractLsb' 18 5) (w.extractLsb' 13 5))
  | 0x19 => chk (w.extractLsb' 0 13 == 0) (.popc px (w.extractLsb' 18 5) (w.extractLsb' 13 5))
  | 0x1A => chk (w.extractLsb' 2 11 == 0 && (w.extractLsb' 0 2) != 3) (.sext px (w.extractLsb' 18 5) (w.extractLsb' 13 5) (w.extractLsb' 0 2))
  | 0x1B => chk (w.extractLsb' 2 11 == 0 && (w.extractLsb' 0 2) != 3) (.zext px (w.extractLsb' 18 5) (w.extractLsb' 13 5) (w.extractLsb' 0 2))
  | 0x1C => chk (w.extractLsb' 1 7 == 0) (.bfx px (w.extractLsb' 18 5) (w.extractLsb' 13 5) (w.extractLsb' 8 5) (w.extractLsb' 0 1))
  | 0x1D => chk (w.extractLsb' 0 8 == 0) (.cmov px (w.extractLsb' 18 5) (w.extractLsb' 13 5) (w.extractLsb' 8 5))
  | 0x20 => chk (true) (.addi px (w.extractLsb' 18 5) (w.extractLsb' 13 5) (w.extractLsb' 0 13))
  | 0x21 => chk (true) (.andi px (w.extractLsb' 18 5) (w.extractLsb' 13 5) (w.extractLsb' 0 13))
  | 0x22 => chk (true) (.ori px (w.extractLsb' 18 5) (w.extractLsb' 13 5) (w.extractLsb' 0 13))
  | 0x23 => chk (true) (.xori px (w.extractLsb' 18 5) (w.extractLsb' 13 5) (w.extractLsb' 0 13))
  | 0x24 => chk (w.extractLsb' 6 7 == 0 && shiftValxOk px) (.slli px (w.extractLsb' 18 5) (w.extractLsb' 13 5) (w.extractLsb' 0 6))
  | 0x25 => chk (w.extractLsb' 6 7 == 0 && shiftValxOk px) (.srli px (w.extractLsb' 18 5) (w.extractLsb' 13 5) (w.extractLsb' 0 6))
  | 0x26 => chk (w.extractLsb' 6 7 == 0 && shiftValxOk px) (.srai px (w.extractLsb' 18 5) (w.extractLsb' 13 5) (w.extractLsb' 0 6))
  | 0x27 => chk (true) (.slti px (w.extractLsb' 18 5) (w.extractLsb' 13 5) (w.extractLsb' 0 13))
  | 0x28 => chk (true) (.sltiu px (w.extractLsb' 18 5) (w.extractLsb' 13 5) (w.extractLsb' 0 13))
  | 0x29 => chk (true) (.lui px (w.extractLsb' 18 5) (w.extractLsb' 0 18))
  | 0x2A => chk (true) (.auipc px (w.extractLsb' 18 5) (w.extractLsb' 0 18))
  | 0x30 => chk (w.extractLsb' 4 4 == 0 && (w.extractLsb' 0 3) != 7) (.fadd32 px (w.extractLsb' 18 5) (w.extractLsb' 13 5) (w.extractLsb' 8 5) (w.extractLsb' 3 1) (w.extractLsb' 0 3))
  | 0x31 => chk (w.extractLsb' 4 4 == 0 && (w.extractLsb' 0 3) != 7) (.fsub32 px (w.extractLsb' 18 5) (w.extractLsb' 13 5) (w.extractLsb' 8 5) (w.extractLsb' 3 1) (w.extractLsb' 0 3))
  | 0x32 => chk (w.extractLsb' 4 4 == 0 && (w.extractLsb' 0 3) != 7) (.fmul32 px (w.extractLsb' 18 5) (w.extractLsb' 13 5) (w.extractLsb' 8 5) (w.extractLsb' 3 1) (w.extractLsb' 0 3))
  | 0x33 => chk (w.extractLsb' 4 4 == 0 && (w.extractLsb' 0 3) != 7) (.fma32 px (w.extractLsb' 18 5) (w.extractLsb' 13 5) (w.extractLsb' 8 5) (w.extractLsb' 3 1) (w.extractLsb' 0 3))
  | 0x34 => chk (w.extractLsb' 4 4 == 0 && (w.extractLsb' 0 3) != 7) (.fdiv32 px (w.extractLsb' 18 5) (w.extractLsb' 13 5) (w.extractLsb' 8 5) (w.extractLsb' 3 1) (w.extractLsb' 0 3))
  | 0x35 => chk (w.extractLsb' 4 9 == 0 && (w.extractLsb' 0 3) != 7) (.fsqrt32 px (w.extractLsb' 18 5) (w.extractLsb' 13 5) (w.extractLsb' 3 1) (w.extractLsb' 0 3))
  | 0x36 => chk (w.extractLsb' 0 8 == 0) (.fmin32 px (w.extractLsb' 18 5) (w.extractLsb' 13 5) (w.extractLsb' 8 5))
  | 0x37 => chk (w.extractLsb' 0 8 == 0) (.fmax32 px (w.extractLsb' 18 5) (w.extractLsb' 13 5) (w.extractLsb' 8 5))
  | 0x38 => chk (w.extractLsb' 3 5 == 0 && (w.extractLsb' 0 3).toNat < 5) (.fcmp32 px (w.extractLsb' 18 5) (w.extractLsb' 13 5) (w.extractLsb' 8 5) (w.extractLsb' 0 3))
  | 0x39 => chk (w.extractLsb' 5 8 == 0 && (w.extractLsb' 0 3) != 7) (.fcvtif px (w.extractLsb' 18 5) (w.extractLsb' 13 5) (w.extractLsb' 3 2) (w.extractLsb' 0 3))
  | 0x3A => chk (w.extractLsb' 5 8 == 0 && (w.extractLsb' 0 3) != 7) (.fcvtfi px (w.extractLsb' 18 5) (w.extractLsb' 13 5) (w.extractLsb' 3 2) (w.extractLsb' 0 3))
  | 0x3B => if w.extractLsb' 8 1 == 0 && w.extractLsb' 10 3 == 0 && (w.extractLsb' 0 3) != 7 && 9 ≤ (w.extractLsb' 3 5).toNat && (w.extractLsb' 3 5).toNat ≤ 14 then .ok (.fcvtffTo px (w.extractLsb' 18 5) (w.extractLsb' 13 5) (w.extractLsb' 9 1) (w.extractLsb' 3 5) (w.extractLsb' 0 3)) else if w.extractLsb' 8 5 == 1 && (w.extractLsb' 0 3) != 7 && 9 ≤ (w.extractLsb' 3 5).toNat && (w.extractLsb' 3 5).toNat ≤ 14 then .ok (.fcvtffFrom px (w.extractLsb' 18 5) (w.extractLsb' 13 5) (w.extractLsb' 3 5) (w.extractLsb' 0 3)) else .error .reservedField
  | _ => .ok (.illegalOpcode px w)

/-- The SM words by op6 (R111 to R115): the instruction, or the cause of R106 in the order
of R108. An op6 the map leaves blank is the step ILLEGAL_OPCODE. -/
def decodeSm (px : Px) (w : Word) : Except Cause Instr :=
  match (w.extractLsb' 23 6).toNat with
  | 0x00 => chkLand (w.extractLsb' 8 5) (.lb px (w.extractLsb' 18 5) (w.extractLsb' 13 5) (w.extractLsb' 8 5) (w.extractLsb' 0 8))
  | 0x01 => chkLand (w.extractLsb' 8 5) (.lbu px (w.extractLsb' 18 5) (w.extractLsb' 13 5) (w.extractLsb' 8 5) (w.extractLsb' 0 8))
  | 0x02 => chkLand (w.extractLsb' 8 5) (.lh px (w.extractLsb' 18 5) (w.extractLsb' 13 5) (w.extractLsb' 8 5) (w.extractLsb' 0 8))
  | 0x03 => chkLand (w.extractLsb' 8 5) (.lhu px (w.extractLsb' 18 5) (w.extractLsb' 13 5) (w.extractLsb' 8 5) (w.extractLsb' 0 8))
  | 0x04 => chkLand (w.extractLsb' 8 5) (.lw px (w.extractLsb' 18 5) (w.extractLsb' 13 5) (w.extractLsb' 8 5) (w.extractLsb' 0 8))
  | 0x05 => chkLand (w.extractLsb' 8 5) (.lwu px (w.extractLsb' 18 5) (w.extractLsb' 13 5) (w.extractLsb' 8 5) (w.extractLsb' 0 8))
  | 0x06 => chkLand (w.extractLsb' 8 5) (.ld px (w.extractLsb' 18 5) (w.extractLsb' 13 5) (w.extractLsb' 8 5) (w.extractLsb' 0 8))
  | 0x08 => chk (true) (.sb px (w.extractLsb' 18 5) (w.extractLsb' 13 5) (w.extractLsb' 0 13))
  | 0x09 => chk (true) (.sh px (w.extractLsb' 18 5) (w.extractLsb' 13 5) (w.extractLsb' 0 13))
  | 0x0A => chk (true) (.sw px (w.extractLsb' 18 5) (w.extractLsb' 13 5) (w.extractLsb' 0 13))
  | 0x0B => chk (true) (.sd px (w.extractLsb' 18 5) (w.extractLsb' 13 5) (w.extractLsb' 0 13))
  | 0x0C => chk (w.extractLsb' 1 12 == 0 && w.extractLsb' 18 5 == 0) (.bwait px (w.extractLsb' 13 5) (w.extractLsb' 0 1))
  | 0x0D => chk (w.extractLsb' 8 5 == 0) (.barrive px (w.extractLsb' 18 5) (w.extractLsb' 13 5) (w.extractLsb' 0 8))
  | 0x0E => chk (w.extractLsb' 0 13 == 0) (.bararm px (w.extractLsb' 18 5) (w.extractLsb' 13 5))
  | 0x0F => chk (w.extractLsb' 18 5 == 0) (.barinit px (w.extractLsb' 13 5) (w.extractLsb' 5 8) (w.extractLsb' 0 5))
  | 0x10 => chk (true) (.beq px (w.extractLsb' 18 5) (w.extractLsb' 13 5) (w.extractLsb' 0 13))
  | 0x11 => chk (true) (.bne px (w.extractLsb' 18 5) (w.extractLsb' 13 5) (w.extractLsb' 0 13))
  | 0x12 => chk (true) (.blt px (w.extractLsb' 18 5) (w.extractLsb' 13 5) (w.extractLsb' 0 13))
  | 0x13 => chk (true) (.bge px (w.extractLsb' 18 5) (w.extractLsb' 13 5) (w.extractLsb' 0 13))
  | 0x14 => chk (true) (.bltu px (w.extractLsb' 18 5) (w.extractLsb' 13 5) (w.extractLsb' 0 13))
  | 0x15 => chk (true) (.bgeu px (w.extractLsb' 18 5) (w.extractLsb' 13 5) (w.extractLsb' 0 13))
  | 0x16 => chk (true) (.jal px (w.extractLsb' 18 5) (w.extractLsb' 0 18))
  | 0x17 => chk (true) (.jalr px (w.extractLsb' 18 5) (w.extractLsb' 13 5) (w.extractLsb' 0 13))
  | 0x18 => chkCsr px w (w.extractLsb' 12 1 == 0) (.csrrw px (w.extractLsb' 18 5) (w.extractLsb' 13 5) (w.extractLsb' 0 12))
  | 0x19 => chkCsr px w (w.extractLsb' 12 1 == 0) (.csrrs px (w.extractLsb' 18 5) (w.extractLsb' 13 5) (w.extractLsb' 0 12))
  | 0x1A => chkCsr px w (w.extractLsb' 12 1 == 0) (.csrrc px (w.extractLsb' 18 5) (w.extractLsb' 13 5) (w.extractLsb' 0 12))
  | 0x1B => chk (w.extractLsb' 3 10 == 0 && (w.extractLsb' 0 3).toNat < 5) (.vlset px (w.extractLsb' 18 5) (w.extractLsb' 13 5) (w.extractLsb' 0 3))
  | 0x1C => chk (w.extractLsb' 6 7 == 0 && (w.extractLsb' 0 5) != 0 && (w.extractLsb' 0 5) != 31) (.scopewr px (w.extractLsb' 18 5) (w.extractLsb' 13 5) (w.extractLsb' 5 1) (w.extractLsb' 0 5))
  | 0x1D => chk (w.extractLsb' 6 12 == 0 && (w.extractLsb' 0 5) != 0 && (w.extractLsb' 0 5) != 31) (.scopeinv px (w.extractLsb' 18 5) (w.extractLsb' 5 1) (w.extractLsb' 0 5))
  | 0x1E => if w.extractLsb' 0 23 == 0 then .ok (.recordOff px) else if w.extractLsb' 0 23 == 1 then .ok (.recordOn px) else if w.extractLsb' 0 23 == 2 then .ok (.recordMark px) else .error .reservedField
  | 0x1F => chk (w.extractLsb' 0 13 == 0 && w.extractLsb' 18 5 == 0) (.reverse px (w.extractLsb' 13 5))
  | 0x20 => chk (w.extractLsb' 12 11 == 0) (.ecall px (w.extractLsb' 0 12))
  | 0x21 => chk (w.extractLsb' 0 23 == 0) (.ebreak px)
  | 0x22 => chk (w.extractLsb' 0 23 == 0) (.trapret px)
  | 0x23 => chk (w.extractLsb' 0 23 == 0) (.wfe px)
  | 0x24 => chk (w.extractLsb' 5 18 == 0) (.fences px (w.extractLsb' 0 5))
  | 0x25 => chk (w.extractLsb' 0 23 == 0) (.lsync px)
  | 0x26 => if w.extractLsb' 0 23 == 0 then .ok (.drainSpad px) else if w.extractLsb' 0 23 == 1 then .ok (.drainDev px) else if w.extractLsb' 0 23 == 2 then .ok (.drainDom px) else .error .reservedField
  | 0x27 => chk (w.extractLsb' 0 23 == 0) (.nodeb px)
  | 0x28 => chk (w.extractLsb' 0 23 == 0) (.yield px)
  | 0x29 => chk (w.extractLsb' 0 23 == 0) (.texit px)
  | 0x2A => chk (w.extractLsb' 0 18 == 0) (.cursor px (w.extractLsb' 18 5))
  | 0x2B => chk (w.extractLsb' 0 18 == 0) (.pstep px (w.extractLsb' 18 5))
  | 0x2C => chk (w.extractLsb' 5 8 == 0) (.frd px (w.extractLsb' 18 5) (w.extractLsb' 13 5) (w.extractLsb' 0 5))
  | 0x2D => chk (w.extractLsb' 5 8 == 0) (.fwr px (w.extractLsb' 18 5) (w.extractLsb' 13 5) (w.extractLsb' 0 5))
  | 0x2E => chk (w.extractLsb' 18 5 == 0 && 2 ≤ (w.extractLsb' 10 3).toNat && (w.extractLsb' 10 3).toNat ≤ 6 && tmldFits (w.extractLsb' 4 6) (w.extractLsb' 0 4)) (.tmld px (w.extractLsb' 13 5) (w.extractLsb' 10 3) (w.extractLsb' 4 6) (w.extractLsb' 0 4))
  | 0x30 => chk (w.extractLsb' 5 4 == 0 && (w.extractLsb' 11 2).toNat < 2) (.amoadd px (w.extractLsb' 18 5) (w.extractLsb' 13 5) (w.extractLsb' 11 2) (w.extractLsb' 9 2) (w.extractLsb' 0 5))
  | 0x31 => chk (w.extractLsb' 5 4 == 0 && (w.extractLsb' 11 2).toNat < 2) (.amoand px (w.extractLsb' 18 5) (w.extractLsb' 13 5) (w.extractLsb' 11 2) (w.extractLsb' 9 2) (w.extractLsb' 0 5))
  | 0x32 => chk (w.extractLsb' 5 4 == 0 && (w.extractLsb' 11 2).toNat < 2) (.amoor px (w.extractLsb' 18 5) (w.extractLsb' 13 5) (w.extractLsb' 11 2) (w.extractLsb' 9 2) (w.extractLsb' 0 5))
  | 0x33 => chk (w.extractLsb' 5 4 == 0 && (w.extractLsb' 11 2).toNat < 2) (.amoxor px (w.extractLsb' 18 5) (w.extractLsb' 13 5) (w.extractLsb' 11 2) (w.extractLsb' 9 2) (w.extractLsb' 0 5))
  | 0x34 => chk (w.extractLsb' 5 4 == 0 && (w.extractLsb' 11 2).toNat < 2) (.amomin px (w.extractLsb' 18 5) (w.extractLsb' 13 5) (w.extractLsb' 11 2) (w.extractLsb' 9 2) (w.extractLsb' 0 5))
  | 0x35 => chk (w.extractLsb' 5 4 == 0 && (w.extractLsb' 11 2).toNat < 2) (.amomax px (w.extractLsb' 18 5) (w.extractLsb' 13 5) (w.extractLsb' 11 2) (w.extractLsb' 9 2) (w.extractLsb' 0 5))
  | 0x36 => chk (w.extractLsb' 5 4 == 0 && (w.extractLsb' 11 2).toNat < 2) (.amominu px (w.extractLsb' 18 5) (w.extractLsb' 13 5) (w.extractLsb' 11 2) (w.extractLsb' 9 2) (w.extractLsb' 0 5))
  | 0x37 => chk (w.extractLsb' 5 4 == 0 && (w.extractLsb' 11 2).toNat < 2) (.amomaxu px (w.extractLsb' 18 5) (w.extractLsb' 13 5) (w.extractLsb' 11 2) (w.extractLsb' 9 2) (w.extractLsb' 0 5))
  | 0x38 => chk (w.extractLsb' 5 4 == 0 && (w.extractLsb' 11 2).toNat < 2) (.amoswap px (w.extractLsb' 18 5) (w.extractLsb' 13 5) (w.extractLsb' 11 2) (w.extractLsb' 9 2) (w.extractLsb' 0 5))
  | 0x39 => chk (w.extractLsb' 5 4 == 0 && (w.extractLsb' 11 2).toNat < 2 && (w.extractLsb' 18 5).toNat % 2 == 0) (.amocas px (w.extractLsb' 18 5) (w.extractLsb' 13 5) (w.extractLsb' 11 2) (w.extractLsb' 9 2) (w.extractLsb' 0 5))
  | 0x3A => chk (w.extractLsb' 5 6 == 16 && (w.extractLsb' 11 2).toNat < 2) (.ldaq px (w.extractLsb' 18 5) (w.extractLsb' 13 5) (w.extractLsb' 11 2) (w.extractLsb' 0 5))
  | 0x3B => chk (w.extractLsb' 5 6 == 32 && (w.extractLsb' 11 2).toNat < 2) (.strl px (w.extractLsb' 18 5) (w.extractLsb' 13 5) (w.extractLsb' 11 2) (w.extractLsb' 0 5))
  | 0x3C => chk (w.extractLsb' 5 4 == 0 && w.extractLsb' 11 2 == 0) (.amofadd px (w.extractLsb' 18 5) (w.extractLsb' 13 5) (w.extractLsb' 9 2) (w.extractLsb' 0 5))
  | 0x3D => chk (w.extractLsb' 1 12 == 0 && w.extractLsb' 18 5 == 0) (.dmsetc px (w.extractLsb' 13 5) (w.extractLsb' 0 1))
  | 0x3E => chk (w.extractLsb' 3 10 == 0 && (w.extractLsb' 0 3) != 7) (.dred px (w.extractLsb' 18 5) (w.extractLsb' 13 5) (w.extractLsb' 0 3))
  | 0x3F => chk (w.extractLsb' 3 10 == 0) (.dbcast px (w.extractLsb' 18 5) (w.extractLsb' 13 5) (w.extractLsb' 0 3))
  | _ => .ok (.illegalOpcode px w)
/-- The engine of an engine class 2 to 6 (R78). -/
def engOfEcls (n : Nat) : Option Eng :=
  match n with
  | 2 => some .ld | 3 => some .xv | 4 => some .mx | 5 => some .st | 6 => some .jb
  | _ => none

/-- The engine class of an engine (R78). -/
def eclsOf (e : Eng) : Nat :=
  match e with
  | .ld => 2 | .xv => 3 | .mx => 4 | .st => 5 | .jb => 6

/-- The word can carry a VALX (R90): immediate-form, branch, indirect, load, store and patch words. -/
def carriesValx (w : Word) : Bool :=
  let op := (w.extractLsb' 23 6).toNat
  match (w.extractLsb' 29 3).toNat with
  | 0 => 0x20 ≤ op && op ≤ 0x28
  | 1 => op ≤ 0x06 || (0x08 ≤ op && op ≤ 0x0B) || (0x10 ≤ op && op ≤ 0x15) || op == 0x17
  | 7 => false
  | _ => true

/-- The instruction of a word that is no prefix, after the prefixes `px` (R78, R106). -/
def decodeWord (px : Px) (w : Word) : Except Cause Instr :=
  let e := (w.extractLsb' 29 3).toNat
  if e == 7 || (px.valx.isSome && !carriesValx w) then .ok (.illegalOpcode px w)
  else if e == 0 then decodeSa px w
  else if e == 1 then decodeSm px w
  else
    match engOfEcls e with
    | some g =>
      .ok (.commandFormation px g (w.extractLsb' 23 6) (w.extractLsb' 19 4) (w.extractLsb' 16 3)
        (w.extractLsb' 0 16))
    | none => .ok (.illegalOpcode px w)

/-- A decoded word with its prefixes' reserved bits checked: ILLEGAL_OPCODE comes first, then
RESERVED_FIELD, then LAND_RESERVED. R108 orders the checks of one word: the prefixes and the word that they apply to are
taken together (DESIGN CHOICE, log 47). -/
def finishDecode (px : Px) (w : Word) (n : Nat) : Decoded :=
  match decodeWord px w with
  | .ok (.illegalOpcode q v) => .instr (.illegalOpcode q v) n
  | .ok i => if pxOk px true then .instr i n else .trap .reservedField
  | .error .landReserved => if pxOk px true then .trap .landReserved else .trap .reservedField
  | .error c => .trap c

/-- A TMPLI prefix word and its four template words (R92). -/
def decodeTmpli (w : Word) (ws : List Word) : Decoded :=
  let c := w.extractLsb' 23 3
  if w.extractLsb' 0 17 == 0 && 2 ≤ c.toNat && c.toNat ≤ 6 then
    match ws with
    | w0 :: w1 :: w2 :: w3 :: _ => .instr (.tmpli c (w.extractLsb' 17 6) w0 w1 w2 w3) 5
    | _ => .more
  else .trap .reservedField

/-- The second word after one prefix, the first prefix's bits being in `px`: a second prefix of the
other kind, or the word the prefix applies to. A repeated, misplaced or undefined prefix raises
ILLEGAL_OPCODE (R89). -/
def decodeAfterPrefix (px : Px) (w : Word) (ws : List Word) : Decoded :=
  if w.extractLsb' 29 3 == 7 then
    let x := w.extractLsb' 0 26
    let k := (w.extractLsb' 26 3).toNat
    if k == 0 && px.valx.isNone then
      match ws with
      | v :: _ => finishDecode { px with valx := some x } v 3
      | [] => .more
    else if k == 1 && px.diep.isNone then
      match ws with
      | v :: _ => finishDecode { px with diep := some x } v 3
      | [] => .more
    else .instr (.illegalOpcode px w) 2
  else finishDecode px w 2

/-- Decoding of the words at the program counter, total on any list of words (R78, R89, R106). -/
def decode (ws : List Word) : Decoded :=
  match ws with
  | [] => .more
  | w :: ws =>
    if w.extractLsb' 29 3 == 7 then
      let x := w.extractLsb' 0 26
      let k := (w.extractLsb' 26 3).toNat
      if k == 0 then
        match ws with
        | v :: vs => decodeAfterPrefix { diep := none, valx := some x } v vs
        | [] => .more
      else if k == 1 then
        match ws with
        | v :: vs => decodeAfterPrefix { diep := some x, valx := none } v vs
        | [] => .more
      else if k == 2 then decodeTmpli w ws
      else .instr (.illegalOpcode { diep := none, valx := none } w) 1
    else finishDecode { diep := none, valx := none } w 1

/-- A template from its four words, word 0 first (R84). -/
def templateOfWords (w0 w1 w2 w3 : Word) : Template :=
  { opc := w3.extractLsb' 24 8, mod := w3.extractLsb' 16 8, cw := w3.extractLsb' 13 3,
    fmt := w3.extractLsb' 8 5, d := w3.extractLsb' 0 8,
    a := w2.extractLsb' 24 8, b := w2.extractLsb' 16 8, cmask := w2.extractLsb' 13 3,
    cscal := w2.extractLsb' 8 5, wait := w2.extractLsb' 0 8,
    seten := w1.extractLsb' 31 1, setsl := w1.extractLsb' 28 3, land := w1.extractLsb' 20 8,
    len := w1.extractLsb' 0 20, imm := w0 }

/-- A word whose fields, each a value and the number of its lowest bit, are added to a base. -/
def packFields (base : Nat) (fs : List (Nat × Nat)) : Word :=
  BitVec.ofNat 32 (fs.foldl (fun acc f => acc + f.1 * 2 ^ f.2) base)

/-- The four words of a template, word 0 first (R84). -/
def wordsOfTemplate (t : Template) : List Word :=
  [ t.imm,
    packFields 0 [(t.seten.toNat, 31), (t.setsl.toNat, 28), (t.land.toNat, 20), (t.len.toNat, 0)],
    packFields 0 [(t.a.toNat, 24), (t.b.toNat, 16), (t.cmask.toNat, 13), (t.cscal.toNat, 8), (t.wait.toNat, 0)],
    packFields 0 [(t.opc.toNat, 24), (t.mod.toNat, 16), (t.cw.toNat, 13), (t.fmt.toNat, 8), (t.d.toNat, 0)] ]

/-- The template that four words hold, word 0 first; none for any other number of words. -/
def templateOfList (ws : List Word) : Option Template :=
  match ws with
  | [w0, w1, w2, w3] => some (templateOfWords w0 w1 w2 w3)
  | _ => none

/-- The engine operation of an amended template (R117 to R121); none where the class does not define
the opcode. -/
def decodeTemplate (e : Eng) (t : Template) : Option Instr :=
  match e, t.opc.toNat with
  | .ld, 0x01 => some (.ald t)
  | .ld, 0x02 => some (.alds t)
  | .ld, 0x03 => some (.ald2 t)
  | .ld, 0x04 => some (.agath t)
  | .ld, 0x05 => some (.aldt t)
  | .ld, 0x06 => some (.aring t)
  | .ld, 0x07 => some (.aspx t)
  | .ld, 0x08 => some (.aqcfg t)
  | .ld, 0x09 => some (.apref t)
  | .xv, 0x01 => some (.vadd t)
  | .xv, 0x02 => some (.vsub t)
  | .xv, 0x03 => some (.vmul t)
  | .xv, 0x04 => some (.vfma t)
  | .xv, 0x05 => some (.vfms t)
  | .xv, 0x06 => some (.vmin t)
  | .xv, 0x07 => some (.vmax t)
  | .xv, 0x08 => some (.vabs t)
  | .xv, 0x09 => some (.vneg t)
  | .xv, 0x0A => some (.vdiv t)
  | .xv, 0x0B => some (.vsqrt t)
  | .xv, 0x0C => some (.vrsq t)
  | .xv, 0x0D => some (.vexp t)
  | .xv, 0x0E => some (.vlog t)
  | .xv, 0x0F => some (.vtanh t)
  | .xv, 0x10 => some (.vsigm t)
  | .xv, 0x11 => some (.vand t)
  | .xv, 0x12 => some (.vor t)
  | .xv, 0x13 => some (.vxor t)
  | .xv, 0x14 => some (.vnot t)
  | .xv, 0x15 => some (.vshl t)
  | .xv, 0x16 => some (.vshr t)
  | .xv, 0x17 => some (.vshrr t)
  | .xv, 0x18 => some (.vdot2 t)
  | .xv, 0x19 => some (.vdot4 t)
  | .xv, 0x1A => some (.vsadd t)
  | .xv, 0x1B => some (.vssub t)
  | .xv, 0x1C => some (.vmulh t)
  | .xv, 0x20 => some (.vcmp t)
  | .xv, 0x21 => some (.vsel t)
  | .xv, 0x22 => some (.vclass t)
  | .xv, 0x28 => some (.vslide t)
  | .xv, 0x29 => some (.vperm t)
  | .xv, 0x2A => some (.vzip t)
  | .xv, 0x2B => some (.vunzip t)
  | .xv, 0x2C => some (.vbcast t)
  | .xv, 0x2D => some (.vextr t)
  | .xv, 0x30 => some (.vredsum t)
  | .xv, 0x31 => some (.vredsumo t)
  | .xv, 0x32 => some (.vredmax t)
  | .xv, 0x33 => some (.vredmin t)
  | .xv, 0x38 => some (.vcvt t)
  | .xv, 0x39 => some (.vqnt t)
  | .xv, 0x3A => some (.vtagr t)
  | .xv, 0x3B => some (.vtagw t)
  | .xv, 0x3C => some (.vsexp t)
  | .xv, 0x40 => some (.vpop t)
  | .xv, 0x41 => some (.vpush t)
  | .xv, 0x44 => some (.vldr t)
  | .xv, 0x45 => some (.vstr t)
  | .xv, 0x48 => some (.kand t)
  | .xv, 0x49 => some (.kor t)
  | .xv, 0x4A => some (.knot t)
  | .xv, 0x4B => some (.kpopc t)
  | .xv, 0x4C => some (.kfirst t)
  | .xv, 0x50 => some (.vrda t)
  | .xv, 0x51 => some (.vwra t)
  | .xv, 0x58 => some (.vmov t)
  | .xv, 0x59 => some (.vid t)
  | .xv, 0x5A => some (.vseti t)
  | .mx, 0x01 => some (.mlease t)
  | .mx, 0x02 => some (.mrelease t)
  | .mx, 0x03 => some (.ringcfg t)
  | .mx, 0x04 => some (.ringput t)
  | .mx, 0x05 => some (.ringpop t)
  | .mx, 0x06 => some (.ringqry t)
  | .mx, 0x10 => some (.tmma t)
  | .mx, 0x11 => some (.tmmap t)
  | .mx, 0x12 => some (.tzero t)
  | .mx, 0x13 => some (.tadd t)
  | .mx, 0x14 => some (.tsub t)
  | .mx, 0x15 => some (.tmul t)
  | .mx, 0x16 => some (.tscl t)
  | .mx, 0x17 => some (.tbias t)
  | .mx, 0x18 => some (.tact t)
  | .mx, 0x19 => some (.trsum t)
  | .mx, 0x1A => some (.tcsum t)
  | .mx, 0x1B => some (.trmax t)
  | .mx, 0x1C => some (.ttrans t)
  | .mx, 0x1D => some (.tcvt t)
  | .mx, 0x1E => some (.tloada t)
  | .mx, 0x1F => some (.tcopy t)
  | .st, 0x01 => some (.sst t)
  | .st, 0x02 => some (.ssts t)
  | .st, 0x03 => some (.sst2 t)
  | .st, 0x04 => some (.sscat t)
  | .st, 0x05 => some (.sacc t)
  | .st, 0x06 => some (.sspx t)
  | .st, 0x07 => some (.stag t)
  | .st, 0x08 => some (.feset t)
  | .jb, 0x01 => some (.jcopy t)
  | .jb, 0x05 => some (.jfill t)
  | .jb, 0x0A => some (.jpref t)
  | .jb, 0x02 => some (.jcopy2 t)
  | .jb, 0x03 => some (.jgath t)
  | .jb, 0x04 => some (.jscat t)
  | .jb, 0x06 => some (.jred t)
  | .jb, 0x07 => some (.jcoll t)
  | .jb, 0x08 => some (.jrecode t)
  | .jb, 0x09 => some (.jtens t)
  | _, _ => none

/-- The prefix words of an instruction in the assembler's order, DIEP then VALX (R89, R416). -/
def pxWords (px : Px) : List Word :=
  (match px.diep with | some x => [BitVec.ofNat 32 (0xE4000000 + x.toNat)] | none => [])
    ++ (match px.valx with | some x => [BitVec.ofNat 32 (0xE0000000 + x.toNat)] | none => [])

/-- The prefixes and then the one word with the given base and fields. -/
def asm (px : Px) (base : Nat) (fs : List (Nat × Nat)) : Option (List Word) :=
  some (pxWords px ++ [packFields base fs])

/-- The words of an instruction (R81, R87, R91, R92); none for an engine operation, whose encoding is
its template's, and for a step that has no word. -/
def encode (i : Instr) : Option (List Word) :=
  match i with
  | .add px d a b => asm px 0x00000000 [(d.toNat, 18), (a.toNat, 13), (b.toNat, 8)]
  | .sub px d a b => asm px 0x00800000 [(d.toNat, 18), (a.toNat, 13), (b.toNat, 8)]
  | .and px d a b => asm px 0x01000000 [(d.toNat, 18), (a.toNat, 13), (b.toNat, 8)]
  | .or px d a b => asm px 0x01800000 [(d.toNat, 18), (a.toNat, 13), (b.toNat, 8)]
  | .xor px d a b => asm px 0x02000000 [(d.toNat, 18), (a.toNat, 13), (b.toNat, 8)]
  | .sll px d a b => asm px 0x02800000 [(d.toNat, 18), (a.toNat, 13), (b.toNat, 8)]
  | .srl px d a b => asm px 0x03000000 [(d.toNat, 18), (a.toNat, 13), (b.toNat, 8)]
  | .sra px d a b => asm px 0x03800000 [(d.toNat, 18), (a.toNat, 13), (b.toNat, 8)]
  | .slt px d a b => asm px 0x04000000 [(d.toNat, 18), (a.toNat, 13), (b.toNat, 8)]
  | .sltu px d a b => asm px 0x04800000 [(d.toNat, 18), (a.toNat, 13), (b.toNat, 8)]
  | .mul px d a b => asm px 0x05000000 [(d.toNat, 18), (a.toNat, 13), (b.toNat, 8)]
  | .mulh px d a b => asm px 0x05800000 [(d.toNat, 18), (a.toNat, 13), (b.toNat, 8)]
  | .mulhu px d a b => asm px 0x06000000 [(d.toNat, 18), (a.toNat, 13), (b.toNat, 8)]
  | .div px d a b => asm px 0x06800000 [(d.toNat, 18), (a.toNat, 13), (b.toNat, 8)]
  | .divu px d a b => asm px 0x07000000 [(d.toNat, 18), (a.toNat, 13), (b.toNat, 8)]
  | .rem px d a b => asm px 0x07800000 [(d.toNat, 18), (a.toNat, 13), (b.toNat, 8)]
  | .remu px d a b => asm px 0x08000000 [(d.toNat, 18), (a.toNat, 13), (b.toNat, 8)]
  | .min px d a b => asm px 0x08800000 [(d.toNat, 18), (a.toNat, 13), (b.toNat, 8)]
  | .max px d a b => asm px 0x09000000 [(d.toNat, 18), (a.toNat, 13), (b.toNat, 8)]
  | .minu px d a b => asm px 0x09800000 [(d.toNat, 18), (a.toNat, 13), (b.toNat, 8)]
  | .maxu px d a b => asm px 0x0a000000 [(d.toNat, 18), (a.toNat, 13), (b.toNat, 8)]
  | .addw px d a b => asm px 0x0a800000 [(d.toNat, 18), (a.toNat, 13), (b.toNat, 8)]
  | .subw px d a b => asm px 0x0b000000 [(d.toNat, 18), (a.toNat, 13), (b.toNat, 8)]
  | .clz px d a => asm px 0x0b800000 [(d.toNat, 18), (a.toNat, 13)]
  | .ctz px d a => asm px 0x0c000000 [(d.toNat, 18), (a.toNat, 13)]
  | .popc px d a => asm px 0x0c800000 [(d.toNat, 18), (a.toNat, 13)]
  | .sext px d a w => asm px 0x0d000000 [(d.toNat, 18), (a.toNat, 13), (w.toNat, 0)]
  | .zext px d a w => asm px 0x0d800000 [(d.toNat, 18), (a.toNat, 13), (w.toNat, 0)]
  | .bfx px d a b x => asm px 0x0e000000 [(d.toNat, 18), (a.toNat, 13), (b.toNat, 8), (x.toNat, 0)]
  | .cmov px d a b => asm px 0x0e800000 [(d.toNat, 18), (a.toNat, 13), (b.toNat, 8)]
  | .addi px d a i => asm px 0x10000000 [(d.toNat, 18), (a.toNat, 13), (i.toNat, 0)]
  | .andi px d a i => asm px 0x10800000 [(d.toNat, 18), (a.toNat, 13), (i.toNat, 0)]
  | .ori px d a i => asm px 0x11000000 [(d.toNat, 18), (a.toNat, 13), (i.toNat, 0)]
  | .xori px d a i => asm px 0x11800000 [(d.toNat, 18), (a.toNat, 13), (i.toNat, 0)]
  | .slli px d a h => asm px 0x12000000 [(d.toNat, 18), (a.toNat, 13), (h.toNat, 0)]
  | .srli px d a h => asm px 0x12800000 [(d.toNat, 18), (a.toNat, 13), (h.toNat, 0)]
  | .srai px d a h => asm px 0x13000000 [(d.toNat, 18), (a.toNat, 13), (h.toNat, 0)]
  | .slti px d a i => asm px 0x13800000 [(d.toNat, 18), (a.toNat, 13), (i.toNat, 0)]
  | .sltiu px d a i => asm px 0x14000000 [(d.toNat, 18), (a.toNat, 13), (i.toNat, 0)]
  | .lui px d u => asm px 0x14800000 [(d.toNat, 18), (u.toNat, 0)]
  | .auipc px d u => asm px 0x15000000 [(d.toNat, 18), (u.toNat, 0)]
  | .fadd32 px d a b s m => asm px 0x18000000 [(d.toNat, 18), (a.toNat, 13), (b.toNat, 8), (s.toNat, 3), (m.toNat, 0)]
  | .fsub32 px d a b s m => asm px 0x18800000 [(d.toNat, 18), (a.toNat, 13), (b.toNat, 8), (s.toNat, 3), (m.toNat, 0)]
  | .fmul32 px d a b s m => asm px 0x19000000 [(d.toNat, 18), (a.toNat, 13), (b.toNat, 8), (s.toNat, 3), (m.toNat, 0)]
  | .fma32 px d a b s m => asm px 0x19800000 [(d.toNat, 18), (a.toNat, 13), (b.toNat, 8), (s.toNat, 3), (m.toNat, 0)]
  | .fdiv32 px d a b s m => asm px 0x1a000000 [(d.toNat, 18), (a.toNat, 13), (b.toNat, 8), (s.toNat, 3), (m.toNat, 0)]
  | .fsqrt32 px d a s m => asm px 0x1a800000 [(d.toNat, 18), (a.toNat, 13), (s.toNat, 3), (m.toNat, 0)]
  | .fmin32 px d a b => asm px 0x1b000000 [(d.toNat, 18), (a.toNat, 13), (b.toNat, 8)]
  | .fmax32 px d a b => asm px 0x1b800000 [(d.toNat, 18), (a.toNat, 13), (b.toNat, 8)]
  | .fcmp32 px d a b p => asm px 0x1c000000 [(d.toNat, 18), (a.toNat, 13), (b.toNat, 8), (p.toNat, 0)]
  | .fcvtif px d a k m => asm px 0x1c800000 [(d.toNat, 18), (a.toNat, 13), (k.toNat, 3), (m.toNat, 0)]
  | .fcvtfi px d a k m => asm px 0x1d000000 [(d.toNat, 18), (a.toNat, 13), (k.toNat, 3), (m.toNat, 0)]
  | .fcvtffTo px d a s f m => asm px 0x1d800000 [(d.toNat, 18), (a.toNat, 13), (s.toNat, 9), (f.toNat, 3), (m.toNat, 0)]
  | .fcvtffFrom px d a f m => asm px 0x1d800100 [(d.toNat, 18), (a.toNat, 13), (f.toNat, 3), (m.toNat, 0)]
  | .lb px d a c o => asm px 0x20000000 [(d.toNat, 18), (a.toNat, 13), (c.toNat, 8), (o.toNat, 0)]
  | .lbu px d a c o => asm px 0x20800000 [(d.toNat, 18), (a.toNat, 13), (c.toNat, 8), (o.toNat, 0)]
  | .lh px d a c o => asm px 0x21000000 [(d.toNat, 18), (a.toNat, 13), (c.toNat, 8), (o.toNat, 0)]
  | .lhu px d a c o => asm px 0x21800000 [(d.toNat, 18), (a.toNat, 13), (c.toNat, 8), (o.toNat, 0)]
  | .lw px d a c o => asm px 0x22000000 [(d.toNat, 18), (a.toNat, 13), (c.toNat, 8), (o.toNat, 0)]
  | .lwu px d a c o => asm px 0x22800000 [(d.toNat, 18), (a.toNat, 13), (c.toNat, 8), (o.toNat, 0)]
  | .ld px d a c o => asm px 0x23000000 [(d.toNat, 18), (a.toNat, 13), (c.toNat, 8), (o.toNat, 0)]
  | .sb px d a i => asm px 0x24000000 [(d.toNat, 18), (a.toNat, 13), (i.toNat, 0)]
  | .sh px d a i => asm px 0x24800000 [(d.toNat, 18), (a.toNat, 13), (i.toNat, 0)]
  | .sw px d a i => asm px 0x25000000 [(d.toNat, 18), (a.toNat, 13), (i.toNat, 0)]
  | .sd px d a i => asm px 0x25800000 [(d.toNat, 18), (a.toNat, 13), (i.toNat, 0)]
  | .bwait px a p => asm px 0x26000000 [(a.toNat, 13), (p.toNat, 0)]
  | .barrive px d a n => asm px 0x26800000 [(d.toNat, 18), (a.toNat, 13), (n.toNat, 0)]
  | .bararm px d a => asm px 0x27000000 [(d.toNat, 18), (a.toNat, 13)]
  | .barinit px a n k => asm px 0x27800000 [(a.toNat, 13), (n.toNat, 5), (k.toNat, 0)]
  | .beq px x y i => asm px 0x28000000 [(x.toNat, 18), (y.toNat, 13), (i.toNat, 0)]
  | .bne px x y i => asm px 0x28800000 [(x.toNat, 18), (y.toNat, 13), (i.toNat, 0)]
  | .blt px x y i => asm px 0x29000000 [(x.toNat, 18), (y.toNat, 13), (i.toNat, 0)]
  | .bge px x y i => asm px 0x29800000 [(x.toNat, 18), (y.toNat, 13), (i.toNat, 0)]
  | .bltu px x y i => asm px 0x2a000000 [(x.toNat, 18), (y.toNat, 13), (i.toNat, 0)]
  | .bgeu px x y i => asm px 0x2a800000 [(x.toNat, 18), (y.toNat, 13), (i.toNat, 0)]
  | .jal px d j => asm px 0x2b000000 [(d.toNat, 18), (j.toNat, 0)]
  | .jalr px d a i => asm px 0x2b800000 [(d.toNat, 18), (a.toNat, 13), (i.toNat, 0)]
  | .csrrw px d a c => asm px 0x2c000000 [(d.toNat, 18), (a.toNat, 13), (c.toNat, 0)]
  | .csrrs px d a c => asm px 0x2c800000 [(d.toNat, 18), (a.toNat, 13), (c.toNat, 0)]
  | .csrrc px d a c => asm px 0x2d000000 [(d.toNat, 18), (a.toNat, 13), (c.toNat, 0)]
  | .prtabaWrite _ _ _ _ => none
  | .dmaskAccess _ _ _ _ => none
  | .xstatSrseedAccess _ _ _ _ _ => none
  | .tapeCsrAccess _ _ _ _ _ => none
  | .vlset px d a w => asm px 0x2d800000 [(d.toNat, 18), (a.toNat, 13), (w.toNat, 0)]
  | .scopewr px d a n e => asm px 0x2e000000 [(d.toNat, 18), (a.toNat, 13), (n.toNat, 5), (e.toNat, 0)]
  | .scopeinv px d n e => asm px 0x2e800000 [(d.toNat, 18), (n.toNat, 5), (e.toNat, 0)]
  | .scopeChangeInstall => none
  | .recordOff px => asm px 0x2f000000 []
  | .recordOn px => asm px 0x2f000001 []
  | .recordMark px => asm px 0x2f000002 []
  | .reverse px a => asm px 0x2f800000 [(a.toNat, 13)]
  | .spatulaRecord => none
  | .ecall px n => asm px 0x30000000 [(n.toNat, 0)]
  | .ebreak px => asm px 0x30800000 []
  | .trapret px => asm px 0x31000000 []
  | .wfe px => asm px 0x31800000 []
  | .wfeTimeout => none
  | .fences px k => asm px 0x32000000 [(k.toNat, 0)]
  | .lsync px => asm px 0x32800000 []
  | .drainSpad px => asm px 0x33000000 []
  | .drainDev px => asm px 0x33000001 []
  | .drainDom px => asm px 0x33000002 []
  | .nodeb px => asm px 0x33800000 []
  | .yield px => asm px 0x34000000 []
  | .texit px => asm px 0x34800000 []
  | .cursor px d => asm px 0x35000000 [(d.toNat, 18)]
  | .pstep px d => asm px 0x35800000 [(d.toNat, 18)]
  | .frd px d a i => asm px 0x36000000 [(d.toNat, 18), (a.toNat, 13), (i.toNat, 0)]
  | .fwr px d a i => asm px 0x36800000 [(d.toNat, 18), (a.toNat, 13), (i.toNat, 0)]
  | .tmld px a c f n => asm px 0x37000000 [(a.toNat, 13), (c.toNat, 10), (f.toNat, 4), (n.toNat, 0)]
  | .tmpli c n w0 w1 w2 w3 => some [packFields 0xe8000000 [(c.toNat, 23), (n.toNat, 17)], w0, w1, w2, w3]
  | .amoadd px d a w o k => asm px 0x38000000 [(d.toNat, 18), (a.toNat, 13), (w.toNat, 11), (o.toNat, 9), (k.toNat, 0)]
  | .amoand px d a w o k => asm px 0x38800000 [(d.toNat, 18), (a.toNat, 13), (w.toNat, 11), (o.toNat, 9), (k.toNat, 0)]
  | .amoor px d a w o k => asm px 0x39000000 [(d.toNat, 18), (a.toNat, 13), (w.toNat, 11), (o.toNat, 9), (k.toNat, 0)]
  | .amoxor px d a w o k => asm px 0x39800000 [(d.toNat, 18), (a.toNat, 13), (w.toNat, 11), (o.toNat, 9), (k.toNat, 0)]
  | .amomin px d a w o k => asm px 0x3a000000 [(d.toNat, 18), (a.toNat, 13), (w.toNat, 11), (o.toNat, 9), (k.toNat, 0)]
  | .amomax px d a w o k => asm px 0x3a800000 [(d.toNat, 18), (a.toNat, 13), (w.toNat, 11), (o.toNat, 9), (k.toNat, 0)]
  | .amominu px d a w o k => asm px 0x3b000000 [(d.toNat, 18), (a.toNat, 13), (w.toNat, 11), (o.toNat, 9), (k.toNat, 0)]
  | .amomaxu px d a w o k => asm px 0x3b800000 [(d.toNat, 18), (a.toNat, 13), (w.toNat, 11), (o.toNat, 9), (k.toNat, 0)]
  | .amoswap px d a w o k => asm px 0x3c000000 [(d.toNat, 18), (a.toNat, 13), (w.toNat, 11), (o.toNat, 9), (k.toNat, 0)]
  | .amocas px d a w o k => asm px 0x3c800000 [(d.toNat, 18), (a.toNat, 13), (w.toNat, 11), (o.toNat, 9), (k.toNat, 0)]
  | .ldaq px d a w k => asm px 0x3d000200 [(d.toNat, 18), (a.toNat, 13), (w.toNat, 11), (k.toNat, 0)]
  | .strl px d a w k => asm px 0x3d800400 [(d.toNat, 18), (a.toNat, 13), (w.toNat, 11), (k.toNat, 0)]
  | .amofadd px d a o k => asm px 0x3e000000 [(d.toNat, 18), (a.toNat, 13), (o.toNat, 9), (k.toNat, 0)]
  | .dmsetc px a z => asm px 0x3e800000 [(a.toNat, 13), (z.toNat, 0)]
  | .dred px d a o => asm px 0x3f000000 [(d.toNat, 18), (a.toNat, 13), (o.toNat, 0)]
  | .dbcast px d a r => asm px 0x3f800000 [(d.toNat, 18), (a.toNat, 13), (r.toNat, 0)]
  | .commandFormation px e tix tok fsel val => asm px 0 [(eclsOf e, 29), (tix.toNat, 23), (tok.toNat, 19), (fsel.toNat, 16), (val.toNat, 0)]
  | .formationFaultRaise => none
  | .commandCompletion => none
  | .engineDeadlock => none
  | .loadDataArrival => none
  | .loadLanding => none
  | .pageAbsentReply _ => none
  | .mcUncorrectable => none
  | .ald _ => none
  | .alds _ => none
  | .ald2 _ => none
  | .agath _ => none
  | .aldt _ => none
  | .aring _ => none
  | .aspx _ => none
  | .aqcfg _ => none
  | .apref _ => none
  | .sst _ => none
  | .ssts _ => none
  | .sst2 _ => none
  | .sscat _ => none
  | .sacc _ => none
  | .sspx _ => none
  | .stag _ => none
  | .feset _ => none
  | .vadd _ => none
  | .vsub _ => none
  | .vmul _ => none
  | .vfma _ => none
  | .vfms _ => none
  | .vmin _ => none
  | .vmax _ => none
  | .vabs _ => none
  | .vneg _ => none
  | .vdiv _ => none
  | .vsqrt _ => none
  | .vrsq _ => none
  | .vexp _ => none
  | .vlog _ => none
  | .vtanh _ => none
  | .vsigm _ => none
  | .vand _ => none
  | .vor _ => none
  | .vxor _ => none
  | .vnot _ => none
  | .vshl _ => none
  | .vshr _ => none
  | .vshrr _ => none
  | .vdot2 _ => none
  | .vdot4 _ => none
  | .vsadd _ => none
  | .vssub _ => none
  | .vmulh _ => none
  | .vcmp _ => none
  | .vsel _ => none
  | .vclass _ => none
  | .vslide _ => none
  | .vperm _ => none
  | .vzip _ => none
  | .vunzip _ => none
  | .vbcast _ => none
  | .vextr _ => none
  | .vredsum _ => none
  | .vredsumo _ => none
  | .vredmax _ => none
  | .vredmin _ => none
  | .vcvt _ => none
  | .vqnt _ => none
  | .vtagr _ => none
  | .vtagw _ => none
  | .vsexp _ => none
  | .vpop _ => none
  | .vpush _ => none
  | .vldr _ => none
  | .vstr _ => none
  | .kand _ => none
  | .kor _ => none
  | .knot _ => none
  | .kpopc _ => none
  | .kfirst _ => none
  | .vrda _ => none
  | .vwra _ => none
  | .vmov _ => none
  | .vid _ => none
  | .vseti _ => none
  | .mlease _ => none
  | .mrelease _ => none
  | .leaseGrant => none
  | .leaseTimeout => none
  | .leaseIdleExpiry => none
  | .ringcfg _ => none
  | .ringput _ => none
  | .ringpop _ => none
  | .ringqry _ => none
  | .tmma _ => none
  | .tmmap _ => none
  | .tzero _ => none
  | .tadd _ => none
  | .tsub _ => none
  | .tmul _ => none
  | .tscl _ => none
  | .tbias _ => none
  | .tact _ => none
  | .trsum _ => none
  | .tcsum _ => none
  | .trmax _ => none
  | .ttrans _ => none
  | .tcvt _ => none
  | .tloada _ => none
  | .tcopy _ => none
  | .tileSpill => none
  | .jcopy _ => none
  | .jfill _ => none
  | .jpref _ => none
  | .jcopy2 _ => none
  | .jgath _ => none
  | .jscat _ => none
  | .jred _ => none
  | .jcoll _ => none
  | .jrecode _ => none
  | .jtens _ => none
  | .jobStart => none
  | .jobSectorWrite => none
  | .jobComplete => none
  | .jobResume => none
  | .jobFaultRaise => none
  | .ctxalloc => none
  | .ctxfree => none
  | .ctxabort => none
  | .ctxcmdInvalid => none
  | .purgeComplete => none
  | .hcmdResume => none
  | .hcmdInvalid => none
  | .qcmdEnable => none
  | .qcmdPause => none
  | .qcmdResume => none
  | .qcmdDrain => none
  | .qcmdDisable => none
  | .qcmdSkip => none
  | .qcmdInvalid => none
  | .qtbaseWrite => none
  | .doorbellWrite => none
  | .launchAdmission => none
  | .kernelNode => none
  | .jobNode => none
  | .eventSet => none
  | .eventWait => none
  | .eventWaitReread => none
  | .eventMsi => none
  | .condNode => none
  | .loopNode => none
  | .switchNode => none
  | .kernelPlacement => none
  | .cursorWake => none
  | .preemptionDeadline => none
  | .hartRestore => none
  | .dieRemapRequest => none
  | .quiesceGateAck => none
  | .pitcmdWrite => none
  | .pitcmdMigrate => none
  | .pitcmdRecode => none
  | .pitcmdInvalid => none
  | .passStart => none
  | .backgroundPassStart => none
  | .passSectorStep => none
  | .hmaskChange _ => none
  | .rd => none
  | .wr => none
  | .wrm => none
  | .trd => none
  | .tagw => none
  | .mrr => none
  | .packetReply => none
  | .refresh => none
  | .scrubStep => none
  | .heartbeatMissing => none
  | .refreshHandover => none
  | .linkTrainingStart => none
  | .linkTrainingComplete => none
  | .linkTrainingTimeout => none
  | .linkStepUp => none
  | .linkStepDown => none
  | .linkRatePolicy => none
  | .flitReplay => none
  | .linkRetrainComplete => none
  | .linkHoldExpiry => none
  | .domainWindowConfig _ => none
  | .collectiveContribution => none
  | .collectiveTimeout => none
  | .collectiveAck => none
  | .deviceRead => none
  | .deviceWrite => none
  | .tdBoot _ _ => none
  | .dieRelease => none
  | .dieReadyTimeout => none
  | .rekeyRequest => none
  | .getVersion => none
  | .getCapabilities => none
  | .negotiateAlgorithms => none
  | .getDigests => none
  | .getCertificate => none
  | .challenge => none
  | .getMeasurements => none
  | .keyExchange => none
  | .powerTick => none
  | .thermalTrip => none
  | .watchSet _ => none
  | .registerWrite _ _ => none
  | .illegalOpcode px w => some (pxWords px ++ [w])
  | .applicationHartAccess _ _ _ => none
  | .applicationHartFence => none
  | .accessPerformed => none
  | .domainAccessArrival _ _ _ => none
  | .cxlBackInvalidation => none

/-- The instruction the decoder reads from the bits `w` of a table row, `nbits` of them, numbered from
the first word's least significant bit; every bit above them, up to the longest instruction of five
words, is zero. -/
def decodeTableWord (nbits w : Nat) : Option Instr :=
  let v := w % 2 ^ nbits
  match decode [BitVec.ofNat 32 v, BitVec.ofNat 32 (v / 2 ^ 32), BitVec.ofNat 32 (v / 2 ^ 64),
      BitVec.ofNat 32 (v / 2 ^ 96), BitVec.ofNat 32 (v / 2 ^ 128)] with
  | .instr i _ => some i
  | _ => none

end Sys2Proof
end

