-- ==== Sys2Proof/Machine/Branch.lean ====
section
/-! DEFINITION. Branches and jumps (spec/07_scalar.md R132 to R134; spec/06_opcodes.md R109). -/

namespace Sys2Proof.Machine

/-- The target of a displacement of i words from the instruction's own address (R132, R134). -/
def wordTarget (h : Hart) (i : Dword) : Dword := h.pc + i * 4

/-- A branch (R132, R133): taken where the condition holds in every active row, not taken where it holds in
none, and a DIE_DIVERGENT_BRANCH where the rows disagree. The failing row named is the first that disagrees
with the lowest active row (log 15). -/
def branchOp (s : State) (px : Px) (x y : Reg) (i : BitVec 13) (c : Dword → Dword → Bool) : Out :=
  withRegs s px [x.toNat, y.toNat] (fun hid h =>
    let holds := fun j => c (h.reg j x.toNat) (h.reg j y.toNat)
    match h.active px with
    | [] => .next (s.retire hid h px)
    | j :: js =>
      match js.find? (fun k => holds k != holds j) with
      | some k => .next (s.takeTrap hid (scalarInfo h 1 .dieDivergentBranch k none))
      | none =>
        if holds j then .next (s.setHart hid (h.retireTo s.now (wordTarget h (pxImm px i))))
        else .next (s.retire hid h px))

/-- BEQ (R132). -/
def execBeq (px : Px) (x y : Reg) (i : BitVec 13) (s : State) : Out := branchOp s px x y i (fun a b => a == b)
/-- BNE (R132). -/
def execBne (px : Px) (x y : Reg) (i : BitVec 13) (s : State) : Out := branchOp s px x y i (fun a b => a != b)
/-- BLT (R132). -/
def execBlt (px : Px) (x y : Reg) (i : BitVec 13) (s : State) : Out := branchOp s px x y i (fun a b => a.slt b)
/-- BGE (R132). -/
def execBge (px : Px) (x y : Reg) (i : BitVec 13) (s : State) : Out := branchOp s px x y i (fun a b => !a.slt b)
/-- BLTU (R132). -/
def execBltu (px : Px) (x y : Reg) (i : BitVec 13) (s : State) : Out := branchOp s px x y i (fun a b => a.ult b)
/-- BGEU (R132). -/
def execBgeu (px : Px) (x y : Reg) (i : BitVec 13) (s : State) : Out := branchOp s px x y i (fun a b => !a.ult b)

/-- The address of the next instruction. -/
def nextPc (h : Hart) (px : Px) : Dword := h.pc + BitVec.ofNat 64 (pxBytes px)

/-- JAL (R134): the link in every active row, none with an empty mask, and the jump in either case. -/
def execJal (px : Px) (d : Reg) (i : BitVec 18) (s : State) : Out :=
  withRegs s px [d.toNat] (fun hid h =>
    let g := h.setRegs (h.active px) d.toNat (fun _ => nextPc h px)
    .next (s.setHart hid (g.retireTo s.now (wordTarget h (i.signExtend 64)))))

/-- JALR (R134): the rows must agree on the target, which must be a multiple of 4 (R109). -/
def execJalr (px : Px) (d a : Reg) (i : BitVec 13) (s : State) : Out :=
  withRegs s px [d.toNat, a.toNat] (fun hid h =>
    let target := fun j => h.reg j a.toNat + pxImm px i
    match h.active px with
    | [] => .next (s.retire hid h px)
    | j :: js =>
      match js.find? (fun k => target k != target j) with
      | some k => .next (s.takeTrap hid (scalarInfo h 1 .dieDivergentBranch k none))
      | none =>
        if (target j).toNat % 4 ≠ 0 then
          .next (s.takeTrap hid (scalarInfo h 1 .misaligned j (some (target j))))
        else
          let g := h.setRegs (h.active px) d.toNat (fun _ => nextPc h px)
          .next (s.setHart hid (g.retireTo s.now (target j))))

end Sys2Proof.Machine
end

