-- ==== Sys2Proof/Machine/CsrOps.lean ====
section
/-! DEFINITION. The CSR instructions (spec/07_scalar.md R135 to R138; spec/05_words.md R104) and the write of
PRTABA (spec/04_arithmetic.md R55, R56; spec/17_context.md R319). -/

namespace Sys2Proof.Machine

/-- The value that a CSR instruction puts into the register (R135). -/
def csrNew (op : CsrOp) (old src : Dword) : Dword :=
  match op with
  | .rw => src
  | .rs => old ||| src
  | .rc => old &&& ~~~ src

/-- The instruction writes: CSRRS and CSRRC with a = s0 do not (R135). -/
def csrWrites (op : CsrOp) (a : Reg) : Bool := op == .rw || a != 0

/-- A promotion table installed as the context's (R55, R319): its bytes go to PRTIMG, and its address is noted for the harts
to be launched (R345). -/
def State.installPrt (s : State) (ctx : Nat) (addr : Dword) (bytes : List Byte) : State :=
  match look s.ctxs ctx with
  | none => s
  | some c => (s.modCtx ctx (fun x => { x with prtaba := addr, prt := some bytes })).sysPut c.prtimg bytes

/-- A write to PRTABA (R54, R55): 0 selects the default table; any other value is a multiple of 1,024 that the KTT
covers, whose 1,024 bytes are read once. -/
def prtabaStore (s : State) (h : Hart) (row : Nat) (x : Dword) : Except Stop State :=
  if x = 0 then .ok (s.modCtx h.ctx (fun c => { c with prtaba := 0, prt := none }))
  else do
    let (s, b) ← s.rawStruct h row 1024 256 4 x
    pure (s.installPrt h.ctx x (bytesOfNat b 1024))

/-- A CSR's new value stored in the hart's copy (R136). A write of PRTABA installs the context's table as well (R55): that
table is one for all the context's harts (R54, R56), whose own copies of PRTABA stand as they are (log 49). A TAPEN write ends
the KEEP registrations of the records that it removes (R231). -/
def csrWrite (s : State) (hid : Nat) (h : Hart) (row n : Nat) (x : Dword) : Except Stop (State × Hart) :=
  if n = csrPrtaba then do
    let s ← prtabaStore s h row x
    pure (s, h.csrStore n x)
  else if n = 0x023 then
    let keep := fun (k : Keep) => !(decide (k.hart = hid) && decide (x.toNat % 2 ^ 32 ≤ k.record))
    .ok ({ s with keeps := s.keeps.filter keep }, h.csrStore n x)
  else .ok (s, h.csrStore n x)

/-- A CSR instruction: the mask of R137 for DMASK, the waits of R138 and R226, PRIVILEGE (R104), then the old
value to d in each row and the write with the one value of R123. -/
def csrAccess (s : State) (px : Px) (op : CsrOp) (d a : Reg) (n : Nat) : Out :=
  withRegs s px [d.toNat, a.toNat] (fun hid h =>
    let rows := if n = csrDmask then h.allRows else h.active px
    match rows with
    | [] => .next (s.retire hid h px)
    | j :: _ =>
      if h.csrWaits n then .next s
      else
        let old := s.csrValue h n
        let g := h.setRegs rows d.toNat (fun _ => old)
        if !csrWrites op a then .next (s.retire hid g px)
        else if csrHOnly n && !h.priv then
          .next (s.takeTrap hid (scalarInfo h 1 .privilege j none))
        else
          let new := csrNew op old (h.reg j a.toNat)
          match csrReject n new with
          | some c => .next (s.takeTrap hid (scalarInfo h 1 c j none))
          | none =>
            match csrWrite s hid g j n new with
            | .ok (s, g) => .next (s.retire hid g px)
            | .error x => .next (s.stopScalar hid h 1 x))

/-- CSRRW (R135). -/
def execCsrrw (px : Px) (d a : Reg) (c : BitVec 12) (s : State) : Out := csrAccess s px .rw d a c.toNat
/-- CSRRS (R135). -/
def execCsrrs (px : Px) (d a : Reg) (c : BitVec 12) (s : State) : Out := csrAccess s px .rs d a c.toNat
/-- CSRRC (R135). -/
def execCsrrc (px : Px) (d a : Reg) (c : BitVec 12) (s : State) : Out := csrAccess s px .rc d a c.toNat
/-- PRTABA_WRITE (R55). -/
def execPrtabaWrite (px : Px) (op : CsrOp) (d a : Reg) (s : State) : Out := csrAccess s px op d a csrPrtaba
/-- DMASK_ACCESS (R137). -/
def execDmaskAccess (px : Px) (op : CsrOp) (d a : Reg) (s : State) : Out := csrAccess s px op d a csrDmask
/-- XSTAT_SRSEED_ACCESS (R138). -/
def execXstatSrseedAccess (px : Px) (op : CsrOp) (d a : Reg) (c : BitVec 12) (s : State) : Out :=
  csrAccess s px op d a c.toNat
/-- TAPE_CSR_ACCESS (R226). -/
def execTapeCsrAccess (px : Px) (op : CsrOp) (d a : Reg) (c : BitVec 12) (s : State) : Out :=
  csrAccess s px op d a c.toNat

end Sys2Proof.Machine
end

