-- ==== Sys2Proof/Machine/Control.lean ====
section
/-! DEFINITION. Vector length, template loading, die-row instructions, the panel step, WFE, and entering and
leaving a handler (spec/07_scalar.md R139 to R142, R147, R149; spec/11_sync_system.md R261). -/

namespace Sys2Proof.Machine

/-- VLENB (R101). -/
def Hart.vlenb (h : Hart) : Nat := 256 * h.csr.xcl

/-- The elements of a register at a container code (R139). -/
def vlMax (vlenb : Nat) (w : BitVec 3) : Nat := if w = 0 then 2 * vlenb else vlenb / 2 ^ (w.toNat - 1)

/-- VLSET (R139). -/
def execVlset (px : Px) (d a : Reg) (w : BitVec 3) (s : State) : Out :=
  withRegs s px [d.toNat, a.toNat] (fun hid h =>
    match h.active px with
    | [] => .next (s.retire hid h px)
    | j :: js =>
      let n := Nat.min (h.reg j a.toNat).toNat (vlMax h.vlenb w)
      let g := { h with csr := { h.csr with vl := BitVec.ofNat 16 n, vlcw := w } }
      .next (s.retire hid (g.setRegs (j :: js) d.toNat (fun _ => BitVec.ofNat 64 n)) px))

/-- The templates of a read of `n` × 16 bytes. -/
def templatesOf (x : Nat) (n : Nat) : List Template :=
  (List.range n).map (fun i => templateOfNat (x / 2 ^ (128 * i)))

/-- Templates loaded into consecutive slots of a table, an EMPTY one unlisted (R83). -/
def Hart.loadSlots (h : Hart) (e : Eng) (first : Nat) (ts : List Template) : Hart :=
  { h with tmpl := ts.zipIdx.foldl (fun m x =>
      putD m (64 * engIdx e + first + x.2) emptyTemplate x.1) h.tmpl }

/-- TMLD (R85, R140): every template is checked before any slot is written. -/
def execTmld (px : Px) (a : Reg) (c : BitVec 3) (f : BitVec 6) (n : BitVec 4) (s : State) : Out :=
  withRegs s px [a.toNat] (fun hid h =>
    match h.active px, engOfEcls c.toNat with
    | j :: _, some e =>
      let va := h.reg j a.toNat
      match s.rawStruct h j 16 16 (tmldCount n) va with
      | .error x => .next (s.stopScalar hid h 1 x)
      | .ok (s, x) =>
        let ts := templatesOf x (tmldCount n)
        match ts.zipIdx.find? (fun y => !slotOk e y.1) with
        | some y =>
          .next (s.takeTrap hid (scalarInfo h 1 .templateInvalid j (some (va + BitVec.ofNat 64 (16 * y.2)))))
        | none => .next (s.retire hid (h.loadSlots e f.toNat ts) px)
    | _, _ => .next (s.retire hid h px))

/-- TMPLI (R92): the four words are the template, checked as TMLD checks one. -/
def execTmpli (c : BitVec 3) (n : BitVec 6) (w0 w1 w2 w3 : Word) (s : State) : Out :=
  withHart s (fun hid h =>
    let after := h.pc + 20
    if h.priv then .next (s.takeTrap hid (privilegeInfo h 7))
    else
      match engOfEcls c.toNat with
      | none => .next (s.takeTrap hid (scalarInfo h 7 .reservedField 0 none))
      | some e =>
        let t := templateOfWords w0 w1 w2 w3
        if slotOk e t then .next (s.setHart hid ((h.loadSlots e n.toNat [t]).retireTo s.now after))
        else .next (s.takeTrap hid (scalarInfo h 7 .templateInvalid 0 none)))

/-- DMSETC (R141). -/
def execDmsetc (px : Px) (a : Reg) (z : BitVec 1) (s : State) : Out :=
  withRegs s px [a.toNat] (fun hid h =>
    let drop := (h.active px).filter (fun j => (h.reg j a.toNat == 0) == (z == 0))
    let m := drop.foldl (fun m j => m &&& ~~~ (BitVec.ofNat 8 (2 ^ j))) h.csr.dmask
    .next (s.retire hid { h with csr := { h.csr with dmask := m } } px))

/-- One step of DRED's combination: 0 ADD, 1 MIN, 2 MAX, 3 MINU, 4 MAXU, 5 AND, 6 OR (R115, R142). -/
def dredStep (o : BitVec 3) (x y : Dword) : Dword :=
  match o.toNat with
  | 0 => x + y
  | 1 => if x.slt y then x else y
  | 2 => if x.slt y then y else x
  | 3 => if x.ult y then x else y
  | 4 => if x.ult y then y else x
  | 5 => x &&& y
  | _ => x ||| y

/-- DRED (R142). -/
def execDred (px : Px) (d a : Reg) (o : BitVec 3) (s : State) : Out :=
  withRegs s px [d.toNat, a.toNat] (fun hid h =>
    match h.active px with
    | [] => .next (s.retire hid h px)
    | j :: js =>
      let r := js.foldl (fun x k => dredStep o x (h.reg k a.toNat)) (h.reg j a.toNat)
      .next (s.retire hid (h.setRegs (j :: js) d.toNat (fun _ => r)) px))

/-- DBCAST (R142): the source row need not be active; at or above the die span it raises RESERVED_FIELD
(R115), before the PRIVILEGE of a prefix in H (R108, R263). -/
def execDbcast (px : Px) (d a : Reg) (r : BitVec 3) (s : State) : Out :=
  withHart s (fun hid h =>
    if h.span ≤ r.toNat then .next (s.takeTrap hid (scalarInfo h 1 .reservedField 0 none))
    else
      withRegs s px [d.toNat, a.toNat] (fun hid h =>
        .next (s.retire hid (h.setRegs (h.active px) d.toNat (fun _ => h.reg r.toNat a.toNat)) px)))

/-- The next step of a panel (R147): the task's new position, PANELPOS, and d. -/
def panelStep (t : Task) (trows vl : Nat) : Option (Task × Nat × Nat × Dword) :=
  let rows := t.rows.toNat
  let cols := t.cols.toNat
  if rows ≤ t.row0 || vl = 0 then none
  else
    let r := Nat.min (rows - t.row0) trows
    let c := Nat.min (cols - t.col0) vl
    let col := t.col0 + c
    let t' := if cols ≤ col then { t with col0 := 0, row0 := t.row0 + r } else { t with col0 := col }
    some (t', t.row0, t.col0, BitVec.ofNat 64 (c * 2 ^ 32 + r))

/-- PSTEP (R147), for the whole hart whatever the mask (R123). -/
def execPstep (px : Px) (d : Reg) (s : State) : Out :=
  withRegs s px [d.toNat] (fun hid h =>
    match h.task.bind (fun t => panelStep t h.csr.trows h.csr.vl.toNat) with
    | none => .next (s.retire hid (h.setRegs h.allRows d.toNat (fun _ => 0)) px)
    | some (t, row, col, x) =>
      let g := { h with task := some t, csr := { h.csr with panelRow := BitVec.ofNat 32 row,
                                                            panelCol := BitVec.ofNat 32 col } }
      .next (s.retire hid (g.setRegs h.allRows d.toNat (fun _ => x)) px))

/-- WFE (R149): at once where the event flag is set, which it clears; otherwise the scalar pipeline waits. -/
def execWfe (px : Px) (s : State) : Out :=
  withRegs s px [] (fun hid h =>
    if h.event then .next (s.retire hid { h with event := false } px)
    else
      match h.wait with
      | .wfe _ => .next s
      | _ => .next (s.setHart hid { h with wait := .wfe (s.hartCycle h) }))

/-- WFE_TIMEOUT (R149): 65,536 cycles in WFE set the flag of the focus hart. -/
def execWfeTimeout (s : State) : Out :=
  withHart s (fun hid h =>
    match h.wait with
    | .wfe t => if t + 65536 ≤ s.hartCycle h then .next (s.setHart hid { h with event := true }) else .next s
    | _ => .next s)

/-! ## Entering and leaving a handler -/

/-- ECALL (R261): SERVICE_CALL with the code in the status word and the next instruction's address. -/
def execEcall (px : Px) (n : BitVec 12) (s : State) : Out :=
  withRegs s px [] (fun hid h =>
    .next (s.takeTrap hid { scalarInfo h 1 .serviceCall 0 none with pc := nextPc h px, status := n.zeroExtend 32 }))

/-- EBREAK (R261). -/
def execEbreak (px : Px) (s : State) : Out :=
  withRegs s px [] (fun hid h =>
    .next (s.takeTrap hid { scalarInfo h 1 .debugBreak 0 none with pc := nextPc h px }))

/-- ILLEGAL_OPCODE (R106, R108): an undefined op6, an undefined PX kind, or a repeated or misplaced prefix
raises its trap at the instruction, before any other check. -/
def execIllegalOpcode (px : Px) (w : Word) (s : State) : Out :=
  withHart s (fun hid h =>
    let cls := if pxAny px then 7 else w.toNat / 2 ^ 29
    .next (s.takeTrap hid (scalarInfo h cls .illegalOpcode 0 none)))

/-- The instruction words at an address, as far as the hart can fetch them. -/
def State.peekWords (s : State) (h : Hart) (pc : Dword) : Nat → List Word
  | 0 => []
  | k + 1 =>
    match s.reach h 0 .x pc with
    | .ok (l, _) => BitVec.ofNat 32 (s.readRaw l 4) :: s.peekWords h (pc + 4) k
    | .error _ => []

/-- The address of the instruction after the one at an address; a word after it where that cannot be
decoded. -/
def State.instrAfter (s : State) (h : Hart) (pc : Dword) : Dword :=
  match decode (s.peekWords h pc 5) with
  | .instr _ n => pc + BitVec.ofNat 64 (4 * n)
  | _ => pc + 4

/-- TRAPRET (R261): in U it raises PRIVILEGE; in H it reads the record at TRAPREC, an RZ bit of which raises
RESERVED_FIELD as a nested trap, and resumes as the record says. -/
def execTrapret (px : Px) (s : State) : Out :=
  withRegs s px [] (fun hid h =>
    if !h.priv then .next (s.takeTrap hid (scalarInfo h 1 .privilege 0 none))
    else
      match s.rawStruct h 0 64 64 1 h.csr.traprec with
      | .error x => .next (s.stopScalar hid h 1 x)
      | .ok (s, y) =>
        if recordRz y then .next (s.takeTrap hid (scalarInfo h 1 .reservedField 0 none))
        else
          let after := s.instrAfter h (BitVec.ofNat 64 (bits y 127 64))
          .next (s.resumeTrap hid (h.retire s.now px) y after false))

end Sys2Proof.Machine
end

