-- ==== Sys2Proof/Machine/Formation.lean ====
section
/-! DEFINITION. The formation of engine commands by the Sieve (spec/05_words.md R80, R86 to R88, R90, R91, R94;
spec/06_opcodes.md R107, R108). -/

namespace Sys2Proof.Machine

/-- The patch value v of R87. -/
def patchValue (px : Px) (val : BitVec 16) : BitVec 32 :=
  match px.valx with
  | some x => x.extractLsb' 10 16 ++ val
  | none => val.zeroExtend 32

/-- The field that FSEL 1 to 3 names lies within its file (R87, R101). -/
def patchRegOk (e : Eng) (t : Template) (fsel : Nat) (v : BitVec 32) : Bool :=
  match templateForm e t with
  | none => false
  | some f =>
    let file := match fsel with
      | 1 => f.d
      | 2 => f.a
      | _ => f.b
    decide (v.toNat ≤ 255) && regFieldOk file (t.mod.getLsbD 0) (v.extractLsb' 0 8)

/-- A value has a range that R87 states for the field of an FSEL. -/
def patchRangeOk (e : Eng) (t : Template) (fsel : Nat) (v : BitVec 32) : Bool :=
  match fsel with
  | 1 | 2 | 3 => patchRegOk e t fsel v
  | 5 => v.extractLsb' 20 12 == 0
  | 6 => v.extractLsb' 12 20 == 0
  | 7 =>
    let c := (v.extractLsb' 5 3).toNat
    let f := v.extractLsb' 0 5
    v.extractLsb' 8 24 == 0 && c != 5 && c != 6 && (fmtDefined f || f == 0x1F)
  | _ => true

/-- The template with the field of an FSEL amended (R87). -/
def patchTemplate (t : Template) (fsel : Nat) (v : BitVec 32) (long : Bool) : Template :=
  match fsel with
  | 1 => { t with d := v.extractLsb' 0 8 }
  | 2 => { t with a := v.extractLsb' 0 8 }
  | 3 => { t with b := v.extractLsb' 0 8 }
  | 4 => { t with imm := if long then v else t.imm.extractLsb' 16 16 ++ v.extractLsb' 0 16 }
  | 5 => { t with len := if long then v.extractLsb' 0 20 else t.len.extractLsb' 16 4 ++ v.extractLsb' 0 16 }
  | 6 => { t with wait := v.extractLsb' 0 8, seten := v.extractLsb' 11 1, setsl := v.extractLsb' 8 3 }
  | 7 => { t with fmt := v.extractLsb' 0 5, cw := v.extractLsb' 5 3 }
  | _ => t

/-- The amended template, or the fault of formation in the order of R108: TEMPLATE_EMPTY, RESERVED_FIELD
(with a nonzero TOK on a JB word and VALX[9:7], R90, R94), PATCH_FIELD_ABSENT, PATCH_VALUE_RANGE (R87, R107). -/
def formTemplate (e : Eng) (t : Template) (px : Px) (tok : BitVec 4) (fsel : BitVec 3) (val : BitVec 16) :
    Except Cause Template :=
  let v := patchValue px val
  if t.opc == 0 then .error .templateEmpty
  else if fsel == 0 && v != 0 then .error .reservedField
  else if (e == .jb && tok != 0) || px.valx.any (fun x => x.extractLsb' 7 3 != 0) then .error .reservedField
  else if fsel == 0 then .ok t
  else if !patchUses e t fsel.toNat then .error .patchFieldAbsent
  else if !patchRangeOk e t fsel.toNat v then .error .patchValueRange
  else
    let t' := patchTemplate t fsel.toNat v px.valx.isSome
    if templateOk e t' then .ok t' else .error .patchValueRange

/-- The scalar field of a register file use. -/
def scalarField (f : Option File) (mod0 : Bool) (n : BitVec 8) : List Nat :=
  match f with
  | some .s => [n.toNat]
  | some .qs => if mod0 then [n.toNat] else []
  | _ => []

/-- The scalar registers that a command names, its destination included (R80). -/
def commandScalars (e : Eng) (t : Template) : List Nat :=
  match templateForm e t with
  | none => []
  | some f =>
    let m := t.mod.getLsbD 0
    scalarField f.d m t.d ++ scalarField f.a m t.a ++ scalarField f.b m t.b
      ++ (if f.cscal then [t.cscal.toNat] else [])

/-- The values captured in one row (R80); fields that name no scalar register are not used. -/
def Hart.capture (h : Hart) (t : Template) (j : Nat) : Captured :=
  { d := h.ureg j (t.d.toNat % 32), a := h.ureg j (t.a.toNat % 32), b := h.ureg j (t.b.toNat % 32),
    c := h.ureg j t.cscal.toNat }

/-- The command with everything that dispatch captures (R80, R91, R138, R226). -/
def Hart.command (h : Hart) (px : Px) (t : Template) (fault : Option Cause) (tix : BitVec 6) (tok : BitVec 4)
    (fsel : BitVec 3) : Command :=
  { pc := h.pc, tix := tix, t := t, fault := fault, immPatched := fsel == 4, tok := tok, mask := h.dieMask px,
    stride := h.stride px, cap := h.allRows.map (h.capture t), vl := h.csr.vl, vlcw := h.csr.vlcw,
    rmode := h.csr.rmode, ldFmt := h.csr.ldFmt, ldCw := h.csr.ldCw, ldSexp := h.csr.ldSexp,
    recording := h.csr.recording, order := h.order, prt := none, issued := false, consumed := false, progress := 0,
    rowDone := [], carried := [], offs := [], fetched := [], flags := 0, touched := [], started := [], arrived := [], done := none }

/-- The Sieve dispatches one engine word into the queue and goes on behind it. -/
def Hart.dispatch (h : Hart) (now : Nat) (e : Eng) (px : Px) (c : Command) : Hart :=
  { h.setQueue e (h.queue e ++ [c]) with
    pc := h.pc + BitVec.ofNat 64 (pxBytes px), order := h.order + 1, lastProgress := now,
    halted := h.halted || c.fault.isSome }

/-- COMMAND_FORMATION (R79, R80, R87, R88): PRIVILEGE in H (R263); it waits while the queue is full, behind a
command that faulted at formation, or for a register with a pending result; then the command is queued, with
its fault where it has one. -/
def execCommandFormation (px : Px) (e : Eng) (tix : BitVec 6) (tok : BitVec 4) (fsel : BitVec 3)
    (val : BitVec 16) (s : State) : Out :=
  withHart s (fun hid h =>
    if h.priv then .next (s.takeTrap hid (privilegeInfo h (if pxAny px then 7 else eclsOf e)))
    else if h.halted || decide (64 ≤ (h.queue e).length) then .next s
    else
      let t := h.slotTemplate e tix.toNat
      match formTemplate e t px tok fsel val with
      | .error c => .next (s.setHart hid (h.dispatch s.now e px (h.command px t (some c) tix tok fsel)))
      | .ok t' =>
        if (commandScalars e t').any h.pending then .next s
        else .next (s.setHart hid (h.dispatch s.now e px (h.command px t' none tix tok fsel))))

end Sys2Proof.Machine
end

