-- ==== Sys2Proof/Machine/Engine.lean ====
section
/-! DEFINITION. What every engine command shares: the waits at issue and the pushes at completion
(spec/05_words.md R93 to R96), its die rows (R91), its faults (R88, R262), and the trace (R266). -/

namespace Sys2Proof.Machine

/-- The place of an engine on the token chain LD → MX → XV → ST → LD (R93); JB is not on it. -/
def chainPos : Eng → Nat
  | .ld => 0 | .mx => 1 | .xv => 2 | .st => 3 | .jb => 0

/-- The counters a command waits on: from its previous neighbour (wp) and from its next one (wn). Counter p
goes from place p to the next place, counter 4 + p from place p to the previous one (R93). -/
def tokenWaits (e : Eng) (tok : BitVec 4) : List Nat :=
  if e = .jb then []
  else
    (if tok.getLsbD 1 then [(chainPos e + 3) % 4] else [])
      ++ (if tok.getLsbD 0 then [4 + (chainPos e + 1) % 4] else [])

/-- The counters a command pushes at completion: toward its next neighbour (pn) and its previous one (pp). -/
def tokenPushes (e : Eng) (tok : BitVec 4) : List Nat :=
  if e = .jb then []
  else
    (if tok.getLsbD 3 then [chainPos e] else []) ++ (if tok.getLsbD 2 then [4 + chainPos e] else [])

def Hart.token (h : Hart) (n : Nat) : BitVec 4 := (h.tokens[n]?).getD 0

/-- The token and slot waits of a command are met together (R93, R96). -/
def Hart.waitsMet (h : Hart) (e : Eng) (c : Command) : Bool :=
  (tokenWaits e c.tok).all (fun n => h.token n != 0) && (c.t.wait &&& ~~~ h.slots) == 0

/-- The tokens taken and the slots cleared at issue (R93, R96). -/
def Hart.takeWaits (h : Hart) (e : Eng) (c : Command) : Hart :=
  { h with tokens := (tokenWaits e c.tok).foldl (fun v n => v.setIfInBounds n ((v[n]?).getD 0 - 1)) h.tokens,
           slots := h.slots &&& ~~~ c.t.wait }

/-- A command may complete: no counter that it pushes is at 15, and the slot it sets is clear (R93, R96). -/
def Hart.mayComplete (h : Hart) (e : Eng) (c : Command) : Bool :=
  (tokenPushes e c.tok).all (fun n => h.token n != 15)
    && (c.t.seten == 0 || !h.slots.getLsbD c.t.setsl.toNat)

/-- The tokens pushed and the slot set at completion. -/
def Hart.pushWaits (h : Hart) (e : Eng) (c : Command) : Hart :=
  { h with tokens := (tokenPushes e c.tok).foldl (fun v n => v.setIfInBounds n ((v[n]?).getD 0 + 1)) h.tokens,
           slots := if c.t.seten == 0 then h.slots else h.slots ||| BitVec.ofNat 8 (2 ^ c.t.setsl.toNat) }

/-- The active rows of a command (R91). -/
def Command.rows (c : Command) (h : Hart) : List Nat := rowsOf h.span c.mask

def Captured.zero : Captured := { d := 0, a := 0, b := 0, c := 0 }

/-- The values captured in a row. -/
def Command.capt (c : Command) (j : Nat) : Captured := c.cap.getD j Captured.zero

/-- The reader of PLAIN sectors outside a queue: LDFMT as captured (R40, R138). -/
def Command.reader (c : Command) : Reader := { fmt := c.ldFmt, cw := c.ldCw, sexp := c.ldSexp }

/-- The rounding mode in force for MOD[2:0] and SATF in MOD[3] (R60). -/
def Command.mode (c : Command) : Nat := effMode c.rmode (c.t.mod.extractLsb' 0 3)
def Command.satf (c : Command) : Bool := c.t.mod.getLsbD 3

/-- What a turn of an engine makes of its head command: it waits; it waits with what the turn has changed, not yet
issued; it is stopped by a trap or a page-absent reply with the status word and the progress it leaves; it goes on in a
later turn; or it has run. -/
inductive Turn where
  | wait
  | stay (s : State) (c : Command)
  | stop (s : State) (c : Command) (x : Stop) (status : BitVec 32) (progress : Bool)
  | more (s : State) (c : Command)
  | ran (s : State) (c : Command) (d : Completion)
  deriving DecidableEq, Repr

/-- A completion with nothing to do but flags. -/
def Completion.plain (fl : Flags) : Completion := { flags := fl, pops := [], tape := none, touched := [] }

/-- The trap of an engine command (R264). -/
def engineInfo (e : Eng) (c : Command) (cause : Cause) (row : Nat) (addr : Option Dword) (status : BitVec 32)
    (progress : Bool) : TrapInfo :=
  { cause := cause, eng := engCode e, row := row, addr := addr, status := status, progress := progress, pc := c.pc,
    cls := eclsOf e, tix := c.tix }

/-- The head of an engine queue replaced. -/
def Hart.setHead (h : Hart) (e : Eng) (c : Command) : Hart :=
  match h.queue e with
  | _ :: cs => h.setQueue e (c :: cs)
  | [] => h

/-- A stopped command is left to issue again, from its progress (R188, R261). -/
def State.stopCommand (s : State) (hid : Nat) (e : Eng) (c : Command) (x : Stop) (status : BitVec 32)
    (progress : Bool) : State :=
  let s := s.modHart hid (fun h => h.setHead e { c with issued := false, arrived := [], fetched := [] })
  match x with
  | .cause k row addr =>
    let s := match look s.harts hid with
      | some h => s.settleStop h x
      | none => s
    s.takeTrap hid (engineInfo e c k row addr status progress)
  | .absent _ dpa w => s.pageAbsent hid dpa w
  | .held => s

/-- The hart issues at its engine: its waits are taken once, and the command stands as issued. -/
def State.issue (s : State) (hid : Nat) (e : Eng) (c : Command) : State :=
  s.modHart hid (fun h =>
    let h := if c.consumed then h else h.takeWaits e c
    { h.setHead e { c with issued := true, consumed := true } with lastProgress := s.now })

/-- The scheduler runs the hart's engines: it is on its slot and not suspended, or finishes what has issued. -/
def Hart.engineMay (h : Hart) (c : Command) : Bool :=
  (match h.state with
    | .running | .sleeping => true
    | .suspended => c.issued
    | _ => false)
  && (h.traps.isEmpty || c.issued)

/-- Another engine's ready head that was dispatched earlier takes a slot that both wait on (R96). -/
def Hart.slotTaken (h : Hart) (e : Eng) (c : Command) : Bool :=
  [Eng.ld, .xv, .mx, .st, .jb].any (fun f =>
    f != e && match h.queue f with
      | k :: _ => !k.consumed && k.fault.isNone && k.done.isNone && h.waitsMet f k && decide (k.order < c.order)
          && (k.t.wait &&& c.t.wait) != 0
      | [] => false)

/-- The command as it issues: the promotion table in use then serves it to its end (R56). -/
def Command.atIssue (c : Command) (s : State) (h : Hart) : Command :=
  if c.consumed then c else { c with prt := s.prtOf h }

/-- What the answer of a turn makes of the state it began in: an access held by a link leaves all as it was. -/
def turnOut (hid : Nat) (e : Eng) (s : State) (x : Turn) : Out :=
  match x with
  | .wait => .next s
  | .stay s c => .next (s.modHart hid (fun g => g.setHead e c))
  | .stop _ _ .held _ _ => .next s
  | .stop s c x st p => .next (s.stopCommand hid e c x st p)
  | .more s c => .next (s.issue hid e c)
  | .ran s c d => .next (s.issue hid e { c with done := some d })

/-- One turn of an engine on its head command, which must hold the operation named: the waits of R93 and R96, that for a
register that an interlocked VLDR is to write (R97), and the operation's own turn, which an empty effective mask leaves out where it acts by die rows (R91). -/
def engineRun (byRows : Bool) (e : Eng) (t : Template) (s : State) (f : State → Nat → Hart → Command → Turn) : Out :=
  withHart s (fun hid h =>
    match h.queue e with
    | [] => .fault .noCommand
    | c :: _ =>
      if c.t != t || c.fault.isSome || c.done.isSome then .fault .noCommand
      else if !h.engineMay c then .next s
      else if !c.consumed && (!h.waitsMet e c || h.slotTaken e c) then .next s
      else if e = .xv && h.vecPending c then .next s
      else if byRows && (c.rows h).isEmpty then
        .next (s.issue hid e { c with done := some (Completion.plain 0) })
      else
        turnOut hid e s (f s hid h (c.atIssue s h)))

/-- One turn of an engine on a command that acts in its active die rows (R91). -/
def engineOp (e : Eng) (t : Template) (s : State) (f : State → Nat → Hart → Command → Turn) : Out :=
  engineRun true e t s f

/-- FORMATION_FAULT_RAISE (R88): the fault that formation found is raised at the head of the queue, once the engine's earlier
commands have completed. -/
def execFormationFaultRaise (s : State) : Out :=
  withHart s (fun hid h =>
    match h.queue s.focus.eng with
    | c :: _ =>
      match c.fault with
      | some k =>
        if h.engineMay c && c.done.isNone && !h.timed.any (fun x => x.1 == s.focus.eng) then
          .next (s.takeTrap hid (engineInfo s.focus.eng c k ((c.rows h).headD 0) none 0 false))
        else .next s
      | none => .next s
    | [] => .next s)

end Sys2Proof.Machine
end

