-- ==== Sys2Proof/Machine/Tiles.lean ====
section
/-! DEFINITION. Accumulator tiles: their elements and tags, and their passing between contexts through the spill
sequencer (spec/17_context.md R316, R317, R320). -/

namespace Sys2Proof.Machine

/-- The number of an accumulator tile under which a KEEP registration holds it. -/
def tileKeep (core t : Nat) : Nat := tileKey core t 0 0 / 256

/-- The tag of a tile (R219, R223). -/
def State.tileTag (s : State) (core t : Nat) : BitVec 24 := lookD (s.core core).tileTag t 0

/-- The tags of a tile that holds FP32 or INT32 elements. -/
def tagFp32 : BitVec 24 := mkTag clsTyped 14 3 0
def tagInt32 : BitVec 24 := mkTag clsTyped 5 3 0

/-- The code of element (i, j): +0 in a ZERO tile. -/
def State.tileCode (s : State) (core t i j : Nat) : Nat :=
  if tagCls (s.tileTag core t) = 0 then 0 else getNat s.mem (tileKey core t i j) 4

/-- A row of a tile. -/
def State.tileRow (s : State) (core t i : Nat) : List Nat := (List.range 256).map (s.tileCode core t i)

/-- A tile's rows. -/
def State.tileRows (s : State) (core t : Nat) : List (List Nat) := (List.range 256).map (s.tileRow core t)

/-- Codes as 4-byte elements. -/
def codeBytes (xs : List Nat) : List Byte := xs.flatMap (fun x => bytesOfNat x 4)

/-- A tile written whole: its tag and its rows. -/
def State.setTile (s : State) (core t : Nat) (tag : BitVec 24) (rows : List (List Nat)) : State :=
  { s.modCore core (fun c => { c with tileTag := putD c.tileTag t 0 tag }) with
    mem := setBytes s.mem (tileKey core t 0 0) (rows.flatMap codeBytes) }

/-- A tile's tag set to ZERO; its stale elements read as +0 (R223, R318). -/
def State.zeroTile (s : State) (core t : Nat) : State :=
  s.modCore core (fun c => { c with tileTag := del c.tileTag t })

/-- One row of a tile written from column 0 on, under a tag; a ZERO tile's other elements become +0. -/
def State.setTileRow (s : State) (core t i : Nat) (tag : BitVec 24) (xs : List Nat) : State :=
  let s := if tagCls (s.tileTag core t) = 0 then s.setTile core t tag (List.replicate 256 (List.replicate 256 0)) else s
  { s with mem := setBytes s.mem (tileKey core t i 0) (codeBytes xs) }

/-! ## The spill sequencer -/

/-- The DPA of sector k of a tile in a context's core image (R320). -/
def imageTile (c : Ctx) (core t k : Nat) : Nat := c.spill + core * 2 ^ 25 + 0x1000000 + t * 2 ^ 18 + 256 * k

/-- The image pages of a tile are PRESENT and no sector of it is uncorrectable, nor, where it is to be read, one that an
uncorrectable error has made POISON (R317, R375). -/
def State.imageOk (s : State) (c : Ctx) (core t : Nat) (read : Bool) : Bool :=
  (List.range 4).all (fun p => pitState (s.pitEntry (imageTile c core t (256 * p) / 65536)) == 1)
    && !((List.range 1024).any (fun k =>
      match s.sysLoc (imageTile c core t k) with
      | some l => s.errorKind l.key == some true || (read && tagCls (s.tagAt l.key) == clsPoison)
      | none => true))

/-- MC_UNCORRECTABLE taken by a hart, asynchronously (R262, R265). -/
def State.mcTake (s : State) (hid : Nat) (h : Hart) : State :=
  (s.modHart hid (fun g => { g with mcPending := false })).takeTrap hid
    { scalarInfo h 0 .mcUncorrectable 0 none with eng := 7 }

/-- MC_UNCORRECTABLE received by a hart: one for which a trap may be raised takes it at once, another when it next runs (R317,
R352, R358). -/
def State.mcTrap (s : State) (hid : Nat) : State :=
  match look s.harts hid with
  | none => s
  | some h => if s.mayTrap hid h then s.mcTake hid h else s.modHart hid (fun g => { g with mcPending := true })

/-- Every hart of a context receives MC_UNCORRECTABLE (R317). -/
def State.mcContext (s : State) (ctx : Nat) : State :=
  (s.harts.filter (fun x => decide (x.2.ctx = ctx))).foldl (fun s x => s.mcTrap x.1) s

/-- A sector written by the package at a DPA, dropped where no frame holds it. -/
def State.sysWriteSector (s : State) (dpa : Nat) (x : Sector) : State :=
  match s.sysLoc dpa with
  | some l => s.writeSector l x
  | none => s

/-- A sector read by the package at a DPA. -/
def State.sysReadSector (s : State) (dpa : Nat) : Sector :=
  match s.sysLoc dpa with
  | some l => s.readSector l
  | none => zeroSector

/-- Sector k of a tile: 64 elements of row k / 4. -/
def State.tileSector (s : State) (core t k : Nat) : Sector :=
  { tag := s.tileTag core t, bmeta := 0,
    data := packSlots 32 ((List.range 64).map (fun j => s.tileCode core t (k / 4) (k % 4 * 64 + j))) }

/-- The spilled bits and ZERO marks of a core's tiles as its image's header holds them (R316, R320): bit t the spilled bit
of tile t, bit 32 + t its ZERO mark. The manual gives the header's place and no layout (DESIGN CHOICE, log 41). -/
def Ctx.marks (c : Ctx) (core : Nat) : Nat :=
  (List.range 32).foldl (fun acc t =>
    match look c.spilled (32 * core + t) with
    | none => acc
    | some zero => acc + 2 ^ t + (if zero then 2 ^ (32 + t) else 0)) 0

/-- The DPA of the marks in a core image (R320). -/
def imageMarks (c : Ctx) (core : Nat) : Nat := c.spill + core * 2 ^ 25 + 0x1840000

/-- The marks of a context's tiles changed, and written to the core image's header. -/
def State.setMarks (s : State) (ctx core : Nat) (f : Map Bool → Map Bool) : State :=
  let s := s.modCtx ctx (fun c => { c with spilled := f c.spilled })
  match look s.ctxs ctx with
  | none => s
  | some c => s.sysWrite (imageMarks c core) 8 (c.marks core)

/-- A context's mark that a tile is spilled, with its ZERO mark. -/
def State.markSpilled (s : State) (ctx core t : Nat) (zero : Bool) : State :=
  s.setMarks ctx core (fun m => put m (32 * core + t) zero)

/-- A tile written to its owner's image, or marked ZERO, then zeroed and unowned (R316). -/
def State.spillTile (s : State) (core t : Nat) : State :=
  match look (s.core core).tileOwner t with
  | none => s
  | some (ctx, _) =>
    let free := fun (s : State) => (s.zeroTile core t).modCore core (fun c => { c with tileOwner := del c.tileOwner t })
    match look s.ctxs ctx with
    | none => free s
    | some c =>
      if tagCls (s.tileTag core t) = 0 then free (s.markSpilled ctx core t true)
      else if !s.imageOk c core t false then free (s.mcContext ctx)
      else
        let s := (List.range 1024).foldl (fun s k => s.sysWriteSector (imageTile c core t k) (s.tileSector core t k)) s
        free (s.markSpilled ctx core t false)

/-- A spilled tile filled from its owner's image, or zeroed by its ZERO mark (R316). -/
def State.fillTile (s : State) (ctx core t : Nat) : State :=
  match look s.ctxs ctx with
  | none => s
  | some c =>
    match look c.spilled (32 * core + t) with
    | none => s
    | some zero =>
      let s := s.setMarks ctx core (fun m => del m (32 * core + t))
      if zero then s.zeroTile core t
      else if !s.imageOk c core t true then (s.mcContext ctx).zeroTile core t
      else
        let tag := (s.sysReadSector (imageTile c core t 0)).tag
        let rows := (List.range 256).map (fun i => (List.range 4).flatMap (fun q =>
          secSlots (s.sysReadSector (imageTile c core t (4 * i + q))) 3))
        s.setTile core t tag rows

/-- A use of a tile by a hart (R316): a tile of another context is spilled, a spilled one is filled, and the
user owns it. -/
def State.useTile (s : State) (h : Hart) (core t : Nat) : State :=
  let s := match look (s.core core).tileOwner t with
    | some (ctx, _) => if ctx = h.ctx then s else s.spillTile core t
    | none => s
  let s := match look (s.core core).tileOwner t with
    | some _ => s
    | none => s.fillTile h.ctx core t
  s.modCore core (fun c => { c with tileOwner := put c.tileOwner t (h.ctx, h.slot) })

/-- A hart's array command has started on a core and not completed (R277). The hart of a save has given the array back; what
it has started is written when it completes after the restore. -/
def Hart.onArray (h : Hart) (core : Nat) : Bool :=
  h.onSlot &&
  match h.queue .mx with
  | c :: _ => c.started.any (fun r => decide (h.coreOf r.row = core))
  | [] => false

/-- A command of the tile's owner, a context other than the one given, has started and may still write the tile: a spill
waits for it (R316). -/
def State.tileHeld (s : State) (ctx core t : Nat) : Bool :=
  match look (s.core core).tileOwner t with
  | some (o, _) => decide (o ≠ ctx) && s.harts.any (fun x => decide (x.2.ctx = o) && x.2.onArray core)
  | none => false

/-- The tile that a command writes or reads whole: D of an array command, A of VRDA, VWRA and SACC (R316). -/
def Command.tileOf (e : Eng) (c : Command) : Option Nat :=
  match e, c.t.opc.toNat with
  | .mx, n => if 0x10 ≤ n then some c.t.d.toNat else none
  | .xv, 0x50 | .st, 0x05 => some c.t.a.toNat
  | .xv, 0x51 => some c.t.d.toNat
  | _, _ => none

/-- The head of a hart's queue waits for a tile of a core. -/
def Hart.wantsTile (h : Hart) (core t : Nat) : Bool :=
  h.onSlot && [Eng.xv, .mx, .st].any (fun e =>
    match h.queue e with
    | c :: _ => c.fault.isNone && c.done.isNone && c.tileOf e == some t && (c.rows h).any (fun j => decide (h.coreOf j = core))
    | [] => false)

/-- A die waits to be remapped (R28, R320). -/
def State.draining (s : State) (v : Nat) : Bool :=
  s.gates.any (fun g => match g with
    | .dieMap w _ => decide (w = v)
    | _ => false)

/-- A spill of a tile is due (R316, R320): a hart of another context wants the tile, or its die is being drained and no hart
of the owner is left on its slot there. -/
def State.spillDue (s : State) (core t : Nat) : Bool :=
  match look (s.core core).tileOwner t with
  | none => false
  | some (o, _) =>
    s.harts.any (fun x => decide (x.2.ctx ≠ o) && x.2.wantsTile core t)
      || (s.draining (core / 16) && !s.harts.any (fun x => decide (x.2.ctx = o) && x.2.onSlot && x.2.cores.contains core))

/-- TILE_SPILL (R316, R320): the spill sequencer writes tile `sub` of core `unit` to its owner's image and frees it, where
a spill of it is due and no started command of the owner holds it. The program sees only time. -/
def execTileSpill (s : State) : Out :=
  let core := s.focus.unit
  let t := s.focus.sub
  if s.spillDue core t && !s.tileHeld 4096 core t then .next (s.spillTile core t) else .next s

end Sys2Proof.Machine
end

