-- ==== Sys2Proof/Machine/Vector.lean ====
section
/-! DEFINITION. How an XV command runs over die rows and register sectors, and the elementwise instructions
(spec/08_vector.md R151 to R168). -/

namespace Sys2Proof.Machine

/-! ## Result formats -/

/-- The operand formats an instruction accepts (R151). -/
inductive Kind where
  | any | floatOnly | intOnly
  deriving DecidableEq, Repr

def Kind.accepts (k : Kind) (f : BitVec 5) : Bool :=
  match k with
  | .any => true
  | .floatOnly => fmtFloat f
  | .intOnly => fmtInt f

/-- A named format: none where the field is AUTO or not used. -/
def namedFmt (f : BitVec 5) : Option (BitVec 5) := if fmtDefined f then some f else none

/-- A named container. -/
def namedCw (c : BitVec 3) : Option (BitVec 3) := if c.toNat ≤ 4 then some c else none

/-- The format and container of a result, none where they cannot be known (R155), and the flags of the
promotion. -/
structure Target where
  fmt : BitVec 5
  cw  : BitVec 3
  deriving DecidableEq, Repr

/-- The container of operand sectors (R154): the one that the sectors which are not ZERO share; where all are
ZERO, the named one, else that of the first with a format, else VLCW. -/
def sharedCw (cwNamed : Option (BitVec 3)) (vlcw : BitVec 3) (os : List Opened) : Except Cause (BitVec 3) :=
  match os.find? (fun o => !o.zero) with
  | some o =>
    if os.any (fun p => !p.zero && p.cw != o.cw) then .error .containerMismatch
    else
      match cwNamed with
      | some w => if w = o.cw then .ok w else .error .containerMismatch
      | none => .ok o.cw
  | none =>
    match cwNamed, zeroTriple os with
    | some w, _ => .ok w
    | none, some o => .ok o.cw
    | none, none => .ok vlcw

/-- The result format and container of a sector (R154, R155): promotion lookups, then the kind, then the
container checks. -/
def resultTarget (prt : Option (List Byte)) (k : Kind) (fmtNamed : Option (BitVec 5))
    (cwNamed : Option (BitVec 3)) (vlcw : BitVec 3) (os : List Opened) :
    Except Cause (Option Target × Flags) := do
  let (p, fl) ← promoteAll prt os
  if os.any (fun o => !o.zero && !k.accepts o.fmt) then throw .forbiddenFormatPair
  let f : Option (BitVec 5) := match fmtNamed, p with
    | some f, _ => some f
    | none, some f => some f
    | none, none => (zeroTriple os).map (fun (o : Opened) => o.fmt)
  match f with
  | none =>
    let _ ← sharedCw cwNamed vlcw os
    pure (none, fl)
  | some f =>
    if !k.accepts f then throw .forbiddenFormatPair
    if os.any (fun o => !o.zero && fmtInt o.fmt != fmtInt f) then throw .forbiddenFormatPair
    let w ← sharedCw cwNamed vlcw os
    if !fmtFits f w then throw .containerMismatch
    pure (some ⟨f, w⟩, fl)

/-! ## Rows and sectors -/

/-- What a command has made of a row so far: the row's registers, the generator and the flags. -/
structure Acc where
  row : RowRegs
  sr  : BitVec 32
  fl  : Flags
  deriving DecidableEq, Repr

/-- A command on one die row: the row as it was, and what has been made of it. -/
abbrev RowFn := Hart → Command → Nat → Acc → Except Cause Acc

/-- The rows of a command in ascending order; the first fault with its row (R157). -/
def runRows (f : RowFn) (h : Hart) (c : Command) : List Nat → Hart → Flags → Except (Nat × Cause) (Hart × Flags)
  | [], g, fl => .ok (g, fl)
  | j :: js, g, fl =>
    match f h c j { row := h.row j, sr := g.csr.srseed, fl := 0 } with
    | .error k => .error (j, k)
    | .ok a =>
      runRows f h c js ({ g.setRow j a.row with csr := { g.csr with srseed := a.sr } }) (fl ||| a.fl)

/-- The sectors of a row in ascending order. -/
def runSectors (f : Nat → Acc → Except Cause Acc) : List Nat → Acc → Except Cause Acc
  | [], a => .ok a
  | x :: xs, a => do
    let a ← f x a
    runSectors f xs a

/-- The active elements that VL counts and the command's mask enables (R266). -/
def Hart.activeCount (h : Hart) (c : Command) (j : Nat) : Nat :=
  let m := (h.row j).mask c.t.cmask.toNat
  ((List.range c.vl.toNat).filter (fun e => m.getLsbD e)).length

/-- A register-only command's trace: no address (R266). -/
def Hart.touchedRows (h : Hart) (c : Command) : List Touched :=
  (c.rows h).map (fun j => { row := j, first := 0, last := 0, mpop := h.activeCount c j })

/-- An XV command that only reads and writes registers: it runs whole, or its first fault leaves no effect
(R157). -/
def xvOp (t : Template) (s : State) (f : State → RowFn) : Out :=
  engineOp .xv t s (fun s hid h c =>
    match runRows (f s) h c (c.rows h) h 0 with
    | .error (j, k) => .stop s c (.cause k j none) 0 false
    | .ok (g, fl) =>
      .ran (s.setHart hid g) c { Completion.plain fl with touched := h.touchedRows c })

/-- The register sectors of a hart's registers. -/
def sectorsOf (h : Hart) : List Nat := List.range h.csr.xcl

/-- The container that a sector's tag gives, or LDFMT's for PLAIN; none for ZERO without a format and for a
code that is reserved. -/
def tagContainer (c : Command) (s : Sector) : Option (BitVec 3) :=
  let t := s.tag
  match tagCls t with
  | 1 => namedCw c.ldCw
  | 0 => if tagFmt t == 0 then none else namedCw (tagCw t)
  | _ => namedCw (tagCw t)

/-- The container at which a sector's elements are counted before its checks: the named one, else that of the
first operand that is not ZERO, else that of the first with a format, else VLCW (R152, R154). -/
def guessCw (c : Command) (cwNamed : Option (BitVec 3)) (ss : List Sector) : BitVec 3 :=
  let pick := fun (l : List Sector) => l.findSome? (tagContainer c)
  match cwNamed, pick (ss.filter (fun s => tagCls s.tag != 0)), pick ss with
  | some w, _, _ => w
  | none, some w, _ => w
  | none, none, some w => w
  | none, none, none => c.vlcw

/-- Sector x is in range at a container (R152). -/
def Command.inRange (c : Command) (w : BitVec 3) (x : Nat) : Bool := sectorInRange (vlBits c.vl c.vlcw) w x

/-- The register sectors of which VL covers some bits: the others are not read (R152). -/
def Command.vlSectors (h : Hart) (c : Command) : List Nat :=
  (sectorsOf h).filter (fun x => decide (x * 2048 < vlBits c.vl c.vlcw))

/-- The activity of a sector's elements under the command's mask (R152). -/
def Command.acts (c : Command) (r : RowRegs) (w : BitVec 3) (x : Nat) : List Bool :=
  activity (vlBits c.vl c.vlcw) w x c.t.cmask.toNat (r.mask c.t.cmask.toNat)

/-- The container of the elements of a row of sectors, given with their numbers: as `guessCw` says, from the sectors that
hold an element within VL at the container they give (R152, log 20). -/
def Command.rowCw (c : Command) (cwNamed : Option (BitVec 3)) (xs : List (Nat × Sector)) : BitVec 3 :=
  guessCw c cwNamed ((xs.filter (fun y => (tagContainer c y.2).all (fun w => c.inRange w y.1))).map (·.2))

/-- Operand sectors opened in operand order, then their block scales (R157). -/
def openAll (c : Command) (ss : List Sector) : Except Cause (List Opened) := do
  let os ← ss.mapM (openTyped c.reader)
  if os.any Opened.badScale then throw .malformedBlockScale
  pure os

/-- The promotion lookup and the container checks that a sector brings to a command whose format is that of several
sectors (R154, R157): the format so far and the container so far, after it. `bad` refuses a named format. -/
def chainCheck (prt : Option (List Byte)) (bad : BitVec 5 → Bool) (fmtN : Option (BitVec 5)) (cwN : Option (BitVec 3))
    (st : Option (BitVec 5) × Option (BitVec 3)) (o : Opened) :
    Except Cause (Option (BitVec 5) × Option (BitVec 3)) := do
  if fmtN.any bad then throw .forbiddenFormatPair
  if o.zero then return st
  let f ← match st.1 with
    | none => pure o.fmt
    | some f => (promote prt f o.fmt).map (·.1)
  if fmtInt (fmtN.getD f) != fmtInt o.fmt then throw .forbiddenFormatPair
  if cwN.any (· != o.cw) || st.2.any (· != o.cw) then throw .containerMismatch
  if !fmtFits (fmtN.getD f) o.cw then throw .containerMismatch
  return (some f, some o.cw)

/-- The sectors of a command whose format is that of all of them, opened in ascending order with every check of one
sector before the next (R157). -/
def openSeq (c : Command) (chk : Option (BitVec 5) × Option (BitVec 3) → Opened →
    Except Cause (Option (BitVec 5) × Option (BitVec 3))) :
    Option (BitVec 5) × Option (BitVec 3) → List Sector → Except Cause (List Opened)
  | _, [] => .ok []
  | st, s :: ss => do
    let o ← openScaled c.reader s
    let st ← chk st o
    let os ← openSeq c chk st ss
    return o :: os

/-- The elements of operands side by side. -/
def transposed (n : Nat) (vs : List (List Exact)) : List (List Exact) :=
  (List.range n).map (fun i => vs.map (fun v => v.getD i (zeroOf false)))

/-- What an elementwise instruction is: its kind, its operand registers, whether it has FMT and CW fields, how
an element is computed in a format and mode, and how an integer result enters its format. -/
structure ElemSpec where
  kind  : Kind
  srcs  : List Nat
  named : Bool
  fixed : Option (BitVec 5) := none
  masked : Bool := true
  mode  : Nat
  satf  : Bool
  fit   : IntFit
  texp  : Option Int := some 0
  f     : BitVec 5 → List Exact → Exact × Flags

/-- One sector of an elementwise instruction (R152 to R156); where its format cannot be known, it takes the draws of its
active elements all the same (R158). -/
def elemSector (s : State) (h : Hart) (c : Command) (src : RowRegs) (e : ElemSpec) (x : Nat) (a : Acc) :
    Except Cause Acc := do
  let cwN := if e.named then namedCw c.t.cw else none
  let fmtN := match e.fixed with
    | some f => some f
    | none => if e.named then namedFmt c.t.fmt else none
  let ss := e.srcs.map (fun v => src.vec v x)
  if !c.inRange (guessCw c cwN ss) x then return a
  let os ← openAll c ss
  let (tg, fl) ← resultTarget (s.prtOf h) e.kind fmtN cwN c.vlcw os
  match tg with
  | none =>
    let w ← sharedCw cwN c.vlcw os
    return { row := a.row.setVec c.t.d.toNat x zeroSector, fl := a.fl ||| fl,
             sr := srDraws e.mode ((c.acts src w x).filter id).length a.sr }
  | some t =>
    let act := if e.masked then c.acts src t.cw x
      else activity (vlBits c.vl c.vlcw) t.cw x 0 0
    let vals := (transposed (elemCount t.cw) (os.map (fun o => o.values t.cw))).zip act
    let res := vals.map (fun v => (e.f t.fmt v.1, v.2))
    let fl := res.foldl (fun f r => if r.2 then f ||| r.1.2 else f) fl
    let out := encodeSector t.fmt t.cw (if t.fmt == fE2m1 then (if e.fixed.isSome then e.texp else none) else some 0)
      e.fit e.mode e.satf a.sr (res.map (fun r => (r.1.1, r.2)))
    return { row := a.row.setVec c.t.d.toNat x out.sector, sr := out.sr, fl := a.fl ||| fl ||| out.flags }

/-- An elementwise instruction over the sectors of each row. -/
def elemRow (e : Command → ElemSpec) (s : State) : RowFn := fun h c j a =>
  runSectors (fun x a => elemSector s h c (h.row j) (e c) x a) (sectorsOf h) a

/-- An elementwise instruction. -/
def elemOp (t : Template) (s : State) (e : Command → ElemSpec) : Out := xvOp t s (elemRow e)

/-- The arithmetic group (R160): operands A, B and D as used, the mode and SATF of MOD. -/
def arith (kind : Kind) (srcs : Command → List Nat) (satInts : Bool) (f : Nat → BitVec 5 → List Exact → Exact × Flags)
    (c : Command) : ElemSpec :=
  { kind := kind, srcs := srcs c, named := true, mode := c.mode, satf := c.satf,
    fit := if satInts && c.satf then .sat else .wrap, f := f c.mode }

def srcA (c : Command) : List Nat := [c.t.a.toNat]
def srcAB (c : Command) : List Nat := [c.t.a.toNat, c.t.b.toNat]
def srcABD (c : Command) : List Nat := [c.t.a.toNat, c.t.b.toNat, c.t.d.toNat]

def arg (xs : List Exact) (i : Nat) : Exact := xs.getD i (zeroOf false)

/-- VADD (R160). -/
def execVadd (t : Template) (s : State) : Out :=
  elemOp t s (arith .any srcAB true (fun m _ v => addE (m == 2) (arg v 0) (arg v 1)))
/-- VSUB (R160). -/
def execVsub (t : Template) (s : State) : Out :=
  elemOp t s (arith .any srcAB true (fun m _ v => addE (m == 2) (arg v 0) (arg v 1).negate))
/-- VMUL (R160). -/
def execVmul (t : Template) (s : State) : Out :=
  elemOp t s (arith .any srcAB true (fun _ _ v => mulE (arg v 0) (arg v 1)))
/-- VFMA (R160). -/
def execVfma (t : Template) (s : State) : Out :=
  elemOp t s (arith .any srcABD true (fun m _ v => fmaE (m == 2) (arg v 0) (arg v 1) (arg v 2)))
/-- VFMS (R160). -/
def execVfms (t : Template) (s : State) : Out :=
  elemOp t s (arith .any srcABD true (fun m _ v => fmaE (m == 2) (arg v 0) (arg v 1) (arg v 2).negate))

/-- The smaller or larger value, −0 below +0, NaN where either is NaN (R160). -/
def pickE (smaller : Bool) (x y : Exact) : Exact :=
  if x.isNan || y.isNan then .nan else if x.lessTotal y == smaller then x else y

/-- VMIN (R160). -/
def execVmin (t : Template) (s : State) : Out :=
  elemOp t s (arith .any srcAB false (fun _ _ v => (pickE true (arg v 0) (arg v 1), 0)))
/-- VMAX (R160). -/
def execVmax (t : Template) (s : State) : Out :=
  elemOp t s (arith .any srcAB false (fun _ _ v => (pickE false (arg v 0) (arg v 1), 0)))
/-- VABS (R160). -/
def execVabs (t : Template) (s : State) : Out :=
  elemOp t s (arith .any srcA true (fun _ _ v => ((arg v 0).abs, 0)))
/-- VNEG (R160). -/
def execVneg (t : Template) (s : State) : Out :=
  elemOp t s (arith .any srcA true (fun _ _ v => ((arg v 0).negate, 0)))

/-- The integer that an exact value of an integer format is. -/
def intOf (x : Exact) : Int := x.signedNum / (x.denom : Int)

/-- VDIV's integer quotient (R160). -/
def divInt (f : BitVec 5) (x y : Int) : Int :=
  if y = 0 then (if fmtSigned f then -1 else intHi (fmtWidth f) false) else x.tdiv y

/-- VDIV (R160). -/
def execVdiv (t : Template) (s : State) : Out :=
  elemOp t s (arith .any srcAB false (fun _ f v =>
    if fmtInt f then (exactOfInt (divInt f (intOf (arg v 0)) (intOf (arg v 1))), 0)
    else divE (arg v 0) (arg v 1)))

/-- VSQRT (R160, R161). -/
def execVsqrt (t : Template) (s : State) : Out :=
  elemOp t s (arith .floatOnly srcA false (fun _ _ v => sqrtE (arg v 0)))

/-- A transcendental instruction (R71, R161). -/
def transOp (t : Template) (s : State) (g : Trans) : Out :=
  elemOp t s (fun c => arith .floatOnly srcA false (fun _ _ v => transE c.satf g (arg v 0)) c)

/-- VRSQ (R161). -/
def execVrsq (t : Template) (s : State) : Out := transOp t s .rsq
/-- VEXP (R161). -/
def execVexp (t : Template) (s : State) : Out := transOp t s .exp
/-- VLOG (R161). -/
def execVlog (t : Template) (s : State) : Out := transOp t s .log
/-- VTANH (R161). -/
def execVtanh (t : Template) (s : State) : Out := transOp t s .tanh
/-- VSIGM (R161). -/
def execVsigm (t : Template) (s : State) : Out := transOp t s .sigm

/-! ## Integer bits and shifts -/

/-- An integer instruction with no mode (R162 to R164). -/
def intSpec (named : Bool) (srcs : Command → List Nat) (fit : IntFit) (f : BitVec 5 → List Exact → Int)
    (c : Command) : ElemSpec :=
  { kind := .intOnly, srcs := srcs c, named := named, mode := 0, satf := false, fit := fit,
    f := fun g v => (exactOfInt (f g v), 0) }

/-- A code combined bitwise in the width of F, read back in F (R162). -/
def bitwiseInt (f : BitVec 5) (g : Nat → Nat → Nat) (x y : Int) : Int :=
  let w := fmtWidth f
  let z := g (wrapNat w x) (wrapNat w y) % 2 ^ w
  if fmtSigned f then signedOf w z else (z : Int)

/-- VAND (R162). -/
def execVand (t : Template) (s : State) : Out :=
  elemOp t s (intSpec true srcAB .wrap (fun f v => bitwiseInt f (· &&& ·) (intOf (arg v 0)) (intOf (arg v 1))))
/-- VOR (R162). -/
def execVor (t : Template) (s : State) : Out :=
  elemOp t s (intSpec true srcAB .wrap (fun f v => bitwiseInt f (· ||| ·) (intOf (arg v 0)) (intOf (arg v 1))))
/-- VXOR (R162). -/
def execVxor (t : Template) (s : State) : Out :=
  elemOp t s (intSpec true srcAB .wrap (fun f v => bitwiseInt f (· ^^^ ·) (intOf (arg v 0)) (intOf (arg v 1))))
/-- VNOT (R162). -/
def execVnot (t : Template) (s : State) : Out :=
  elemOp t s (intSpec false srcA .wrap (fun f v =>
    bitwiseInt f (fun x y => x ^^^ y) (intOf (arg v 0)) (-1)))

/-- The shift count of an element (R163): negative or at least the width counts as the width. -/
def shiftCount (f : BitVec 5) (n : Int) : Nat :=
  if n < 0 || (fmtWidth f : Int) ≤ n then fmtWidth f else n.toNat

/-- The operands and the count of the shifts: B's element, or IMM[5:0] with MOD[7] (R163). -/
def shiftSpec (f : Int → Nat → Int) (c : Command) : ElemSpec :=
  let lit := c.t.mod.getLsbD 7
  intSpec false (if lit then srcA else srcAB) .wrap (fun g v =>
    let n := if lit then ((c.t.imm.toNat % 64 : Nat) : Int) else intOf (arg v 1)
    f (intOf (arg v 0)) (shiftCount g n)) c

/-- VSHL (R163). -/
def execVshl (t : Template) (s : State) : Out := elemOp t s (shiftSpec (fun a n => a * 2 ^ n))
/-- VSHR (R163). -/
def execVshr (t : Template) (s : State) : Out := elemOp t s (shiftSpec (fun a n => a / 2 ^ n))
/-- VSHRR (R163). -/
def execVshrr (t : Template) (s : State) : Out :=
  elemOp t s (shiftSpec (fun a n => if n = 0 then a else (a + 2 ^ (n - 1)) / 2 ^ n))

/-- VSADD (R164). -/
def execVsadd (t : Template) (s : State) : Out :=
  elemOp t s (intSpec true srcAB .sat (fun _ v => intOf (arg v 0) + intOf (arg v 1)))
/-- VSSUB (R164). -/
def execVssub (t : Template) (s : State) : Out :=
  elemOp t s (intSpec true srcAB .sat (fun _ v => intOf (arg v 0) - intOf (arg v 1)))
/-- VMULH (R164). -/
def execVmulh (t : Template) (s : State) : Out :=
  elemOp t s (intSpec true srcAB .wrap (fun f v => intOf (arg v 0) * intOf (arg v 1) / 2 ^ fmtWidth f))

/-- VSEL (R167): A where the mask bit is 1, else B, in every in-range element; rounded in RNE. -/
def selRow (s : State) : RowFn := fun h c j a =>
  let src := h.row j
  runSectors (fun x a => do
    let ss := [src.vec c.t.a.toNat x, src.vec c.t.b.toNat x]
    if !c.inRange (guessCw c none ss) x then return a
    let os ← openAll c ss
    let (tg, fl) ← resultTarget (s.prtOf h) .any none none c.vlcw os
    match tg with
    | none => return { a with row := a.row.setVec c.t.d.toNat x zeroSector, fl := a.fl ||| fl }
    | some t =>
      let act := activity (vlBits c.vl c.vlcw) t.cw x 0 0
      let sel := (List.range (elemCount t.cw)).map (fun i =>
        maskBit c.t.cmask.toNat (src.mask c.t.cmask.toNat) (x * elemCount t.cw + i))
      let vs := os.map (fun o => o.values t.cw)
      let xs := ((vs.getD 0 []).zip (vs.getD 1 [])).zip sel |>.map (fun v => if v.2 then v.1.1 else v.1.2)
      let out := encodeSector t.fmt t.cw (if t.fmt == fE2m1 then none else some 0) .wrap 0 false a.sr (xs.zip act)
      return { row := a.row.setVec c.t.d.toNat x out.sector, sr := out.sr, fl := a.fl ||| fl ||| out.flags })
    (sectorsOf h) a

/-- VSEL (R167). -/
def execVsel (t : Template) (s : State) : Out := xvOp t s selRow

/-! ## Compare and classify -/

/-- VCMP's predicates 0 EQ, 1 NE, 2 LT, 3 LE, 4 GT, 5 GE, 6 UN (R119, R166). -/
def vcmpE (p : Nat) (x y : Exact) : Bool × Flags :=
  if x.isNan || y.isNan then (p == 1 || p == 6, flagIf (2 ≤ p && p ≤ 5) flagNv)
  else
    let o := x.cmp y
    (match p with
      | 0 => o == .eq
      | 1 => o != .eq
      | 2 => o == .lt
      | 3 => o != .gt
      | 4 => o == .gt
      | 5 => o != .lt
      | _ => false, 0)

/-- VCMP in a row (R166): every bit of kd is written; a write to k0 is discarded. -/
def cmpRow (s : State) : RowFn := fun h c j a =>
  let src := h.row j
  let start : Except Cause (Nat × Flags) := .ok (0, 0)
  let r := (sectorsOf h).foldl (fun (acc : Except Cause (Nat × Flags)) x => do
    let (m, fl) ← acc
    let ss := [src.vec c.t.a.toNat x, src.vec c.t.b.toNat x]
    if !c.inRange (guessCw c none ss) x then return (m, fl)
    let os ← openAll c ss
    let (tg, pf) ← resultTarget (s.prtOf h) .any none none c.vlcw os
    let w := match tg with
      | some t => t.cw
      | none => guessCw c none ss
    let n := elemCount w
    let vs := (transposed n (os.map (fun o => o.values w))).zip (c.acts src w x)
    let (m, fl) := vs.zipIdx.foldl (fun (acc : Nat × Flags) v =>
      if v.1.2 then
        let (b, f) := vcmpE (c.t.mod.toNat % 8) (arg v.1.1 0) (arg v.1.1 1)
        (if b then acc.1 ||| 2 ^ (x * n + v.2) else acc.1, acc.2 ||| f)
      else acc) (m, fl ||| pf)
    return (m, fl)) start
  r.map (fun y => { a with row := a.row.setMask c.t.d.toNat (BitVec.ofNat 4096 y.1), fl := a.fl ||| y.2 })

/-- VCMP (R166). -/
def execVcmp (t : Template) (s : State) : Out := xvOp t s cmpRow

/-- The class index of an element code (R168). -/
def classIndex (f : BitVec 5) (c : Nat) : Nat :=
  if fmtInt f then
    match decodeFmt f c with
    | .fin true n _ => if n = 0 then 5 else 2
    | .fin false n _ => if n = 0 then 5 else 7
    | _ => 5
  else if f == fE2m1 then
    let g := c % 8
    let neg := decide (8 ≤ c)
    if c = 8 then 9 else if g = 0 then 5 else if g = 1 then (if neg then 3 else 6) else if neg then 2 else 7
  else
    let q := fspec f
    match q.decode c with
    | .nan => 0
    | .inf neg => if neg then 1 else 8
    | v =>
      let neg := v.sign
      let g := c % 2 ^ (q.width - 1)
      if g = 0 then (if neg then 4 else 5)
      else if g < 2 ^ q.m then (if neg then 3 else 6)
      else if neg then 2 else 7

/-- The result format of VCLASS for a container (R168). -/
def classFmt (w : BitVec 3) : Option (BitVec 5) :=
  match w.toNat with
  | 1 => some 2 | 2 => some 4 | 3 => some 6 | 4 => some 7
  | _ => none

/-- VCLASS in a row (R168). -/
def classRow : RowFn := fun h c j a =>
  let src := h.row j
  runSectors (fun x a => do
    let ss := [src.vec c.t.a.toNat x]
    if !c.inRange (guessCw c none ss) x then return a
    let os ← openAll c ss
    let w ← sharedCw none c.vlcw os
    match classFmt w, os with
    | some f, o :: _ =>
      let codes := if o.zero then List.replicate (elemCount w) 5 else o.codes.map (classIndex o.fmt)
      let xs := (codes.zip (c.acts src w x)).map (fun y => if y.2 then y.1 else 0)
      let out : Sector := { tag := mkTag clsTyped f w 0, bmeta := 0, data := packSlots (cwBits w) xs }
      return { a with row := a.row.setVec c.t.d.toNat x out }
    | _, _ => throw .containerMismatch) (sectorsOf h) a

/-- VCLASS (R168). -/
def execVclass (t : Template) (s : State) : Out := xvOp t s (fun _ => classRow)

/-! ## Packed products -/

/-- The signed integer format of a width, where it exists (R165). -/
def signedFmt (w : Nat) : Option (BitVec 5) :=
  match w with
  | 8 => some 1 | 16 => some 3 | 32 => some 5 | 64 => some 7
  | _ => none

/-- The accumulator's container for `m` products (R165). -/
def wideCw (w : BitVec 3) (m : Nat) : Option (BitVec 3) :=
  let n := w.toNat + (if m = 2 then 1 else 2)
  if n ≤ 4 then some (BitVec.ofNat 3 n) else none

/-- VDOT2 and VDOT4 in one sector (R165). Where A and B are ZERO without a format and D is ZERO with a float triple, R165
names no case, and FORBIDDEN_FORMAT_PAIR is raised as for a float D (DESIGN CHOICE, log 20). R157 gives the check of a
float D no place: it stands after the container check of A and B and after the test that the wide format and container
exist, before the container check of D (DESIGN CHOICE, log 50). -/
def dotSector (s : State) (h : Hart) (c : Command) (m : Nat) (src : RowRegs) (x : Nat) (a : Acc) :
    Except Cause Acc := do
  let da := src.vec c.t.a.toNat x
  let db := src.vec c.t.b.toNat x
  let dd := src.vec c.t.d.toNat x
  let pick := fun (l : List Sector) => l.findSome? (tagContainer c)
  let guess := match pick ([da, db].filter (fun y => tagCls y.tag != clsZero)), pick [da, db] with
    | some w, _ => (wideCw w m).getD 4
    | none, some w => (wideCw w m).getD 4
    | none, none => guessCw c none [dd]
  if !c.inRange guess x then return a
  let os ← openAll c [da, db, dd]
  match os with
  | [oa, ob, od] =>
    let (p, fl) ← promoteAll (s.prtOf h) [oa, ob]
    let pf : Option (BitVec 5) := match p with
      | some f => some f
      | none => (zeroTriple [oa, ob]).map (fun (o : Opened) => o.fmt)
    if pf.any (fun f => !fmtInt f) then throw .forbiddenFormatPair
    let tg : Option Target ← match pf with
      | some f => do
        let w ← sharedCw none c.vlcw [oa, ob]
        match signedFmt (m * fmtWidth f), wideCw w m with
        | some g, some v =>
          if !od.zero && !fmtInt od.fmt then throw .forbiddenFormatPair
          if !od.zero && od.cw != v then throw .containerMismatch
          pure (some ⟨g, v⟩)
        | _, _ => throw .containerMismatch
      | none =>
        if od.fmt == 0 then pure none
        else if !fmtInt od.fmt then throw .forbiddenFormatPair
        else pure (some ⟨od.fmt, od.cw⟩)
    match tg with
    | none => return { a with row := a.row.setVec c.t.d.toNat x zeroSector, fl := a.fl ||| fl }
    | some t =>
      let n := elemCount t.cw
      let vd := od.values t.cw
      let na := if oa.zero then [] else oa.values oa.cw
      let nb := if ob.zero then [] else ob.values ob.cw
      let prod := fun k => intOf (na.getD k (zeroOf false)) * intOf (nb.getD k (zeroOf false))
      let sums := (List.range n).map (fun i =>
        (List.range m).foldl (fun acc k => acc + prod (m * i + k)) (intOf (vd.getD i (zeroOf false))))
      let fit : IntFit := if c.satf then .sat else .wrap
      let out := encodeSector t.fmt t.cw (some 0) fit 0 false a.sr
        ((sums.map exactOfInt).zip (c.acts src t.cw x))
      return { row := a.row.setVec c.t.d.toNat x out.sector, sr := out.sr, fl := a.fl ||| fl ||| out.flags }
  | _ => return a

def dotRow (m : Nat) (s : State) : RowFn := fun h c j a =>
  runSectors (dotSector s h c m (h.row j)) (sectorsOf h) a

/-- VDOT2 (R165). -/
def execVdot2 (t : Template) (s : State) : Out := xvOp t s (dotRow 2)
/-- VDOT4 (R165). -/
def execVdot4 (t : Template) (s : State) : Out := xvOp t s (dotRow 4)

end Sys2Proof.Machine
end

