-- ==== Sys2Proof/Machine/Vector2.lean ====
section
/-! DEFINITION. The XV instructions that rearrange, build, extract, reduce and convert elements, tags, masks
and moves (spec/08_vector.md R169 to R181, R185). -/

namespace Sys2Proof.Machine

/-! ## Rearranging elements -/

/-- Where an element of a rearrangement comes from: element j of operand register k, or a fill of +0. -/
inductive From where
  | elem (k j : Nat)
  | fill
  deriving DecidableEq, Repr

/-- The register sectors read, by operand and sector in ascending order (R169). -/
def readSectors (n : Nat) (xs : List From) : List (Nat × Nat) :=
  (List.range 2).flatMap (fun k => (List.range 8).filterMap (fun x =>
    if xs.any (fun y => match y with
      | .elem q j => q == k && j / n == x
      | .fill => false) then some (k, x) else none))

/-- An element taken from opened sectors. -/
def takeFrom {α : Type} (n : Nat) (keys : List (Nat × Nat)) (vals : List (List α)) (z : α) (y : From) : α :=
  match y with
  | .fill => z
  | .elem k j =>
    match (keys.zip vals).find? (fun p => p.1 == (k, j / n)) with
    | some p => p.2.getD (j % n) z
    | none => z

/-- A rearrangement: its operand registers, the index register that VPERM reads whole (R171), and where the destination
element e comes from at a container. -/
structure Move where
  regs  : List Nat
  index : Option Nat := none
  source : BitVec 3 → Nat → From
  act   : Nat → Bool := fun _ => true

/-- The in-range destination sectors at container w, each with the sources of its active elements. -/
def Move.cells (m : Move) (h : Hart) (c : Command) (w : BitVec 3) : List (Nat × List (Option From)) :=
  let n := elemCount w
  let xs := (sectorsOf h).filter (fun x => c.inRange w x)
  xs.map (fun x => (x, (List.range n).map (fun i =>
    let e := x * n + i
    if inVl (vlBits c.vl c.vlcw) w e && m.act e then some (m.source w e) else none)))

/-- The source sectors read at container w, A's before B's. -/
def Move.keys (m : Move) (h : Hart) (c : Command) (w : BitVec 3) : List (Nat × Nat) :=
  readSectors (elemCount w) ((m.cells h c w).flatMap (fun y => y.2.filterMap id))

/-- The container of a rearrangement (R154, R169): that of the first source sector, A's before B's and the index
register last, which is read when elements are counted at the container it gives; first among those that are not ZERO,
then among those with a triple; else VLCW (log 20). -/
def Move.cw (m : Move) (h : Hart) (c : Command) (src : RowRegs) : BitVec 3 :=
  let cands := (m.regs.zipIdx.flatMap (fun v => (c.vlSectors h).map (fun x => (some v.2, x, src.vec v.1 x)))) ++
    (m.index.toList.flatMap (fun v => (c.vlSectors h).map (fun x => (none, x, src.vec v x))))
  let gives := fun (y : Option Nat × Nat × Sector) => (tagContainer c y.2.2).filter (fun w =>
    match y.1 with
    | some k => (m.keys h c w).contains (k, y.2.1)
    | none => c.inRange w y.2.1)
  match (cands.filter (fun y => tagCls y.2.2.tag != clsZero)).findSome? gives, cands.findSome? gives with
  | some w, _ => w
  | none, some w => w
  | none, none => c.vlcw

/-- The checks of a rearrangement's source sectors (R157, R169): sector number by sector number the classes of A, B and
the index register, the block scales, the promotion lookups, and the containers. The lookups are those of A's sectors and,
once A's last one is in, of B's sectors so far (log 8). -/
def Move.check (m : Move) (prt : Option (List Byte)) (h : Hart) (c : Command) (src : RowRegs) (w : BitVec 3)
    (keys : List (Nat × Nat)) : List Nat → Option (BitVec 5) → List (BitVec 5) → Except Cause Unit
  | [], _, _ => .ok ()
  | x :: xs, f, due => do
    let mine := keys.filter (fun k => k.2 == x)
    let os ← mine.mapM (fun k => openTyped c.reader (src.vec (m.regs.getD k.1 0) x))
    let is ← (if c.inRange w x then m.index.toList else []).mapM (fun v => openTyped c.reader (src.vec v x))
    if (os ++ is).any Opened.badScale then throw .malformedBlockScale
    let fmts := fun k => ((mine.zip os).filter (fun y => y.1.1 == k && !y.2.zero)).map (fun y => y.2.fmt)
    let due := due ++ fmts 1
    let last := !xs.any (fun z => keys.contains (0, z))
    let f ← (fmts 0 ++ (if last then due else [])).foldlM (fun f y =>
      match f with
      | none => pure (some y)
      | some g => (promote prt g y).map (fun r => some r.1)) f
    if is.any (fun o => !o.zero && !fmtInt o.fmt) then throw .forbiddenFormatPair
    if (os ++ is).any (fun o => !o.zero && o.cw != w) then throw .containerMismatch
    if f.any (fun g => !fmtFits g w) then throw .containerMismatch
    m.check prt h c src w keys xs f (if last then [] else due)

/-- A rearrangement in a row (R169). -/
def rearrange (m : Move) (s : State) (h : Hart) (c : Command) (src : RowRegs) (a : Acc) : Except Cause Acc := do
  let w := m.cw h c src
  let n := elemCount w
  let cells := m.cells h c w
  let keys := m.keys h c w
  m.check (s.prtOf h) h c src w keys (sectorsOf h) none []
  let ss := keys.map (fun k => src.vec (m.regs.getD k.1 0) k.2)
  let os ← ss.mapM (openTyped c.reader)
  let (tg, fl) ← resultTarget (s.prtOf h) .any none none w os
  match tg with
  | none =>
    return { a with row := cells.foldl (fun r y => r.setVec c.t.d.toNat y.1 zeroSector) a.row, fl := a.fl ||| fl }
  | some t =>
    let same := match ss with
      | [] => false
      | s0 :: _ => t.fmt != fE2m1 && ss.all (fun y => tagCls y.tag == clsTyped && y.tag == s0.tag)
    if same then
      let codes := os.map Opened.codes
      let tag := (ss.headD zeroSector).tag
      let row := cells.foldl (fun r y =>
        let out := y.2.map (fun e => match e with
          | some q => takeFrom n keys codes 0 q
          | none => 0)
        r.setVec c.t.d.toNat y.1 { tag := tag, bmeta := 0, data := packSlots (cwBits t.cw) out }) a.row
      return { a with row := row, fl := a.fl ||| fl }
    else
      let vals := os.map (fun o => o.values t.cw)
      return cells.foldl (fun (a : Acc) y =>
        let out := y.2.map (fun e => match e with
          | some q => (takeFrom n keys vals (zeroOf false) q, true)
          | none => (zeroOf false, false))
        let enc := encodeSector t.fmt t.cw (if t.fmt == fE2m1 then none else some 0) .wrap 0 false a.sr out
        { row := a.row.setVec c.t.d.toNat y.1 enc.sector, sr := enc.sr, fl := a.fl ||| enc.flags })
        { a with fl := a.fl ||| fl }

/-- The elements that VL counts at a container. -/
def vlAt (c : Command) (w : BitVec 3) : Nat := vlBits c.vl c.vlcw / cwBits w

/-- VSLIDE's source of element i for an offset (R170). -/
def slideFrom (fill : Nat) (vl : Nat) (off : Int) (i : Nat) : From :=
  let j : Int := (i : Int) - off
  if 0 ≤ j && j < vl then .elem 0 j.toNat
  else
    match fill with
    | 0 => .fill
    | 1 =>
      let k := if (vl : Int) ≤ j then j - vl else vl + j
      if 0 ≤ k && k < vl then .elem 1 k.toNat else .fill
    | _ => if j < 0 then .elem 0 0 else .elem 0 (vl - 1)

def slideMove (c : Command) : Move :=
  let fill := c.t.mod.toNat % 4
  { regs := if fill = 1 then srcAB c else srcA c, source := fun w => slideFrom fill (vlAt c w) c.t.imm.toInt }

def slideRow (s : State) : RowFn := fun h c j a => rearrange (slideMove c) s h c (h.row j) a

/-- VSLIDE (R170). -/
def execVslide (t : Template) (s : State) : Out := xvOp t s slideRow

/-- VPERM's index for destination element e at container w (R171): B's element as an integer, none where B's sector
cannot be read so, which `Move.check` reports. -/
def permIndex (c : Command) (src : RowRegs) (w : BitVec 3) (e : Nat) : Option Int :=
  let n := elemCount w
  match openScaled c.reader (src.vec c.t.b.toNat (e / n)) with
  | .ok o =>
    if o.zero then some 0
    else if fmtInt o.fmt && o.cw == w then some (intOf ((o.values w).getD (e % n) (zeroOf false)))
    else none
  | .error _ => none

def permMove (c : Command) (src : RowRegs) : Move :=
  { regs := srcA c, index := some c.t.b.toNat,
    act := fun e => maskBit c.t.cmask.toNat (src.mask c.t.cmask.toNat) e,
    source := fun w e =>
      match permIndex c src w e with
      | some n => if n < 0 || (vlAt c w : Int) ≤ n then .fill else .elem 0 n.toNat
      | none => .fill }

def permRow (s : State) : RowFn := fun h c j a => rearrange (permMove c (h.row j)) s h c (h.row j) a

/-- VPERM (R171). -/
def execVperm (t : Template) (s : State) : Out := xvOp t s permRow

def zipMove (c : Command) : Move := { regs := srcAB c, source := fun _ i => .elem (i % 2) (i / 2) }

def zipRow (s : State) : RowFn := fun h c j a => rearrange (zipMove c) s h c (h.row j) a

/-- VZIP (R172). -/
def execVzip (t : Template) (s : State) : Out := xvOp t s zipRow

def unzipMove (c : Command) : Move :=
  { regs := srcAB c,
    source := fun w i => if 2 * i < vlAt c w then .elem 0 (2 * i) else .elem 1 (2 * i - vlAt c w) }

def unzipRow (s : State) : RowFn := fun h c j a => rearrange (unzipMove c) s h c (h.row j) a

/-- VUNZIP (R172). -/
def execVunzip (t : Template) (s : State) : Out := xvOp t s unzipRow

/-! ## Building -/

/-- A sector of element codes in a named format (R173): a format that does not fit the container raises
CONTAINER_MISMATCH (R43) in the first sector in range, so where VL counts no element nothing is checked; in E2M1B every
slot in use has scale 1 and no special. -/
def buildRow (code : Nat → Nat) (masked : Bool) : RowFn := fun h c j a =>
  let src := h.row j
  let f := c.t.fmt
  let w := c.t.cw
  runSectors (fun x a =>
      if !c.inRange w x then .ok a
      else if !fmtFits f w then .error .containerMismatch
      else
        let act := if masked then c.acts src w x else activity (vlBits c.vl c.vlcw) w x 0 0
        let xs := act.zipIdx.map (fun y => if y.1 then writtenCode f (code (x * elemCount w + y.2)) else 0)
        let md := if f == fE2m1 then (List.range (blocksUsed w)).foldl (fun m k => m + 0x38 * 2 ^ (16 * k)) 0 else 0
        let out : Sector := { tag := mkTag clsTyped f w 0, bmeta := BitVec.ofNat 128 md, data := packSlots (cwBits w) xs }
        .ok { a with row := a.row.setVec c.t.d.toNat x out }) (sectorsOf h) a

/-- VBCAST (R173). -/
def execVbcast (t : Template) (s : State) : Out :=
  xvOp t s (fun _ h c j a => buildRow (fun _ => (c.capt j).c.toNat) false h c j a)
/-- VID (R173). -/
def execVid (t : Template) (s : State) : Out := xvOp t s (fun _ => buildRow (fun e => e) true)
/-- VSETI (R173). -/
def execVseti (t : Template) (s : State) : Out :=
  xvOp t s (fun _ h c j a => buildRow (fun _ => c.t.imm.toNat) true h c j a)

/-! ## Extracting, masks to scalars, tags -/

/-- The cause of a register-sector number in IMM beyond the grant (R119). -/
def beyondGrant (c : Command) : Cause := if c.immPatched then .patchValueRange else .reservedField

/-- The row with a scalar register of the U bank written. -/
def Acc.setS (a : Acc) (n : Nat) (x : Nat) : Acc := { a with row := a.row.set false n (BitVec.ofNat 64 x) }

/-- VEXTR in a row (R174). -/
def extrRow : RowFn := fun h c j a =>
  let w := c.vlcw
  let n := elemCount w
  let e := c.t.imm.toNat
  if n * h.csr.xcl ≤ e then .error .reservedField
  else
    let x := (h.row j).vec c.t.a.toNat (e / n)
    match rawFault x.tag with
    | some k => .error k
    | none =>
      let cls := tagCls x.tag
      if (cls = clsTyped && tagCw x.tag != w) || (cls = clsPlain && c.ldCw != w) then .error .containerMismatch
      else .ok (a.setS c.t.d.toNat ((secSlots (secVisible x) w).getD (e % n) 0))

/-- VEXTR (R174). -/
def execVextr (t : Template) (s : State) : Out := xvOp t s (fun _ => extrRow)

/-- VTAGR in a row (R178). -/
def tagrRow : RowFn := fun h c j a =>
  if h.csr.xcl ≤ c.t.imm.toNat then .error (beyondGrant c)
  else .ok (a.setS c.t.d.toNat ((h.row j).vec c.t.a.toNat c.t.imm.toNat).tag.toNat)

/-- VTAGR (R178). -/
def execVtagr (t : Template) (s : State) : Out := xvOp t s (fun _ => tagrRow)

/-- VTAGW in a row (R178). -/
def tagwRow : RowFn := fun h c j a =>
  let v := (c.capt j).a
  let t := v.extractLsb' 0 24
  if h.csr.xcl ≤ c.t.imm.toNat then .error (beyondGrant c)
  else if v.extractLsb' 24 40 != 0 then .error .reservedField
  else if !tagOk t then .error .malformedTag
  else
    let x := (h.row j).vec c.t.d.toNat c.t.imm.toNat
    .ok { a with row := a.row.setVec c.t.d.toNat c.t.imm.toNat (secRetag x t) }

/-- VTAGW (R178). -/
def execVtagw (t : Template) (s : State) : Out := xvOp t s (fun _ => tagwRow)

/-- VSEXP in a sector (R179). -/
def sexpSector (c : Command) (src : RowRegs) (x : Nat) (a : Acc) : Except Cause Acc := do
  let y := src.vec c.t.a.toNat x
  if !c.inRange (guessCw c none [y]) x then return a
  let os ← openAll c [y]
  match os with
  | [o] =>
    let k := (c.t.imm.extractLsb' 0 8).toInt
    let e := o.sexp.toInt + k
    if o.zero then return { a with row := a.row.setVec c.t.d.toNat x y }
    else if (fmtInt o.fmt && k != 0) || e < -127 || 127 < e then throw .malformedTag
    else
      return { a with row := a.row.setVec c.t.d.toNat x { y with tag := mkTag clsTyped o.fmt o.cw (BitVec.ofInt 8 e) } }
  | _ => return a

/-- VSEXP (R179). -/
def execVsexp (t : Template) (s : State) : Out :=
  xvOp t s (fun _ h c j a => runSectors (sexpSector c (h.row j)) (sectorsOf h) a)

/-- A mask instruction in a row (R181). -/
def maskRow (f : BitVec 4096 → BitVec 4096 → BitVec 4096) : RowFn := fun h c j a =>
  let r := h.row j
  .ok { a with row := a.row.setMask c.t.d.toNat (f (r.mask c.t.a.toNat) (r.mask c.t.b.toNat)) }

/-- KAND (R181). -/
def execKand (t : Template) (s : State) : Out := xvOp t s (fun _ => maskRow (fun x y => x &&& y))
/-- KOR (R181). -/
def execKor (t : Template) (s : State) : Out := xvOp t s (fun _ => maskRow (fun x y => x ||| y))
/-- KNOT (R181). -/
def execKnot (t : Template) (s : State) : Out := xvOp t s (fun _ => maskRow (fun x _ => ~~~ x))

/-- KPOPC (R181). -/
def execKpopc (t : Template) (s : State) : Out :=
  xvOp t s (fun _ h c j a => .ok (a.setS c.t.d.toNat (bitCount ((h.row j).mask c.t.a.toNat).toNat 4096)))

/-- KFIRST (R181): the index of the lowest set bit, or 2⁶⁴ − 1. -/
def execKfirst (t : Template) (s : State) : Out :=
  xvOp t s (fun _ h c j a =>
    let n := trailingZeros ((h.row j).mask c.t.a.toNat).toNat 4096
    .ok (a.setS c.t.d.toNat (if n = 4096 then 2 ^ 64 - 1 else n)))

/-! ## Reductions -/

/-- A rounding step of a reduction, with its draw (R61, R72): the value, flags and generator. -/
structure Red where
  v  : Exact
  fl : Flags
  sr : BitVec 32
  deriving DecidableEq, Repr

/-- One call of round in format F. -/
def redRound (f : FSpec) (mode : Nat) (sr : BitVec 32) (fl : Flags) (x : Exact × Flags) : Red :=
  let sr := srDraw mode sr
  let r := roundF f mode false sr.toNat x.1
  { v := f.decode r.1, fl := fl ||| x.2 ||| r.2, sr := sr }

/-- One level of the pairwise tree (R72). -/
def treeLevel (f : FSpec) (mode : Nat) : List Exact → Flags → BitVec 32 → List Exact × Flags × BitVec 32
  | x :: y :: rest, fl, sr =>
    let r := redRound f mode sr fl (addE (mode == 2) x y)
    let (xs, fl, sr) := treeLevel f mode rest r.fl r.sr
    (r.v :: xs, fl, sr)
  | xs, fl, sr => (xs, fl, sr)

/-- VREDSUM's tree (R72); the fuel bounds the levels. -/
def treeSum (f : FSpec) (mode : Nat) : Nat → List Exact → Flags → BitVec 32 → Red
  | 0, xs, fl, sr => redRound f mode sr fl (xs.headD (zeroOf false), 0)
  | k + 1, xs, fl, sr =>
    match xs with
    | [] => { v := zeroOf false, fl := fl, sr := sr }
    | [x] => redRound f mode sr fl (x, 0)
    | _ =>
      let (ys, fl, sr) := treeLevel f mode xs fl sr
      treeSum f mode k ys fl sr

/-- VREDSUMO's order (R72). -/
def orderedSum (f : FSpec) (mode : Nat) (xs : List Exact) (sr : BitVec 32) : Red :=
  match xs with
  | [] => { v := zeroOf false, fl := 0, sr := sr }
  | x :: xs =>
    xs.foldl (fun (r : Red) y => redRound f mode r.sr r.fl (addE (mode == 2) r.v y)) (redRound f mode sr 0 (x, 0))

/-- VREDMAX and VREDMIN (R72, R175): NaN where any is NaN, +0 where none is active; one draw for each active
element (R61), the result taking the first (log 16). -/
def extreme (smaller : Bool) (f : FSpec) (mode : Nat) (xs : List Exact) (sr : BitVec 32) : Red :=
  match xs with
  | [] => { v := zeroOf false, fl := 0, sr := sr }
  | x :: ys =>
    let best := ys.foldl (pickE smaller) x
    let r := redRound f mode sr 0 (best, 0)
    { r with sr := ys.foldl (fun s _ => srDraw mode s) r.sr }

/-- The four reductions. -/
inductive RedOp where
  | sum | sumOrdered | max | min
  deriving DecidableEq, Repr

/-- A reduction in a row (R175): only register sector 0 of D is written. Where its format cannot be known, VREDMAX and
VREDMIN take the draws of their active elements all the same (R61), and the sums, which then round nothing, take none. -/
def redRow (op : RedOp) (s : State) : RowFn := fun h c j a => do
  let src := h.row j
  let v := c.t.a.toNat
  let g := c.rowCw (namedCw c.t.cw) ((c.vlSectors h).map (fun x => (x, src.vec v x)))
  let xs := (sectorsOf h).filter (fun x => c.inRange g x)
  let os ← openSeq c (chainCheck (s.prtOf h) (· == fE2m1) (namedFmt c.t.fmt) (namedCw c.t.cw)) (none, none)
    (xs.map (fun x => src.vec v x))
  let (tg, fl) ← resultTarget (s.prtOf h) .any (namedFmt c.t.fmt) (namedCw c.t.cw) c.vlcw os
  match tg with
  | none =>
    let w ← sharedCw (namedCw c.t.cw) c.vlcw os
    let live := ((xs.flatMap (fun x => c.acts src w x)).filter id).length
    return { row := a.row.setVec c.t.d.toNat 0 zeroSector, fl := a.fl ||| fl,
             sr := srDraws c.mode (if op == .max || op == .min then live else 0) a.sr }
  | some t =>
    if t.fmt == fE2m1 then throw .forbiddenFormatPair
    let vlb := vlBits c.vl c.vlcw
    let n := elemCount t.cw
    let act := xs.flatMap (fun x => c.acts src t.cw x)
    let inside := xs.flatMap (fun x => (List.range n).map (fun i => inVl vlb t.cw (x * n + i)))
    let vals := ((os.flatMap (fun o => o.values t.cw)).zip (act.zip inside)).filter (fun y => y.2.2)
    let summed := vals.map (fun y => if y.2.1 then y.1 else zeroOf false)
    let live := (vals.filter (fun y => y.2.1)).map (·.1)
    let r : Nat × Flags × BitVec 32 :=
      if fmtInt t.fmt then
        let x : Int := match op with
          | .sum | .sumOrdered => summed.foldl (fun acc v => acc + intOf v) 0
          | .max => intOf (match live with | [] => zeroOf false | y :: ys => ys.foldl (pickE false) y)
          | .min => intOf (match live with | [] => zeroOf false | y :: ys => ys.foldl (pickE true) y)
        -- sums saturate (R175); an extreme that does not fit a named format wraps (R154)
        let (q, f) := fitInt (fmtWidth t.fmt) (fmtSigned t.fmt) (op == .sum || op == .sumOrdered) x
        (q, f, a.sr)
      else
        let f := fspec t.fmt
        let r := match op with
          | .sum => treeSum f c.mode 13 summed 0 a.sr
          | .sumOrdered => orderedSum f c.mode summed a.sr
          | .max => extreme false f c.mode live a.sr
          | .min => extreme true f c.mode live a.sr
        ((roundF f 0 false 0 r.v).1, r.fl, r.sr)
    let out : Sector := { tag := mkTag clsTyped t.fmt t.cw 0, bmeta := 0, data := packSlots (cwBits t.cw) [r.1] }
    return { row := a.row.setVec c.t.d.toNat 0 out, sr := r.2.2, fl := a.fl ||| fl ||| r.2.1 }

/-- VREDSUM (R72, R175). -/
def execVredsum (t : Template) (s : State) : Out := xvOp t s (redRow .sum)
/-- VREDSUMO (R72, R175). -/
def execVredsumo (t : Template) (s : State) : Out := xvOp t s (redRow .sumOrdered)
/-- VREDMAX (R72, R175). -/
def execVredmax (t : Template) (s : State) : Out := xvOp t s (redRow .max)
/-- VREDMIN (R72, R175). -/
def execVredmin (t : Template) (s : State) : Out := xvOp t s (redRow .min)

/-! ## Conversion and quantisation -/

/-- The sector exponent of VCVT and VQNT, where MOD[4] names one (R176, R177). -/
def namedSexp (c : Command) : Option Int :=
  if c.t.mod.getLsbD 4 then some (c.t.imm.extractLsb' 0 8).toInt else none

/-- The container checks of VCVT in a source sector, then that of its result tag (R157, R176). -/
def cvtCheck (f : BitVec 5) (w : BitVec 3) (t : Int) (st : Option (BitVec 5) × Option (BitVec 3)) (o : Opened) :
    Except Cause (Option (BitVec 5) × Option (BitVec 3)) := do
  if !o.zero && (st.2.any (· != o.cw) || (f == fE2m1 && w != o.cw)) then throw .containerMismatch
  if !fmtFits f w then throw .containerMismatch
  if fmtInt f && t != 0 then throw .malformedTag
  return if o.zero then st else (none, some o.cw)

/-- VCVT in a row (R176). -/
def cvtRow : RowFn := fun h c j a => do
  let src := h.row j
  let v := c.t.a.toNat
  let g := c.rowCw none ((c.vlSectors h).map (fun x => (x, src.vec v x)))
  let xs := (sectorsOf h).filter (fun x => c.inRange g x)
  let f := c.t.fmt
  let w := c.t.cw
  let t := (namedSexp c).getD 0
  let os ← openSeq c (cvtCheck f w t) (none, none) (xs.map (fun x => src.vec v x))
  let ca ← sharedCw none c.vlcw os
  if f == fE2m1 && w != ca && !xs.isEmpty then throw .containerMismatch
  let na := elemCount ca
  let n := elemCount w
  let vals := xs.zip os |>.flatMap (fun y => ((y.2.values ca).zip (c.acts src ca y.1)).zipIdx.map (fun z =>
    (y.1 * na + z.2, z.1.1, z.1.2, fitFrom (fmtInt y.2.fmt || y.2.zero))))
  return (sectorsOf h).foldl (fun (a : Acc) x =>
    let mine := vals.filter (fun y => y.1 / n == x)
    if mine.any (fun y => y.2.2.1) then
      let out := (List.range n).map (fun i =>
        match mine.find? (fun y => y.1 == x * n + i) with
        | some y => (y.2.1, y.2.2.1, y.2.2.2)
        | none => (zeroOf false, false, .conv))
      let enc := encodeEach f w (some t) c.mode c.satf a.sr out
      { row := a.row.setVec c.t.d.toNat x enc.sector, sr := enc.sr, fl := a.fl ||| enc.flags }
    else a) a

/-- VCVT (R176). -/
def execVcvt (t : Template) (s : State) : Out := xvOp t s (fun _ => cvtRow)

/-- VQNT (R177): E2M1B in A's container, at the named exponent or under AUTO. -/
def execVqnt (t : Template) (s : State) : Out :=
  elemOp t s (fun c =>
    { kind := .floatOnly, srcs := srcA c, named := true, fixed := some fE2m1, mode := 0, satf := false, fit := .wrap,
      texp := namedSexp c, f := fun _ v => (arg v 0, 0) })

/-! ## Moves -/

/-- VMOV in a sector (R185). Of a sector with an inactive element the active elements are written as typed elements: their
padding becomes zero (R36), except under a PLAIN tag, which names no format, where the container stays as it is
(DESIGN CHOICE, log 50). -/
def movSector (c : Command) (src : RowRegs) (x : Nat) (a : Acc) : Except Cause Acc := do
  let y := src.vec c.t.a.toNat x
  let w := guessCw c none [y]
  if !c.inRange w x then return a
  let act := c.acts src w x
  if act.all id then return { a with row := a.row.setVec c.t.d.toNat x y }
  let os ← openAll c [y]
  match os with
  | [o] =>
    let v := if o.zero then w else o.cw
    let codes := if o.zero || tagCls y.tag == clsPlain then secSlots (secVisible y) v else o.codes
    let slots := codes.zip (c.acts src v x) |>.map (fun z => if z.2 then z.1 else 0)
    return { a with row := a.row.setVec c.t.d.toNat x { secVisible y with data := packSlots (cwBits v) slots } }
  | _ => return a

/-- VMOV (R185). -/
def execVmov (t : Template) (s : State) : Out :=
  xvOp t s (fun _ h c j a => runSectors (movSector c (h.row j)) (sectorsOf h) a)

end Sys2Proof.Machine
end

