-- ==== Sys2Proof/Machine/Access.lean ====
section
/-! DEFINITION. The LD engine's instructions, and what the LD and ST engines share (spec/09_access.md R186 to R210;
spec/18_queue.md R330, R331, R334). -/

namespace Sys2Proof.Machine

/-! ## Commands that progress unit by unit (R188) -/

/-- What one unit of a command makes: it waits; it is stopped; the command is stopped at unit k of a row, from which it
goes on; or it has taken effect. -/
inductive UnitRes where
  | wait
  | stop (x : Stop)
  | back (c : Command) (x : Stop) (k : Nat)
  | ok (s : State) (c : Command)
  deriving DecidableEq, Repr

/-- A command that waits after its issue: it stands as issued. -/
def hold (s : State) (c : Command) : Turn := if c.issued then .wait else .more s c

/-- The first failure of a check over a list. -/
def checkAll {α : Type} (f : α → Except Stop Unit) : List α → Except Stop Unit
  | [] => .ok ()
  | x :: xs =>
    match f x with
    | .error e => .error e
    | .ok () => checkAll f xs

/-- An address touched in a row (R266). -/
def touchRow (ts : List Touched) (row : Nat) (a : Dword) : List Touched :=
  if ts.any (fun t => t.row == row) then ts.map (fun t => if t.row == row then { t with last := a } else t)
  else ts ++ [{ row := row, first := a, last := a, mpop := 0 }]

/-- The trace entries of a command's rows, with the active elements that the completing command counts (R266). -/
def traceRows (h : Hart) (c : Command) : List Touched :=
  (c.rows h).map (fun j =>
    let t := (c.touched.find? (fun t => t.row == j)).getD { row := j, first := 0, last := 0, mpop := 0 }
    { t with mpop := h.activeCount c j })

/-- The units that a command has done in a row: each row goes on by itself (R91, R188). -/
def Command.doneOf (c : Command) (j : Nat) : Nat := c.rowDone.getD j 0

/-- The units of a row set. -/
def Command.setDone (c : Command) (h : Hart) (j n : Nat) : Command :=
  { c with rowDone := h.allRows.map (fun i => if i = j then n else c.doneOf i) }

/-- The first row, in ascending order, with a unit left that does not wait, and what that unit makes. Where the rows go on
one after the other (`serial`), only the first row with units left is tried. -/
def nextUnit (s : State) (c : Command) (count : Nat → Nat) (serial : Bool)
    (unit : State → Command → Nat → Nat → UnitRes) : List Nat → Option (Nat × UnitRes)
  | [] => none
  | j :: js =>
    if count j ≤ c.doneOf j then nextUnit s c count serial unit js
    else
      match unit s c j (c.doneOf j) with
      | .wait => if serial then none else nextUnit s c count serial unit js
      | r => some (j, r)

/-- The row that a stop names. -/
def Stop.rowOf : Stop → Nat
  | .cause _ row _ => row
  | .absent row _ _ => row
  | .held => 0

/-- One turn of a command of `count` units in each of its rows: the checks at issue, then one unit of one row, whose
addresses for the trace come from `touch`. A stop at unit k of a row leaves the units before it in effect and k in the
status word (R188). -/
def unitTurn (s : State) (h : Hart) (c : Command) (rows : List Nat) (count : Command → Nat → Nat)
    (check : Except Stop Command) (touch : Command → Nat → Nat → List Dword) (serial : Bool)
    (unit : State → Command → Nat → Nat → UnitRes) : Turn :=
  match (if c.issued then .ok c else check) with
  | .error x => .stop s c x (BitVec.ofNat 32 (c.doneOf x.rowOf)) (decide (c.doneOf x.rowOf ≠ 0))
  | .ok c =>
    let left := fun (c : Command) => rows.any (fun j => decide (c.doneOf j < count c j))
    let fin := fun (s : State) (c : Command) =>
      Turn.ran s c { Completion.plain c.flags with touched := traceRows h c }
    if !left c then fin s c
    else
      match nextUnit s c (count c) serial unit rows with
      | none | some (_, .wait) => hold s c
      | some (j, .stop x) => .stop s { c with touched := [] } x (BitVec.ofNat 32 (c.doneOf j)) true
      | some (_, .back c x k) => .stop s { c with touched := [] } x (BitVec.ofNat 32 k) true
      | some (j, .ok s d) =>
        let d := { d.setDone h j (c.doneOf j + 1) with
          touched := (touch c j (c.doneOf j)).foldl (fun ts a => touchRow ts j a) d.touched }
        if left d then .more s d else fin s d

/-! ## Operands and their checks -/

/-- The sectors of a command in its rows: how many, where, and whether in the scratchpad (R186). -/
structure Sectors where
  spad  : Bool
  count : Nat → Nat
  addr  : Nat → Nat → Dword

/-- The strided virtual address of an operand in a row (R186). -/
def Command.va (c : Command) (x : Dword) (j : Nat) : Dword := x + BitVec.ofNat 64 j * c.stride

/-- The limit of counts and of scratchpad offsets (R186, R187). -/
def spadLimit : Nat := 2 ^ 24

/-- A run of `n` sectors from a scratchpad offset lies in the scratchpad, at a multiple of 256 (R186, R193). The rule of
a destination concerns its offset, that of a source only the sectors that it touches (R187). -/
def spadRun (s : State) (h : Hart) (j : Nat) (base : Dword) (n : Nat) (write : Bool) : Except Stop Unit :=
  let d := base.toNat
  if spadLimit ≤ d then .error (.cause .reservedField j none)
  else if d % 256 ≠ 0 && (write || decide (n ≠ 0)) then .error (.cause .misaligned j (some base))
  else if spadLimit < d + 256 * n then .error (.cause .reservedField j none)
  else if write && (List.range n).any (fun k => s.clobbers h.ctx (spadKey (h.coreOf j) (d + 256 * k) / 256)) then
    .error (.cause .tapeClobber j (some base))
  else .ok ()

/-- The checks at issue of a row's sectors (R187). -/
def Sectors.check (x : Sectors) (s : State) (h : Hart) (p : Perm) (j : Nat) : Except Stop Unit :=
  if x.spad then spadRun s h j (x.addr j 0) (x.count j) p.writes
  else
    checkAll (fun k => (s.issueCheck h j p (x.addr j k) 256 256).map (fun _ => ())) (List.range (x.count j))

/-- Every row passes a check in ascending order, the command standing as it is. -/
def checkRowsOf (c : Command) (rows : List Nat) (f : Nat → Except Stop Unit) : Except Stop Command :=
  (checkAll f rows).map (fun _ => c)

/-- A run-time count above 2²⁴ (R187). -/
def countCheck (j n : Nat) : Except Stop Unit := if spadLimit < n then .error (.cause .reservedField j none) else .ok ()

/-- The hart's slot is the queue's producer or consumer and its group owns it (R331). -/
def queueCheck (s : State) (h : Hart) (q j : Nat) (push : Bool) : Except Stop Unit :=
  let x := (s.core (h.coreOf j)).queue q
  if x.owner == some h.group && decide ((if push then x.prod else x.cons) = h.slot) then .ok ()
  else .error (.cause .queueSlotMismatch j none)

/-- The offsets of AGATH and SSCAT in a row (R194): the active elements of the integer register vb. -/
def rowOffsets (h : Hart) (c : Command) (j : Nat) : Except Cause (List Int) := do
  let src := h.row j
  let v := c.t.b.toNat
  let parts ← (sectorsOf h).mapM (fun x => do
    let y := src.vec v x
    let w := guessCw c none [y]
    if !c.inRange w x then return []
    let os ← openAll c [y]
    match os with
    | o :: _ =>
      if !o.zero && (tagCls y.tag ≠ clsTyped || !fmtInt o.fmt) then throw .forbiddenFormatPair
      return (((o.values w).zip (c.acts src w x)).filter (fun e => e.2)).map (fun e => intOf e.1)
    | [] => return [])
  return parts.flatten

/-- The offsets of every row of the span, those of the active rows read. -/
def readOffsets (h : Hart) (c : Command) (rows : List Nat) : List Nat → Except Stop (List (List Int))
  | [] => .ok []
  | j :: js =>
    match (if rows.contains j then rowOffsets h c j else .ok []) with
    | .error k => .error (.cause k j none)
    | .ok xs => (readOffsets h c rows js).map (fun r => xs :: r)

/-- The command with its offsets, read at its first issue. -/
def withOffsets (h : Hart) (c : Command) (rows : List Nat) : Except Stop Command :=
  if c.offs.isEmpty then (readOffsets h c rows h.allRows).map (fun o => { c with offs := o }) else .ok c

/-! ## Destinations of the streaming loads (R193) -/

/-- The destination is scratchpad. -/
def Command.toSpad (c : Command) : Bool := c.t.mod.getLsbD 0

/-- The check of a row's destination for `n` sectors. -/
def destCheck (s : State) (h : Hart) (c : Command) (n : Nat → Nat) (j : Nat) : Except Stop Unit :=
  if c.toSpad then spadRun s h j (c.capt j).d (n j) true else queueCheck s h c.t.d.toNat j true

/-- A strip entered at the tail of a queue. -/
def State.push (s : State) (core q : Nat) (x : Sector) : State :=
  s.modCore core (fun c => let r := c.queue q; c.setQueue q { r with strips := r.strips ++ [x] })

/-- A strip taken from the head of a queue. -/
def State.pop (s : State) (core q : Nat) : State :=
  s.modCore core (fun c => let r := c.queue q; c.setQueue q { r with strips := r.strips.drop 1 })

/-- A push waits while the queue holds 64 strips (R331). -/
def State.hasRoom (s : State) (core q : Nat) : Bool := decide (((s.core core).queue q).strips.length < 64)

/-- A whole sector written at a scratchpad offset of a row's core. -/
def State.putSpad (s : State) (h : Hart) (row off : Nat) (x : Sector) : State :=
  s.putSector h row (spadWindow + off) { key := spadKey (h.coreOf row) off, xf := .plain } x

/-- Sector k delivered to a row's destination. -/
def deliver (s : State) (h : Hart) (c : Command) (j k : Nat) (x : Sector) : State :=
  if c.toSpad then s.putSpad h j ((c.capt j).d.toNat + 256 * k) x else s.push (h.coreOf j) c.t.d.toNat x

/-- A row's destination can take a sector. -/
def destRoom (s : State) (h : Hart) (c : Command) (j : Nat) : Bool := c.toSpad || s.hasRoom (h.coreOf j) c.t.d.toNat

/-! ## Streaming loads (R192 to R194) -/

/-- A source sector read verbatim. -/
def readVerbatim (s : State) (h : Hart) (x : Sectors) (j k : Nat) : Except Stop (State × Sector) :=
  if x.spad then .ok (s, s.readSector { key := spadKey (h.coreOf j) ((x.addr j k).toNat % spadLimit), xf := .plain })
  else
    match s.unitLoc h j .r (x.addr j k) with
    | .error e => .error e
    | .ok (s, _, l) => .ok (s, s.readSector l)

/-- The DPA of a source sector. -/
def Sectors.dpa (x : Sectors) (s : State) (h : Hart) (j k : Nat) : Option Nat :=
  if x.spad then some (spadWindow + (x.addr j k).toNat % spadLimit)
  else
    match translate (s.ktt h.group) .r (x.addr j k).toNat with
    | .ok d => some (s.localDpa d)
    | .error _ => none

/-- A source sector that the command has read ahead of its turn. -/
def Command.fetchedAt (c : Command) (j k : Nat) : Option Sector :=
  (c.fetched.find? (fun f => f.1 == j && f.2.1 == k)).map (fun f => f.2.2)

/-- Source sector k of a row: as it was read ahead, or read now. -/
def Command.readUnit (c : Command) (s : State) (h : Hart) (x : Sectors) (j k : Nat) : Except Stop (State × Sector) :=
  match c.fetchedAt j k with
  | some y => .ok (s, y)
  | none => readVerbatim s h x j k

/-- A turn in which an issued streaming load reads a sector ahead of its turn: unit `unit` of row `sub`, once none before it
in its order slice is still to be read (R269). A read that is kept back or would stop is left to its turn. -/
def readAhead (s : State) (h : Hart) (c : Command) (rows : List Nat) (x : Sectors) : Turn :=
  let j := s.focus.sub
  let k := s.focus.unit
  let first := c.doneOf j
  if !c.issued || !rows.contains j || decide (k < first) || decide (x.count j ≤ k) || (c.fetchedAt j k).isSome then .wait
  else
    match x.dpa s h j k with
    | none => .wait
    | some d =>
      if (List.range (k - first)).any (fun i =>
          (c.fetchedAt j (first + i)).isNone && (x.dpa s h j (first + i)).any (fun e => orderSlice e == orderSlice d)) then .wait
      else
        match readVerbatim s h x j k with
        | .error _ => .wait
        | .ok (s, y) => .more s { c with fetched := c.fetched ++ [(j, k, y)] }

/-- A streaming load: `src` gives the sectors of the command once its offsets are read; `counts` are its run-time
counts in a row. Its unit in a row is one sector. -/
def streamLoad (t : Template) (s : State) (prep : Hart → Command → List Nat → Except Stop Command)
    (counts : Command → Nat → List Nat) (src : Command → Sectors) : Out :=
  engineOp .ld t s (fun s _ h c =>
    let rows := c.rows h
    let check := do
      let c ← prep h c rows
      let x := src c
      checkRowsOf c rows (fun j => do
        checkAll (countCheck j) (counts c j)
        x.check s h .r j
        destCheck s h c x.count j)
    if s.defer then readAhead s h c rows (src c)
    else
    unitTurn s h c rows (fun c => (src c).count) check (fun c j k => [(src c).addr j k]) false
      (fun s c j k =>
        if !destRoom s h c j then .wait
        else
          match c.readUnit s h (src c) j k with
          | .error e => .stop e
          | .ok (s, y) => .ok (deliver s h c j k y) c))

/-- A command with nothing to read before its checks. -/
def noPrep (_ : Hart) (c : Command) (_ : List Nat) : Except Stop Command := .ok c

/-- ALD's sectors: a + off + 256 k. -/
def aldSectors (c : Command) : Sectors :=
  { spad := false, count := fun j => (c.capt j).b.toNat,
    addr := fun j k => c.va ((c.capt j).a + c.t.imm.signExtend 64 + BitVec.ofNat 64 (256 * k)) j }

/-- ALD (R192). -/
def execAld (t : Template) (s : State) : Out :=
  streamLoad t s noPrep (fun c j => [(c.capt j).b.toNat]) aldSectors

/-- ALDS's sectors: a + k b. -/
def aldsSectors (c : Command) : Sectors :=
  { spad := false, count := fun j => (c.capt j).c.toNat,
    addr := fun j k => c.va ((c.capt j).a + BitVec.ofNat 64 k * (c.capt j).b) j }

/-- ALDS (R192). -/
def execAlds (t : Template) (s : State) : Out :=
  streamLoad t s noPrep (fun c j => [(c.capt j).c.toNat]) aldsSectors

/-- ALD2's sectors: a + r b + 256 s for row r of n sectors. -/
def ald2Sectors (c : Command) : Sectors :=
  let n := c.t.len.toNat
  { spad := false, count := fun j => (c.capt j).c.toNat * n,
    addr := fun j k => c.va ((c.capt j).a + BitVec.ofNat 64 (k / n) * (c.capt j).b + BitVec.ofNat 64 (256 * (k % n))) j }

/-- ALD2 (R192). -/
def execAld2 (t : Template) (s : State) : Out :=
  streamLoad t s noPrep (fun c j => [(c.capt j).c.toNat]) ald2Sectors

/-- AGATH's sectors: a + off(e). -/
def agathSectors (c : Command) : Sectors :=
  let offs := fun (j : Nat) => c.offs.getD j []
  { spad := false, count := fun j => (offs j).length,
    addr := fun j k => c.va ((c.capt j).a + BitVec.ofInt 64 ((offs j).getD k 0)) j }

/-- AGATH (R192, R194). -/
def execAgath (t : Template) (s : State) : Out := streamLoad t s withOffsets (fun _ _ => []) agathSectors

/-- ASPX's sectors: scratchpad offset a + 256 k. -/
def aspxSectors (c : Command) : Sectors :=
  { spad := true, count := fun j => (c.capt j).b.toNat, addr := fun j k => (c.capt j).a + BitVec.ofNat 64 (256 * k) }

/-- ASPX (R192). -/
def execAspx (t : Template) (s : State) : Out :=
  streamLoad t s noPrep (fun c j => [(c.capt j).b.toNat]) aspxSectors

/-! ## Sources read element by element -/

/-- The sector addresses that runs of bytes touch, ascending: each run is an address and a length. -/
def touchedSectors (runs : List (Dword × Nat)) : List Nat :=
  (runs.foldl (fun (m : Map Unit) r =>
    (List.range ((r.1.toNat % 256 + r.2 + 255) / 256)).foldl (fun m i =>
      put m ((r.1.toNat / 256 * 256 + 256 * i) % 2 ^ 64) ()) m) []).map (fun x => x.1)

/-- One source sector of a typed load, opened, with a check of its own. -/
def openSource (s : State) (h : Hart) (c : Command) (j : Nat) (ok : Opened → Option Cause) (a : Nat) :
    Except Stop (State × Opened) :=
  let va := BitVec.ofNat 64 a
  match s.unitLoc h j .r va with
  | .error e => .error e
  | .ok (s, _, l) =>
    match openScaled c.reader (s.readSector l) with
    | .error k => .error (.cause k j (some va))
    | .ok o =>
      match ok o with
      | some k => .error (.cause k j (some va))
      | none => .ok (s, o)

/-- The source sectors of a typed load, opened by address. -/
def openSources (s : State) (h : Hart) (c : Command) (j : Nat) (ok : Opened → Option Cause) :
    List Nat → Except Stop (State × Map Opened)
  | [] => .ok (s, [])
  | a :: as => do
    let (s, o) ← openSource s h c j ok a
    let (s, m) ← openSources s h c j ok as
    pure (s, put m a o)

/-- The sector and the element index of the element at a byte address with a further bit offset. -/
def elemPlace (w : Nat) (a : Dword) (bit : Nat) : Nat × Nat :=
  let b := a.toNat % 256 * 8 + bit
  ((a.toNat / 256 * 256 + b / 2048 * 256) % 2 ^ 64, b % 2048 / w)

/-- The code and the value of an element at a place. -/
def codeAt (m : Map (Bool × List Nat)) (p : Nat × Nat) : Nat :=
  match look m p.1 with
  | some (_, xs) => xs.getD p.2 0
  | none => 0

def valueAt (m : Map (List Exact)) (p : Nat × Nat) : Exact :=
  match look m p.1 with
  | some xs => xs.getD p.2 (zeroOf false)
  | none => zeroOf false

/-- The codes and values of opened sources at a container. -/
def codesOf (m : Map Opened) : Map (Bool × List Nat) := m.map (fun (x : Nat × Opened) => (x.1, (x.2.zero, x.2.codes)))
def valuesOf (w : BitVec 3) (m : Map Opened) : Map (List Exact) :=
  m.map (fun (x : Nat × Opened) => (x.1, x.2.values w))

/-! ## ALDT (R195) -/

/-- Bytes of an element of ALDT. -/
def aldtWidth (c : Command) : Nat := cwBits c.t.cw / 8

/-- The address of source row i. -/
def aldtRow (c : Command) (j i : Nat) : Dword := c.va ((c.capt j).a + BitVec.ofNat 64 i * (c.capt j).b) j

/-- The source sectors of ALDT in a row. -/
def aldtSources (c : Command) (j : Nat) : List Nat :=
  touchedSectors ((List.range c.t.len.toNat).map (fun i => (aldtRow c j i, c.t.imm.toNat * aldtWidth c)))

/-- Sectors of one output row, and of all. -/
def aldtPer (c : Command) : Nat := (c.t.len.toNat * aldtWidth c + 255) / 256
def aldtTotal (c : Command) : Nat := c.t.imm.toNat * aldtPer c

/-- ALDT's checks at issue in a row. -/
def aldtCheck (s : State) (h : Hart) (c : Command) (j : Nat) : Except Stop Unit := do
  let w := aldtWidth c
  let a := c.va (c.capt j).a j
  if a.toNat % w ≠ 0 || (c.capt j).b.toNat % w ≠ 0 then throw (.cause .misaligned j (some a))
  checkAll (fun x => (s.issueCheck h j .r (BitVec.ofNat 64 x) 256 256).map (fun _ => ())) (aldtSources c j)
  destCheck s h c (fun _ => aldtTotal c) j

/-- The check of one source sector of ALDT. -/
def aldtSource (c : Command) (o : Opened) : Option Cause :=
  if o.zero then none
  else if o.cw != c.t.cw then some .containerMismatch
  else if o.fmt == fE2m1 then some .forbiddenFormatPair
  else none

/-- The output sectors of ALDT in a row, with the flags: R169 over all source sectors. -/
def aldtOut (c : Command) (j : Nat) (m : Map Opened) : Except Cause (List Sector × Flags) := do
  let w := c.t.cw
  let n := elemCount w
  let os := m.map (fun (x : Nat × Opened) => x.2)
  let (tg, fl) ← resultTarget c.prt .any none (some w) c.vlcw os
  let place := fun (k e : Nat) =>
    let i := k % aldtPer c * n + e
    if i < c.t.len.toNat then some (elemPlace (cwBits w) (aldtRow c j i) (8 * (k / aldtPer c * aldtWidth c))) else none
  match tg with
  | none => return (List.replicate (aldtTotal c) zeroSector, fl)
  | some t =>
    let tag := (os.map (fun o => o.src.tag)).headD 0
    if os.all (fun o => tagCls o.src.tag == clsTyped && o.src.tag == tag) then
      let cs := codesOf m
      return ((List.range (aldtTotal c)).map (fun k =>
        ({ tag := tag, bmeta := 0, data := packSlots (cwBits w) ((List.range n).map (fun e =>
            match place k e with
            | some p => codeAt cs p
            | none => 0)) } : Sector)), fl)
    else
      let vs := valuesOf w m
      let out := (List.range (aldtTotal c)).map (fun k =>
        encodeEach t.fmt w (some 0) 0 false 0 ((List.range n).map (fun e =>
          match place k e with
          | some p => (valueAt vs p, true, fitFrom ((look m p.1).any (fun o => o.zero || fmtInt o.fmt)))
          | none => (zeroOf false, true, .fromInt))))
      return (out.map (·.sector), out.foldl (fun f o => f ||| o.flags) fl)

/-- All output sectors of ALDT, row after row, with the flags. -/
def aldtRead (h : Hart) (c : Command) : List Nat → State → Except Stop (State × List Sector × Flags)
  | [], s => .ok (s, [], 0)
  | j :: js, s =>
    match openSources s h c j (aldtSource c) (aldtSources c j) with
    | .error e => .error e
    | .ok (s, m) =>
      match aldtOut c j m with
      | .error k => .error (.cause k j (some (c.va (c.capt j).a j)))
      | .ok (xs, fl) =>
        match aldtRead h c js s with
        | .error e => .error e
        | .ok (s, ys, fl') => .ok (s, xs ++ ys, fl ||| fl')

/-- The place of a row among the active ones. -/
def placeOf (rows : List Nat) (j : Nat) : Nat := rows.findIdx (· == j)

/-- ALDT (R195): every source sector is read before an output sector moves. -/
def execAldt (t : Template) (s : State) : Out :=
  engineOp .ld t s (fun s _ h c =>
    let rows := c.rows h
    let total := aldtTotal c
    unitTurn s h c rows (fun _ _ => total) (checkRowsOf c rows (aldtCheck s h c))
      (fun c j _ =>
        let xs := aldtSources c j
        [BitVec.ofNat 64 (xs.headD 0), BitVec.ofNat 64 (xs.getLastD 0)]) false
      (fun s c j k =>
        match (if c.carried.isEmpty then aldtRead h c rows s else .ok (s, c.carried, c.flags)) with
        | .error e => .stop e
        | .ok (s, xs, fl) =>
          let c := { c with carried := xs, flags := fl }
          if !destRoom s h c j then .wait
          else .ok (deliver s h c j k (xs.getD (placeOf rows j * total + k) zeroSector)) c))

/-! ## ARING (R197) -/

/-- The checks that every ring instruction makes (R334). -/
def ringCheck (s : State) (h : Hart) (j g : Nat) : Option Cause :=
  let r := (s.core (h.coreOf j)).ring g
  if r.slots = 0 then some .ringDescInvalid
  else if r.owner ≠ h.group then some .ringNotOwner
  else none

/-- The container of ARING's target (R197). -/
def aringCw (c : Command) (r : Ring) : BitVec 3 :=
  if c.t.cw != 7 then c.t.cw
  else if r.ecw != 7 then r.ecw
  else
    match r.tileb with
    | 32 => 0 | 64 => 1 | 128 => 2 | _ => 3

/-- The format of ARING's target, where it is named. -/
def aringFmt (c : Command) (r : Ring) : Option (BitVec 5) :=
  if c.t.fmt != 0x1F then some c.t.fmt else if r.efmt != 0x1F then some r.efmt else none

/-- The row stride: b, or the row's bytes where b is s0. -/
def aringStride (c : Command) (j : Nat) (w : BitVec 3) : Dword :=
  if c.t.b == 0 then BitVec.ofNat 64 (8 * cwBits w) else (c.capt j).b

/-- The address of source row i. -/
def aringRow (c : Command) (j : Nat) (w : BitVec 3) (i : Nat) : Dword :=
  c.va ((c.capt j).a + BitVec.ofNat 64 i * aringStride c j w) j

/-- The source sectors of ARING in a row, in the command's order: ascending row and, within it, ascending address. -/
def aringSources (c : Command) (j : Nat) (w : BitVec 3) : List Nat :=
  dedupNat ((List.range 256).flatMap (fun i => touchedSectors [(aringRow c j w i, 8 * cwBits w)]))

/-- The scratchpad offset of sector q of a slot (R332). -/
def Ring.sectorOff (r : Ring) (slot q : Nat) : Nat := 256 * (r.sbase + slot * r.tileb + q)

/-- ARING's checks at issue in a row. -/
def aringCheck (s : State) (h : Hart) (c : Command) (j : Nat) : Except Stop Unit := do
  let g := c.t.d.toNat
  match ringCheck s h j g with
  | some k => throw (.cause k j none)
  | none =>
    let r := (s.core (h.coreOf j)).ring g
    let w := aringCw c r
    let a := c.va (c.capt j).a j
    let al := Nat.max 1 (cwBits w / 8)
    if a.toNat % al ≠ 0 || (aringStride c j w).toNat % al ≠ 0 then throw (.cause .misaligned j (some a))
    checkAll (fun x => (s.issueCheck h j .r (BitVec.ofNat 64 x) 256 256).map (fun _ => ())) (aringSources c j w)
    if (List.range r.tileb).any (fun q => s.clobbers h.ctx (spadKey (h.coreOf j) (r.sectorOff r.tail q) / 256)) then
      throw (.cause .tapeClobber j none)

/-- The places of a tile's elements in their sources, row after row. -/
def aringPlaces (c : Command) (j : Nat) (w : BitVec 3) : List (Nat × Nat) :=
  (List.range 256).flatMap (fun i => (List.range 64).map (fun e => elemPlace (cwBits w) (aringRow c j w i) (cwBits w * e)))

/-- The metadata of a tile row from the blocks of its sources that are not ZERO; where two of them differ the manual
gives none, and the row takes a free value (log 14). -/
def aringMeta (m : Map Opened) (free : Nat) (ps : List (Nat × Nat)) : Nat :=
  let xs := dedupNat (ps.filterMap (fun p =>
    match look m p.1 with
    | some o => if o.zero then none else some (secScale o.src (p.2 / 64) + 256 * secSpec o.src (p.2 / 64))
    | none => none))
  match xs with
  | [] => 0
  | [x] => x
  | _ => (Config.freeDword free).toNat % 2 ^ 16

/-- A list cut into pieces of n, at most k of them. -/
def piecesOf {α : Type} (n : Nat) : Nat → List α → List (List α)
  | 0, _ => []
  | k + 1, xs => xs.take n :: piecesOf n k (xs.drop n)

/-- A tile of verbatim codes under a tag. -/
def verbatimTile (s : State) (c : Command) (j : Nat) (w : BitVec 3) (tileb : Nat) (tag : BitVec 24) (m : Map Opened) :
    List Sector :=
  let ps := aringPlaces c j w
  let cs := codesOf m
  let n := elemCount w
  (piecesOf n tileb ps).zipIdx.map (fun y =>
    let md := if tagFmt tag == fE2m1 then
        (piecesOf 64 (n / 64) y.1).zipIdx.foldl (fun acc b =>
          acc + aringMeta m (s.draws + y.2 * (n / 64) + b.2) b.1 * 2 ^ (16 * b.2)) 0
      else 0
    { tag := tag, bmeta := BitVec.ofNat 128 md, data := packSlots (cwBits w) (y.1.map (codeAt cs)) })

/-- A tile encoded sector by sector at one exponent, the draws going on from one to the next; each element comes with
how it enters an integer format. -/
def encodeTile (f : BitVec 5) (w : BitVec 3) (t : Int) (mode : Nat) (satf : Bool) :
    List (List (Exact × IntFit)) → BitVec 32 → List Sector × Flags × BitVec 32
  | [], sr => ([], 0, sr)
  | xs :: rest, sr =>
    let e := encodeEach f w (some t) mode satf sr (xs.map (fun x => (x.1, true, x.2)))
    let (ys, fl, sr) := encodeTile f w t mode satf rest e.sr
    (e.sector :: ys, e.flags ||| fl, sr)

/-- The AUTO exponent of values in a format (R64, R76). -/
def autoExp (f : BitVec 5) (xs : List Exact) : Int :=
  if f == fE2m1 then autoE2m1 xs else if fmtInt f then 0 else autoFloat (fspec f) xs

/-- The tile that ARING makes in a row of its opened sources (R197); `m` holds them by address, `xs` their addresses in
order. A fault comes with the number of the sector that shows it, 0 where the whole tile does. -/
def aringTile (s : State) (c : Command) (j : Nat) (r : Ring) (xs : List Nat) (m : Map Opened) (sr : BitVec 32) :
    Except (Nat × Cause) (List Sector × Flags × BitVec 32) := do
  let w := aringCw c r
  if 8 * cwBits w ≠ r.tileb then throw (0, .ringMixed)
  match aringFmt c r with
  | none =>
    match (xs.filterMap (look m)).find? (fun o => !o.zero) with
    | none => return (List.replicate r.tileb zeroSector, 0, sr)
    | some f =>
      let odd := fun (a : Nat) => (look m a).any (fun o =>
        !o.zero && (o.fmt != f.fmt || o.cw != f.cw || o.sexp != f.sexp))
      match xs.findIdx? odd with
      | some k => throw (k, .ringMixed)
      | none => return (verbatimTile s c j w r.tileb (mkTag clsTyped f.fmt w f.sexp) m, 0, sr)
  | some f =>
    if !fmtFits f w then throw (0, .containerMismatch)
    let vs := valuesOf w m
    let ys := (aringPlaces c j w).map (valueAt vs)
    let fits := (aringPlaces c j w).map (fun p => fitFrom ((look m p.1).any (fun o => o.zero || fmtInt o.fmt)))
    return encodeTile f w (autoExp f ys) c.mode false (piecesOf (elemCount w) r.tileb (ys.zip fits)) sr

/-- The tail slot of a ring filled with a tile, whose source base and stride it holds (R215). -/
def fillSlot (s : State) (h : Hart) (c : Command) (j : Nat) (xs : List Sector) : State :=
  let core := h.coreOf j
  let g := c.t.d.toNat
  let r := (s.core core).ring g
  let s := xs.zipIdx.foldl (fun s y => s.putSpad h j (r.sectorOff r.tail y.2) y.1) s
  let r' := { r with full := r.full ||| BitVec.ofNat 32 (2 ^ r.tail), tail := (r.tail + 1) % r.slots,
                     srcBase := putD r.srcBase r.tail 0 (c.va (c.capt j).a j).toNat,
                     srcStride := putD r.srcStride r.tail 0 (aringStride c j (aringCw c r)).toNat }
  s.modCore core (fun k => k.setRing g r')

/-- The ring of ARING in a row, and the source sectors there. -/
def aringRing (s : State) (h : Hart) (c : Command) (j : Nat) : Ring := (s.core (h.coreOf j)).ring c.t.d.toNat
def aringList (s : State) (h : Hart) (c : Command) (j : Nat) : List Nat :=
  aringSources c j (aringCw c (aringRing s h c j))

/-- Where the sectors of a row begin among those that the command carries: the rows are read one after the other, since
no read waits. -/
def aringBase (s : State) (h : Hart) (c : Command) (rows : List Nat) (j : Nat) : Nat :=
  (rows.takeWhile (· != j)).foldl (fun n i => n + (aringList s h c i).length) 0

/-- The source sectors of a row as the command carries them, opened by address. -/
def carriedMap (c : Command) (xs : List Nat) (ys : List Sector) : Map Opened :=
  (xs.zip ys).foldl (fun m x =>
    match openTyped c.reader x.2 with
    | .ok o => put m x.1 o
    | .error _ => m) []

/-- A unit of ARING in a row: a source sector is read, with the checks of R153 and of its container; after the last one
the tile is made, and it goes into the tail slot once that is free. A fault of the tile drops the sectors read from the
one that shows it on, so that the command goes on there (R188). -/
def aringUnit (hid : Nat) (h : Hart) (rows : List Nat) (s : State) (c : Command) (j k : Nat) : UnitRes :=
  let r := aringRing s h c j
  let w := aringCw c r
  let xs := aringSources c j w
  if k < xs.length then
    match openSource s h c j (fun o => if !o.zero && o.cw != w then some .containerMismatch else none) (xs.getD k 0) with
    | .error e => .stop e
    | .ok (s, o) => .ok s { c with carried := c.carried ++ [o.src] }
  else
    let base := aringBase s h c rows j
    match aringTile s c j r xs (carriedMap c xs (c.carried.drop base)) h.csr.srseed with
    | .error (n, k) =>
      .back ({ c with carried := c.carried.take (base + n) }.setDone h j n) (.cause k j (some (c.va (c.capt j).a j))) n
    | .ok (ys, fl, sr) =>
      if r.full.getLsbD r.tail then .wait
      else
        let s := fillSlot { s with draws := s.draws + 256 } h c j ys
        .ok (s.modHart hid (fun g => { g with csr := { g.csr with srseed := sr } })) { c with flags := c.flags ||| fl }

/-- ARING (R188, R197): each row reads its source sectors in order and then writes its slot as a whole. In SR the rows
take their draws in ascending order (R61). -/
def execAring (t : Template) (s : State) : Out :=
  engineOp .ld t s (fun s hid h c =>
    let rows := c.rows h
    unitTurn s h c rows (fun c j => (aringList s h c j).length + 1) (checkRowsOf c rows (aringCheck s h c))
      (fun c j k => if k < (aringList s h c j).length then [BitVec.ofNat 64 ((aringList s h c j).getD k 0)] else [])
      (decide (c.mode = 5)) (aringUnit hid h rows))

/-! ## AQCFG and APREF (R198, R199) -/

/-- A command pushes or pops a strip queue: its engine, and the queue of its D or A field. -/
def Command.usesQueue (e : Eng) (c : Command) (q : Nat) : Bool :=
  match e, c.t.opc.toNat with
  | .ld, 0x01 | .ld, 0x02 | .ld, 0x03 | .ld, 0x04 | .ld, 0x05 => !c.toSpad && c.t.d.toNat == q
  | .ld, 0x07 => c.t.d.toNat == q
  | .st, 0x01 | .st, 0x02 | .st, 0x03 | .st, 0x04 | .st, 0x06 => c.t.a.toNat == q
  | .xv, 0x40 => c.t.a.toNat == q
  | .xv, 0x41 => c.t.d.toNat == q
  | _, _ => false

/-- Some hart has an issued command that is pushing or popping a queue of a core. -/
def State.queueBusy (s : State) (core q : Nat) : Bool :=
  s.harts.any (fun x => [Eng.ld, .xv, .st].any (fun e =>
    match x.2.queue e with
    | c :: _ => c.issued && c.done.isNone && c.usesQueue e q
        && (c.rows x.2).any (fun j => decide (x.2.coreOf j = core))
    | [] => false))

/-- A queue's registers as AQCFG writes them. -/
def StripQueue.config (q : StripQueue) (t : Template) : StripQueue :=
  { q with srcFmt := t.fmt, srcCw := t.cw, srcSexp := t.imm.extractLsb' 0 8, sfmt := t.imm.extractLsb' 8 5,
           smode := t.imm.extractLsb' 13 3, prod := (t.imm.extractLsb' 16 2).toNat,
           cons := (t.imm.extractLsb' 18 2).toNat }

/-- AQCFG (R198). -/
def execAqcfg (t : Template) (s : State) : Out :=
  engineOp .ld t s (fun s _ h c =>
    let rows := c.rows h
    let q := c.t.d.toNat
    match rows.find? (fun j => ((s.core (h.coreOf j)).queue q).owner != some h.group) with
    | some j => .stop s c (.cause .queueSlotMismatch j none) 0 false
    | none =>
      if rows.any (fun j => !((s.core (h.coreOf j)).queue q).strips.isEmpty || s.queueBusy (h.coreOf j) q) then hold s c
      else
        .ran (rows.foldl (fun s j => s.modCore (h.coreOf j) (fun k => k.setQueue q ((k.queue q).config c.t))) s) c
          { Completion.plain 0 with touched := traceRows h c })

/-- APREF (R199): a hint that changes no visible value. -/
def execApref (t : Template) (s : State) : Out :=
  engineOp .ld t s (fun s _ h c => .ran s c { Completion.plain 0 with touched := traceRows h c })

end Sys2Proof.Machine
end

