-- ==== Sys2Proof/Machine/Graph.lean ====
section
/-! DEFINITION. The progress of queues and launches that other steps bring about: queue states (spec/18_queue.md R325,
R329), the end of a started node and of a launch (spec/19_kernel.md R337, R338), and die placement of harts in service. -/

namespace Sys2Proof.Machine

/-! ## Queues -/

/-- The STATE code of a queue (R325). -/
def QState.code : QState → Nat
  | .disabled => 0 | .active => 1 | .paused => 2 | .draining => 3 | .error => 4

/-- The status word (R328). -/
def HwQueue.status (q : HwQueue) : Dword :=
  BitVec.ofNat 64 (q.head.toNat * 2 ^ 32 + q.err.toNat * 2 ^ 8 + q.state.code)

/-- The DPA of a queue's descriptor. -/
def State.queueDesc (s : State) (q : Nat) : Nat := s.regs.qtbase.toNat / 2 ^ 22 * 2 ^ 22 + 64 * q

/-- The RO fields of the descriptor written back (R325). -/
def State.writeBack (s : State) (q : Nat) (x : HwQueue) : State :=
  let d := s.queueDesc q
  ((s.sysWrite (d + 4) 1 x.state.code).sysWrite (d + 48) 4 x.tail.toNat).sysWrite (d + 52) 4 x.head.toNat

/-- A queue's live copy with the status word and the descriptor's RO fields written (R325, R328). A DISABLED queue is
not listed. -/
def State.setQueue (s : State) (q : Nat) (x : HwQueue) : State :=
  let s := (s.writeBack q x).sysWrite x.statw 8 x.status.toNat
  { s with wqueues := if x.state = .disabled then del s.wqueues q else put s.wqueues q x }

/-- A launch of the queue is admitted and not complete. -/
def State.queueRuns (s : State) (q : Nat) : Bool := s.launches.any (fun x => decide (x.2.queue = q))

/-- A DRAINING queue with no launch left becomes DISABLED (R329). -/
def State.drained (s : State) (q : Nat) : State :=
  match look s.wqueues q with
  | some x => if x.state = .draining && !s.queueRuns q then s.setQueue q { x with state := .disabled } else s
  | none => s

/-! ## Launches -/

/-- The failure word (R338). -/
def failureWord (code node : Nat) : Nat := 2 ^ 63 + code * 2 ^ 56 + node % 2 ^ 52

/-- A launch whose walk has ended and whose nodes have completed writes DONE (R328, R338). -/
def State.finishLaunch (s : State) (id : Nat) : State :=
  match look s.launches id with
  | none => s
  | some l =>
    if l.next.isSome || !l.started.isEmpty then s
    else
      let s := { s with launches := del s.launches id }
      let s := match l.fail with
        | none => if l.done = 0 then s else s.sysWrite l.done 8 l.doneVal.toNat
        | some (code, node) =>
          (if l.done = 0 then s else s.sysWrite l.done 8 (failureWord code node)).ctxMsi l.ctx
      s.drained l.queue

def State.modLaunch (s : State) (id : Nat) (f : Launch → Launch) : State := { s with launches := upd s.launches id f }

/-- A started node has completed (R337, R338). -/
def State.nodeDone (s : State) (id : Nat) (x : Started) : State :=
  (s.modLaunch id (fun l =>
    { l with started := l.started.filter (fun y => y != x),
             waitFor := if l.waitFor = some x then none else l.waitFor })).finishLaunch id

/-- A node fails: the walk stops there, and the first failure is the launch's (R338). -/
def State.nodeFail (s : State) (id code node : Nat) : State :=
  (s.modLaunch id (fun l => { l with next := none, waitFor := none, fail := some (l.fail.getD (code, node)) })).finishLaunch id

/-- The walk goes to a node, 0 ending it. -/
def State.nodeNext (s : State) (id next : Nat) : State :=
  (s.modLaunch id (fun l => { l with next := if next = 0 then none else some next })).finishLaunch id

/-- The virtual dies that the die map holds in service (R18). -/
def State.diesInService (s : State) : List Nat := (List.range 8).filter (fun v => (s.dieMap.getD v none).isSome)

/-! ## Pre-emption requests (R356) -/

/-- The launches of some harts. -/
def State.launchesOf (s : State) (hs : List Nat) : List Nat :=
  hs.filterMap (fun hid => (look s.harts hid).bind (fun h => (look s.groups h.group).map (fun g => g.launch)))

/-- A request raised, in place of an earlier one of the same requester: each hart asked whose group counts as placed has it
pending, its event flag is set, also where another requester has asked it before (R149), and the launches of all of them start no further node. -/
def State.raiseRequest (s : State) (who : Requester) (hs : List Nat) : State :=
  let old := (s.requests.filter (fun r => r.by_ == who)).flatMap (fun r => r.launches)
  let s := { s with requests := s.requests.filter (fun r => r.by_ != who)
               ++ [{ by_ := who, harts := hs, launches := dedupNat (old ++ s.launchesOf hs) }] }
  hs.foldl (fun s hid => s.modHart hid (fun h =>
    if h.placed then { h with preempt := some (h.preempt.getD s.now), event := true } else h)) s

/-- A launch is asked to start no further node (R356). -/
def State.launchHeld (s : State) (id : Nat) : Bool := s.requests.any (fun r => r.launches.contains id)

/-- A hart is asked to stay away from its cores. -/
def State.asked (s : State) (hid : Nat) : Bool := s.requests.any (fun r => r.harts.contains hid)

/-- A request lapses: the harts that no other one names are no longer asked. -/
def State.lapse (s : State) (who : Requester) : State :=
  if s.requests.any (fun r => r.by_ == who) then
    let s := { s with requests := s.requests.filter (fun r => r.by_ != who) }
    { s with harts := s.harts.map (fun (x : Nat × Hart) =>
        if x.2.preempt.isSome && !s.asked x.1 then (x.1, { x.2 with preempt := none }) else x) }
  else s

end Sys2Proof.Machine
end

