-- ==== Sys2Proof/Machine/Grants.lean ====
section
/-! DEFINITION. The clusters of a hart: who holds them, who waits for them, and what a hart gives up or takes again
(spec/20_group.md R347, R349 to R351, R353), and when a pre-emption deadline stands against it (R356, R358). -/

namespace Sys2Proof.Machine

/-- A die waiting to be remapped takes no new group (R28). -/
def State.dieFree (s : State) (v : Nat) : Bool :=
  !s.draining v

/-- The L1s of a core are fused: a group placed there asks for it (R191, R339). Where groups of one context on the core
differ, one that asks is enough (DESIGN CHOICE, log 42). -/
def State.fusedOn (s : State) (core : Nat) : Bool :=
  (s.placedOn core).any (fun x =>
    match look s.groups x.2.group with
    | some g => g.kernel.fusion
    | none => false)

/-- The fusion of some cores as the groups placed there have it. -/
def State.fuse (s : State) (cores : List Nat) : State :=
  cores.foldl (fun s c => s.modCore c (fun x => { x with fused := s.fusedOn c })) s

/-- The declaration of a hart whose group is gone: every minimum. -/
def Stage.least : Stage :=
  { entry := 0, inr := 0, outr := 0, inq := 0, outq := 0, xmin := 1, xmax := 1, amin := 0, amax := 0, tmin := 2, tmax := 2 }

/-- The stage declaration of a hart. -/
def State.hartStage (s : State) (h : Hart) : Stage :=
  match look s.groups h.group with
  | some g => g.kernel.stages.getD h.stage Stage.least
  | none => Stage.least

/-! ## Grants (R350, R351) -/

/-- A ring is pressed: at least three quarters of its slots are full. -/
def Ring.pressed (r : Ring) : Bool := decide (3 * r.slots ≤ 4 * (bitsSet 32 r.full.toNat).length)

/-- A strip queue is pressed. -/
def StripQueue.pressed (q : StripQueue) : Bool := decide (48 ≤ q.strips.length)

/-- Some ring or queue of the masks is pressed on a core of the hart. -/
def State.pressure (s : State) (h : Hart) (rings : BitVec 16) (queues : BitVec 8) : Bool :=
  h.cores.any (fun c =>
    (List.range 16).any (fun n => rings.getLsbD n && ((s.core c).ring n).pressed)
      || (List.range 8).any (fun n => queues.getLsbD n && ((s.core c).queue n).pressed))

/-- XCL after R350's table, `pool` clusters being free for the hart with its own. -/
def State.regrantX (s : State) (h : Hart) (pool : Nat) : Nat :=
  let t := s.hartStage h
  let x := h.csr.xcl
  let up := if 2 * x + h.csr.acl ≤ pool then 2 * x else x
  match s.pressure h t.inr t.inq, s.pressure h t.outr t.outq with
  | true, false => if x < t.xmax then up else x
  | false, true => if t.xmin < x then x / 2 else x
  | true, true => x
  | false, false => if x < h.launchX then up else x

/-- One step down of a grant, XCL first and then ACL, not below its minima (R351). -/
def stepDown (t : Stage) (g : Nat × Nat) : Nat × Nat :=
  if t.xmin < g.1 then (g.1 / 2, g.2)
  else if t.amin < g.2 then (g.1, if g.2 = 1 then 0 else g.2 / 2)
  else g

/-- What a hart waits for beside its own clusters leaves room: on each core of the waiter its need, the clusters of the
others, and the grant given of the hart that would give up. -/
def State.fitsWith (s : State) (hid : Nat) (h : Hart) (g : Nat × Nat) (w : Nat × Hart) (need : Nat) : Bool :=
  w.2.cores.all (fun c =>
    let others := (s.onCore c).filter (fun x => x.1 != w.1 && x.1 != hid)
    decide (need + (others.map (fun x => x.2.clusters)).sum + (if h.cores.contains c then g.1 + g.2 else 0) ≤ 16))

/-- Steps given up until the waiter fits (R351). -/
def State.giveUp (s : State) (hid : Nat) (h : Hart) (w : Nat × Hart) (need : Nat) : Nat → Nat × Nat → Nat × Nat
  | 0, g => g
  | k + 1, g => if s.fitsWith hid h g w need then g else s.giveUp hid h w need k (stepDown (s.hartStage h) g)

/-- The rings of a stage let an entry be taken on every core of the hart: input heads full, output tails empty
(R353). -/
def State.eligible (s : State) (h : Hart) : Bool :=
  let t := s.hartStage h
  h.cores.all (fun c => (List.range 16).all (fun n =>
    let r := (s.core c).ring n
    (!t.inr.getLsbD n || r.full.getLsbD r.head) && (!t.outr.getLsbD n || !r.full.getLsbD r.tail)))

/-- The page that a saved hart waits for has come (R356). -/
def State.pageCame (s : State) (h : Hart) : Bool :=
  match h.state with
  | .savedPage p => pitState (s.pitEntry p) != 0
  | _ => true

/-- A hart off its slot may be restored as far as requests and its page go. -/
def State.mayRestore (s : State) (hid : Nat) (h : Hart) : Bool :=
  (match h.state with
    | .parked | .saved | .savedPage _ | .ready => true
    | _ => false) && !s.asked hid && s.pageCame h

/-- An entry of the stage's table can be taken now (R353): a re-enqueued one with no dependence, or the next unused
one. -/
def State.nextEntry (s : State) (h : Hart) : Option Nat :=
  match look s.groups h.group with
  | none => none
  | some g =>
    let table := s.tableOf h
    match g.squashed.find? (fun x => x.table == table && x.deps == 0) with
    | some x => some x.entry
    | none => let n := lookD g.cursors table 0; if n < g.kernel.t then some n else none

/-- The harts that keep a hart from its cores: one that holds its slot, or those of another context whose group counts as
placed there (R357). -/
def State.blockers (s : State) (hid : Nat) (h : Hart) : List (Nat × Hart) :=
  s.harts.filter (fun x =>
    x.1 != hid && x.2.cores.any h.cores.contains
      && ((x.2.onSlot && x.2.slot == h.slot) || (x.2.placed && decide (x.2.ctx ≠ h.ctx))))

/-- The hart whose dies are waiting to be remapped, or out of service, waits (R320). -/
def State.coresServe (s : State) (h : Hart) : Bool :=
  h.cores.all (fun c => s.dieFree (c / 16) && s.diesInService.contains (c / 16))

/-- The clusters without which a hart waits (R350, R351): the minima of a sleeping hart with an eligible entry and of one
that left its slot at a resumption point, the grant of one saved whole-context; none for another hart. -/
def State.needs (s : State) (hid : Nat) (h : Hart) : Option Nat :=
  let least := (s.hartStage h).xmin + (s.hartStage h).amin
  if h.state = .sleeping then (if s.eligible h && (s.nextEntry h).isSome then some least else none)
  else if s.mayRestore hid h && s.coresServe h then
    match h.state with
    | .parked | .ready => some least
    | _ => some (h.csr.xcl + h.csr.acl)
  else none

/-- A hart waits for clusters: it needs more than are free on its cores (R351). -/
def State.short (s : State) (hid : Nat) (h : Hart) : Bool :=
  match s.needs hid h with
  | some n => decide (s.poolFor hid h < n)
  | none => false

/-- The clock period since which a hart waits for clusters; this one where it has just begun (R351). -/
def State.age (s : State) (h : Hart) : Nat := h.waitSince.getD s.now

/-- A waiter put in front of those that have waited no longer. -/
def State.insertWaiter (s : State) (w : Nat × Hart) : List (Nat × Hart) → List (Nat × Hart)
  | [] => [w]
  | x :: xs => if s.age w.2 ≤ s.age x.2 then w :: x :: xs else x :: s.insertWaiter w xs

/-- The harts that wait for clusters of a hart's cores, oldest first. -/
def State.clusterWaiters (s : State) (hid : Nat) (h : Hart) : List (Nat × Hart) :=
  (s.harts.filter (fun x => x.1 != hid && x.2.cores.any h.cores.contains && s.short x.1 x.2)).foldr s.insertWaiter []

/-- The grant of a hart that retires a resumption point: steps given up for the oldest that waits for clusters of its cores
(R351), or the table of R350. -/
def State.regrant (s : State) (hid : Nat) (h : Hart) : Hart :=
  match s.clusterWaiters hid h with
  | [] => { h with csr := { h.csr with xcl := s.regrantX h (s.poolFor hid h) } }
  | w :: _ =>
    let g := s.giveUp hid h w ((s.needs w.1 w.2).getD 0) 8 (h.csr.xcl, h.csr.acl)
    { h with csr := { h.csr with xcl := g.1, acl := g.2 } }

/-- An older waiter for clusters of the same cores comes first (R351): one that has waited longer and is still short, or
could be served now. One that has room and waits only for its slot holds nobody back. -/
def State.olderWaiter (s : State) (hid : Nat) (h : Hart) : Bool :=
  s.harts.any (fun x =>
    x.1 != hid && x.2.cores.any h.cores.contains && x.2.waitSince.isSome && decide (s.age x.2 < s.age h)
      && (s.needs x.1 x.2).isSome
      && (s.short x.1 x.2 || x.2.state == .sleeping || ((s.blockers x.1 x.2).isEmpty && s.coresServe x.2)))

/-- The grant that a hart needs again takes (R351): the previous one, adjusted by R350, or its minima where the pool
is short; none where even they do not fit. -/
def State.grantAgain (s : State) (hid : Nat) (h : Hart) : Option (Nat × Nat) :=
  let pool := s.poolFor hid h
  let t := s.hartStage h
  let x := s.regrantX h pool
  if x + h.csr.acl ≤ pool then some (x, h.csr.acl)
  else if t.xmin + t.amin ≤ pool then some (t.xmin, t.amin)
  else none

/-- The clusters that a sleeping hart needs before it runs again (R352): it is SLEEPING no more and has its grant, where
none that has waited longer comes first; none where it waits. Another hart has its clusters. -/
def State.wakeHart (s : State) (hid : Nat) (h : Hart) : Option State :=
  if h.state != .sleeping then some s
  else if s.olderWaiter hid h then none
  else
    (s.grantAgain hid h).map (fun g =>
      s.setHart hid { h with state := .running, wait := .none, waitSince := none, csr := { h.csr with xcl := g.1, acl := g.2 } })

/-- At the end of a clock period: a hart that has begun to wait for clusters notes the time; one that needs none any more has
ended its wait (R351). -/
def State.noteWait (s : State) (x : Nat × Hart) : Nat × Hart :=
  if s.short x.1 x.2 then (x.1, { x.2 with waitSince := some (s.age x.2) })
  else if (s.needs x.1 x.2).isNone && x.2.waitSince.isSome then (x.1, { x.2 with waitSince := none })
  else x

end Sys2Proof.Machine
end

