-- ==== Sys2Proof/Machine/Stores.lean ====
section
/-! DEFINITION. The ST engine's instructions: strip stores, SACC, STAG and FESET (spec/09_access.md R205, R207 to R209;
spec/04_arithmetic.md R73 to R76). -/

namespace Sys2Proof.Machine

/-- One sector made ready by a row: where it goes, the bits of it that are stored, what the sector there becomes, and the
flags of making it so. -/
structure Pending where
  row : Nat
  va  : Dword
  dpa : Nat
  loc : Loc
  x   : Sector
  lo  : Nat
  hi  : Nat
  sec : Sector
  fl  : Flags
  deriving DecidableEq, Repr

/-- Sectors stored, in order. -/
def State.putAll (s : State) (h : Hart) (xs : List Pending) : State :=
  xs.foldl (fun s p => s.putSector h p.row p.dpa p.loc p.sec) s

/-- A sector to be stored as an entry in flight. -/
def Pending.entry (p : Pending) (h : Hart) (c : Command) : StoreEntry :=
  { row := p.row, unit := some .st, cluster := h.storeCluster, addr := p.va, dpa := p.dpa, size := 256, val := 0,
    vec := some { sector := 0, x := p.x, lo := p.lo, hi := p.hi, whole := true, ldFmt := c.ldFmt, ldCw := c.ldCw,
                  ldSexp := c.ldSexp, prt := c.prt },
    order := c.order }

/-- Sectors that a turn of an ST command stores: at once, or, where its accesses are deferred, as stores in flight (R267,
R269). -/
def State.storeAll (s : State) (hid : Nat) (h : Hart) (c : Command) (xs : List Pending) : State × Command :=
  if s.defer then (s.modHart hid (fun g => { g with stores := g.stores ++ xs.map (fun p => p.entry h c) }), c)
  else (s.putAll h xs, { c with flags := xs.foldl (fun f p => f ||| p.fl) c.flags })

/-- A sector must wait for a store in flight, where it is not to be one itself. -/
def State.storeBarred (s : State) (h : Hart) (c : Command) (xs : List Pending) : Bool :=
  !s.defer && xs.any (fun p => h.engineWaits .st p.row p.dpa c.order)

/-- A stored sector's command belongs to a task that has stored (R253). -/
def State.markTask (s : State) (hid : Nat) : State := s.modHart hid Hart.markStored

/-! ## Strip stores (R205) -/

/-- The location of a destination sector. -/
def destLoc (s : State) (h : Hart) (x : Sectors) (j k : Nat) : Except Stop (State × Nat × Loc) :=
  if x.spad then
    let off := (x.addr j k).toNat % spadLimit
    .ok (s, spadWindow + off, { key := spadKey (h.coreOf j) off, xf := .plain })
  else s.unitLoc h j .w (x.addr j k)

/-- The head strip of a queue converted as it is popped (R73, R210). -/
def popStrip (c : Command) (q : StripQueue) (sr : BitVec 32) : Except Cause Encoded :=
  convertStrip q.sfmt (effMode c.rmode q.smode) { fmt := q.srcFmt, cw := q.srcCw, sexp := q.srcSexp } sr
    (q.strips.headD zeroSector)

/-- Strip k of a strip store in a row: it is popped, converted and stored. -/
def stripUnit (h : Hart) (c : Command) (x : Sectors) (j k : Nat) (s : State) :
    Except Stop (State × Pending × Encoded) :=
  let va := x.addr j k
  match destLoc s h x j k with
  | .error e => .error e
  | .ok (s, dpa, l) =>
    match popStrip c ((s.core (h.coreOf j)).queue c.t.a.toNat) h.csr.srseed with
    | .error e => .error (.cause e j (some va))
    | .ok e =>
      match fullStore s dpa l e.sector with
      | .error k => .error (.cause k j (some va))
      | .ok (y, fl) =>
        .ok (s, { row := j, va := va, dpa := dpa, loc := l, x := e.sector, lo := 0, hi := 2048, sec := y, fl := fl }, e)

/-- A command rounds its strips in SR in some row, so that its rows take their draws in ascending order (R61). -/
def popsInSr (s : State) (h : Hart) (c : Command) (rows : List Nat) : Bool :=
  rows.any (fun j => decide (effMode c.rmode ((s.core (h.coreOf j)).queue c.t.a.toNat).smode = 5))

/-- A strip store: `counts` are its run-time counts in a row. Its unit in a row is one strip. -/
def stripStore (t : Template) (s : State) (prep : Hart → Command → List Nat → Except Stop Command)
    (counts : Command → Nat → List Nat) (dst : Command → Sectors) : Out :=
  engineOp .st t s (fun s hid h c =>
    let rows := c.rows h
    let q := c.t.a.toNat
    let check := do
      let c ← prep h c rows
      let x := dst c
      checkRowsOf c rows (fun j => do
        checkAll (countCheck j) (counts c j)
        x.check s h .w j
        queueCheck s h q j false)
    unitTurn s h c rows (fun c => (dst c).count) check (fun c j k => [(dst c).addr j k]) (popsInSr s h c rows)
      (fun s c j k =>
        if ((s.core (h.coreOf j)).queue q).strips.isEmpty then .wait
        else
          match stripUnit h c (dst c) j k s with
          | .error e => .stop e
          | .ok (s, p, e) =>
            if s.storeBarred h c [p] then .wait
            else
              let (s, c) := s.storeAll hid h c [p]
              let s := s.pop (h.coreOf j) q
              let s := (s.modHart hid (fun g => { g with csr := { g.csr with srseed := e.sr } })).markTask hid
              .ok s { c with flags := c.flags ||| e.flags }))

/-- SST's sectors: d + 256 k. -/
def sstSectors (c : Command) : Sectors :=
  { spad := false, count := fun _ => c.t.len.toNat, addr := fun j k => c.va ((c.capt j).d + BitVec.ofNat 64 (256 * k)) j }

/-- SST (R205). -/
def execSst (t : Template) (s : State) : Out := stripStore t s noPrep (fun _ _ => []) sstSectors

/-- SSTS's sectors: d + k b. -/
def sstsSectors (c : Command) : Sectors :=
  { spad := false, count := fun _ => c.t.len.toNat,
    addr := fun j k => c.va ((c.capt j).d + BitVec.ofNat 64 k * (c.capt j).b) j }

/-- SSTS (R205). -/
def execSsts (t : Template) (s : State) : Out := stripStore t s noPrep (fun _ _ => []) sstsSectors

/-- SST2's sectors: d + r b + 256 s for row r of n sectors. -/
def sst2Sectors (c : Command) : Sectors :=
  let n := c.t.len.toNat
  { spad := false, count := fun j => (c.capt j).c.toNat * n,
    addr := fun j k => c.va ((c.capt j).d + BitVec.ofNat 64 (k / n) * (c.capt j).b + BitVec.ofNat 64 (256 * (k % n))) j }

/-- SST2 (R205). -/
def execSst2 (t : Template) (s : State) : Out :=
  stripStore t s noPrep (fun c j => [(c.capt j).c.toNat]) sst2Sectors

/-- SSCAT's sectors: d + off(e). -/
def sscatSectors (c : Command) : Sectors :=
  let offs := fun (j : Nat) => c.offs.getD j []
  { spad := false, count := fun j => (offs j).length,
    addr := fun j k => c.va ((c.capt j).d + BitVec.ofInt 64 ((offs j).getD k 0)) j }

/-- SSCAT (R194, R205). -/
def execSscat (t : Template) (s : State) : Out := stripStore t s withOffsets (fun _ _ => []) sscatSectors

/-- SSPX's sectors: scratchpad offset d + 256 k. -/
def sspxSectors (c : Command) : Sectors :=
  { spad := true, count := fun _ => c.t.len.toNat, addr := fun j k => (c.capt j).d + BitVec.ofNat 64 (256 * k) }

/-- SSPX (R205). -/
def execSspx (t : Template) (s : State) : Out := stripStore t s noPrep (fun _ _ => []) sspxSectors

/-! ## SACC (R207) -/

/-- The target of SACC: a format where one is named or the tile has one, and the container. -/
structure SaccTarget where
  fmt : Option (BitVec 5)
  cw  : BitVec 3
  deriving DecidableEq, Repr

/-- SACC's target for a tile's tag, or its fault. -/
def saccTarget (c : Command) (tile : BitVec 24) : Except Cause SaccTarget :=
  let zero := tagCls tile == 0
  let f := c.t.fmt
  if f == 0x1F then
    let w : BitVec 3 := if c.t.cw == 7 then 3 else c.t.cw
    if cwBits w < 32 then .error .containerMismatch
    else if zero then .ok ⟨none, w⟩
    else .ok ⟨some (tagFmt tile), w⟩
  else
    let w := if c.t.cw == 7 then smallestCw f else c.t.cw
    if !zero && fmtInt f != fmtInt (tagFmt tile) then .error .forbiddenFormatPair
    else if !fmtFits f w then .error .containerMismatch
    else .ok ⟨some f, w⟩

/-- Sectors of one row of 256 elements. -/
def saccPer (w : BitVec 3) : Nat := Nat.max 1 (cwBits w / 8)

/-- The address of the q-th sector piece of row k. -/
def saccAddr (c : Command) (j k q : Nat) : Dword :=
  c.va ((c.capt j).d + BitVec.ofNat 64 k * (c.capt j).b + BitVec.ofNat 64 (256 * q)) j

/-- SACC's checks at issue in a row. -/
def saccCheck (s : State) (h : Hart) (c : Command) (j : Nat) : Except Stop Unit := do
  match saccTarget c (s.tileTag (h.coreOf j) c.t.a.toNat) with
  | .error k => throw (.cause k j none)
  | .ok g =>
    let al := if g.cw == 0 then 128 else 256
    let d := c.va (c.capt j).d j
    if d.toNat % al ≠ 0 || (c.capt j).b.toNat % al ≠ 0 then throw (.cause .misaligned j (some d))
    checkAll (fun (x : Nat × Nat) => (s.issueCheck h j .w (saccAddr c j x.1 x.2) al al).map (fun _ => ()))
      ((List.range c.t.len.toNat).flatMap (fun k => (List.range (saccPer g.cw)).map (fun q => (k, q))))

/-- The incoming sector of some elements of a tile row: verbatim codes, or rounded under its own AUTO exponent. -/
def saccSector (c : Command) (tile : BitVec 24) (g : SaccTarget) (codes : List Nat) (sr : BitVec 32) : Encoded :=
  match g.fmt with
  | none => ⟨zeroSector, 0, sr⟩
  | some f =>
    if c.t.fmt == 0x1F then
      ⟨{ tag := mkTag clsTyped f g.cw 0, bmeta := 0, data := packSlots (cwBits g.cw) codes }, 0, sr⟩
    else
      let xs := codes.map (fun x => if tagCls tile == 0 then zeroOf false else decodeFmt (tagFmt tile) x)
      encodeSector f g.cw (some (autoExp f xs)) .sat c.mode c.satf sr (xs.map (fun x => (x, true)))

/-- One piece of a tile row stored: a whole sector, or half of one at container code 0. -/
def saccPiece (s : State) (h : Hart) (c : Command) (j k q : Nat) (tile : BitVec 24) (g : SaccTarget)
    (row : List Nat) (sr : BitVec 32) : Except Stop (State × Pending × Flags × BitVec 32) :=
  let va := saccAddr c j k q
  match s.unitLoc h j .w va with
  | .error e => .error e
  | .ok (s, dpa, l) =>
    let e := if g.cw == 0 then saccSector c tile g row sr
      else saccSector c tile g ((row.drop (q * elemCount g.cw)).take (elemCount g.cw)) sr
    let lo := if g.cw == 0 then va.toNat % 256 * 8 else 0
    let hi := if g.cw == 0 then lo + 1024 else 2048
    let x : Sector := { e.sector with data := e.sector.data <<< lo, bmeta := e.sector.bmeta <<< (lo / 16) }
    match (if g.cw == 0 then partStore s c.prt c.reader dpa l x lo hi else fullStore s dpa l x) with
    | .error e => .error (.cause e j (some va))
    | .ok (y, fl) =>
      .ok (s, { row := j, va := va, dpa := dpa, loc := l, x := x, lo := lo, hi := hi, sec := y, fl := fl }, e.flags, e.sr)

/-- The pieces of a tile row, in ascending order. -/
def saccPieces (h : Hart) (c : Command) (j k : Nat) (tile : BitVec 24) (g : SaccTarget) (row : List Nat) :
    List Nat → State → BitVec 32 → Except Stop (State × List Pending × Flags × BitVec 32)
  | [], s, sr => .ok (s, [], 0, sr)
  | q :: qs, s, sr =>
    match saccPiece s h c j k q tile g row sr with
    | .error e => .error e
    | .ok (s, p, fl, sr) =>
      match saccPieces h c j k tile g row qs s sr with
      | .error e => .error e
      | .ok (s, ps, fl', sr) => .ok (s, p :: ps, fl ||| fl', sr)

/-- Row k of the command in a die row. -/
def saccUnit (h : Hart) (c : Command) (j k : Nat) (s : State) :
    Except Stop (State × List Pending × Flags × BitVec 32) :=
  let core := h.coreOf j
  let a := c.t.a.toNat
  let tile := s.tileTag core a
  match saccTarget c tile with
  | .error e => .error (.cause e j none)
  | .ok g =>
    saccPieces h c j k tile g (s.tileRow core a (c.t.imm.toNat + k)) (List.range (saccPer g.cw)) s h.csr.srseed

/-- SACC (R207): its unit is one row of the tile. -/
def execSacc (t : Template) (s : State) : Out :=
  engineOp .st t s (fun s hid h c =>
    let rows := c.rows h
    if rows.any (fun j => s.tileHeld h.ctx (h.coreOf j) c.t.a.toNat) then .wait
    else
    let s := rows.foldl (fun s j => s.useTile h (h.coreOf j) c.t.a.toNat) s
    unitTurn s h c rows (fun c _ => c.t.len.toNat) (checkRowsOf c rows (saccCheck s h c))
      (fun c j k =>
        match saccTarget c (s.tileTag (h.coreOf j) c.t.a.toNat) with
        | .ok g => [saccAddr c j k 0, saccAddr c j k (saccPer g.cw - 1)]
        | .error _ => []) (decide (c.mode = 5))
      (fun s c j k =>
        match saccUnit h c j k s with
        | .error e => .stop e
        | .ok (s, ps, fl, sr) =>
          if s.storeBarred h c ps then .wait
          else
            let (s, c) := s.storeAll hid h c ps
            let s := s.modHart hid (fun g => { g with csr := { g.csr with srseed := sr } })
            .ok (s.markTask hid) { c with flags := c.flags ||| fl }))

/-! ## STAG and FESET (R208, R209) -/

/-- A command that rewrites n sectors from d in place: `make` gives what a sector becomes. -/
def retagStore (t : Template) (s : State) (pre : Command → Nat → Except Stop Unit)
    (store : State → Hart → Command → Nat → Nat → Loc → Except Cause State) : Out :=
  engineOp .st t s (fun s hid h c =>
    let rows := c.rows h
    unitTurn s h c rows (fun c => (sstSectors c).count)
      (checkRowsOf c rows (fun j => do
        pre c j
        (sstSectors c).check s h .w j))
      (fun c j k => [(sstSectors c).addr j k]) false
      (fun s c j k =>
        let va := (sstSectors c).addr j k
        match s.unitLoc h j .w va with
        | .error e => .stop e
        | .ok (s, dpa, l) =>
          if h.engineWaits .st j dpa c.order then .wait
          else
            match store s h c j dpa l with
            | .error e => .stop (.cause e j (some va))
            | .ok s => .ok (s.markTask hid) c))

/-- STAG's checks of the tag in a[23:0]. -/
def stagCheck (c : Command) (j : Nat) : Except Stop Unit :=
  let a := (c.capt j).a
  let t := a.extractLsb' 0 24
  if a.extractLsb' 24 40 != 0 then .error (.cause .reservedField j none)
  else if !tagOk t then .error (.cause .malformedTag j none)
  else if tagCls t = clsFempty || tagCls t = clsFfull then .error (.cause .reservedField j none)
  else .ok ()

/-- STAG (R208). -/
def execStag (t : Template) (s : State) : Out :=
  retagStore t s stagCheck (fun s h c j dpa l =>
    match storable dpa l (secRetag (s.readSector l) ((c.capt j).a.extractLsb' 0 24), 0) with
    | .error e => .error e
    | .ok (y, _) => .ok (s.putSector h j dpa l y))

/-- FESET (R209): .empty zeroes the cell and leaves its waiters, .full keeps its data and releases them. -/
def execFeset (t : Template) (s : State) : Out :=
  retagStore t s (fun _ _ => .ok ()) (fun s h c j dpa l =>
    if c.t.mod.getLsbD 0 then
      let x : Sector := { s.readSector l with tag := mkTag clsFfull 7 4 0, bmeta := 0 }
      .ok (s.putSector h j dpa l x)
    else
      .ok (s.storeSector h j dpa l { tag := mkTag clsFempty 7 4 0, bmeta := 0, data := 0 }))

end Sys2Proof.Machine
end

