-- ==== Sys2Proof/Machine/VectorMem.lean ====
section
/-! DEFINITION. VPOP, VPUSH, VLDR and VSTR, by which the XV engine meets queues and memory
(spec/09_access.md R200 to R204, R206). -/

namespace Sys2Proof.Machine

/-! ## Queues (R202) -/

/-- The first `n` strips of a queue converted as VPOP pops them, with flags and the generator. -/
def popStrips (c : Command) (q : StripQueue) : List Sector → BitVec 32 → Except Cause (List Sector × Flags × BitVec 32)
  | [], sr => .ok ([], 0, sr)
  | x :: xs, sr => do
    if q.sfmt == 0x1F || q.sfmt == 0 then
      match loadSectorFault x with
      | some k => throw k
      | none => pure ()
    let e ← convertStrip q.sfmt (effMode c.rmode q.smode) { fmt := q.srcFmt, cw := q.srcCw, sexp := q.srcSexp } sr x
    let (ys, fl, sr) ← popStrips c q xs e.sr
    pure (e.sector :: ys, e.flags ||| fl, sr)

/-- VPOP in the rows, in ascending order. -/
def popRows (s : State) (h : Hart) (c : Command) :
    List Nat → Hart → Flags → BitVec 32 → Except (Nat × Cause) (Hart × Flags × BitVec 32)
  | [], g, fl, sr => .ok (g, fl, sr)
  | j :: js, g, fl, sr =>
    let q := (s.core (h.coreOf j)).queue c.t.a.toNat
    match popStrips c q (q.strips.take h.csr.xcl) sr with
    | .error k => .error (j, k)
    | .ok (ys, fl', sr) =>
      let r := ys.zipIdx.foldl (fun (r : RowRegs) y => r.setVec c.t.d.toNat y.2 y.1) (g.row j)
      popRows s h c js (g.setRow j r) (fl ||| fl') sr

/-- VPOP (R202): XCL strips in one step, or none. -/
def execVpop (t : Template) (s : State) : Out :=
  engineOp .xv t s (fun s hid h c =>
    let rows := c.rows h
    let q := c.t.a.toNat
    match checkAll (fun j => queueCheck s h q j false) rows with
    | .error x => .stop s c x 0 false
    | .ok () =>
      if rows.any (fun j => decide (((s.core (h.coreOf j)).queue q).strips.length < h.csr.xcl)) then hold s c
      else
        match popRows s h c rows h 0 h.csr.srseed with
        | .error (j, k) => .stop s c (.cause k j none) 0 false
        | .ok (g, fl, sr) =>
          let s := rows.foldl (fun s j => (List.range h.csr.xcl).foldl (fun s _ => s.pop (h.coreOf j) q) s) s
          .ran (s.setHart hid { g with csr := { g.csr with srseed := sr } }) c
            { Completion.plain fl with touched := traceRows h c })

/-- VPUSH (R202): register sectors 0 to XCL − 1, verbatim, each waiting for room in its row. -/
def execVpush (t : Template) (s : State) : Out :=
  engineOp .xv t s (fun s _ h c =>
    let rows := c.rows h
    let q := c.t.d.toNat
    unitTurn s h c rows (fun _ _ => h.csr.xcl) (checkRowsOf c rows (fun j => queueCheck s h q j true))
      (fun _ _ _ => []) false
      (fun s c j k =>
        if !s.hasRoom (h.coreOf j) q then .wait
        else .ok (s.push (h.coreOf j) q ((h.row j).vec c.t.a.toNat k)) c))

/-! ## Addresses of register accesses (R200, R204) -/

/-- The address of register sector x in a row. -/
def vaSector (c : Command) (base : Dword) (j x : Nat) : Dword :=
  c.va (base + c.t.imm.signExtend 64 + BitVec.ofNat 64 (256 * x)) j

/-- The register sectors in range under the VL captured (R152, R200). -/
def vmSectors (h : Hart) (c : Command) : List Nat := (sectorsOf h).filter (fun x => c.inRange c.vlcw x)

/-- A register sector's access after its checks at issue: its memory sector, and where the address is no multiple of 256
the next one, by DPA. -/
structure VecAccess where
  row    : Nat
  sector : Nat
  va     : Dword
  dpa    : Nat
  next   : Option Nat
  deriving DecidableEq, Repr

/-- The checks of one register sector's access (R187, R204). -/
def vmCheck (s : State) (h : Hart) (p : Perm) (j x : Nat) (va : Dword) : Except Stop VecAccess := do
  let off := va.toNat % 256
  let d ← s.issueCheck h j p va (256 - off) 8
  if off = 0 then pure ⟨j, x, va, d, none⟩
  else
    let e ← s.issueCheck h j p (va + BitVec.ofNat 64 (256 - off)) off 8
    pure ⟨j, x, va, d, some e⟩

/-- The checks of the rows, for the register sectors that take part in each. -/
def vmRows (s : State) (h : Hart) (c : Command) (p : Perm) (base : Nat → Dword) (parts : Nat → List Nat) :
    List Nat → Except Stop (List VecAccess)
  | [] => .ok []
  | j :: js => do
    let xs ← (parts j).mapM (fun x => vmCheck s h p j x (vaSector c (base j) j x))
    let rest ← vmRows s h c p base parts js
    pure (xs ++ rest)

/-- Addresses touched by register sectors. -/
def vmTouch (xs : List VecAccess) : List Touched := xs.foldl (fun ts x => touchRow ts x.row x.va) []

/-! ## VLDR (R200, R201, R204) -/

/-- The entries of a VLDR from its checked accesses. -/
def vldrEntries (h : Hart) (c : Command) (due : Option Nat) (xs : List VecAccess) : List LoadEntry :=
  xs.map (fun y =>
    { row := y.row, dest := .vector c.t.d.toNat y.sector, addr := y.va, dpa := y.dpa, land := c.t.land.toNat,
      due := due, data := none, pc := c.pc, tix := c.tix, idx := h.curIdx 2, scalarPipe := false,
      join := y.next.map (fun d => (d, c.ldFmt, c.ldCw, c.ldSexp)), prt := c.prt, order := c.order })

/-- Entries read at their home slices, in order; the first fault stops. -/
def arriveAll (h : Hart) : List LoadEntry → State → Except Stop (State × List (LoadEntry × Sector × Flags))
  | [], s => .ok (s, [])
  | e :: es, s =>
    match s.arrive h e with
    | .error x => .error x
    | .ok (_, .fault k) => .error (.cause k e.row (some e.addr))
    | .ok (s, .data x fl) =>
      match arriveAll h es s with
      | .error x => .error x
      | .ok (s, ys) => .ok (s, (e, x, fl) :: ys)

/-- The register sectors of loads written, with their flags. -/
def Hart.landVecs (h : Hart) (ys : List (LoadEntry × Sector × Flags)) : Hart :=
  ys.foldl (fun g y => g.landReg y.1 y.2.1 0) h

/-- VLDR (R200): a timed one takes its Trivet entries and lands later. An interlocked one reads its sectors at once, when
no access in flight comes before them in lane-slice order, or, where the access is deferred, one by one as their data
arrive, and lands once they all have (R97, R267 to R272); its first fault leaves no effect. -/
def execVldr (t : Template) (s : State) : Out :=
  engineOp .xv t s (fun s hid h c =>
    let land := c.t.land.toNat
    match vmRows s h c .r (fun j => (c.capt j).a) (fun _ => vmSectors h c) (c.rows h) with
    | .error x => .stop s c x 0 false
    | .ok xs =>
      let c := { c with touched := vmTouch xs }
      let es := vldrEntries h c (if land ≠ 0 then some (s.hartCycle h + land) else none) xs
      let fly := Turn.ran (s.modHart hid (fun g => { g with loads := g.loads ++ es })) c
        { Completion.plain 0 with touched := traceRows h c }
      if land ≠ 0 then (if 64 < h.trivetUsed + es.length then .wait else fly)
      else if s.defer then fly
      else if es.any (fun e => h.ahead e.stream e.dpas e.order) then hold s c
      else
        match arriveAll h es s with
        | .error x => .stop s c x 0 false
        | .ok (s, ys) =>
          .ran (s.modHart hid (fun g => g.landVecs ys)) c
            { Completion.plain (ys.foldl (fun f y => f ||| y.2.2) 0) with touched := traceRows h c })

/-! ## VSTR (R204, R206) -/

/-- The container at which a register sector's elements are counted (R206). -/
def vstrCw (c : Command) (y : Sector) : BitVec 3 :=
  if tagCls y.tag = clsPlain then c.ldCw
  else if tagCls y.tag = clsZero && tagFmt y.tag == 0 then c.vlcw
  else tagCw y.tag

/-- The bits of register sector x that lie within VL, whole elements only; its first 2048 where all do. -/
def vstrBits (c : Command) (y : Sector) (x : Nat) : Nat :=
  let v := vlBits c.vl c.vlcw
  if (x + 1) * 2048 ≤ v then 2048
  else
    let w := cwBits (vstrCw c y)
    if w = 0 then 0 else Nat.min 2048 (v / w * w - x * 2048)

/-- A register sector that VL covers in part and whose tag is not well-formed, so that its elements cannot be counted. -/
def vstrBad (c : Command) (y : Sector) (x : Nat) : Bool :=
  decide (vlBits c.vl c.vlcw < (x + 1) * 2048) && (!tagOk y.tag || decide (4 < (vstrCw c y).toNat))

/-- The register sectors of a row that VSTR touches: those with a whole element in VL at their own container, and those
whose container is unknown (R206). -/
def vstrSectors (h : Hart) (c : Command) (j : Nat) : List Nat :=
  (vmSectors h c).filter (fun x =>
    let y := (h.row j).vec c.t.a.toNat x
    vstrBad c y x || decide (vstrBits c y x ≠ 0))

/-- The parts of a register sector's store, by virtual address and DPA: one memory sector, or two. -/
def vstrParts (c : Command) (y : Sector) (a : VecAccess) : List (Dword × Nat × VecStore) :=
  let off := 8 * (a.va.toNat % 256)
  let hi := vstrBits c y a.sector
  let part := fun (d : BitVec 2048) (lo hi : Nat) =>
    ({ sector := a.sector, x := { y with data := d }, lo := lo, hi := hi, whole := decide (off = 0), ldFmt := c.ldFmt,
       ldCw := c.ldCw, ldSexp := c.ldSexp, prt := c.prt } : VecStore)
  match a.next with
  | none => [(a.va, a.dpa, part y.data 0 hi)]
  | some e =>
    let room := 2048 - off
    [(a.va, a.dpa, part (y.data <<< off) off (Nat.min 2048 (off + hi))),
     (a.va + BitVec.ofNat 64 (room / 8), e, part (y.data >>> room) 0 (hi - room))]

/-- The parts of a register sector stored, each where its page now lies. -/
def storeParts (h : Hart) (row : Nat) : List (Dword × Nat × VecStore) → State → Except Stop (State × Flags)
  | [], s => .ok (s, 0)
  | (va, dpa, v) :: ps, s => do
    let (s, l) ← s.home h row dpa va .write
    match v.made s dpa l with
    | .error k => .error (.cause k row (some va))
    | .ok (y, fl) =>
      let (s, fl') ← storeParts h row ps (if v.looks then s else s.putSector h row dpa l y)
      pure (s, fl ||| fl')

/-- The register sectors of a VSTR stored, in ascending row and sector order. -/
def vstrAll (h : Hart) (c : Command) : List VecAccess → State → Except Stop (State × Flags)
  | [], s => .ok (s, 0)
  | a :: as, s => do
    let y := (h.row a.row).vec c.t.a.toNat a.sector
    if vstrBad c y a.sector then throw (.cause .malformedTag a.row (some a.va))
    if a.next.isSome && isE2m1 c.reader y then throw (.cause .misaligned a.row (some a.va))
    let (s, fl) ← storeParts h a.row (vstrParts c y a) s
    let (s, fl') ← vstrAll h c as s
    pure (s, fl ||| fl')

/-- The stores of a VSTR as entries in flight. -/
def vstrEntries (h : Hart) (c : Command) (as : List VecAccess) : List StoreEntry :=
  as.flatMap (fun a =>
    ((vstrParts c ((h.row a.row).vec c.t.a.toNat a.sector) a).filter (fun p => !p.2.2.looks)).map (fun p =>
      { row := a.row, unit := some .xv, cluster := a.sector, addr := p.1, dpa := p.2.1, size := 256, val := 0,
        vec := some p.2.2, order := c.order }))

/-- VSTR (R206): its first fault leaves no effect (R157). Its sectors are stored at once, when no access in flight comes
before them in lane-slice order, or, where the access is deferred, one by one as they are performed (R267 to R270). -/
def execVstr (t : Template) (s : State) : Out :=
  engineOp .xv t s (fun s hid h c =>
    match vmRows s h c .w (fun j => (c.capt j).b) (vstrSectors h c) (c.rows h) with
    | .error x => .stop s c x 0 false
    | .ok as =>
      let c := { c with touched := vmTouch as }
      let d := { Completion.plain 0 with touched := traceRows h c }
      let es := vstrEntries h c as
      if !s.defer && es.any (fun e => h.ahead e.stream [e.dpa] e.order) then hold s c
      else
        match vstrAll h c as s with
        | .error x => .stop s c x 0 false
        | .ok (s', fl) =>
          if s.defer then .ran ((s.modHart hid (fun g => { g with stores := g.stores ++ es })).markTask hid) c d
          else .ran (s'.markTask hid) c { d with flags := fl })

end Sys2Proof.Machine
end

