-- ==== Sys2Proof/Machine/Matrix.lean ====
section
/-! DEFINITION. The MX engine: the lease, rings as operands, TMMA, TMMAP and the tile operations, with the records of
record mode (spec/10_matrix.md R211 to R231; spec/04_arithmetic.md R69, R70; spec/18_queue.md R332 to R334). -/

namespace Sys2Proof.Machine

/-! ## The lease (R212 to R214) -/

/-- A hart's lease on a core. -/
def State.leaseOf (s : State) (h : Hart) (core : Nat) : Lease := (s.core core).lease h.slot

def State.setLease (s : State) (h : Hart) (core : Nat) (l : Lease) : State := s.modCore core (fun c => c.setLease h.slot l)

/-- A request with its count, from the current cycle. -/
def leaseRequest (hid now count bypass : Nat) : Lease :=
  { state := .requested, count := count, reqAt := now, grantAt := 0, bypass := bypass, usedAt := 0, hart := hid }

/-- MLEASE on a core. -/
def State.mlease (s : State) (hid : Nat) (h : Hart) (n core : Nat) : State :=
  let l := s.leaseOf h core
  match l.state with
  | .none => s.setLease h core (leaseRequest hid (s.cycle core) n 0)
  | _ => s.setLease h core { l with count := n }

/-- The lease ended for a hart on a core. -/
def State.dropLease (s : State) (h : Hart) (core : Nat) : State := s.setLease h core Lease.reset

/-- A lease on every core of the span ended (R143, TEXIT, MRELEASE). -/
def State.dropLeases (s : State) (h : Hart) : State := h.cores.foldl (fun s c => s.dropLease h c) s

/-- MLEASE (R212): on the cores of every row of the span, whatever the mask. -/
def execMlease (t : Template) (s : State) : Out :=
  engineRun false .mx t s (fun s hid h c =>
    .ran (h.cores.foldl (fun s k => s.mlease hid h c.t.imm.toNat k) s) c (Completion.plain 0))

/-- MRELEASE (R212): it ends a lease that is held, and leaves a request. -/
def execMrelease (t : Template) (s : State) : Out :=
  engineRun false .mx t s (fun s _ h c =>
    .ran (h.cores.foldl (fun s k => if (s.leaseOf h k).state = .held then s.dropLease h k else s) s) c (Completion.plain 0))

/-- An array command (R212). -/
def Command.isArray (c : Command) : Bool := decide (0x10 ≤ c.t.opc.toNat)

/-- An array command has started in a row. -/
def Command.startedIn (c : Command) (j : Nat) : Bool := c.started.any (fun r => r.row == j)

/-- The active rows in which an array command has not started. -/
def Command.rowsLeft (c : Command) (h : Hart) : List Nat := (c.rows h).filter (fun j => !c.startedIn j)

/-- The array of a core is occupied by a command of another hart (R277). -/
def State.arrayBusy (s : State) (hid core : Nat) : Bool := s.harts.any (fun x => x.1 != hid && x.2.onArray core)

/-- An array command starts on a core: one taken from the count (R212). -/
def State.startArray (s : State) (h : Hart) (core : Nat) : State :=
  let l := s.leaseOf h core
  s.setLease h core
    (if l.count ≤ 1 then Lease.reset else { l with count := l.count - 1, usedAt := s.cycle core })

/-- The first row whose core gives the hart no lease at all (R213). -/
def State.leaseFault (s : State) (h : Hart) (rows : List Nat) : Option Nat :=
  rows.find? (fun j => (s.leaseOf h (h.coreOf j)).state = .none)

/-- A row may start: its core's lease is held and its array free (R212, R277). -/
def State.mayStart (s : State) (hid : Nat) (h : Hart) (j : Nat) : Bool :=
  (s.leaseOf h (h.coreOf j)).state = .held && !s.arrayBusy hid (h.coreOf j)

/-- The status word of PARTNER_ABORT: the reason and the partner's core (R222). -/
def abortStatus (reason core : Nat) : BitVec 32 := BitVec.ofNat 32 (reason + (core ^^^ 1) * 2 ^ 8)

/-- The row of a hart's waiting TMMAP on a core, where its head command has arrived there (R222). -/
def Hart.waitingPair (h : Hart) (core : Nat) : Option (Command × Nat) :=
  match h.queue .mx with
  | c :: _ =>
    if c.done.isNone && c.fault.isNone && c.t.opc.toNat = 0x11 then
      (c.arrived.find? (fun j => h.coreOf j = core && !c.startedIn j)).map (fun j => (c, j))
    else none
  | [] => none

/-- PARTNER_ABORT raised at a hart's waiting TMMAP (R222). -/
def State.partnerAbort (s : State) (hid : Nat) (h : Hart) (c : Command) (row reason : Nat) : State :=
  let s := s.cancelHalves h 0
  s.stopCommand hid .mx c (.cause .partnerAbort row none) (abortStatus reason (h.coreOf row)) false

/-- A lease ends by R212 on a core: it is requested again, and a TMMAP that waits for its partner there raises
PARTNER_ABORT (R222). -/
def State.endLease (s : State) (hid : Nat) (h : Hart) (core : Nat) : State :=
  let l := s.leaseOf h core
  let s := s.setLease h core (leaseRequest hid (s.cycle core) l.count 0)
  match h.waitingPair core with
  | none => s
  | some (c, j) =>
    match s.pair h core with
    | .half k => if k = core then (s.setPair h core (.cancelled core 2)).partnerAbort hid h c j 2 else s
    | .cancelled k _ => if k = core then s.partnerAbort hid h c j 2 else s
    | .idle => s

/-- The requests that wait on a core, with their slots. -/
def Core.requests (c : Core) : List (Nat × Lease) := c.leases.filter (fun (x : Nat × Lease) => x.2.state == .requested)

/-- A request is older than another, and on a tie in the request cycle has the lower slot (R214). -/
def olderRequest (x y : Nat × Lease) : Bool :=
  decide (x.2.reqAt < y.2.reqAt) || (decide (x.2.reqAt = y.2.reqAt) && decide (x.1 < y.1))

/-- The rank of a request by the priority class of its hart, the highest class first. -/
def State.leaseRank (s : State) (x : Nat × Lease) : Nat :=
  match look s.harts x.2.hart with
  | some h => 3 - h.prio.toNat
  | none => 4

/-- A request comes before another in the order of rules 2 and 3 of R214. -/
def State.requestBefore (s : State) (x y : Nat × Lease) : Bool :=
  decide (s.leaseRank x < s.leaseRank y) || (decide (s.leaseRank x = s.leaseRank y) && olderRequest x y)

/-- The first of some requests by an order. -/
def firstRequest (before : Nat × Lease → Nat × Lease → Bool) : List (Nat × Lease) → Option (Nat × Lease)
  | [] => none
  | x :: xs =>
    match firstRequest before xs with
    | none => some x
    | some y => if before y x then some y else some x

/-- The request that R214 selects: bypassed three times, then the highest priority, the oldest, the lowest slot. -/
def State.leaseWinner (s : State) (core : Nat) : Option (Nat × Lease) :=
  let rs := (s.core core).requests
  match firstRequest olderRequest (rs.filter (fun x => decide (3 ≤ x.2.bypass))) with
  | some x => some x
  | none => firstRequest s.requestBefore rs

/-- LEASE_GRANT (R214) on core `unit`, unless the core stands still (R99). -/
def execLeaseGrant (s : State) : Out :=
  let core := s.focus.unit
  if s.coreStopped core || (s.core core).leases.any (fun x => x.2.state == .held) then .next s
  else
    match s.leaseWinner core with
    | none => .next s
    | some (slot, l) =>
      let now := s.cycle core
      .next (s.modCore core (fun c =>
        let c := c.requests.foldl (fun (c : Core) (x : Nat × Lease) => c.setLease x.1 { x.2 with bypass := x.2.bypass + 1 }) c
        c.setLease slot { l with state := .held, grantAt := now, usedAt := now, bypass := 0 }))

/-- The hart whose lease on a core is held in a slot and may end now: the core runs (R99), and no deadline of the hart comes
first (R358). -/
def State.leaseHart (s : State) (core slot : Nat) : Option (Nat × Hart × Lease) :=
  let l := (s.core core).lease slot
  if l.state = .held && !s.coreStopped core then
    ((look s.harts l.hart).filter (fun h => !s.expired h)).map (fun h => (l.hart, h, l))
  else none

/-- LEASE_TIMEOUT (R212): 16,384 cycles since the grant, on core `unit`, slot `sub`. -/
def execLeaseTimeout (s : State) : Out :=
  let core := s.focus.unit
  match s.leaseHart core s.focus.sub with
  | none => .next s
  | some (hid, h, l) => if l.grantAt + 16384 ≤ s.cycle core then .next (s.endLease hid h core) else .next s

/-- LEASE_IDLE_EXPIRY (R212): 512 cycles with nothing executing, on core `unit`, slot `sub`. -/
def execLeaseIdleExpiry (s : State) : Out :=
  let core := s.focus.unit
  match s.leaseHart core s.focus.sub with
  | none => .next s
  | some (hid, h, l) =>
    if l.usedAt + 512 ≤ s.cycle core && !h.onArray core then .next (s.endLease hid h core) else .next s

/-! ## Ring commands (R215, R216, R332 to R334) -/

/-- A descriptor breaks a rule of R333. -/
def ringDescBad (d : BitVec 512) : Bool :=
  let sbase := (d.extractLsb' 48 16).toNat
  let tileb := (d.extractLsb' 32 16).toNat
  let ecw := d.extractLsb' 29 3
  let efmt := d.extractLsb' 24 5
  let slots := (d.extractLsb' 16 6).toNat
  d.extractLsb' 64 448 != 0 || d.extractLsb' 22 2 != 0 || d.extractLsb' 0 16 != 0
    || slots == 0 || decide (32 < slots) || !([32, 64, 128, 256].contains tileb)
    || decide (2 ^ 24 < 256 * (sbase + slots * tileb))
    || !(fmtDefined efmt || efmt == 0x1F) || (decide (4 ≤ ecw.toNat) && ecw != 7)
    || (efmt != 0x1F && ecw != 7 && decide (cwBits ecw < fmtWidth efmt))
    || (ecw != 7 && 16384 * cwBits ecw != 2048 * tileb)

/-- The ring that a descriptor installs for a group. -/
def ringOf (d : BitVec 512) (group : Nat) : Ring :=
  { sbase := (d.extractLsb' 48 16).toNat, tileb := (d.extractLsb' 32 16).toNat, ecw := d.extractLsb' 29 3,
    efmt := d.extractLsb' 24 5, slots := (d.extractLsb' 16 6).toNat, head := 0, tail := 0, full := 0, owner := group,
    srcBase := [], srcStride := [] }

/-- A command waits on or reads a ring: ARING, and the MX commands that name it. -/
def Command.usesRing (e : Eng) (c : Command) (g : Nat) : Bool :=
  match e, c.t.opc.toNat with
  | .ld, 0x06 => c.t.d.toNat == g
  | .mx, 0x04 | .mx, 0x05 => c.t.d.toNat == g
  | .mx, 0x06 => c.t.a.toNat == g
  | .mx, 0x10 | .mx, 0x11 => c.t.a.toNat == g || c.t.b.toNat == g
  | _, _ => false

/-- Some hart's issued command waits on or reads a ring of a core. -/
def State.ringBusy (s : State) (core g : Nat) : Bool :=
  s.harts.any (fun x => [Eng.ld, .mx].any (fun e =>
    match x.2.queue e with
    | c :: _ => c.issued && c.usesRing e g && (c.rows x.2).any (fun j => decide (x.2.coreOf j = core))
    | [] => false))

/-- The descriptors that RINGCFG reads in its rows, with its checks (R332 to R334). -/
def ringDescs (h : Hart) (c : Command) : List Nat → State → Except Stop (State × List (Nat × BitVec 512))
  | [], s => .ok (s, [])
  | j :: js, s =>
    let va := c.va (c.capt j).a j
    match s.rawStruct h j 64 64 1 va with
    | .error e => .error e
    | .ok (s, x) =>
      let d := BitVec.ofNat 512 x
      let r := (s.core (h.coreOf j)).ring c.t.d.toNat
      if ringDescBad d then .error (.cause .ringDescInvalid j (some va))
      else if r.slots ≠ 0 && r.owner ≠ h.group && (look s.groups r.owner).isSome then .error (.cause .ringNotOwner j none)
      else
        match ringDescs h c js s with
        | .error e => .error e
        | .ok (s, ds) => .ok (s, (j, d) :: ds)

/-- RINGCFG (R215, R334). -/
def execRingcfg (t : Template) (s : State) : Out :=
  engineOp .mx t s (fun s _ h c =>
    match ringDescs h c (c.rows h) s with
    | .error x => .stop s c x 0 false
    | .ok (s, ds) =>
      let g := c.t.d.toNat
      if ds.any (fun y => ((s.core (h.coreOf y.1)).ring g).full != 0 || s.ringBusy (h.coreOf y.1) g) then hold s c
      else
        .ran (ds.foldl (fun s y => s.modCore (h.coreOf y.1) (fun k => k.setRing g (ringOf y.2 h.group))) s) c
          (Completion.plain 0))

/-- The first row in which a ring command may not use a ring (R334). -/
def ringFault (s : State) (h : Hart) (g : Nat) (rows : List Nat) : Option (Nat × Cause) :=
  rows.findSome? (fun j => (ringCheck s h j g).map (fun k => (j, k)))

/-- RINGPUT in a ring. -/
def Ring.put (r : Ring) : Ring :=
  { r with full := r.full ||| BitVec.ofNat 32 (2 ^ r.tail), tail := (r.tail + 1) % r.slots,
           srcBase := del r.srcBase r.tail, srcStride := del r.srcStride r.tail }

/-- The head slot popped. -/
def Ring.pop (r : Ring) : Ring :=
  { r with full := r.full &&& ~~~ BitVec.ofNat 32 (2 ^ r.head), head := (r.head + 1) % r.slots }

/-- The head slot is full. -/
def Ring.headFull (r : Ring) : Bool := r.full.getLsbD r.head

/-- The head slots of some rings are full in a row. -/
def State.headsFull (s : State) (h : Hart) (gs : List Nat) (j : Nat) : Bool :=
  gs.all (fun g => ((s.core (h.coreOf j)).ring g).headFull)

/-- RINGPUT (R216). -/
def execRingput (t : Template) (s : State) : Out :=
  engineOp .mx t s (fun s _ h c =>
    let rows := c.rows h
    let g := c.t.d.toNat
    match ringFault s h g rows with
    | some (j, k) => .stop s c (.cause k j none) 0 false
    | none =>
      if rows.any (fun j => let r := (s.core (h.coreOf j)).ring g; r.full.getLsbD r.tail) then hold s c
      else
        .ran (rows.foldl (fun s j => s.modCore (h.coreOf j) (fun k => k.setRing g (k.ring g).put)) s) c
          (Completion.plain 0))

/-- RINGPOP (R216). -/
def execRingpop (t : Template) (s : State) : Out :=
  engineOp .mx t s (fun s _ h c =>
    let rows := c.rows h
    let g := c.t.d.toNat
    match ringFault s h g rows with
    | some (j, k) => .stop s c (.cause k j none) 0 false
    | none =>
      match rows.find? (fun j => !((s.core (h.coreOf j)).ring g).headFull) with
      | some j => .stop s c (.cause .ringUnderflow j none) 0 false
      | none =>
        .ran (rows.foldl (fun s j => s.modCore (h.coreOf j) (fun k => k.setRing g (k.ring g).pop)) s) c
          (Completion.plain 0))

/-- The snapshot of RINGQRY (R216). -/
def Ring.query (r : Ring) : Dword := dwordOf [(r.full.toNat, 0), (r.head, 32), (r.tail, 40), (r.slots, 48)]

/-- RINGQRY (R216). -/
def execRingqry (t : Template) (s : State) : Out :=
  engineOp .mx t s (fun s hid h c =>
    let rows := c.rows h
    let g := c.t.a.toNat
    match ringFault s h g rows with
    | some (j, k) => .stop s c (.cause k j none) 0 false
    | none =>
      let h' := rows.foldl (fun (x : Hart) j => x.setUreg j c.t.d.toNat ((s.core (h.coreOf j)).ring g).query) h
      .ran (s.setHart hid h') c (Completion.plain 0))

/-! ## Operands -/

/-- A head tile as a matrix command reads it (R217): its sectors, its triple where it is not all ZERO, and its rows
of 64 values. -/
structure HeadTile where
  sectors : List Sector
  fmt     : Option (BitVec 5 × BitVec 3 × BitVec 8)
  rows    : List (List Exact)
  base    : Nat
  stride  : Nat
  deriving DecidableEq, Repr

/-- The tag of a head tile: its triple's, or its first sector's. -/
def HeadTile.tag (x : HeadTile) : BitVec 24 :=
  match x.fmt with
  | some (f, w, t) => mkTag clsTyped f w t
  | none => (x.sectors.headD zeroSector).tag

/-- The head tile of a ring in a row, with the checks of R217. -/
def State.headTile (s : State) (h : Hart) (c : Command) (j g : Nat) : Except Cause HeadTile := do
  let core := h.coreOf j
  let r := (s.core core).ring g
  let ss := (List.range r.tileb).map (fun q => s.readSector { key := spadKey core (r.sectorOff r.head q), xf := .plain })
  let os ← ss.mapM (openScaled c.reader)
  let base := lookD r.srcBase r.head 0
  let stride := lookD r.srcStride r.head 0
  match os.find? (fun o => !o.zero) with
  | none => pure { sectors := ss, fmt := none, rows := List.replicate 256 (List.replicate 64 (zeroOf false)), base := base, stride := stride }
  | some f =>
    if os.any (fun o => !o.zero && (o.fmt != f.fmt || o.cw != f.cw || o.sexp != f.sexp)) then throw .ringMixed
    if 8 * cwBits f.cw ≠ r.tileb then throw .ringMixed
    pure { sectors := ss, fmt := some (f.fmt, f.cw, f.sexp), rows := piecesOf 64 256 (os.flatMap (fun o => o.values f.cw)),
           base := base, stride := stride }

/-- The formats that the array takes (R69). -/
def arrayFmt (f : BitVec 5) : Bool := [1, 2, 8, 9, 10, 11, 12, 13, 14].contains f.toNat

/-- A head tile that the array accepts. -/
def State.operandTile (s : State) (h : Hart) (c : Command) (j g : Nat) : Except Cause HeadTile := do
  let x ← s.headTile h c j g
  match x.fmt with
  | some (f, _, _) => if arrayFmt f then pure x else throw .forbiddenFormatPair
  | none => pure x

/-- A tile's code as an exact value in its format. -/
def tileValue (tag : BitVec 24) (c : Nat) : Exact :=
  if tagCls tag = 0 then zeroOf false else decodeFmt (tagFmt tag) c

/-- Products with their flags. -/
def products (xs ys : List Exact) : List (Exact × Flags) := (xs.zip ys).map (fun p => mulE p.1 p.2)

/-- One rounding step of R70 to FP32 in RNE: an accumulator and the terms added to it. -/
def macStep (c : Exact) (ps : List (Exact × Flags)) : Exact × Flags :=
  let r := sumStep false (c :: ps.map (·.1))
  let q := roundF fp32 0 false 0 r.1
  (fp32.decode q.1, ps.foldl (fun f p => f ||| p.2) (r.2 ||| q.2))

/-- Steps of `n` products each, in ascending order; the fuel bounds them. -/
def macSteps (n : Nat) : Nat → Exact → List (Exact × Flags) → Exact × Flags
  | 0, c, _ => (c, 0)
  | k + 1, c, ps =>
    match ps with
    | [] => (c, 0)
    | _ =>
      let r := macStep c (ps.take n)
      let q := macSteps n k r.1 (ps.drop n)
      (q.1, r.2 ||| q.2)

/-- The products of one rounding step for the wider operand width (R70). -/
def stepSize (width : Nat) : Nat := if width ≤ 8 then 64 else if width = 16 then 1 else 4

/-- An element of the accumulator summed with products in float (R70): its code and flags. -/
def macFloat (step : Nat) (c : Exact) (xs ys : List Exact) : Nat × Flags :=
  let r := macSteps step 64 c (products xs ys)
  ((roundF fp32 0 false 0 r.1).1, r.2)

/-- An element summed in integers, saturated once (R70). -/
def macInt (c : Exact) (xs ys : List Exact) : Nat × Flags :=
  fitInt 32 true true ((xs.zip ys).foldl (fun acc p => acc + intOf p.1 * intOf p.2) (intOf c))

/-- A tile with its flags. -/
structure TileRes where
  tag  : BitVec 24
  rows : List (List Nat)
  fl   : Flags
  deriving DecidableEq, Repr

/-- The flags of rows of coded elements joined. -/
def joinRows (tag : BitVec 24) (rows : List (List (Nat × Flags))) : TileRes :=
  { tag := tag, rows := rows.map (fun r => r.map (·.1)),
    fl := rows.foldl (fun f r => r.foldl (fun f x => f ||| x.2) f) 0 }

/-- A zero tile. -/
def TileRes.zero : TileRes := { tag := 0, rows := [], fl := 0 }

/-- The matrix product summed into tile D in a row (R69, R219). -/
def State.matrixSum (s : State) (h : Hart) (c : Command) (j : Nat) (a b : HeadTile) : Except Cause TileRes := do
  let core := h.coreOf j
  let d := c.t.d.toNat
  let tag := s.tileTag core d
  let dzero := tagCls tag == 0
  let fa := a.fmt.map (fun x => x.1)
  let fb := b.fmt.map (fun x => x.1)
  let fs := fa.toList ++ fb.toList
  let (f, fl) ← match fa, fb with
    | some x, some y => (promote c.prt x y).map (fun z => (some z.1, z.2))
    | _, _ => pure (fs.head?, 0)
  match f with
  | none =>
    if dzero then pure TileRes.zero
    else if fmtInt (tagFmt tag) then pure { tag := tag, rows := s.tileRows core d, fl := 0 }
    else
      pure { joinRows tag ((s.tileRows core d).map (fun r => r.map (fun x =>
        macFloat 64 (tileValue tag x) [zeroOf false] [zeroOf false]))) with fl := 0 }
  | some f =>
    let int := fmtInt f
    if !dzero && fmtInt (tagFmt tag) != int then throw .containerMismatch
    let w := maxNat (fs.map fmtWidth)
    let mac := if int then macInt else macFloat (stepSize w)
    let rows := ((s.tileRows core d).zip a.rows).map (fun r =>
      (r.1.zip b.rows).map (fun e => mac (tileValue tag e.1) r.2 e.2))
    let out := joinRows (if int then tagInt32 else tagFp32) rows
    pure { out with fl := out.fl ||| fl }

/-! ## Record mode (R226 to R231) -/

/-- A source of a record, before its save mode is settled. -/
structure Source where
  kind    : Nat
  loc     : Nat
  ref     : Nat
  tag     : BitVec 24
  mode    : Nat
  /-- The command's own destination as a source. -/
  own     : Bool
  payload : List Sector
  deriving DecidableEq, Repr

/-- A source with its settled mode: payload offset, producer or row stride in `ref`, and whether it fell back. -/
structure Settled where
  src   : Source
  mode  : Nat
  ref   : Nat
  fell  : Bool
  deriving DecidableEq, Repr

/-- The save mode that the policy gives an operand register (R227). The block has no field for TLOADA's memory source,
kind 3: it is kept (DESIGN CHOICE, log 50). -/
def policyMode (p : BitVec 160) (kind n : Nat) : Nat :=
  match kind with
  | 1 => (p.extractLsb' (2 * n) 2).toNat
  | 2 => (p.extractLsb' (64 + 2 * n) 2).toNat
  | 4 => (p.extractLsb' (96 + 2 * n) 2).toNat
  | 3 => 0
  | _ => 3

/-- The sources whose values the adjoint needs, by position (R234). -/
def needed (opc mod i : Nat) : Bool :=
  match opc with
  | 0x10 => i < 2
  | 0x11 => i < 3
  | 0x15 => i < 2
  | 0x18 => if mod % 8 < 3 then i == 0 else i == 1
  | 0x1B => i == 0
  | _ => false

/-- The number of sources of an opcode (R228). -/
def sourceCount (opc mod : Nat) : Nat :=
  match opc with
  | 0x12 => 0
  | 0x11 => 3
  | 0x10 | 0x13 | 0x14 | 0x15 | 0x16 | 0x17 => 2
  | 0x18 => if 3 ≤ mod % 8 then 2 else 1
  | _ => 1

/-- A tape record's facts that later records need: index, length in 256-byte units, opcode and destination tile. -/
structure TapeEntry where
  index : Nat
  len   : Nat
  opc   : Nat
  dtile : Nat
  deriving DecidableEq, Repr

/-- A raw read of tape memory by the MX engine: none where the sector is not there to read. -/
def State.tapeRead (s : State) (h : Hart) (va : Dword) (n : Nat) : Except Stop (Option Nat) :=
  match kttEntry (s.ktt h.group) va.toNat with
  | none => .ok none
  | some e =>
    let dpa := s.localDpa ((e.dpapg + (va.toNat / 65536 - e.vapg)) * 65536 + va.toNat % 65536)
    match s.dpaLoc (some h.ctx) (h.coreOf 0) dpa with
    | .error (.absent _) => .error (.absent 0 dpa false)
    | .error _ => .ok none
    | .ok l => .ok (some (s.readRaw l n))

/-- The records on a hart's tape, walked forward from TAPEB + 256 by LEN (R232); a LEN of 0 ends the walk. -/
def walkTape (s : State) (h : Hart) (k : Nat) : Nat → Dword → Except Stop (List TapeEntry)
  | 0, _ => .ok []
  | n + 1, va => do
    match ← s.tapeRead h va 16 with
    | none => pure []
    | some x =>
      let len := bits x 111 96
      if len = 0 then pure []
      else
        let rest ← walkTape s h (k + 1) n (va + BitVec.ofNat 64 (256 * len))
        pure ({ index := k, len := len, opc := bits x 7 0, dtile := bits x 68 64 } :: rest)

/-- The hart's tape as it stands. -/
def State.tapeOf (s : State) (h : Hart) : Except Stop (List TapeEntry) :=
  walkTape s h 0 h.csr.tapen.toNat (h.csr.tapeb + 256)

/-- The KEEP registrations that a hart's recorded command will make on a core when it completes. -/
def Hart.keepsDue (h : Hart) (core : Nat) : Nat :=
  match h.queue .mx with
  | c :: _ =>
    match c.done.bind (fun d => d.tape) with
    | some r => if h.coreOf ((c.rows h).headD 0) = core then r.keeps.length else 0
    | none => 0
  | [] => 0

/-- Tracker entries of a core in use, by its jobs and its KEEP registrations (R228, R296). A recorded command that has
started holds those that it will register. -/
def State.trackerUsed (s : State) (core : Nat) : Nat :=
  (s.keeps.filter (fun k => decide (k.core = core))).length + (s.jobs.filter (fun x => decide (x.2.core = core))).length
    + s.harts.foldl (fun n x => n + x.2.keepsDue core) 0

/-- A source's mode after the replacements of R228, with its producer; `free` says that a tracker entry is free. -/
def settleMode (tape : List TapeEntry) (mark opc mod i : Nat) (free : Bool) (x : Source) : Nat × Nat × Bool :=
  let zero := tagCls x.tag == 0
  let prod := (tape.filter (fun e => decide (mark ≤ e.index) && decide (e.dtile = x.loc))).getLast?
  if x.kind = 5 then (3, 0, false)
  else if zero then (1, 0, x.mode != 1)
  else
    match x.mode with
    | 0 =>
      if x.own || x.kind == 4 || (x.kind == 2 && x.loc == 0) || !free then (1, 0, true)
      else (0, if x.kind == 1 then 0 else x.ref % 2 ^ 32, false)
    | 3 => if needed opc mod i then (1, 0, true) else (3, 0, false)
    | 2 =>
      match prod with
      | some e => if e.opc = 0x10 || e.opc = 0x11 then (1, 0, true) else (2, e.index, false)
      | none => (1, 0, true)
    | _ => (1, 0, false)

/-- The payload that a settled source writes. -/
def Settled.payload (x : Settled) : List Sector := if x.mode = 1 && tagCls x.src.tag != 0 then x.src.payload else []

/-- Sources settled in descriptor order: tracker entries used so far and the offset of the next payload. -/
def settleAll (tape : List TapeEntry) (mark opc mod room : Nat) : Nat → Nat → List Source → List Settled
  | _, _, [] => []
  | i, off, x :: xs =>
    let r := settleMode tape mark opc mod i (decide (0 < room)) x
    let y : Settled := { src := x, mode := r.1, ref := r.2.1, fell := r.2.2 }
    let n := y.payload.length
    let y := if n = 0 then y else { y with ref := off }
    y :: settleAll tape mark opc mod (if r.1 = 0 then room - 1 else room) (i + 1) (off + 256 * n) xs

/-- A source descriptor (R229). -/
def Settled.desc (x : Settled) : Nat :=
  x.src.kind + x.mode * 2 ^ 4 + x.src.tag.toNat * 2 ^ 8 + x.ref % 2 ^ 32 * 2 ^ 32 + x.src.loc % 2 ^ 64 * 2 ^ 64

/-- The record's header as a sector (R229). -/
def headerSector (opc mod index dtile prev len : Nat) (dtag : BitVec 24) (xs : List Settled) : Sector :=
  let v := opc + mod * 2 ^ 8 + xs.length * 2 ^ 16 + (decide (opc = 0x11)).toNat * 2 ^ 24 + (xs.any (·.fell)).toNat * 2 ^ 25
    + index * 2 ^ 32 + dtile * 2 ^ 64 + dtag.toNat * 2 ^ 72 + len * 2 ^ 96 + prev * 2 ^ 112
    + (xs.zipIdx.foldl (fun acc y => acc + y.1.desc * 2 ^ (128 + 128 * y.2)) 0)
  { tag := mkTag clsPlain 0 0 0, bmeta := 0, data := BitVec.ofNat 2048 v }

/-- The keys of a KEEP source's footprint (R231): the tile, or 256 rows from LOC. -/
def State.footprint (s : State) (h : Hart) (core : Nat) (x : Source) : List Nat :=
  if x.kind = 1 then [tileKeep core x.loc]
  else
    let bytes := (if x.kind = 2 then 8 else 32) * cwBits (tagCw x.tag)
    let rows := (List.range 256).map (fun i => (BitVec.ofNat 64 x.loc + BitVec.ofNat 64 (i * x.ref), bytes))
    (touchedSectors rows).filterMap (fun a =>
      (kttEntry (s.ktt h.group) a).map (fun e =>
        keepKey core (s.localDpa ((e.dpapg + (a / 65536 - e.vapg)) * 65536 + a % 65536))))

/-- The record of a command about to start, with the checks of R230: one active row, TAPE_FULL, and W permission for
its sectors. -/
def State.makeRecord (s : State) (h : Hart) (c : Command) (rows : List Nat) (dtag : BitVec 24) (srcs : List Source) :
    Except Stop (Option TapeRecord) := do
  if !c.recording then return none
  if 1 < rows.length then throw (.cause .tapeDieRows (rows.headD 0) none)
  let j := rows.headD 0
  let core := h.coreOf j
  let tape ← s.tapeOf h
  let opc := c.t.opc.toNat
  let mod := c.t.mod.toNat
  let xs := settleAll tape h.csr.recMark.toNat opc mod (256 - s.trackerUsed core) 0 256 srcs
  let pay := xs.flatMap Settled.payload
  let len := 1 + pay.length
  if h.csr.tapel.toNat < h.csr.tapep.toNat + 256 * len then throw (.cause .tapeFull j none)
  checkAll (fun k => do
    let va := h.csr.tapep + BitVec.ofNat 64 (256 * k)
    let dpa ← s.issueCheck h j .w va 256 256
    let _ ← s.home h j dpa va .write
    pure ()) (List.range len)
  let prev := match tape.getLast? with
    | some e => e.len
    | none => 0
  let head := headerSector opc mod h.csr.tapen.toNat c.t.d.toNat prev len dtag xs
  return some { sectors := head :: pay,
                keeps := (xs.filter (fun x => x.mode = 0)).map (fun x => s.footprint h core x.src) }

/-! ## Array commands -/

/-- What an array command makes in one row: the tile, and the sources of its record. -/
structure ArrayRes where
  res  : TileRes
  srcs : List Source
  deriving DecidableEq, Repr

/-- A write of an accumulator tile into a registered footprint (R231). -/
def State.tileClobber (s : State) (h : Hart) (core t : Nat) : Bool := s.clobbers h.ctx (tileKeep core t)

/-- TAPE_CLOBBER at a write of tile D in an active row (R220, R305): every row is looked at, so that it comes before any
row's write. -/
def State.tileCheck (s : State) (h : Hart) (c : Command) : Except Stop Unit :=
  match (c.rows h).find? (fun j => s.tileClobber h (h.coreOf j) c.t.d.toNat) with
  | some j => .error (.cause .tapeClobber j none)
  | none => .ok ()

/-- A result put into tile D of a core. -/
def State.putTile (s : State) (core t : Nat) (r : TileRes) : State :=
  if tagCls r.tag = 0 then s.zeroTile core t else s.setTile core t r.tag r.rows

/-- The tiles that a command names, which it uses in each row (R316). -/
def State.useTiles (s : State) (h : Hart) (rows tiles : List Nat) : State :=
  rows.foldl (fun s j => tiles.foldl (fun s t => s.useTile h (h.coreOf j) t) s) s

/-- A row of an array command started: one taken from its core's count, the result held until the command completes. -/
def Command.start (c : Command) (j : Nat) (r : TileRes) : Command :=
  { c with issued := true, flags := c.flags ||| r.fl, started := c.started ++ [{ row := j, tag := r.tag, codes := r.rows }] }

/-- What an array command that has started in every row leaves to its completion: its flags, the heads it pops (R218),
its record. -/
def Command.arrayEnd (c : Command) (h : Hart) (rings : List Nat) (tape : Option TapeRecord) : Completion :=
  { flags := c.flags, tape := tape, touched := [],
    pops := (c.rows h).flatMap (fun j => (dedupNat rings).map (fun g => (h.coreOf j, g))) }

/-- The results of a completing array command written into tile D of each row (R219), which the hart still uses. -/
def State.writeTiles (s : State) (h : Hart) (c : Command) : State :=
  c.started.foldl (fun s r =>
    let core := h.coreOf r.row
    (s.useTile h core c.t.d.toNat).putTile core c.t.d.toNat { tag := r.tag, rows := r.codes, fl := 0 }) s

/-- A row that has its lease, its array and its heads starts: `f` makes its result, and TAPE_CLOBBER and the checks of the
record follow (R220, R230). -/
def startRow (s : State) (h : Hart) (c : Command) (j : Nat) (rings : List Nat) (f : State → Nat → Except Stop (State × ArrayRes)) :
    Turn :=
  let made : Except Stop (State × ArrayRes × Option TapeRecord) := do
    let (s, r) ← f s j
    s.tileCheck h c
    let rec' ← s.makeRecord h c (c.rows h) r.res.tag r.srcs
    pure (s, r, rec')
  match made with
  | .error x => .stop s c x 0 false
  | .ok (s, r, rec') =>
    let c := c.start j r.res
    let s := s.startArray h (h.coreOf j)
    if (c.rowsLeft h).isEmpty then .ran s c (c.arrayEnd h rings rec') else .more s c

/-- One turn of an array command (R212, R213, R220): LEASE_NOT_HELD in a row that has not started stops it; then the first
row starts whose lease is held, whose array is free and whose heads are full. Until a row starts the command takes no
token and no slot, so that one that stops has taken none (R396). `rings` are the rings whose heads it reads,
`tiles` the tiles it uses. -/
def arrayTurn (s : State) (hid : Nat) (h : Hart) (c : Command) (rings tiles : List Nat) (check : Except Stop Unit)
    (f : State → Nat → Except Stop (State × ArrayRes)) : Turn :=
  let left := c.rowsLeft h
  match s.leaseFault h left with
  | some j => .stop s c (.cause .leaseNotHeld j none) 0 false
  | none =>
    match rings.findSome? (fun g => ringFault s h g left) with
    | some (j, k) => .stop s c (.cause k j none) 0 false
    | none =>
      match (if c.issued then .ok () else check) with
      | .error x => .stop s c x 0 false
      | .ok () =>
        match left.find? (fun j => s.mayStart hid h j && s.headsFull h rings j
            && !tiles.any (s.tileHeld h.ctx (h.coreOf j))) with
        | none => .wait
        | some j => startRow (s.useTiles h [j] tiles) h c j rings f

/-- An array command whose checks all stand with its row. -/
def arrayOp (t : Template) (s : State) (rings tiles : Command → List Nat)
    (f : Hart → Command → State → Nat → Except Stop ArrayRes) : Out :=
  engineOp .mx t s (fun s hid h c =>
    arrayTurn s hid h c (rings c) (tiles c) (.ok ()) (fun s j => (f h c s j).map (fun r => (s, r))))

/-- A ring operand as a source of the record. -/
def ringSource (h : Hart) (g : Nat) (x : HeadTile) : Source :=
  { kind := 2, loc := x.base, ref := x.stride, tag := x.tag, mode := policyMode h.csr.policy 2 g, own := false,
    payload := x.sectors }

/-- A tile operand as a source of the record: its payload is the tile's 1,024 sectors (R229). -/
def State.tileSource (s : State) (h : Hart) (core t : Nat) (own : Bool) : Source :=
  { kind := 1, loc := t, ref := 0, tag := s.tileTag core t, mode := policyMode h.csr.policy 1 t, own := own,
    payload := (List.range 1024).map (fun k => s.tileSector core t k) }

/-- A cause at a row without an address. -/
def atRow {α : Type} (j : Nat) (x : Except Cause α) : Except Stop α :=
  match x with
  | .ok a => .ok a
  | .error k => .error (.cause k j none)

/-- TMMA in a row (R219). -/
def tmmaRow (h : Hart) (c : Command) (s : State) (j : Nat) : Except Stop ArrayRes := do
  let a ← atRow j (s.operandTile h c j c.t.a.toNat)
  let b ← atRow j (s.operandTile h c j c.t.b.toNat)
  let r ← atRow j (s.matrixSum h c j a b)
  pure { res := r, srcs := [ringSource h c.t.a.toNat a, ringSource h c.t.b.toNat b] }

/-- TMMA (R219). -/
def execTmma (t : Template) (s : State) : Out :=
  arrayOp t s (fun c => [c.t.a.toNat, c.t.b.toNat]) (fun c => [c.t.d.toNat]) tmmaRow

/-! ## Tile operations (R223 to R225) -/

/-- The kind that tiles and biases share: none where all are ZERO. -/
def sharedKind (ks : List (Option Bool)) : Except Cause (Option Bool) :=
  ks.foldlM (fun acc k =>
    match acc, k with
    | none, k => .ok k
    | a, none => .ok a
    | some x, some y => if x == y then .ok (some x) else .error .forbiddenFormatPair) none

/-- A tile's kind: integer or float; none for ZERO. -/
def tileKind (tag : BitVec 24) : Option Bool := if tagCls tag = 0 then none else some (fmtInt (tagFmt tag))

/-- An element of a float result: one RNE rounding to FP32. -/
def floatElem (x : Exact × Flags) : Nat × Flags :=
  let r := roundF fp32 0 false 0 x.1
  (r.1, x.2 ||| r.2)

/-- An element of an integer result: exact, then saturated. -/
def intElem (x : Int) : Nat × Flags := fitInt 32 true true x

/-- The values of a tile. -/
def State.tileVals (s : State) (core t : Nat) : List (List Exact) :=
  let tag := s.tileTag core t
  (s.tileRows core t).map (fun r => r.map (tileValue tag))

/-- The tag of a result of a kind. -/
def kindTag (int : Bool) : BitVec 24 := if int then tagInt32 else tagFp32

/-- Two tables of values combined element by element. -/
def zipTiles (int : Bool) (f : Exact → Exact → Exact × Flags) (g : Int → Int → Int) (a b : List (List Exact)) : TileRes :=
  joinRows (kindTag int) ((a.zip b).map (fun r => (r.1.zip r.2).map (fun e =>
    if int then intElem (g (intOf e.1) (intOf e.2)) else floatElem (f e.1 e.2))))

/-- TADD, TSUB and TMUL in a row. -/
def binRow (f : Exact → Exact → Exact × Flags) (g : Int → Int → Int) (h : Hart) (c : Command) (s : State) (j : Nat) :
    Except Stop ArrayRes := do
  let core := h.coreOf j
  let a := c.t.a.toNat
  let b := c.t.b.toNat
  let d := c.t.d.toNat
  let k ← atRow j (sharedKind [tileKind (s.tileTag core a), tileKind (s.tileTag core b)])
  let res := match k with
    | none => TileRes.zero
    | some int => zipTiles int f g (s.tileVals core a) (s.tileVals core b)
  pure { res := res, srcs := [s.tileSource h core a (a == d), s.tileSource h core b (b == d)] }

/-- An array command over tiles D, A and B. -/
def tileOp2 (t : Template) (s : State) (f : Hart → Command → State → Nat → Except Stop ArrayRes) : Out :=
  arrayOp t s (fun _ => []) (fun c => [c.t.a.toNat, c.t.b.toNat, c.t.d.toNat]) f

/-- An array command over tiles D and A. -/
def tileOp (t : Template) (s : State) (f : Hart → Command → State → Nat → Except Stop ArrayRes) : Out :=
  arrayOp t s (fun _ => []) (fun c => [c.t.a.toNat, c.t.d.toNat]) f

/-- TZERO (R223). -/
def execTzero (t : Template) (s : State) : Out :=
  arrayOp t s (fun _ => []) (fun c => [c.t.d.toNat]) (fun _ _ _ _ => .ok { res := TileRes.zero, srcs := [] })
/-- TADD (R223). -/
def execTadd (t : Template) (s : State) : Out := tileOp2 t s (binRow (addE false) (· + ·))
/-- TSUB (R223). -/
def execTsub (t : Template) (s : State) : Out := tileOp2 t s (binRow (fun x y => addE false x y.negate) (· - ·))
/-- TMUL (R223). -/
def execTmul (t : Template) (s : State) : Out := tileOp2 t s (binRow mulE (· * ·))

/-- A unary operation of tile A in a row: `keepZero` where it maps a ZERO tile to ZERO, `floatOnly` where an INT32
tile is refused; more sources may follow A. -/
def unaryRow (floatOnly keepZero : Bool) (f : Bool → BitVec 24 → List (List Exact) → TileRes)
    (more : Command → State → Nat → TileRes → List Source) (h : Hart) (c : Command) (s : State) (j : Nat) :
    Except Stop ArrayRes := do
  let core := h.coreOf j
  let a := c.t.a.toNat
  let tag := s.tileTag core a
  if floatOnly && tileKind tag == some true then throw (.cause .forbiddenFormatPair j none)
  let res := if tagCls tag = 0 && keepZero then TileRes.zero else f (tileKind tag == some true) tag (s.tileVals core a)
  pure { res := res, srcs := s.tileSource h core a (a == c.t.d.toNat) :: more c s j res }

/-- No source after A. -/
def noMore (_ : Command) (_ : State) (_ : Nat) (_ : TileRes) : List Source := []

/-- The FP32 scalar of TSCL. -/
def tsclScalar (c : Command) (j : Nat) : Nat := (c.capt j).c.toNat % 2 ^ 32

/-- TSCL (R223). -/
def execTscl (t : Template) (s : State) : Out :=
  tileOp t s (fun h c s j =>
    let x := fp32.decode (tsclScalar c j)
    unaryRow true true (fun _ _ a => joinRows tagFp32 (a.map (fun r => r.map (fun e => floatElem (mulE e x)))))
      (fun c _ j _ => [{ kind := 5, loc := tsclScalar c j, ref := 0, tag := 0, mode := 3, own := false, payload := [] }])
      h c s j)

/-- The functions of TACT (R223). -/
def tactE (m : Nat) (x : Exact) : Exact × Flags :=
  match m with
  | 0 => if x.isNan then (.nan, 0) else (if x.cmp (zeroOf false) == .gt then x else zeroOf false, 0)
  | 1 => transE false .gelu x
  | 2 => transE false .silu x
  | 3 => transE false .tanh x
  | 4 => transE false .sigm x
  | _ => transE false .exp x

/-- A result tile as a source of its own record: TACT's D. -/
def resultSource (h : Hart) (d : Nat) (r : TileRes) : Source :=
  { kind := 1, loc := d, ref := 0, tag := r.tag, mode := policyMode h.csr.policy 1 d, own := true,
    payload := (List.range 1024).map (fun k =>
      { tag := r.tag, bmeta := 0, data := packSlots 32 (((r.rows.getD (k / 4) []).drop (k % 4 * 64)).take 64) }) }

/-- TACT (R223). -/
def execTact (t : Template) (s : State) : Out :=
  tileOp t s (fun h c s j =>
    let m := c.t.mod.toNat % 8
    unaryRow true (m < 4) (fun _ _ a => joinRows tagFp32 (a.map (fun r => r.map (fun e => floatElem (tactE m e)))))
      (fun c _ _ r => if 3 ≤ m then [resultSource h c.t.d.toNat r] else []) h c s j)

/-- A bias register (R224): 256 values, its kind, and whether a value is not zero. -/
def biasOf (s : State) (h : Hart) (c : Command) (j : Nat) : Except Cause (List Exact × Option Bool) := do
  let ss := (sectorsOf h).map (fun x => (h.row j).vec c.t.b.toNat x)
  let os ← ss.mapM (openScaled c.reader)
  let k ← sharedKind (os.map (fun o => if o.zero then none else some (fmtInt o.fmt)))
  match os.find? (fun o => !o.zero) with
  | none => pure (List.replicate 256 (zeroOf false), none)
  | some f =>
    if os.any (fun o => !o.zero && o.cw != f.cw) then throw .containerMismatch
    let xs := os.flatMap (fun o => o.values f.cw)
    pure ((xs ++ List.replicate 256 (zeroOf false)).take 256, k)

/-- TBIAS in a row (R223, R224). -/
def tbiasRow (h : Hart) (c : Command) (s : State) (j : Nat) : Except Stop ArrayRes := do
  let core := h.coreOf j
  let a := c.t.a.toNat
  let tag := s.tileTag core a
  let (bias, bk) ← atRow j (biasOf s h c j)
  let k ← atRow j (sharedKind [tileKind tag, bk])
  let res := match k with
    | none => TileRes.zero
    | some int =>
      if tagCls tag = 0 && bias.all Exact.isZero then TileRes.zero
      else zipTiles int (addE false) (· + ·) (s.tileVals core a) (List.replicate 256 bias)
  let v := c.t.b.toNat
  let pay := (sectorsOf h).map (fun x => (h.row 0).vec v x)
  pure { res := res, srcs := [s.tileSource h core a (a == c.t.d.toNat),
    { kind := 4, loc := v, ref := 0, tag := ((pay.find? (fun y => tagCls y.tag != 0)).getD (pay.headD zeroSector)).tag,
      mode := policyMode h.csr.policy 4 v, own := false, payload := pay }] }

/-- TBIAS (R223, R224). -/
def execTbias (t : Template) (s : State) : Out := tileOp t s tbiasRow

/-- The sum of a line in the order of R72, in FP32, or exact and saturated. -/
def lineSum (int : Bool) (xs : List Exact) : Nat × Flags :=
  if int then intElem (xs.foldl (fun acc x => acc + intOf x) 0)
  else
    let r := treeSum fp32 0 9 xs 0 0
    ((roundF fp32 0 false 0 r.v).1, r.fl)

/-- The largest of a line (R223). -/
def lineMax (int : Bool) (xs : List Exact) : Nat × Flags :=
  let m := match xs with
    | [] => zeroOf false
    | y :: ys => ys.foldl (pickE false) y
  if int then (wrapNat 32 (intOf m), 0) else ((roundF fp32 0 false 0 m).1, 0)

/-- A column of results in column 0, the rest +0. -/
def inColumn (int : Bool) (f : List Exact → Nat × Flags) (a : List (List Exact)) : TileRes :=
  joinRows (kindTag int) (a.map (fun r => f r :: List.replicate 255 (0, 0)))

/-- Rows and columns exchanged. -/
def transposeRows {α : Type} (z : α) (a : List (List α)) : List (List α) :=
  (List.range 256).map (fun j => a.map (fun r => r.getD j z))

/-- A row of results in row 0, the rest +0. -/
def inRow (int : Bool) (f : List Exact → Nat × Flags) (a : List (List Exact)) : TileRes :=
  joinRows (kindTag int)
    ((transposeRows (zeroOf false) a).map f :: List.replicate 255 (List.replicate 256 (0, 0)))

/-- TRSUM (R223). -/
def execTrsum (t : Template) (s : State) : Out :=
  tileOp t s (unaryRow false true (fun int _ a => inColumn int (lineSum int) a) noMore)
/-- TCSUM (R223). -/
def execTcsum (t : Template) (s : State) : Out :=
  tileOp t s (unaryRow false true (fun int _ a => inRow int (lineSum int) a) noMore)
/-- TRMAX (R223). -/
def execTrmax (t : Template) (s : State) : Out :=
  tileOp t s (unaryRow false true (fun int _ a => inColumn int (lineMax int) a) noMore)

/-- A tile's codes in a row of the command, for the operations that move them. -/
def codeRow (f : BitVec 24 → List (List Nat) → TileRes) (h : Hart) (c : Command) (s : State) (j : Nat) :
    Except Stop ArrayRes :=
  let core := h.coreOf j
  let a := c.t.a.toNat
  let tag := s.tileTag core a
  let res := if tagCls tag = 0 then TileRes.zero else f tag (s.tileRows core a)
  .ok { res := res, srcs := [s.tileSource h core a (a == c.t.d.toNat)] }

/-- TTRANS (R223). -/
def execTtrans (t : Template) (s : State) : Out :=
  tileOp t s (codeRow (fun tag a => { tag := tag, rows := transposeRows 0 a, fl := 0 }))

/-- TCVT of a tile's codes to INT32 or FP32 (R223): the same format verbatim. -/
def tcvtRows (f : BitVec 5) (tag : BitVec 24) (a : List (List Nat)) : TileRes :=
  if tagFmt tag == f then { tag := tag, rows := a, fl := 0 }
  else
    joinRows (kindTag (fmtInt f)) (a.map (fun r => r.map (fun x =>
      let v := tileValue tag x
      if fmtInt f then roundI 32 true 0 0 v else roundF fp32 0 false 0 v)))

/-- TCVT (R223). -/
def execTcvt (t : Template) (s : State) : Out := tileOp t s (fun h c s j => codeRow (tcvtRows c.t.fmt) h c s j)

/-- TCOPY (R223): verbatim, with its tag. -/
def execTcopy (t : Template) (s : State) : Out :=
  tileOp t s (fun h c s j =>
    let core := h.coreOf j
    let a := c.t.a.toNat
    .ok { res := { tag := s.tileTag core a, rows := s.tileRows core a, fl := 0 },
          srcs := [s.tileSource h core a (a == c.t.d.toNat)] })

/-! ## TLOADA (R225) -/

/-- The reader of PLAIN sectors: the template's FMT and CW where they are given, LDFMT otherwise. -/
def tloadaReader (c : Command) : Reader :=
  { fmt := if c.t.fmt == 0x1F then c.ldFmt else c.t.fmt, cw := if c.t.cw == 7 then c.ldCw else c.t.cw,
    sexp := c.ldSexp }

/-- The address of source row i. -/
def tloadaRow (c : Command) (j i : Nat) : Dword := c.va ((c.capt j).a + BitVec.ofNat 64 i * (c.capt j).b) j

/-- The sectors of a source of container w. -/
def tloadaSources (c : Command) (j : Nat) (w : BitVec 3) : List Nat :=
  touchedSectors ((List.range 256).map (fun i => (tloadaRow c j i, 32 * cwBits w)))

/-- Sectors that a source row of container w fills or lies in. -/
def tloadaPer (w : BitVec 3) : Nat := Nat.max 1 (cwBits w / 8)

/-- The tag at a source address, where it can be read. -/
def tloadaPeek (s : State) (h : Hart) (j : Nat) (va : Dword) : BitVec 24 :=
  let tag : Except Stop (BitVec 24) := do
    let dpa ← s.issueCheck h j .r va 1 1
    let (s', l) ← s.home h j dpa va .plain
    pure (s'.readSector l).tag
  match tag with
  | .ok t => t
  | .error _ => 0

/-- The container that a tag names for a TLOADA source. -/
def tloadaTagCw (c : Command) (t : BitVec 24) : Option (BitVec 3) :=
  let w := if tagCls t = clsPlain then c.ldCw else tagCw t
  if (tagCls t = clsTyped || tagCls t = clsPlain) && w.toNat ≤ 4 then some w else none

/-- The source container (R225): CW where it is given; otherwise that of the first sector that is not ZERO, in ascending
row order and, within a row, as far as a row of that container reaches; LDFMT's where every one is ZERO. -/
def tloadaCw (s : State) (h : Hart) (c : Command) (j : Nat) : BitVec 3 :=
  if c.t.cw != 7 then c.t.cw
  else
    let found := (List.range 256).findSome? (fun i => (List.range 8).findSome? (fun q =>
      (tloadaTagCw c (tloadaPeek s h j (tloadaRow c j i + BitVec.ofNat 64 (256 * q)))).filter (fun w =>
        decide (q < tloadaPer w))))
    found.getD (if c.ldCw.toNat ≤ 4 then c.ldCw else 3)

/-- TLOADA's checks at issue in a row, with its container. -/
def tloadaCheck (s : State) (h : Hart) (c : Command) (j : Nat) : Except Stop Unit := do
  let w := tloadaCw s h c j
  let al := if w == 0 then 128 else 256
  let a := tloadaRow c j 0
  if a.toNat % al ≠ 0 || (c.capt j).b.toNat % al ≠ 0 then throw (.cause .misaligned j (some a))
  checkAll (fun x => (s.issueCheck h j .r (BitVec.ofNat 64 x) 256 256).map (fun _ => ())) (tloadaSources c j w)

/-- The payload of a TLOADA source (R229): its sectors verbatim, row after row. -/
def tloadaPayload (c : Command) (j : Nat) (w : BitVec 3) (m : Map Opened) : List Sector :=
  (List.range 256).flatMap (fun i => (List.range (tloadaPer w)).map (fun q =>
    let a := tloadaRow c j i + BitVec.ofNat 64 (256 * q)
    match look m (a.toNat / 256 * 256) with
    | some o => o.src
    | none => zeroSector))

/-- TLOADA in a row (R225), with the state after the reads. -/
def tloadaTile (s : State) (h : Hart) (c : Command) (j : Nat) : Except Stop (State × ArrayRes) := do
  let w := tloadaCw s h c j
  let rd := tloadaReader c
  let (s, m) ← openSources s h { c with ldFmt := rd.fmt, ldCw := rd.cw, ldSexp := rd.sexp } j (fun o =>
      if o.zero then none
      else if o.cw != w || (c.t.fmt != 0x1F && o.fmt != c.t.fmt) then some .containerMismatch
      else none) (tloadaSources c j w)
  let os := m.map (fun (x : Nat × Opened) => x.2)
  let k ← atRow j (sharedKind (os.map (fun o => if o.zero then none else some (fmtInt o.fmt))))
  let tag := match os.find? (fun o => !o.zero) with
    | some o => mkTag clsTyped o.fmt o.cw o.sexp
    | none => 0
  let res := match k with
    | none => TileRes.zero
    | some int =>
      let vs := valuesOf w m
      joinRows (kindTag int) ((List.range 256).map (fun i => (List.range 256).map (fun e =>
        let v := valueAt vs (elemPlace (cwBits w) (tloadaRow c j i) (cwBits w * e))
        if int then intElem (intOf v) else floatElem (v, 0))))
  pure (s, { res := res, srcs := [{
    kind := 3, loc := (tloadaRow c j 0).toNat, ref := (c.capt j).b.toNat, tag := tag, mode := policyMode h.csr.policy 3 0,
    own := false, payload := tloadaPayload c j w m }] })

/-- TLOADA (R225). -/
def execTloada (t : Template) (s : State) : Out :=
  engineOp .mx t s (fun s hid h c =>
    arrayTurn s hid h c [] [c.t.d.toNat] (checkAll (tloadaCheck s h c) (c.rowsLeft h)) (fun s j => tloadaTile s h c j))

/-! ## TMMAP (R221, R222) -/

/-- The virtual core lies in a row of a placed group (R347). -/
def Group.hasCore (g : Group) (j core : Nat) : Bool := g.dies.getD j 8 == core / 16 && g.cidx.contains (core % 16)

/-- The partner of a hart in a row: the hart of its group and stage on the paired core. -/
def State.partner (s : State) (h : Hart) (j : Nat) : Option (Nat × Hart) :=
  let p := h.coreOf j ^^^ 1
  s.harts.find? (fun x => x.2.group = h.group && x.2.stage = h.stage && x.2.cores[j]? == some p)

/-- The B tile combined of the even core's first half and the odd core's second half, which must agree (R221). -/
def combineB (e o : HeadTile) : Except Cause HeadTile :=
  let rows := (e.rows.zip o.rows).map (fun r => r.1.take 32 ++ r.2.drop 32)
  match e.fmt, o.fmt with
  | some x, some y => if x = y then .ok { e with rows := rows } else .error .ringMixed
  | none, some _ => .ok { e with rows := rows, fmt := o.fmt }
  | _, _ => .ok { e with rows := rows }

/-- The sectors of a combined tile, as its payload holds them: codes of the two halves, and each row's metadata, a
free value where the halves' differ (R229, log 14). -/
def combineSectors (draw : Nat) (w : BitVec 3) (e o : HeadTile) : List Sector :=
  let n := elemCount w
  (e.sectors.zip o.sectors).zipIdx.map (fun y =>
    let x := secVisible y.1.1
    let z := secVisible y.1.2
    let live := if tagCls x.tag = 0 then z else x
    let codes := ((secSlots x w).zip (secSlots z w)).zipIdx.map (fun p => if p.2 % 64 < 32 then p.1.1 else p.1.2)
    let md := (List.range (n / 64)).foldl (fun acc b =>
      let p := (x.bmeta.extractLsb' (16 * b) 16).toNat
      let q := (z.bmeta.extractLsb' (16 * b) 16).toNat
      let m := if tagCls x.tag = 0 then q else if tagCls z.tag = 0 || p = q then p
        else (Config.freeDword (draw + 8 * y.2 + b)).toNat % 2 ^ 16
      acc + m * 2 ^ (16 * b)) 0
    { tag := live.tag, bmeta := BitVec.ofNat 128 md, data := packSlots (cwBits w) codes })

/-- The partner's half as a source of the record: the full combined tile (R228, R229). Its save mode is that of the
recording hart's own B ring (DESIGN CHOICE, log 50: the policy block has no field for it). -/
def halfSource (s : State) (h : Hart) (g : Nat) (e o other comb : HeadTile) : Source :=
  let w := match comb.fmt with
    | some (_, w, _) => w
    | none => 0
  { kind := 2, loc := other.base, ref := other.stride, tag := comb.tag, mode := policyMode h.csr.policy 2 g, own := false,
    payload := combineSectors s.draws w e o }

/-- One side's part of a pair in a row, with its record: R219 with its own A and the combined B. -/
def pairSide (s : State) (h : Hart) (c : Command) (j : Nat) (a b other e o : HeadTile) :
    Except Stop (TileRes × Option TapeRecord) := do
  let comb ← atRow j (combineB e o)
  let r ← atRow j (s.matrixSum h c j a comb)
  s.tileCheck h c
  let srcs := [ringSource h c.t.a.toNat a, ringSource h c.t.b.toNat b, halfSource s h c.t.b.toNat e o other comb]
  let rec' ← s.makeRecord h c (c.rows h) r.tag srcs
  pure (r, rec')

/-- A row of a side has started: its waits and its lease's count, and the command, which has run once every row has. -/
def startSide (s : State) (hid : Nat) (h : Hart) (c : Command) (j : Nat) (r : TileRes) (rec' : Option TapeRecord) :
    State × Command :=
  let s := s.startArray h (h.coreOf j)
  let s := { s with draws := s.draws + 2048 }
  let c := { c.start j r with arrived := c.arrived.filter (· != j) }
  let c := if (c.rowsLeft h).isEmpty then { c with done := some (c.arrayEnd h [c.t.a.toNat, c.t.b.toNat] rec') } else c
  (s.issue hid .mx c, { c with issued := true, consumed := true })

/-- What a row of a TMMAP makes of its pair slot. -/
inductive PairRes where
  | stop (s : State) (x : Stop) (status : BitVec 32)
  | ok (s : State) (c : Command)
  deriving DecidableEq, Repr

/-- The reason that a side which stops leaves to its partner: a fault, or a save (R222). -/
def Stop.pairReason : Stop → Nat
  | .cause _ _ _ => 0
  | .absent _ _ _ | .held => 1

/-- The partner of a starting or failing pair raises a cause at its waiting command. -/
def State.stopPartner (s : State) (hid : Nat) (h : Hart) (c : Command) (x : Stop) (status : BitVec 32) : State :=
  (s.cancelHalves h x.pairReason).stopCommand hid .mx c x status false

/-- Both sides of a pair are there: they start in the same cycle, or a check of one stops both. A page-absent reply stops
only the side that meets it, whose save withdraws its half where it has sent one. -/
def pairStart (s0 : State) (hid : Nat) (h : Hart) (c : Command) (j : Nat) (a b : HeadTile) (yid : Nat) (y : Hart)
    (d : Command) : PairRes :=
  let core := h.coreOf j
  let d := d.atIssue s0 y
  let s := s0.setPair h core .idle
  let abort := fun (s : State) (k : Nat) => Stop.cause .partnerAbort k none
  match s.operandTile y d j d.t.a.toNat, s.operandTile y d j d.t.b.toNat with
  | .error k, _ | _, .error k =>
    .stop (s.stopPartner yid y d (.cause k j none) 0) (abort s j) (abortStatus 0 core)
  | .ok a', .ok b' =>
    let e := if core % 2 = 0 then b else b'
    let o := if core % 2 = 0 then b' else b
    match combineB e o with
    | .error k => .stop (s.stopPartner yid y d (.cause k j none) 0) (.cause k j none) 0
    | .ok _ =>
      match pairSide s h c j a b b' e o with
      | .error (.absent r dpa w) => .stop s0 (.absent r dpa w) 0
      | .error .held => .ok s0 c
      | .error x => .stop (s.stopPartner yid y d (abort s j) (abortStatus 0 (y.coreOf j))) x 0
      | .ok (r, rec1) =>
        match pairSide s y d j a' b' b e o with
        | .error (.absent r dpa w) => .ok (s0.stopPartner yid y d (.absent r dpa w) 0) c
        | .error .held => .ok s0 c
        | .error x => .stop (s.stopPartner yid y d x 0) (abort s j) (abortStatus 0 core)
        | .ok (r', rec2) =>
          let (s, _) := startSide s yid y d j r' rec2
          let (s, c) := startSide s hid h c j r rec1
          .ok s c

/-- A TMMAP has arrived at its pair slot in a row. -/
def Command.arrive (c : Command) (j : Nat) : Command :=
  if c.arrived.contains j then c else { c with arrived := c.arrived ++ [j] }

/-- A row of a TMMAP that has its lease and its heads (R222). -/
def pairRow (s : State) (hid : Nat) (h : Hart) (c : Command) (j : Nat) : PairRes :=
  let core := h.coreOf j
  let inGroup := match look s.groups h.group with
    | some g => g.hasCore j (core ^^^ 1)
    | none => false
  if !inGroup then .stop s (.cause .partnerAbort j none) (abortStatus 3 core)
  else
    let cancelled := fun (reason : Nat) =>
      PairRes.stop (s.setPair h core .idle) (.cause .partnerAbort j none) (abortStatus reason core)
    let mine := match s.operandTile h c j c.t.a.toNat, s.operandTile h c j c.t.b.toNat with
      | .error k, _ => Except.error k
      | _, .error k => .error k
      | .ok a, .ok b => .ok (a, b)
    match s.pair h core, mine with
    | .cancelled k reason, m =>
      if k ≠ core then cancelled reason
      else
        match m with
        | .error k => .stop s (.cause k j none) 0
        | .ok _ => .ok s (c.arrive j)
    | .idle, .error k => .stop (s.setPair h core (.cancelled core 0)) (.cause k j none) 0
    | .idle, .ok _ => .ok (s.setPair h core (.half core)) (c.arrive j)
    | .half k, m =>
      if k = core then .ok s c
      else
        match ((s.partner h j).filter (fun y => !s.stopped y.2 && !s.expired y.2)).bind
            (fun y => (y.2.waitingPair k).map (fun d => (y.1, y.2, d.1))), m with
        | none, _ => .ok s c
        | some (yid, y, d), .error k =>
          .stop ((s.setPair h core .idle).stopPartner yid y d (.cause .partnerAbort j none) (abortStatus 0 (y.coreOf j)))
            (.cause k j none) 0
        | some (yid, y, d), .ok (a, b) =>
          if d.consumed || y.waitsMet .mx d then pairStart s hid h c j a b yid y d else .ok s c

/-- The rows of a TMMAP that have not started, in ascending order. -/
def pairRows (hid : Nat) (h : Hart) : List Nat → State → Command → PairRes
  | [], s, c => .ok s c
  | j :: js, s, c =>
    if c.startedIn j || !s.mayStart hid h j || !s.headsFull h [c.t.a.toNat, c.t.b.toNat] j then pairRows hid h js s c
    else
      match pairRow s hid h c j with
      | .stop s x st => .stop s x st
      | .ok s c => pairRows hid h js s c

/-- TMMAP (R221, R222): each row pairs by itself, and the command has run once every row has. -/
def execTmmap (t : Template) (s : State) : Out :=
  engineOp .mx t s (fun s hid h c =>
    let rows := c.rows h
    let left := c.rowsLeft h
    match s.leaseFault h left with
    | some j => .stop (s.cancelHalves h 0) c (.cause .leaseNotHeld j none) 0 false
    | none =>
      match ringFault s h c.t.a.toNat left, ringFault s h c.t.b.toNat left with
      | some (j, k), _ | none, some (j, k) => .stop (s.cancelHalves h 0) c (.cause k j none) 0 false
      | none, none =>
        if c.recording && decide (1 < rows.length) then .stop s c (.cause .tapeDieRows (rows.headD 0) none) 0 false
        else if left.any (fun j => s.tileHeld h.ctx (h.coreOf j) c.t.d.toNat) then .wait
        else
          match pairRows hid h left (s.useTiles h rows [c.t.d.toNat]) c with
          | .stop s x st => .stop (s.cancelHalves h x.pairReason) c x st false
          | .ok s' c' =>
            match c'.done with
            | some d => .ran s' c' d
            | none =>
              if c'.started != c.started then .more s' c'
              else if c' == c && s'.pairs == s.pairs then .wait
              else .stay s' c')

end Sys2Proof.Machine
end

