-- ==== Sys2Proof/Machine/TileVec.lean ====
section
/-! DEFINITION. VRDA and VWRA, which move a row between an accumulator tile and a vector register (spec/08_vector.md
R182 to R184). -/

namespace Sys2Proof.Machine

/-- The tile of VRDA or VWRA taken into use in each row (R184, R316). -/
def tileVecOp (t : Template) (s : State) (tile : Command → Nat)
    (f : State → Hart → Command → Nat → Except Cause (State × Flags)) : Out :=
  engineOp .xv t s (fun s hid h c =>
    let rows := c.rows h
    if rows.any (fun j => s.tileHeld h.ctx (h.coreOf j) (tile c)) then .wait
    else
    let s := rows.foldl (fun s j => s.useTile h (h.coreOf j) (tile c)) s
    let res := rows.foldl (fun (acc : Except (Nat × Cause) (State × Flags)) j => do
      let (s, fl) ← acc
      match look s.harts hid with
      | none => pure (s, fl)
      | some g =>
        match f s g c j with
        | .error k => .error (j, k)
        | .ok (s, fl') => pure (s, fl ||| fl')) (.ok (s, 0))
    match res with
    | .error (j, k) => .stop s c (.cause k j none) 0 false
    | .ok (s', fl) => .ran s' c { Completion.plain fl with touched := h.touchedRows c })

/-- The register sectors that VRDA writes: 64 columns each, those of the first four clusters (R182). -/
def vrdaSectors (h : Hart) : List Nat := List.range (Nat.min 4 h.csr.xcl)

/-- VRDA in a row (R182). -/
def vrdaRow (hid : Nat) (s : State) (h : Hart) (c : Command) (j : Nat) : Except Cause (State × Flags) :=
  let core := h.coreOf j
  let a := c.t.a.toNat
  let tag := s.tileTag core a
  let xs := s.tileRow core a c.t.imm.toNat
  let r := (vrdaSectors h).foldl (fun (r : RowRegs) x =>
    r.setVec c.t.d.toNat x
      (if tagCls tag = 0 then zeroSector
       else { tag := tag, bmeta := 0, data := packSlots 32 ((xs.drop (64 * x)).take 64) })) (h.row j)
  .ok (s.setHart hid (h.setRow j r), 0)

/-- VRDA (R182). -/
def execVrda (t : Template) (s : State) : Out :=
  tileVecOp t s (fun c => c.t.a.toNat) (fun s h c j => vrdaRow s.focus.hart s h c j)

/-- The kind of VWRA's source: that of its sectors, or of the first ZERO one with a format (R183). -/
def vwraKind (os : List Opened) : Except Cause (Option Bool) := do
  let k ← sharedKind (os.map (fun o => if o.zero then none else some (fmtInt o.fmt)))
  match k with
  | some x => pure (some x)
  | none => pure ((zeroTriple os).map (fun o => fmtInt o.fmt))

/-- The kind and container checks that a source sector brings to VWRA (R154, R157, R183). -/
def vwraCheck (st : Option (BitVec 5) × Option (BitVec 3)) (o : Opened) :
    Except Cause (Option (BitVec 5) × Option (BitVec 3)) := do
  if o.zero then return st
  if st.1.any (fun f => fmtInt f != fmtInt o.fmt) then throw .forbiddenFormatPair
  if st.2.any (· != o.cw) then throw .containerMismatch
  return (some o.fmt, some o.cw)

/-- VWRA in a row (R183). With m = 0 nothing is written: no TAPE_CLOBBER, and a ZERO tile stays ZERO (DESIGN CHOICE,
log 50). -/
def vwraRow (s : State) (h : Hart) (c : Command) (j : Nat) : Except Cause (State × Flags) := do
  let core := h.coreOf j
  let src := h.row j
  let d := c.t.d.toNat
  let i := c.t.imm.toNat
  let tag := s.tileTag core d
  let g := c.rowCw none ((c.vlSectors h).map (fun x => (x, src.vec c.t.a.toNat x)))
  let xs := (sectorsOf h).filter (fun x => c.inRange g x)
  let os ← openSeq c vwraCheck (none, none) (xs.map (fun x => src.vec c.t.a.toNat x))
  let w ← sharedCw none c.vlcw os
  let k ← vwraKind os
  let int : Bool ← match k, tileKind tag with
    | some x, some y => if x == y then pure x else throw .forbiddenFormatPair
    | some x, none => pure x
    | none, some y => pure y
    | none, none => pure false
  let m := Nat.min 256 (vlAt c w)
  if m = 0 then return (s, 0)
  if s.tileClobber h core d then throw .tapeClobber
  let act := xs.flatMap (fun x => c.acts src w x)
  let vals := (os.flatMap (fun o => o.values w)).map (fun v => if int then intElem (intOf v) else floatElem (v, 0))
  let old := s.tileRow core d i
  let new := ((vals.zip act).take m).zipIdx.map (fun y => if y.1.2 then y.1.1 else (old.getD y.2 0, 0))
  let fl := new.foldl (fun (f : Flags) y => f ||| y.2) 0
  return (s.setTileRow core d i (kindTag int) (new.map (·.1)), fl)

/-- VWRA (R183). -/
def execVwra (t : Template) (s : State) : Out := tileVecOp t s (fun c => c.t.d.toNat) vwraRow

end Sys2Proof.Machine
end

