-- ==== Sys2Proof/Machine/Tape.lean ====
section
/-! DEFINITION. The completion of engine commands (spec/05_words.md R93, R96; spec/10_matrix.md R218, R230;
spec/11_sync_system.md R266), RECORD, REVERSE and the Spatula (R226, R227, R231 to R237). -/

namespace Sys2Proof.Machine

/-! ## COMMAND_COMPLETION -/

/-- The sectors of a record written at TAPEP (R230). -/
def tapeWrite (h : Hart) (j : Nat) : Nat → List Sector → State → Except Stop State
  | _, [], s => .ok s
  | k, x :: xs, s =>
    match s.unitLoc h j .w (h.csr.tapep + BitVec.ofNat 64 (256 * k)) with
    | .error e => .error e
    | .ok (s, dpa, l) => tapeWrite h j (k + 1) xs (s.putSector h j dpa l x)

/-- The record of a completing command: its sectors, TAPEP and TAPEN, and its registrations (R230, R231). -/
def State.writeTape (s : State) (hid : Nat) (h : Hart) (c : Command) (r : TapeRecord) : Except Stop State := do
  let j := (c.rows h).headD 0
  let s ← tapeWrite h j 0 r.sectors s
  let keeps := r.keeps.map (fun k =>
    ({ ctx := h.ctx, hart := hid, core := h.coreOf j, record := h.csr.tapen.toNat, sectors := k } : Keep))
  let s := s.modHart hid (fun g =>
    { g with csr := { g.csr with tapep := g.csr.tapep + BitVec.ofNat 64 (256 * r.sectors.length),
                                 tapen := g.csr.tapen + 1 } }.markStored)
  pure { s with keeps := s.keeps ++ keeps }

/-- The trace entry of a command in a row (R266). -/
def traceEntry (h : Hart) (e : Eng) (c : Command) (t : Touched) : TraceEntry :=
  { ctxid := BitVec.ofNat 12 h.ctx, slot := BitVec.ofNat 2 h.slot, mpop := BitVec.ofNat 13 t.mpop,
    eng := BitVec.ofNat 3 (engCode e), row := BitVec.ofNat 3 t.row, cw := c.vlcw, vl := c.vl, last := t.last,
    first := t.first, pc := c.pc }

/-- An entry written to a core's ring of 4,096 (R266). -/
def Core.trace1 (c : Core) (x : TraceEntry) : Core :=
  { c with trace := (if c.trace.length < 4096 then c.trace else c.trace.drop 1) ++ [x] }

/-- The trace entries of a retired LD, XV or ST command, one for each active row (R266); one that SKIP has ended has none. -/
def State.traceAll (s : State) (h : Hart) (e : Eng) (c : Command) (d : Completion) : State :=
  if e = .mx || e = .jb then s
  else
    (c.rows h).foldl (fun s j =>
      match d.touched.find? (fun t => t.row == j) with
      | some t => s.modCore (h.coreOf j) (fun k => k.trace1 (traceEntry h e c t))
      | none => s) s

/-- The effects of a completion in the hart: the flags, tokens, slot and counts (R93, R96, R105, R264). -/
def Hart.complete (h : Hart) (now : Nat) (e : Eng) (c : Command) (d : Completion) : Hart :=
  let h := h.pushWaits e c
  let i := engIdx e + 1
  { h with
    csr := { h.csr with xstat := h.csr.xstat ||| d.flags, retired := h.csr.retired + 1 },
    idx := h.idx.setIfInBounds i ((h.idx[i]?).getD 0 + 1), lastProgress := now }

/-- The head command completes and leaves its queue. -/
def Hart.completeHead (h : Hart) (now : Nat) (e : Eng) (c : Command) (d : Completion) : Hart :=
  (h.setQueue e ((h.queue e).drop 1)).complete now e c d

/-- An access of a command is in flight, or a load of it has not landed. -/
def Hart.inFlight (h : Hart) (c : Command) : Bool :=
  (h.loads ++ h.reissue).any (fun e => !e.scalarPipe && e.order == c.order)
    || h.stores.any (fun x => x.unit.isSome && x.order == c.order)

/-- A command of the hart that has left an engine's queue, whose accesses have been performed and have landed, and that can
complete now (R273): the oldest one. -/
def Hart.lateDone (h : Hart) (e : Eng) : Option Command :=
  (h.timed.find? (fun x => x.1 == e && x.2.issued && !h.inFlight x.2 && h.mayComplete e x.2)).map (·.2)

/-- A command whose accesses have been performed and have landed completes (R273). -/
def completeLate (s : State) (hid : Nat) (h : Hart) (e : Eng) (c : Command) : Out :=
  match c.done with
  | none => .next s
  | some d =>
    let g := { h with timed := h.timed.filter (fun x => x.2.order != c.order) }
    .next ((s.traceAll h e c d).setHart hid (g.complete s.now e c d))

/-- The last use of the leases under which an array command ran (R212). -/
def State.touchLeases (s : State) (h : Hart) (c : Command) : State :=
  if c.isArray then
    (c.rows h).foldl (fun s j =>
      let core := h.coreOf j
      let l := s.leaseOf h core
      if l.state = .held then s.setLease h core { l with usedAt := s.cycle core } else s) s
  else s

/-- COMMAND_COMPLETION (R93, R96, R218, R230, R266): the head command of the focus engine has run in every active
row, and completes. One with accesses in flight, or loads that have not landed, leaves its queue, and completes once they
are performed and have landed (R273). -/
def execCommandCompletion (s : State) : Out :=
  withHart s (fun hid h =>
    let e := s.focus.eng
    match h.lateDone e, h.queue e with
    | some c, _ => completeLate s hid h e c
    | none, [] => .next s
    | none, c :: _ =>
      match c.done with
      | none => .next s
      | some d =>
        if h.inFlight c then .next (s.setHart hid { h.leave e c.order with lastProgress := s.now })
        else if !h.mayComplete e c || !h.engineMay c
            || c.started.any (fun r => s.tileHeld h.ctx (h.coreOf r.row) c.t.d.toNat) then .next s
        else
          let written : Except Stop State := match d.tape with
            | none => .ok s
            | some r => s.writeTape hid h c r
          match written with
          | .error (.cause k row addr) =>
            .next (s.takeTrap hid (engineInfo e c k row addr 0 false))
          | .error (.absent _ dpa w) => .next (s.pageAbsent hid dpa w)
          | .error .held => .next s
          | .ok s =>
            let s := s.writeTiles h c
            let s := d.pops.foldl (fun s p => s.modCore p.1 (fun k => k.setRing p.2 (k.ring p.2).pop)) s
            let s := if e = .mx then s.touchLeases h c else s
            let s := s.traceAll h e c d
            .next (s.modHart hid (fun g => g.completeHead s.now e c d)))

/-! ## RECORD (R226, R227) -/

/-- The policy block breaks R227: a reserved bit, or RECOMP for a ring or a vector register. -/
def policyBad (x : Nat) : Bool :=
  decide (2 ^ 160 ≤ x) || (List.range 48).any (fun n => bits x (65 + 2 * n) (64 + 2 * n) == 2)

/-- RECORD in the hart: it waits for the MX commands dispatched before it; an empty mask gives no effect (R122). -/
def recordOp (px : Px) (s : State) (f : Nat → Hart → Nat → Out) : Out :=
  withRegs s px [] (fun hid h =>
    match h.active px with
    | [] => .next (s.retire hid h px)
    | j :: _ => if h.awaits .mx then .next s else f hid h j)

/-- RECORD_OFF (R226). -/
def execRecordOff (px : Px) (s : State) : Out :=
  recordOp px s (fun hid h _ => .next (s.retire hid { h with csr := { h.csr with recording := false } } px))

/-- RECORD_MARK (R226). -/
def execRecordMark (px : Px) (s : State) : Out :=
  recordOp px s (fun hid h _ => .next (s.retire hid { h with csr := { h.csr with recMark := h.csr.tapen } } px))

/-- RECCTL.ON set with the policy block read; an empty tape starts after the block (R226). -/
def Hart.recordOn (h : Hart) (policy : Nat) : Hart :=
  let c := { h.csr with recording := true, policy := BitVec.ofNat 160 policy }
  { h with csr := if c.tapen = 0 then { c with tapep := c.tapeb + 256, recMark := 0 } else c }

/-- RECORD_ON (R226, R227). -/
def execRecordOn (px : Px) (s : State) : Out :=
  recordOp px s (fun hid h j =>
    if h.csr.tapel.toNat < h.csr.tapeb.toNat + 256 then .next (s.takeTrap hid (scalarInfo h 1 .tapeCorrupt j none))
    else
      match s.rawStruct h j 256 256 1 h.csr.tapeb with
      | .error x => .next (s.stopScalar hid h 1 x)
      | .ok (s, x) =>
        if policyBad x then .next (s.takeTrap hid (scalarInfo h 1 .tapeCorrupt j (some h.csr.tapeb)))
        else .next (s.retire hid (h.recordOn x) px))

/-! ## The gradient map (R233) -/

/-- A gradient map entry. -/
structure GEntry where
  kind   : Nat
  fbase  : Nat
  flen   : Nat
  fmt    : BitVec 5
  cw     : BitVec 3
  base   : Dword
  stride : Int
  deriving DecidableEq, Repr

def gEntry (x : BitVec 256) : GEntry :=
  { kind := (x.extractLsb' 61 3).toNat, fbase := (x.extractLsb' 0 57).toNat, flen := (x.extractLsb' 64 32).toNat,
    fmt := x.extractLsb' 112 5, cw := x.extractLsb' 117 3, base := x.extractLsb' 128 64,
    stride := (x.extractLsb' 192 32).toInt }

/-- An entry whose GKIND is not 0 is malformed (R233). -/
def gEntryBad (x : BitVec 256) : Bool :=
  let e := gEntry x
  e.kind != 0
    && (x.extractLsb' 224 32 != 0 || x.extractLsb' 120 8 != 0 || x.extractLsb' 96 16 != 0 || x.extractLsb' 57 4 != 0
      || decide (4 ≤ e.kind) || !(e.cw == 2 || e.cw == 3)
      || !(e.fmt == 12 || e.fmt == 13 || e.fmt == 14) || decide (cwBits e.cw < fmtWidth e.fmt)
      || (e.kind != 1 && decide (31 < e.fbase)))

/-- The map's 1,024 bytes as its 32 entries. -/
def gMapOf (x : Nat) : List (BitVec 256) := (List.range 32).map (fun i => BitVec.ofNat 256 (x / 2 ^ (256 * i)))

/-- The map read at an address, every entry in use checked. -/
def readGMap (s : State) (h : Hart) (j : Nat) (a : Dword) : Except Stop (State × List (BitVec 256)) := do
  let (s, x) ← s.rawStruct h j 32 32 32 a
  let m := gMapOf x
  if m.any gEntryBad then throw (.cause .tapeCorrupt j (some a))
  pure (s, m)

/-! ## REVERSE (R232, R237) -/

/-- What stops REVERSE while the Spatula is at work: its trap, with the Spatula's engine code (R237, R264). -/
def State.stopSpatula (s : State) (hid : Nat) (h : Hart) (x : Stop) : State :=
  match x with
  | .cause c row addr => (s.settleStop h x).takeTrap hid { scalarInfo h 1 c row addr with eng := 6 }
  | .absent _ dpa w => s.pageAbsent hid dpa w
  | .held => s

/-- The start of record MARK as TAPEP takes it where no record is processed: a free value where the tape has no such
record (log 19). -/
def State.markStart (s : State) (h : Hart) : Dword :=
  let c := h.csr
  if c.recMark = 0 then c.tapeb + 256
  else if c.recMark = c.tapen then c.tapep
  else Config.freeDword s.draws &&& ~~~ 0x3F

/-- REVERSE's end: TAPEN and TAPEP go back to record MARK, and it retires (R232). -/
def State.reverseEnd (s : State) (hid : Nat) (h : Hart) (px : Px) (tapep : Dword) : State :=
  let c := { h.csr with tapen := h.csr.recMark, tapep := tapep, revAct := false }
  { s with draws := s.draws + 1 }.retire hid { h with csr := c } px

/-- The prefixes of the instruction at the hart's pc. -/
def State.prefixesAt (s : State) (h : Hart) : Px :=
  match decode (s.peekWords h h.pc 3) with
  | .instr (.reverse px _) _ => px
  | _ => { diep := none, valx := none }

/-- REVERSE (R232, R233): the map is read and checked, and the Spatula is set to work. It requires a lease requested or
held, whether it begins or resumes. -/
def execReverse (px : Px) (a : Reg) (s : State) : Out :=
  withRegs s px [a.toNat] (fun hid h =>
    match h.wait, h.active px with
    | .reverse _ _, _ => .next s
    | _, [] => .next (s.retire hid h px)
    | _, j :: _ =>
      if h.awaits .mx then .next s
      else
        let va := h.reg j a.toNat
        if (s.leaseOf h (h.coreOf j)).state = .none then .next (s.takeTrap hid (scalarInfo h 1 .leaseNotHeld j none))
        else if va.toNat % 32 ≠ 0 then .next (s.takeTrap hid (scalarInfo h 1 .misaligned j (some va)))
        else
          let c := { h.csr with recording := false }
          let c := if c.revAct then c else { c with revAct := true, revNext := c.tapen - 1 }
          let h := { h with csr := c }
          let s := s.setHart hid h
          match readGMap s h j va with
          | .error x => .next (s.stopSpatula hid h x)
          | .ok (s, m) =>
            if h.csr.tapen.toNat ≤ h.csr.recMark.toNat then .next (s.reverseEnd hid h px (s.markStart h))
            else .next (s.setHart hid { h with wait := .reverse va m, lastProgress := s.now }))

/-! ## Records read back (R236) -/

/-- A source descriptor read back (R229). -/
structure Desc where
  kind : Nat
  mode : Nat
  rz   : Nat
  tag  : BitVec 24
  ref  : Nat
  loc  : Nat
  deriving DecidableEq, Repr

def descOf (x i : Nat) : Desc :=
  let d := bits x (255 + 128 * i) (128 + 128 * i)
  { kind := bits d 3 0, mode := bits d 5 4, rz := bits d 7 6, tag := BitVec.ofNat 24 (bits d 31 8), ref := bits d 63 32,
    loc := bits d 127 64 }

/-- A record read back: its address and index, and its header's fields. -/
structure Recorded where
  va    : Dword
  index : Nat
  opc   : Nat
  mod   : Nat
  dtile : Nat
  dtag  : BitVec 24
  srcs  : List Desc
  deriving DecidableEq, Repr

/-- The kind of source i of an opcode (R228). -/
def sourceKind (opc i : Nat) : Nat :=
  match opc with
  | 0x10 | 0x11 => 2
  | 0x16 => if i = 0 then 1 else 5
  | 0x17 => if i = 0 then 1 else 4
  | 0x1E => 3
  | _ => 1

/-- A header breaks R236 in its own fields. -/
def headerBad (x : Nat) : Bool :=
  let opc := bits x 7 0
  let mod := bits x 15 8
  let n := bits x 23 16
  let ds := (List.range n).map (descOf x)
  let all := (List.range 3).map (descOf x)
  decide (opc < 0x10) || decide (0x1F < opc) || n != sourceCount opc mod || bits x 71 69 != 0 || bits x 31 26 != 0
    || all.any (fun d => d.rz != 0 || decide (5 < d.kind))
    || ds.zipIdx.any (fun d => d.1.kind != sourceKind opc d.2
        || (d.1.mode == 3 && d.1.kind != 5 && needed opc mod d.2))

def recordedOf (va : Dword) (k x : Nat) : Recorded :=
  { va := va, index := k, opc := bits x 7 0, mod := bits x 15 8, dtile := bits x 68 64, dtag := BitVec.ofNat 24 (bits x 95 72),
    srcs := (List.range (bits x 23 16)).map (descOf x) }

/-- Record n found by walking LEN forward from TAPEB + 256, with the checks of R236 on the way; `left` records remain
to be passed from record k, and `prev` is the length of the record below it. -/
def findRecord (h : Hart) (j : Nat) : Nat → Nat → Dword → Nat → State → Except Stop (State × Recorded)
  | left, k, va, prev, s => do
    let (s, x) ← s.rawStruct h j 64 64 1 va
    let len := bits x 111 96
    if bits x 63 32 ≠ k || len = 0 || bits x 127 112 ≠ prev then throw (.cause .tapeCorrupt j (some va))
    match left with
    | 0 =>
      if headerBad x then throw (.cause .tapeCorrupt j (some va))
      pure (s, recordedOf va k x)
    | left + 1 => findRecord h j left (k + 1) (va + BitVec.ofNat 64 (256 * len)) len s

/-- Record n of the hart's tape. -/
def State.record (s : State) (h : Hart) (j n : Nat) : Except Stop (State × Recorded) :=
  findRecord h j n 0 (h.csr.tapeb + 256) 0 s

/-- The sectors of a SAVE payload. -/
def payloadOf (h : Hart) (j : Nat) : Nat → Dword → State → Except Stop (State × List Sector)
  | 0, _, s => .ok (s, [])
  | n + 1, va, s => do
    let (s, _, l) ← s.unitLoc h j .r va
    let (s, xs) ← payloadOf h j n (va + 256) s
    pure (s, s.readSector l :: xs)

/-- The reader of PLAIN sectors: LDFMT. -/
def Hart.reader (h : Hart) : Reader := { fmt := h.csr.ldFmt, cw := h.csr.ldCw, sexp := h.csr.ldSexp }

/-- The row whose core recorded a record's registrations, else the row of REVERSE. -/
def State.keepRow (s : State) (hid : Nat) (h : Hart) (j n : Nat) : Nat :=
  match s.keeps.find? (fun k => decide (k.hart = hid) && decide (k.record = n)) with
  | some k => (h.allRows.find? (fun i => h.coreOf i = k.core)).getD j
  | none => j

/-- A tile as coded rows: a payload of 1,024 sectors. -/
def tileOfSectors (tag : BitVec 24) (xs : List Sector) : TileRes :=
  { tag := tag, rows := piecesOf 256 256 (xs.flatMap (fun x => secSlots x 3)), fl := 0 }

/-- A tile in an accumulator. -/
def State.tileRes (s : State) (core t : Nat) : TileRes :=
  { tag := s.tileTag core t, rows := s.tileRows core t, fl := 0 }

/-- Values read from memory at the rows of a KEEP source: `n` elements of each of 256 rows at the tag's container. -/
def keepRows (s : State) (h : Hart) (j n : Nat) (d : Desc) : Except Stop (State × List (List Exact)) := do
  let w := tagCw d.tag
  let row := fun (i : Nat) => BitVec.ofNat 64 d.loc + BitVec.ofInt 64 (i * (BitVec.ofNat 32 d.ref).toInt)
  let c : Command := h.command { diep := none, valx := none } emptyTemplate none 0 0 0
  let (s, m) ← openSources s h c j (fun o => if !o.zero && o.cw != w then some .containerMismatch else none)
    (touchedSectors ((List.range 256).map (fun i => (row i, n * cwBits w / 8))))
  let vs := valuesOf w m
  pure (s, (List.range 256).map (fun i => (List.range n).map (fun e => valueAt vs (elemPlace (cwBits w) (row i) (cwBits w * e)))))

/-- Rows of values rounded in RNE into a tag's format and exponent (R236). -/
def reround (rd : Reader) (tag : BitVec 24) (rows : List (List Exact)) : Except Cause (List (List Exact)) := do
  let w := tagCw tag
  let f := tagFmt tag
  let n := elemCount w
  let xs := (rows.flatMap id).map (fun x => (x, fitFrom (fmtInt f)))
  let (ss, _, _) := encodeTile f w (tagSexp tag).toInt 0 false (piecesOf n (8 * cwBits w) xs) 0
  let os ← ss.mapM (openScaled rd)
  pure (piecesOf 64 256 (os.flatMap (fun o => o.values w)))

/-- The values of a ring operand of a record, 64 columns (R236). -/
def ringVals (s : State) (hid : Nat) (h : Hart) (j : Nat) (r : Recorded) (d : Desc) :
    Except Stop (State × List (List Exact)) := do
  if tagCls d.tag = 0 then pure (s, List.replicate 256 (List.replicate 64 (zeroOf false)))
  else if d.mode = 1 then
    let (s, xs) ← payloadOf h j (8 * cwBits (tagCw d.tag)) (r.va + BitVec.ofNat 64 d.ref) s
    let os ← atRow j (xs.mapM (openScaled h.reader))
    pure (s, piecesOf 64 256 (os.flatMap (fun o => o.values (tagCw d.tag))))
  else
    let (s, rows) ← keepRows s h (s.keepRow hid h j r.index) 64 d
    let rows ← atRow j (reround h.reader d.tag rows)
    pure (s, rows)

/-- A tile operand held by SAVE or KEEP (R236). -/
def heldTile (s : State) (hid : Nat) (h : Hart) (j : Nat) (r : Recorded) (d : Desc) : Except Stop (State × TileRes) := do
  if tagCls d.tag = 0 then pure (s, TileRes.zero)
  else if d.mode = 1 then
    let (s, xs) ← payloadOf h j 1024 (r.va + BitVec.ofNat 64 d.ref) s
    pure (s, tileOfSectors d.tag xs)
  else
    let core := h.coreOf (s.keepRow hid h j r.index)
    let s := s.useTile h core d.loc
    pure (s, s.tileRes core d.loc)

/-! ## RECOMP (R236) -/

/-- The tiles of the Spatula's own storage that the re-run of a producer uses. -/
def scratchA : Nat := 0
def scratchB : Nat := 1
def scratchD : Nat := 2

/-- The command that a re-run executes on the Spatula's storage. -/
def rerunCommand (h : Hart) (r : Recorded) (scalar : Nat) : Command :=
  let b := if r.opc = 0x17 then (r.srcs.getD 1 (descOf 0 0)).loc else scratchB
  let t : Template :=
    { emptyTemplate with
      opc := BitVec.ofNat 8 r.opc
      mod := BitVec.ofNat 8 r.mod
      d := BitVec.ofNat 8 scratchD
      a := BitVec.ofNat 8 scratchA
      b := BitVec.ofNat 8 b
      fmt := tagFmt r.dtag }
  let c : Command := h.command { diep := none, valx := none } t none 0 0 0
  { c with cap := h.allRows.map (fun _ => { Captured.zero with c := BitVec.ofNat 64 scalar }) }

/-- The meaning of an operation that a re-run executes in a row: none for TMMA, TMMAP and TLOADA. -/
def rerunRow (opc : Nat) (h : Hart) (c : Command) (s : State) (j : Nat) : Option (Except Stop ArrayRes) :=
  match opc with
  | 0x12 => some (.ok { res := TileRes.zero, srcs := [] })
  | 0x13 => some (binRow (addE false) (· + ·) h c s j)
  | 0x14 => some (binRow (fun x y => addE false x y.negate) (· - ·) h c s j)
  | 0x15 => some (binRow mulE (· * ·) h c s j)
  | 0x16 =>
    let x := fp32.decode (tsclScalar c j)
    some (unaryRow true true (fun _ _ a => joinRows tagFp32 (a.map (fun r => r.map (fun e => floatElem (mulE e x)))))
      noMore h c s j)
  | 0x17 => some (tbiasRow h c s j)
  | 0x18 =>
    let m := c.t.mod.toNat % 8
    some (unaryRow true (m < 4) (fun _ _ a => joinRows tagFp32 (a.map (fun r => r.map (fun e => floatElem (tactE m e)))))
      noMore h c s j)
  | 0x19 => some (unaryRow false true (fun int _ a => inColumn int (lineSum int) a) noMore h c s j)
  | 0x1A => some (unaryRow false true (fun int _ a => inRow int (lineSum int) a) noMore h c s j)
  | 0x1B => some (unaryRow false true (fun int _ a => inColumn int (lineMax int) a) noMore h c s j)
  | 0x1C => some (codeRow (fun tag a => { tag := tag, rows := transposeRows 0 a, fl := 0 }) h c s j)
  | 0x1D => some (codeRow (tcvtRows c.t.fmt) h c s j)
  | 0x1F => some (codeRow (fun tag a => { tag := tag, rows := a, fl := 0 }) h c s j)
  | _ => none

/-- The operands of a producer put into the Spatula's storage: tiles, and a vector register's sectors. -/
def rerunSources (hid : Nat) (h : Hart) (j : Nat) (r : Recorded) :
    List (Desc × Nat) → State → State → Hart → Except Stop (State × State × Hart)
  | [], s, z, g => .ok (s, z, g)
  | (d, i) :: ds, s, z, g => do
    if d.kind = 5 then rerunSources hid h j r ds s z g
    else if 2 ≤ d.mode then throw (.cause .tapeRecompDepth j none)
    else if d.kind = 4 then
      let n := if tagCls d.tag = 0 then 0 else h.csr.xcl
      let (s, xs) ← payloadOf h j n (r.va + BitVec.ofNat 64 d.ref) s
      let row := (List.range h.csr.xcl).foldl (fun (x : RowRegs) q => x.setVec d.loc q (xs.getD q zeroSector)) (g.row j)
      rerunSources hid h j r ds s z (g.setRow j row)
    else
      let (s, t) ← heldTile s hid h j r d
      let core := h.coreOf j
      let slot := if i = 0 then scratchA else scratchB
      rerunSources hid h j r ds s (z.putTile core slot t) g

/-- The values of a saved TLOADA source (R229): `xs` are its sectors, row after row; PLAIN ones are read by the source's
tag. A row of E2M1B in half-byte containers is one half of its sector: row 0's half is named by LOC, and since a SAVE
descriptor does not hold the row stride, whether odd rows lie in the other half is a free value (log 19). -/
def savedRows (d : Desc) (flip : Bool) (xs : List Sector) : Except Cause (List (List Exact)) := do
  let w := tagCw d.tag
  let rd : Reader := ⟨tagFmt d.tag, w, tagSexp d.tag⟩
  let os ← xs.mapM (openScaled rd)
  let rows := piecesOf (tloadaPer w) 256 os
  pure (rows.zipIdx.map (fun y =>
    let vs := y.1.flatMap (fun o => o.values w)
    let half := (decide (d.loc % 256 ≠ 0)) ^^ (flip && decide (y.2 % 2 = 1))
    if w == 0 && half then (vs.drop 256).take 256 else vs.take 256))

/-- TLOADA's result re-made from its source: the payload's sectors, or, with KEEP, memory read again (R225, R229). -/
def rerunLoad (s : State) (hid : Nat) (h : Hart) (j : Nat) (r : Recorded) : Except Stop (State × TileRes) := do
  let d := r.srcs.getD 0 (descOf 0 0)
  if 2 ≤ d.mode then throw (.cause .tapeRecompDepth j none)
  else if tagCls r.dtag = 0 then pure (s, TileRes.zero)
  else
    let (s, rows) ← if d.mode = 1 then do
        let (s, xs) ← payloadOf h j (256 * tloadaPer (tagCw d.tag)) (r.va + BitVec.ofNat 64 d.ref) s
        let rows ← atRow j (savedRows d ((Config.freeDword (s.draws + 65536 * 3)).getLsbD 0) xs)
        pure (s, rows)
      else keepRows s h (s.keepRow hid h j r.index) 256 d
    let int := fmtInt (tagFmt r.dtag)
    pure (s, joinRows (kindTag int) (rows.map (fun x => x.map (fun v => if int then intElem (intOf v) else floatElem (v, 0)))))

/-- A producer re-run into the Spatula's own storage (R236). -/
def rerun (s : State) (hid : Nat) (h : Hart) (j n below : Nat) : Except Stop (State × TileRes) := do
  if below ≤ n then throw (.cause .tapeCorrupt j none)
  let (s, r) ← s.record h j n
  if r.opc = 0x1E then rerunLoad s hid h j r
  else
    let (s, z, g) ← rerunSources hid h j r r.srcs.zipIdx s s h
    let scalar := ((r.srcs.find? (fun d => d.kind = 5)).map (fun d => d.loc % 2 ^ 32)).getD 0
    match rerunRow r.opc g (rerunCommand h r scalar) z j with
    | none => throw (.cause .tapeCorrupt j (some r.va))
    | some (.error x) => throw x
    | some (.ok a) => pure (s, a.res)

/-- The values of a tile operand that the adjoint needs (R236). -/
def tileOperand (s : State) (hid : Nat) (h : Hart) (j : Nat) (r : Recorded) (d : Desc) :
    Except Stop (State × List (List Exact)) := do
  let (s, t) ← if d.mode = 2 then rerun s hid h j d.ref r.index else heldTile s hid h j r d
  pure (s, if tagCls t.tag = 0 then List.replicate 256 (List.replicate 256 (zeroOf false))
           else t.rows.map (fun x => x.map (tileValue t.tag)))

/-- The values of the sources that the adjoint needs, by position; nothing for the others. -/
def operandVals (hid : Nat) (h : Hart) (j : Nat) (r : Recorded) :
    List (Desc × Nat) → State → Except Stop (State × List (List (List Exact)))
  | [], s => .ok (s, [])
  | (d, i) :: ds, s => do
    let (s, v) ← if !needed r.opc r.mod i then pure (s, []) else if d.kind = 2 then ringVals s hid h j r d
      else tileOperand s hid h j r d
    let (s, vs) ← operandVals hid h j r ds s
    pure (s, v :: vs)

/-! ## Gradient buffers (R233, R235) -/

/-- A gradient sector as it is being updated. -/
structure GSec where
  dpa  : Nat
  loc  : Loc
  fmt  : BitVec 5
  cw   : BitVec 3
  vals : List Exact
  deriving DecidableEq, Repr

/-- A gradient buffer of one operand: the entry, and the address of element (0, 0). -/
structure GBuf where
  entry : GEntry
  base  : Dword
  deriving DecidableEq, Repr

/-- The lookup of an operand (R233): none where the entry discards. -/
def lookupGrad (m : List (BitVec 256)) (kind loc : Nat) (tag : BitVec 24) : Option (Option GBuf) :=
  let es := (m.map gEntry).filter (fun e => e.kind != 0)
  let w := cwBits (tagCw tag)
  let hit := fun (e : GEntry) =>
    match kind with
    | 1 => e.kind == 2 && e.fbase == loc
    | 4 => e.kind == 3 && e.fbase == loc
    | _ => e.kind == 1 && decide (e.fbase ≤ loc) && decide (loc < e.fbase + e.flen) && decide (8 * (loc - e.fbase) % w = 0)
  match es.find? hit with
  | none => none
  | some e =>
    if e.base = 0 then some none
    else
      let skip := if e.kind = 1 then 8 * (loc - e.fbase) / w * (cwBits e.cw / 8) else 0
      some (some { entry := e, base := e.base + BitVec.ofNat 64 skip })

/-- The address of element (i, k) of a gradient buffer. -/
def GBuf.addr (b : GBuf) (i k : Nat) : Dword :=
  b.base + BitVec.ofInt 64 (i * b.entry.stride) + BitVec.ofNat 64 (k * (cwBits b.entry.cw / 8))

/-- The elements of a shape: rows, then columns of each. -/
def cellsOf (rows cols : List Nat) : List (Nat × Nat) := rows.flatMap (fun i => cols.map (fun k => (i, k)))

/-- A gradient sector brought in, with every check of its access, to be read only or updated (R235, R237). -/
def gradSector (p : Perm) (h : Hart) (j : Nat) (b : GBuf) (a : Nat) (s : State) (m : Map GSec) :
    Except Stop (State × Map GSec) := do
  let va := BitVec.ofNat 64 a
  match look m a with
  | some x => if x.cw = b.entry.cw then pure (s, m) else throw (.cause .containerMismatch j (some va))
  | none =>
    let _ ← s.issueCheck h j p va 256 256
    let (s, dpa, l) ← s.unitLoc h j p va
    let o ← match openScaled h.reader (s.readSector l) with
      | .ok o => pure o
      | .error k => throw (.cause k j (some va))
    if !o.zero && o.cw ≠ b.entry.cw then throw (.cause .containerMismatch j (some va))
    pure (s, put m a { dpa := dpa, loc := l, fmt := b.entry.fmt, cw := b.entry.cw, vals := o.values b.entry.cw })

/-- The sectors of some elements of a buffer brought in; an element that is not aligned to its width raises MISALIGNED
(log 19). -/
def gradSectors (p : Perm) (h : Hart) (j : Nat) (b : GBuf) (cells : List (Nat × Nat)) (s : State) (m : Map GSec) :
    Except Stop (State × Map GSec) := do
  let n := cwBits b.entry.cw / 8
  let as := cells.map (fun c => b.addr c.1 c.2)
  match as.find? (fun a => a.toNat % n ≠ 0) with
  | some a => throw (.cause .misaligned j (some a))
  | none =>
    (touchedSectors (as.map (fun a => (a, n)))).foldlM (fun (x : State × Map GSec) a => gradSector p h j b a x.1 x.2) (s, m)

/-- The value at element (i, k). -/
def gradAt (m : Map GSec) (b : GBuf) (i k : Nat) : Exact :=
  let a := b.addr i k
  match look m (a.toNat / 256 * 256) with
  | some x => x.vals.getD (a.toNat % 256 / (cwBits x.cw / 8)) (zeroOf false)
  | none => zeroOf false

/-- A value rounded in RNE into a buffer's format, with the flags of the rounding (R235). -/
def gradRound (f : BitVec 5) (x : Exact × Flags) : Exact × Flags :=
  let q := roundF (fspec f) 0 false 0 x.1
  ((fspec f).decode q.1, x.2 ||| q.2)

/-- Gradient sectors with the flags that their updates have raised. -/
structure Grads where
  secs : Map GSec
  fl   : Flags
  deriving DecidableEq, Repr

/-- An element of a buffer updated from its exact value (R235). `spoilt` gives the value where the map was written while
REVERSE ran: a free value (R233, log 14). -/
def gradElem (spoilt : Option Nat) (b : GBuf) (f : Nat → Nat → Exact → Exact × Flags) (m : Grads) (c : (Nat × Nat) × Nat) :
    Grads :=
  let fmt := b.entry.fmt
  let i := c.1.1
  let k := c.1.2
  let a := b.addr i k
  let g := match spoilt with
    | some d => ((fspec fmt).decode ((Config.freeDword (d + c.2)).toNat % 2 ^ fmtWidth fmt), 0)
    | none => gradRound fmt (f i k (gradAt m.secs b i k))
  { secs := upd m.secs (a.toNat / 256 * 256) (fun x =>
      { x with vals := x.vals.set (a.toNat % 256 / (cwBits x.cw / 8)) g.1 }),
    fl := m.fl ||| g.2 }

/-- The elements of a sector rounded into GFMT: those just updated, which are values of it, stay (R235). -/
def gradKeep (fmt : BitVec 5) (m : Grads) (a : Nat) : Grads :=
  let fl := (look m.secs a).elim 0 (fun x => (x.vals.map (fun v => (gradRound fmt (v, 0)).2)).foldl (· ||| ·) 0)
  { secs := upd m.secs a (fun x => { x with fmt := fmt, vals := x.vals.map (fun v => (gradRound fmt (v, 0)).1) }),
    fl := m.fl ||| fl }

/-- Elements of a buffer updated once each, and the others of its sectors rounded into GFMT (R235). -/
def gradUpdate (spoilt : Option Nat) (b : GBuf) (cells : List (Nat × Nat)) (f : Nat → Nat → Exact → Exact × Flags)
    (m : Grads) : Grads :=
  let n := cwBits b.entry.cw / 8
  (touchedSectors (cells.map (fun c => (b.addr c.1 c.2, n)))).foldl (gradKeep b.entry.fmt)
    (cells.zipIdx.foldl (gradElem spoilt b f) m)

/-- The gradient sectors written back (R235). -/
def gradStore (s : State) (h : Hart) (j : Nat) (m : Map GSec) : Except Stop State :=
  m.foldlM (fun s y =>
    let x := y.2
    let e := encodeSector x.fmt x.cw (some 0) .conv 0 false 0 (x.vals.map (fun v => (v, true)))
    if barredOnCxl x.dpa x.loc e.sector then .error (.cause .storeFormatOverflow j (some (BitVec.ofNat 64 y.1)))
    else .ok (s.putSector h j x.dpa x.loc e.sector)) s

/-! ## Adjoints (R234) -/

def oneE : Exact := .fin false 1 1

/-- The derivative of TACT's function from the value it needs (R234), in FP32, with its flags. -/
def tactSlope (m : Nat) (x : Exact) : Exact × Flags :=
  match m with
  | 0 => (if !x.isNan && x.cmp (zeroOf false) == .gt then oneE else zeroOf false, 0)
  | 1 => gradRound 14 (transE false .dgelu x)
  | 2 => gradRound 14 (transE false .dsilu x)
  | 3 => gradRound 14 (addE false oneE (mulE x x).1.negate)
  | 4 => gradRound 14 (mulE x (addE false oneE x.negate).1)
  | _ => (x, 0)

/-- The place of a row's maximum: the lowest index of the largest element, or of the first NaN (R234). -/
def maxPlace (xs : List Exact) : Nat :=
  match xs.findIdx? Exact.isNan with
  | some i => i
  | none =>
    (xs.zipIdx.foldl (fun (acc : Option (Exact × Nat)) x =>
      match acc with
      | none => some x
      | some y => if y.1.lessTotal x.1 then some x else some y) none).elim 0 (fun y => y.2)

/-- A contribution to a source's gradient: its elements, and the terms added to one. -/
structure Contribution where
  src   : Nat
  cells : List (Nat × Nat)
  terms : Nat → Nat → List (Exact × Flags)

def one1 (x : Exact) : List (Exact × Flags) := [(x, 0)]

/-- The columns of a ring operand that a core's half of a pair holds (R221). -/
def halfCols (odd : Bool) : List Nat := (List.range 32).map (fun k => if odd then k + 32 else k)

/-- The contributions of a record, in source order (R234); `odd` is the parity of the core that recorded it. -/
def contributions (r : Recorded) (odd : Bool) (dc : List (List Exact)) (vals : List (List (List Exact))) :
    List Contribution :=
  let all := List.range 256
  let tile := cellsOf all all
  let c := fun i j => (dc.getD i []).getD j (zeroOf false)
  let v := fun n i k => ((vals.getD n []).getD i []).getD k (zeroOf false)
  let prod := fun (x y : Exact) => [mulE x y]
  match r.opc with
  | 0x10 =>
    let cells := cellsOf all (List.range 64)
    [⟨0, cells, fun i k => products (all.map (c i)) (all.map (fun j => v 1 j k))⟩,
     ⟨1, cells, fun j k => products (all.map (fun i => c i j)) (all.map (fun i => v 0 i k))⟩]
  | 0x11 =>
    let mine := halfCols odd
    let b := fun j k => if mine.contains k then v 1 j k else v 2 j k
    let db := fun j k => products (all.map (fun i => c i j)) (all.map (fun i => v 0 i k))
    [⟨0, cellsOf all (List.range 64), fun i k => products (all.map (c i)) (all.map (fun j => b j k))⟩,
     ⟨1, cellsOf all mine, db⟩, ⟨2, cellsOf all (halfCols (!odd)), db⟩]
  | 0x13 => [⟨0, tile, fun i j => one1 (c i j)⟩, ⟨1, tile, fun i j => one1 (c i j)⟩]
  | 0x14 => [⟨0, tile, fun i j => one1 (c i j)⟩, ⟨1, tile, fun i j => one1 (c i j).negate⟩]
  | 0x15 => [⟨0, tile, fun i j => prod (c i j) (v 1 i j)⟩, ⟨1, tile, fun i j => prod (c i j) (v 0 i j)⟩]
  | 0x16 =>
    let x := fp32.decode (((r.srcs.getD 1 (descOf 0 0)).loc) % 2 ^ 32)
    [⟨0, tile, fun i j => prod x (c i j)⟩]
  | 0x17 => [⟨0, tile, fun i j => one1 (c i j)⟩, ⟨1, cellsOf [0] all, fun _ j => all.map (fun i => (c i j, 0))⟩]
  | 0x18 =>
    let m := r.mod % 8
    let n := if m < 3 then 0 else 1
    [⟨0, tile, fun i j =>
      let f := tactSlope m (v n i j)
      let p := mulE (c i j) f.1
      [(p.1, p.2 ||| f.2)]⟩]
  | 0x19 => [⟨0, tile, fun i _ => one1 (c i 0)⟩]
  | 0x1A => [⟨0, tile, fun _ j => one1 (c 0 j)⟩]
  | 0x1B => [⟨0, all.map (fun i => (i, maxPlace ((vals.getD 0 []).getD i []))), fun i _ => one1 (c i 0)⟩]
  | 0x1C => [⟨0, tile, fun i j => one1 (c j i)⟩]
  | 0x1D | 0x1E | 0x1F => [⟨0, tile, fun i j => one1 (c i j)⟩]
  | _ => []

/-- The buffers that a record's contributions go to, with the sectors of each brought in. -/
def gradTargets (h : Hart) (j : Nat) (map : List (BitVec 256)) (r : Recorded) :
    List Contribution → State → Map GSec → Except Stop (State × Map GSec × List (Contribution × GBuf))
  | [], s, m => .ok (s, m, [])
  | x :: xs, s, m => do
    let d := r.srcs.getD x.src (descOf 0 0)
    match lookupGrad map d.kind d.loc d.tag with
    | none => throw (.cause .gmapMiss j none)
    | some none => gradTargets h j map r xs s m
    | some (some b) =>
      let (s, m) ← gradSectors .rw h j b x.cells s m
      let (s, m, ys) ← gradTargets h j map r xs s m
      pure (s, m, (x, b) :: ys)

/-- One record's adjoint applied, whole, with its flags (R234, R235, R237). TMMA and TMMAP only read the destination's
gradient buffer. -/
def applyRecord (s : State) (hid : Nat) (h : Hart) (j : Nat) (map : List (BitVec 256)) (spoilt : Option Nat) (r : Recorded) :
    Except Stop (State × Flags) := do
  let keeps := r.opc == 0x10 || r.opc == 0x11
  let tile := cellsOf (List.range 256) (List.range 256)
  let (s, vals) ← operandVals hid h j r r.srcs.zipIdx s
  let dst ← match lookupGrad map 1 r.dtile r.dtag with
    | none => throw (Stop.cause .gmapMiss j none)
    | some b => pure b
  let (s, m) ← match dst with
    | none => pure (s, [])
    | some b => gradSectors (if keeps then .r else .rw) h j b tile s []
  let dc := match dst with
    | none => []
    | some b => (List.range 256).map (fun i => (List.range 256).map (fun k => gradAt m b i k))
  let odd := h.coreOf (s.keepRow hid h j r.index) % 2 = 1
  let (s, m, ts) ← gradTargets h j map r (contributions r odd dc vals) s (if keeps then [] else m)
  let g : Grads := { secs := m, fl := 0 }
  let g := match dst with
    | none => g
    | some b => if keeps then g else gradUpdate none b tile (fun _ _ _ => (zeroOf false, 0)) g
  let g := ts.foldl (fun g y => gradUpdate spoilt y.2 y.1.cells (fun i k v => macSteps 4 64 v (y.1.terms i k)) g) g
  let s ← gradStore s h j g.secs
  pure (s, g.fl)

/-- A record passed: its flags go to XSTAT, its registrations end, and REVIDX names the one below while that is not under MARK (R231,
R232). DEDUCED (log 19): NEXT rests at MARK when the last record has passed. -/
def State.passRecord (s : State) (hid : Nat) (h : Hart) (j n : Nat) (fl : Flags) : State :=
  let core := h.coreOf j
  let l := s.leaseOf h core
  let s := s.setLease h core { l with usedAt := s.cycle core }
  let s := { s with keeps := s.keeps.filter (fun k => !(decide (k.hart = hid) && decide (k.record = n))),
                    draws := s.draws + 65536 * 4 }
  s.modHart hid (fun g => { g with csr := { g.csr with xstat := g.csr.xstat ||| fl, revNext := if n ≤ g.csr.recMark.toNat then BitVec.ofNat 32 n else BitVec.ofNat 32 n - 1 }, lastProgress := s.now })

/-- SPATULA_RECORD (R232 to R237): the Spatula applies record NEXT of the focus hart, whole or not at all, and ends
REVERSE after record MARK. It stands still with a frozen core (R99), and a deadline comes before it (R358). -/
def execSpatulaRecord (s : State) : Out :=
  withHart s (fun hid h =>
    match h.wait with
    | .reverse a map =>
      let px := s.prefixesAt h
      let j := (h.active px).headD 0
      let core := h.coreOf j
      let n := h.csr.revNext.toNat
      if (h.state ≠ .running && h.state ≠ .sleeping) || s.stopped h || s.expired h then .next s
      else
        match (s.leaseOf h core).state with
        | .none => .next (s.stopSpatula hid h (.cause .leaseNotHeld j none))
        | .requested => .next s
        | .held =>
          if s.arrayBusy hid core then .next s
          else
            let spoilt := match s.rawStruct h j 32 32 32 a with
              | .ok (_, x) => if gMapOf x = map then none else some s.draws
              | .error _ => none
            match s.record h j n with
            | .error x => .next (s.stopSpatula hid h x)
            | .ok (s', r) =>
              match applyRecord s' hid h j map spoilt r with
              | .error x => .next (s.stopSpatula hid h x)
              | .ok (s', fl) =>
                let s' := s'.passRecord hid h j n fl
                if n ≤ h.csr.recMark.toNat then
                  match look s'.harts hid with
                  | some g => .next (s'.reverseEnd hid g px r.va)
                  | none => .next s'
                else .next s'
    | _ => .next s)

end Sys2Proof.Machine
end

