-- ==== Sys2Proof/Machine/Jobs.lean ====
section
/-! DEFINITION. Asynchronous jobs: their cards and footprints, their issue by the JB engine, and their steps
(spec/11_sync_system.md R255 to R260; spec/14_order_engines.md R295 to R301; spec/23_stacks.md R381, R382;
spec/27_link.md R403, R404). -/

namespace Sys2Proof.Machine

/-! ## What a job is asked to do -/

/-- A job's operation and operands, from a template or a card. -/
structure JobSpec where
  opc   : Nat
  op    : Nat
  fmt   : BitVec 5
  cw    : BitVec 3
  scope : Nat
  src   : Dword
  dst   : Dword
  sstr  : Dword
  dstr  : Dword
  n0    : Nat
  aux0  : Dword
  aux1  : Dword
  aux2  : Dword
  deriving DecidableEq, Repr

/-- Who issues a job: a hart's command in a die row, or a JOB node, whose addresses are DPAs (R336). -/
structure Issuer where
  ctx    : Nat
  hart   : Option Nat
  launch : Nat
  node   : Nat
  core   : Nat
  row    : Nat
  group  : Nat
  idx    : BitVec 16
  pc     : Dword
  tix    : BitVec 6
  rmode  : BitVec 3
  ldFmt  : BitVec 5
  ldCw   : BitVec 3
  ldSexp : BitVec 8
  prt    : Option (List Byte)
  deriving DecidableEq, Repr

/-- The agent that issues: what runs on a hart's core, or a JOB node, a member of entries 0 and 31 only (R279, R336). -/
def Issuer.agent (i : Issuer) : Agent := if i.hart.isSome then .core i.core else .other

/-- A card's fields (R257). -/
def specOf (x : Nat) : JobSpec :=
  { opc := bits x 7 0, op := bits x 26 24, fmt := BitVec.ofNat 5 (bits x 20 16), cw := BitVec.ofNat 3 (bits x 23 21),
    scope := bits x 12 8, src := BitVec.ofNat 64 (bits x 191 128), dst := BitVec.ofNat 64 (bits x 127 64),
    sstr := BitVec.ofNat 64 (bits x 319 256), dstr := BitVec.ofNat 64 (bits x 255 192), n0 := bits x 63 32,
    aux0 := BitVec.ofNat 64 (bits x 383 320), aux1 := BitVec.ofNat 64 (bits x 447 384),
    aux2 := BitVec.ofNat 64 (bits x 511 448) }

/-- A sector count per row in its limit (R257). -/
def JobSpec.n0Ok (j : JobSpec) : Bool := decide (1 ≤ j.n0) && decide (j.n0 ≤ 65536)

/-- A card's own fields are in their limits and the fields that its job does not name are zero (R258); JRECODE's OP is a
rounding mode (R60). -/
def JobSpec.fieldsOk (j : JobSpec) : Bool :=
  let noFmt := j.fmt == 0 && j.cw == 0
  let noStr := j.sstr == 0 && j.dstr == 0
  match j.opc with
  | 0x02 => j.n0Ok && noFmt && j.op == 0 && j.aux1 == 0 && j.aux2 == 0 && decide (1 ≤ j.aux0.toNat)
      && decide (j.aux0.toNat ≤ 2 ^ 24)
  | 0x03 | 0x04 => j.n0Ok && noFmt && j.op == 0
  | 0x06 => j.n0Ok && noFmt && noStr && decide (j.op ≤ 2) && j.aux0 == 0 && j.aux1 == 0 && j.aux2 == 0
  | 0x07 => j.n0Ok && noFmt && noStr && decide (j.op ≤ 2) && j.aux0 &&& ~~~ 0xFF03 == 0 && decide (10 ≤ j.aux2.toNat)
      && decide (j.aux2.toNat ≤ 100000)
  | 0x08 => j.n0Ok && noStr && fmtDefined j.fmt && decide (j.cw.toNat ≤ 4) && fmtFits j.fmt j.cw && decide (j.op ≤ 6)
      && j.aux0 &&& ~~~ 0x1FF == 0 && j.aux1 == 0 && j.aux2 == 0
  | 0x09 => j.n0 == 0 && noFmt && noStr && j.op == 0 && j.src == 0 && j.aux0 &&& ~~~ 0xFFF == 0
      && j.aux2 &&& ~~~ 0x3FFFFFFFF == 0
  | _ => false

/-- A card breaks R257 or R258 for an OPC. -/
def cardBad (x opc : Nat) : Bool :=
  let j := specOf x
  bits x 31 27 != 0 || bits x 15 13 != 0 || j.opc != opc || !j.fieldsOk

/-- The fault of a card (R257, R258): rounding mode 7 in a JRECODE card that is right otherwise is a reserved field (R60,
log 43). -/
def cardFault (x opc : Nat) : Option Cause :=
  let j := specOf x
  if !cardBad x opc then none
  else if opc = 0x08 && j.op = 7 && bits x 31 27 = 0 && bits x 15 13 = 0 && j.opc = opc && { j with op := 0 }.fieldsOk then
    some .reservedField
  else some .jobCardInvalid

/-- An address field of a card that is not aligned (R258). -/
def JobSpec.misaligned (j : JobSpec) : Option Dword :=
  let odd := [j.src, j.dst, j.sstr, j.dstr].find? (fun a => a.toNat % 256 != 0)
  match odd, j.opc with
  | some a, _ => some a
  | none, 0x03 | none, 0x04 => if j.aux1.toNat % 4 ≠ 0 then some j.aux1 else none
  | none, 0x07 => if j.aux1.toNat % 64 ≠ 0 then some j.aux1 else none
  | none, _ => none

/-! ## Addresses -/

/-- The DPA of a job's virtual address: through the KTT of its group, or the DPA itself for a JOB node, whose pages
must be the context's (R255, R336). -/
def State.jobDpa (s : State) (ctx group : Nat) (hart : Option Nat) (p : Perm) (va : Nat) : Except Cause Nat :=
  match hart with
  | some _ => (translate (s.ktt group) p va).map s.localDpa
  | none =>
    let e := s.pitEntry (va / 65536)
    if isHbm va && (pitState e == 0 || (pitOwnv e && decide (pitOwner e = ctx))) then .ok va else .error .kttPermission

/-- A job's access at the home slice. -/
def State.jobLoc (s : State) (j : Job) (p : Perm) (va : Dword) : Except Stop (State × Nat × Loc) :=
  match s.jobDpa j.ctx j.group j.hart p va.toNat with
  | .error c => .error (.cause c j.row (some va))
  | .ok dpa =>
    match s.dpaLoc (some j.ctx) j.core dpa with
    | .error (.absent _) => .error (.absent j.row dpa p.writes)
    | .error (.fault c) => .error (.cause c j.row (some va))
    | .error .held => .error .held
    | .ok l => .ok ((s.settle l dpa).crossed l, dpa, l)

/-- A raw read of some bytes inside one sector by an issuer; that of a hart meets its core's watch units (R432). -/
def State.issuerRead (s : State) (i : Issuer) (va : Dword) (n : Nat) : Except Stop (State × Nat) :=
  match s.jobDpa i.ctx i.group i.hart .r va.toNat with
  | .error c => .error (.cause c i.row (some va))
  | .ok dpa =>
    if i.hart.isSome && s.watched i.core i.ctx va.toNat n .r then .error (.cause .watch i.row (some va))
    else
    match s.dpaLoc (some i.ctx) i.core dpa with
    | .error (.absent _) => .error (.absent i.row dpa false)
    | .error (.fault c) => .error (.cause c i.row (some va))
    | .error .held => .error .held
    | .ok l =>
      let s := (s.settle l dpa).crossed l
      match rawFault (s.tagAt l.key) with
      | some c => .error (.cause c i.row (some va))
      | none => .ok (s, s.readRaw l n)

/-! ## Tensor requests (R381, R382) -/

/-- The DPA of handle h of stack n, and its descriptor. -/
def handleDpa (n h : Nat) : Nat := 0xF0020000000 + n * 65536 + h * 64
def State.handle (s : State) (n h : Nat) : Nat := getNat s.mem (handleDpa n h) 64

/-- A handle's fields. -/
structure TensorHandle where
  base    : Nat
  pad     : Nat
  rstride : Int
  cstride : Nat
  rows    : Nat
  cols    : Nat
  valid   : Bool
  ctx     : Nat
  cw      : BitVec 3
  fmt     : BitVec 5
  deriving DecidableEq, Repr

def handleOf (x : Nat) : TensorHandle :=
  { base := bits x 511 448, pad := bits x 447 384, rstride := signedOf 64 (bits x 383 320), cstride := bits x 319 256,
    rows := bits x 255 224, cols := bits x 223 192, valid := bitOf x 31, ctx := bits x 30 19,
    cw := BitVec.ofNat 3 (bits x 18 16), fmt := BitVec.ofNat 5 (bits x 12 8) }

/-- A handle breaks R381: PAD is an element code, and every bit above the code is zero (R36). -/
def handleBad (x : Nat) : Bool :=
  let h := handleOf x
  let w := cwBits h.cw / 8
  bits x 191 32 != 0 || bits x 15 13 != 0 || bits x 7 0 != 0 || h.cw == 0 || decide (4 < h.cw.toNat) || !fmtDefined h.fmt
    || h.fmt == fE2m1 || !fmtFits h.fmt h.cw || decide (2 ^ fmtWidth h.fmt ≤ h.pad) || h.rstride % w != 0 || h.cstride % w != 0
    || h.cstride == 0 || h.rows == 0 || h.cols == 0 || !isHbm h.base || h.base % w != 0

/-- The fields of a JTENS card as a request. -/
def JobSpec.request (j : JobSpec) : TensorReq :=
  { handle := j.aux0.toNat % 256, row0 := j.aux1.toNat % 2 ^ 32, col0 := j.aux1.toNat / 2 ^ 32, rows := j.aux2.toNat % 65536,
    cols := j.aux2.toNat / 65536 % 65536, layout := j.aux2.toNat / 2 ^ 32 % 4 }

/-- JTENS may not be issued (R382). -/
def State.tensorBad (s : State) (ctx stack : Nat) (r : TensorReq) : Bool :=
  let x := s.handle stack r.handle
  decide (11 < stack) || !(handleOf x).valid || decide ((handleOf x).ctx ≠ ctx) || handleBad x || r.rows == 0 || r.cols == 0
    || r.layout == 3

/-- The element positions of the output, row of the output by row, each row or block to be padded to a sector. -/
def tensorLines (r : TensorReq) : List (List (Nat × Nat)) :=
  let rows := List.range r.rows
  let cols := List.range r.cols
  match r.layout with
  | 0 => rows.map (fun a => cols.map (fun b => (r.row0 + a, r.col0 + b)))
  | 1 => cols.map (fun b => rows.map (fun a => (r.row0 + a, r.col0 + b)))
  | _ => (List.range ((r.cols + 63) / 64)).map (fun q =>
      rows.flatMap (fun a => (List.range 64).map (fun k => (r.row0 + a, r.col0 + 64 * q + k))))

/-- The DPA of an element inside the tensor. -/
def TensorHandle.elem (h : TensorHandle) (p : Nat × Nat) : Option Int :=
  if p.1 < h.rows && p.2 < h.cols then some ((h.base : Int) + p.1 * h.rstride + p.2 * h.cstride) else none

/-- The sectors of the handle that a request covers, by DPA; none where one lies outside the address range. -/
def tensorSectors (h : TensorHandle) (r : TensorReq) : Option (List Nat) :=
  let es := ((tensorLines r).flatMap id).filterMap h.elem
  if es.any (fun a => decide (a < 0) || decide ((hbmEnd : Int) ≤ a)) then none
  else some (touchedSectors (es.map (fun a => (BitVec.ofInt 64 a, 1))))

/-- The number of output sectors. -/
def outSectors (r : TensorReq) (w : BitVec 3) : Nat :=
  ((tensorLines r).map (fun l => (l.length * cwBits w + 2047) / 2048)).foldl (· + ·) 0

/-- What a request meets at a page: it waits for a pass, or it stops, with the DPA (R382): a tensor's sectors are named by
DPAs, so that is the address that its fault gives (DEDUCED, log 22). -/
inductive TensorStop where
  | hold
  | absent (dpa : Nat)
  | cause (c : Cause) (dpa : Nat)
  deriving DecidableEq, Repr

/-- A source sector of a request: its page must be PRESENT on the stack and the context's, and a
dirty line of it is written back first (R382). -/
def State.tensorSector (s : State) (ctx stack : Nat) (h : TensorHandle) (dpa : Nat) :
    Except TensorStop (State × Opened) :=
  let e := s.pitEntry (dpa / 65536)
  match pitState e with
  | 0 => .error (.absent dpa)
  | st =>
    if !pitOwnv e || pitOwner e ≠ ctx then .error (.cause .kttPermission dpa)
    else if st = 4 then .error (.cause .pagePoisoned dpa)
    else if st = 2 || st = 3 then .error .hold
    else if st ≠ 1 || bitOf (pitFrame e) 39 || bits (pitFrame e) 23 20 ≠ stack then .error (.cause .jobFootprintInvalid dpa)
    else
      let l := s.frameLoc (pitFrame e) (dpa % 65536) (pitKey e) (dpa / 65536)
      let s := (s.recall dpa).settle l dpa
      match openScaled { fmt := h.fmt, cw := h.cw, sexp := 0 } (s.readSector l) with
      | .error c => .error (.cause c dpa)
      | .ok o =>
        if o.zero then .ok (s, o)
        else if o.cw ≠ h.cw then .error (.cause .containerMismatch dpa)
        else if o.fmt ≠ h.fmt then .error (.cause .forbiddenFormatPair dpa)
        else .ok (s, o)

/-- The source sectors opened, with one common exponent. -/
def State.tensorOpen (s : State) (ctx stack : Nat) (h : TensorHandle) :
    List Nat → Except TensorStop (State × Map Opened)
  | [] => .ok (s, [])
  | a :: as => do
    let (s, o) ← s.tensorSector ctx stack h a
    let (s, m) ← s.tensorOpen ctx stack h as
    if !o.zero && m.any (fun x => !x.2.zero && x.2.sexp != o.sexp) then throw (.cause .forbiddenFormatPair a)
    pure (s, put m a o)

/-- The output sectors of a request (R382): codes verbatim, PAD outside the tensor and up to each sector boundary. The bits
of a container beyond the format are padding, written as zero (R36). -/
def State.tensorRead (s : State) (ctx stack : Nat) (r : TensorReq) : Except TensorStop (State × List Sector) := do
  let h := handleOf (s.handle stack r.handle)
  let w := cwBits h.cw
  let n := 2048 / w
  let as ← match tensorSectors h r with
    | some as => pure as
    | none => throw (.cause .jobFootprintInvalid h.base)
  let (s, m) ← s.tensorOpen ctx stack h as
  let sexp := match m.find? (fun x => !x.2.zero) with
    | some x => x.2.sexp
    | none => 0
  let pad := h.pad % 2 ^ fmtWidth h.fmt
  let code := fun (p : Nat × Nat) =>
    match h.elem p with
    | none => pad
    | some a =>
      let d := a.toNat
      match look m (d / 256 * 256) with
      | some o => if o.zero then 0 else o.codes.getD (d % 256 * 8 / w) 0
      | none => pad
  let tag := mkTag clsTyped h.fmt h.cw sexp
  let pack := fun (l : List (Nat × Nat)) =>
    let cs := l.map code
    let k := (cs.length + n - 1) / n
    (piecesOf n k (cs ++ List.replicate n pad)).map (fun xs =>
      ({ tag := tag, bmeta := 0, data := packSlots w xs } : Sector))
  pure (s, (tensorLines r).flatMap pack)

/-! ## Member groups (R403) -/

/-- The members in rank order. -/
def membersOf (pkgs cores : Nat) : List (Nat × Nat) :=
  (bitsSet 64 pkgs).flatMap (fun p => (bitsSet 128 cores).map (fun c => (p, c)))

/-- The sectors that a member receives and the sectors it contributes, by kind (R404). -/
def collResult (kind n n0 : Nat) : Nat := if kind = 1 then n * n0 else n0
def collSource (kind n n0 rank root : Nat) : Nat :=
  match kind with
  | 2 => n * n0
  | 3 => if rank = root then n0 else 0
  | _ => n0

/-- A member descriptor read by its issuer, with the checks of R403: the members, this one's rank, and the status
record's address. -/
structure Members where
  cid   : Nat
  pkgs  : Nat
  cores : Nat
  n     : Nat
  rank  : Nat
  stata : Nat
  stataVa : Dword
  deriving DecidableEq, Repr

def State.members (s : State) (i : Issuer) (j : JobSpec) : Except Stop (State × Members) := do
  let (s, x) ← s.issuerRead i j.aux1 64
  let pkgs := bits x 191 128
  let cores := bits x 127 0
  let ms := membersOf pkgs cores
  let n := ms.length
  let bad := Stop.cause .jobCardInvalid i.row (some j.aux1)
  if bits x 447 208 ≠ 0 || n < 2 || 256 < n then throw bad
  let va := BitVec.ofNat 64 (bits x 511 448)
  if va.toNat % 64 ≠ 0 then throw (.cause .misaligned i.row (some va))
  match ms.findIdx? (fun m => m = (s.pkg, i.core)) with
  | none => throw bad
  | some rank =>
    let kind := j.aux0.toNat % 4
    if n ≤ j.aux0.toNat / 256 % 256 || 65536 < collResult kind n j.n0 then throw bad
    match s.jobDpa i.ctx i.group i.hart .w va.toNat with
    | .error c => throw (.cause c i.row (some va))
    | .ok d => pure (s, { cid := bits x 207 192, pkgs := pkgs, cores := cores, n := n, rank := rank, stata := d, stataVa := va })

/-! ## Footprints (R259) -/

/-- A job's rows as byte runs from a base at a stride. -/
def rowRuns (base stride : Dword) (rows n0 : Nat) : List (Int × Nat) :=
  (List.range rows).map (fun (r : Nat) => ((base.toNat : Int) + (r : Int) * stride.toInt, 256 * n0))

/-- The runs that a job reads and writes through its own addresses; `m` is the member group of a collective. -/
def JobSpec.runs (j : JobSpec) (m : Option Members) (outSectors : Nat) : List (Int × Nat) × List (Int × Nat) :=
  let at1 := fun (a : Dword) (n : Nat) => [((a.toNat : Int), n)]
  match j.opc with
  | 0x01 => (at1 j.src j.aux0.toNat, at1 j.dst j.aux0.toNat)
  | 0x05 => ([], at1 j.dst j.aux0.toNat)
  | 0x0A => (at1 j.src j.aux0.toNat, [])
  | 0x02 => (rowRuns j.src j.sstr j.aux0.toNat j.n0, rowRuns j.dst j.dstr j.aux0.toNat j.n0)
  | 0x03 => (at1 j.src j.aux2.toNat, rowRuns j.dst j.dstr j.aux0.toNat j.n0)
  | 0x04 => (rowRuns j.src j.sstr j.aux0.toNat j.n0, at1 j.dst j.aux2.toNat)
  | 0x07 =>
    match m with
    | none => ([], [])
    | some m =>
      let kind := j.aux0.toNat % 4
      let n := collSource kind m.n j.n0 m.rank (j.aux0.toNat / 256 % 256)
      (if n = 0 then [] else at1 j.src (256 * n), at1 j.dst (256 * collResult kind m.n j.n0))
  | 0x09 => ([], at1 j.dst (256 * outSectors))
  | _ => (at1 j.src (256 * j.n0), at1 j.dst (256 * j.n0))

/-- A footprint whose extent is 0 or that wraps (R259); a job that has one side only is not asked for the other. -/
def runsBad (rs : List (Int × Nat)) (may : Bool) : Bool :=
  (rs.isEmpty && !may) || rs.any (fun r => r.2 == 0 || decide (r.1 < 0) || decide ((2 : Int) ^ 64 < r.1 + r.2))

/-- The sectors of runs, translated and checked, as keys divided by 256 (R255, R259). -/
def State.footKeys (s : State) (i : Issuer) (p : Perm) (rs : List (Int × Nat)) : Except Stop (List Nat) :=
  (touchedSectors (rs.map (fun r => (BitVec.ofInt 64 r.1, r.2)))).mapM (fun a =>
    match s.jobDpa i.ctx i.group i.hart p a with
    | .error c => .error (.cause c i.row (some (BitVec.ofNat 64 a)))
    | .ok d => .ok (keepKey i.core d))

/-! ## Issue (R255) -/

/-- The job's number of sector writes. -/
def JobSpec.total (j : JobSpec) (m : Option Members) (outSectors : Nat) : Nat :=
  match j.opc with
  | 0x01 | 0x05 => j.aux0.toNat / 256
  | 0x0A => 0
  | 0x02 | 0x03 | 0x04 => j.aux0.toNat * j.n0
  | 0x07 => (m.map (fun x => collResult (j.aux0.toNat % 4) x.n j.n0)).getD 0
  | 0x09 => outSectors
  | _ => j.n0

/-- The key of a collective: its context and CID. -/
def collKey (ctx cid : Nat) : Nat := ctx * 65536 + cid

/-- The access that a job makes to its destination: JRED reads it too. -/
def JobSpec.dstPerm (j : JobSpec) : Perm := if j.opc = 0x06 then .rw else .w

/-- The barrier object's DPA: aligned, and mapped for both accesses (R251, R255). -/
def State.barrierOf (s : State) (i : Issuer) (bar : Option Dword) : Except Stop (Option Nat) :=
  match bar with
  | none => .ok none
  | some va =>
    if va.toNat % 32 ≠ 0 then .error (.cause .barrierMisaligned i.row (some va))
    else
      match s.jobDpa i.ctx i.group i.hart .rw va.toNat with
      | .error c => .error (.cause c i.row (some va))
      | .ok d => .ok (some d)

/-- Every check of a job's issue (R255 to R259, R305, R382, R403), and the job to be registered; none where it waits at its
scope entry, which is PENDING, to be checked under the result (R248, R249). -/
def State.issueJob (s : State) (i : Issuer) (j : JobSpec) (bar : Option Dword) : Except Stop (Option (State × Job)) := do
  match j.misaligned with
  | some a => throw (.cause .misaligned i.row (some a))
  | none => pure ()
  let stack := j.aux0.toNat / 256 % 16
  if j.opc = 0x09 && s.tensorBad i.ctx stack j.request then throw (.cause .jobCardInvalid i.row none)
  let h := handleOf (s.handle stack j.request.handle)
  let outs := if j.opc = 0x09 then outSectors j.request h.cw else 0
  let (s, m) ← if j.opc = 0x07 then (s.members i j).map (fun (x : State × Members) => (x.1, some x.2)) else pure (s, none)
  let (r, w) := j.runs m outs
  let foot := Stop.cause .jobFootprintInvalid i.row none
  if runsBad r (j.opc = 0x05 || j.opc = 0x07 || j.opc = 0x09) || runsBad w (j.opc = 0x0A) then throw foot
  let rd ← s.footKeys i .r r
  let wr ← s.footKeys i j.dstPerm w
  if j.opc = 0x03 || j.opc = 0x04 then
    let _ ← s.footKeys i .r [((j.aux1.toNat : Int), 4 * j.aux0.toNat)]
  let tens ← if j.opc = 0x09 then
      match tensorSectors h j.request with
      | some as => pure (as.map (· / 256))
      | none => throw foot
    else pure []
  if j.opc = 0x01 && rd.any (fun k => wr.contains k) then throw foot
  match wr.find? (fun k => s.clobbers i.ctx k) with
  | some _ => throw (.cause .tapeClobber i.row (some j.dst))
  | none => pure ()
  if s.scopePending i.ctx j.scope then return none
  match s.scopeCheck i.ctx j.scope i.agent with
  | some c => throw (.cause c i.row none)
  | none => pure ()
  let b ← s.barrierOf i bar
  let op := if j.opc = 0x08 then effMode i.rmode (BitVec.ofNat 3 j.op) else j.op
  let job : Job :=
    { ctx := i.ctx, hart := i.hart, launch := i.launch, node := i.node, core := i.core, row := i.row, group := i.group,
      idx := i.idx, pc := i.pc, tix := i.tix, opc := j.opc, op := op, fmt := j.fmt, cw := j.cw, scope := j.scope,
      scopeAt := s.contents i.ctx j.scope, src := j.src, dst := j.dst, sstr := j.sstr, dstr := j.dstr, n0 := j.n0, aux0 := j.aux0, aux1 := j.aux1,
      aux2 := j.aux2, bar := b, barVa := bar.getD 0, rd := rd ++ tens, wr := wr, ldFmt := i.ldFmt, ldCw := i.ldCw, ldSexp := i.ldSexp,
      prt := i.prt, total := j.total m outs, done := 0, ahead := [], state := .registered, staged := [], skip := false,
      coll := m.map (fun x => (collKey i.ctx x.cid, x.rank)), stata := (m.map (fun x => x.stata)).getD 0,
      stataVa := (m.map (fun x => x.stataVa)).getD 0, outcome := none }
  return some (s, job)

/-- The issuer of a command's job in a row. -/
def rowIssuer (hid : Nat) (h : Hart) (c : Command) (j : Nat) : Issuer :=
  { ctx := h.ctx, hart := some hid, launch := 0, node := 0, core := h.coreOf j, row := j, group := h.group,
    idx := (h.idx[5]?).getD 0, pc := c.pc, tix := c.tix, rmode := c.rmode, ldFmt := c.ldFmt, ldCw := c.ldCw,
    ldSexp := c.ldSexp, prt := c.prt }

/-- The barrier address of a command in a row; s0 names none (R255). -/
def rowBarrier (c : Command) (j : Nat) : Option Dword := if c.t.cscal = 0 then none else some (c.capt j).c

/-- The jobs of a command's rows, in ascending order; none where one of them waits. -/
def issueRows (hid : Nat) (h : Hart) (c : Command) (spec : State → Issuer → Nat → Except Stop (State × JobSpec)) :
    List Nat → State → Except Stop (Option (State × List Job))
  | [], s => .ok (some (s, []))
  | j :: js, s => do
    let i := rowIssuer hid h c j
    let (s, x) ← spec s i j
    match ← s.issueJob i x (rowBarrier c j) with
    | none => pure none
    | some (s, y) => pure ((← issueRows hid h c spec js s).map (fun r => (r.1, y :: r.2)))

/-- Every core has tracker entries for its new jobs (R296). -/
def State.trackerRoom (s : State) (js : List Job) : Bool :=
  js.all (fun j => decide (s.trackerUsed j.core + (js.filter (fun k => decide (k.core = j.core))).length ≤ 256))

/-- A job registered with the tracker, in the context's order (R297). -/
def State.register (s : State) (j : Job) : State :=
  { s with jobs := put s.jobs s.nextJob j, nextJob := s.nextJob + 1 }

/-- The JB engine's turn: the jobs of every row are checked, then registered together once the tracker has room and
their scope entries are not PENDING (R248, R255, R295). -/
def jobTurn (t : Template) (s : State) (spec : Command → State → Issuer → Nat → Except Stop (State × JobSpec))
    (register : State → Job → State) : Out :=
  engineOp .jb t s (fun s hid h c =>
    match issueRows hid h c (spec c) (c.rows h) s with
    | .error x => .stop s c x 0 false
    | .ok none => hold s c
    | .ok (some (s', js)) =>
      if s'.trackerRoom js then .ran ((js.foldl register s').modHart hid Hart.markStored) c (Completion.plain 0)
      else hold s c)

/-- A command whose jobs are not collectives. -/
def jobOp (t : Template) (s : State) (spec : Command → State → Issuer → Nat → Except Stop (State × JobSpec)) : Out :=
  jobTurn t s spec State.register

/-- A template job's operands with the die stride (R91, R186). -/
def plainSpec (c : Command) (j opc : Nat) : JobSpec :=
  { opc := opc, op := 0, fmt := c.t.fmt, cw := c.t.cw, scope := 0, src := c.va (c.capt j).a j, dst := c.va (c.capt j).d j,
    sstr := 0, dstr := 0, n0 := 0, aux0 := (c.capt j).b, aux1 := 0, aux2 := 0 }

/-- A template job's byte count must be a multiple of 256 (R256). -/
def countAligned (s : State) (i : Issuer) (x : JobSpec) : Except Stop (State × JobSpec) :=
  if x.aux0.toNat % 256 ≠ 0 then .error (.cause .misaligned i.row (some x.aux0)) else .ok (s, x)

/-- JCOPY (R256). -/
def execJcopy (t : Template) (s : State) : Out :=
  jobOp t s (fun c s i j => countAligned s i (plainSpec c j 0x01))
/-- JFILL (R256): the pattern goes in AUX1. A named format that its container does not fit (E2M1B in 8 bytes: a wider one is
no valid template) raises CONTAINER_MISMATCH (DEDUCED from R43, log 44). -/
def execJfill (t : Template) (s : State) : Out :=
  jobOp t s (fun c s i j =>
    if c.t.fmt != 0x1F && !fmtFits c.t.fmt c.t.cw then .error (.cause .containerMismatch i.row none)
    else countAligned s i { plainSpec c j 0x05 with src := 0, aux1 := (c.capt j).a })
/-- JPREF (R256): its addresses need no alignment. -/
def execJpref (t : Template) (s : State) : Out :=
  jobOp t s (fun c s _ j =>
    let x := plainSpec c j 0x0A
    let a := x.src.toNat
    .ok (s, { x with dst := 0, src := BitVec.ofNat 64 (a / 256 * 256),
                     aux0 := if x.aux0 = 0 then 0 else x.aux0 + BitVec.ofNat 64 (a % 256) }))

/-- A card read at A (R257). -/
def cardSpec (opc : Nat) (c : Command) (s : State) (i : Issuer) (j : Nat) : Except Stop (State × JobSpec) :=
  let va := c.va (c.capt j).a j
  if va.toNat % 64 ≠ 0 then .error (.cause .misaligned j (some va))
  else
    match s.issuerRead i va 64 with
    | .error e => .error e
    | .ok (s, x) =>
      match cardFault x opc with
      | some k => .error (.cause k j (some va))
      | none => .ok (s, specOf x)

/-- JCOPY2 (R258). -/
def execJcopy2 (t : Template) (s : State) : Out := jobOp t s (cardSpec 0x02)
/-- JGATH (R258). -/
def execJgath (t : Template) (s : State) : Out := jobOp t s (cardSpec 0x03)
/-- JSCAT (R258). -/
def execJscat (t : Template) (s : State) : Out := jobOp t s (cardSpec 0x04)
/-- JRED (R258). -/
def execJred (t : Template) (s : State) : Out := jobOp t s (cardSpec 0x06)
/-- JRECODE (R258). -/
def execJrecode (t : Template) (s : State) : Out := jobOp t s (cardSpec 0x08)
/-- JTENS (R258, R382). -/
def execJtens (t : Template) (s : State) : Out := jobOp t s (cardSpec 0x09)

/-! ## Collectives: members and aborts (R403, R405) -/

/-- The ranks of a package's members. -/
def Collective.ranksOf (c : Collective) (pkg : Nat) : List Nat :=
  ((membersOf c.pkgs.toNat c.cores.toNat).zipIdx.filter (fun m => m.1.1 == pkg)).map (fun m => m.2)

/-- Ranks whose contributions have reached the reduction point (R405). -/
def Collective.mask (c : Collective) : Nat := c.got.foldl (fun acc x => acc ||| 2 ^ x.1) 0

/-- An outcome handed to the members' jobs of this package that have none: REASON 4 sets a member's own bit only. -/
def State.tellMembers (s : State) (key reason frank mask : Nat) : State :=
  { s with jobs := s.jobs.map (fun (x : Nat × Job) =>
      match x.2.coll with
      | some (k, rank) =>
        if k = key && x.2.outcome.isNone then
          (x.1, { x.2 with outcome := some (reason, frank, if reason = 4 then 2 ^ rank else mask), state := .running })
        else x
      | none => x) }

/-- A collective aborts (R405): its partial sums are discarded and every member's job of this package goes on with its
outcome; the outcome is kept while a member here has still to join. -/
def State.abortCollective (s : State) (key reason frank : Nat) : State :=
  match look s.colls key with
  | none => s
  | some c =>
    let s := s.tellMembers key reason frank c.mask
    if (c.ranksOf s.pkg).all (fun r => c.joined.contains r) then { s with colls := del s.colls key }
    else { s with colls := put s.colls key { c with acc := [], ended := some (reason, frank) } }

/-- The fields that a card and its descriptor give a collective. -/
def collectiveOf (j : Job) (m : Members) : Collective :=
  { ctx := j.ctx, kind := j.aux0.toNat % 4, op := j.op, root := j.aux0.toNat / 256 % 256, n0 := j.n0,
    pkgs := BitVec.ofNat 64 m.pkgs, cores := BitVec.ofNat 128 m.cores, timeout := j.aux2.toNat, members := m.n,
    started := none, got := [], acc := [], sent := false, acked := [], joined := [], ended := none }

/-- Two members' fields agree (R403). -/
def Collective.agrees (c d : Collective) : Bool :=
  c.kind == d.kind && c.op == d.op && c.root == d.root && c.n0 == d.n0 && c.pkgs == d.pkgs && c.cores == d.cores
    && c.timeout == d.timeout

/-- Why a member of this package cannot reach the others (R402, R405): no path to any package named gives REASON 4, no
path to one of them REASON 1 with its first rank. -/
def State.unreached (s : State) (c : Collective) : Option (Nat × Nat) :=
  let far := (bitsSet 64 c.pkgs.toNat).filter (fun p => p != s.pkg)
  match far.find? (fun p => !s.hasPath p) with
  | none => none
  | some p => if far.any s.hasPath then some (1, (c.ranksOf p).headD 0) else some (4, 0)

/-- A member joins its collective (R403, R405): the first makes it known, one whose fields disagree aborts it, and one
that comes after an abort has its outcome. -/
def State.joinCollective (s : State) (j : Job) (m : Members) : State :=
  match j.coll with
  | none => s
  | some (k, rank) =>
    let d := collectiveOf j m
    let c := lookD s.colls k d
    let s := { s with colls := put s.colls k { c with joined := rank :: c.joined } }
    match c.ended with
    | some (r, f) => s.abortCollective k r f
    | none =>
      if !c.agrees d then s.abortCollective k 3 rank
      else
        match s.unreached c with
        | some (r, f) => s.abortCollective k r f
        | none => s

/-- A job registered and, where it is a collective's, joined to it: `i` and `x` read its descriptor again. -/
def State.registerMember (s : State) (j : Job) : State :=
  let i : Issuer := { ctx := j.ctx, hart := j.hart, launch := j.launch, node := j.node, core := j.core, row := j.row,
                      group := j.group, idx := j.idx, pc := j.pc, tix := j.tix, rmode := 0, ldFmt := j.ldFmt,
                      ldCw := j.ldCw, ldSexp := j.ldSexp, prt := j.prt }
  let x : JobSpec := { opc := j.opc, op := j.op, fmt := j.fmt, cw := j.cw, scope := j.scope, src := j.src, dst := j.dst,
                       sstr := j.sstr, dstr := j.dstr, n0 := j.n0, aux0 := j.aux0, aux1 := j.aux1, aux2 := j.aux2 }
  let s := s.register j
  if j.coll.isSome then
    match s.members i x with
    | .ok (_, m) => s.joinCollective j m
    | .error _ => s
  else s

/-- JCOLL (R258, R403). -/
def execJcoll (t : Template) (s : State) : Out := jobTurn t s (cardSpec 0x07) State.registerMember

/-! ## The steps of a job (R298 to R301) -/

def State.modJob (s : State) (id : Nat) (f : Job → Job) : State := { s with jobs := upd s.jobs id f }

/-- Two footprints share a sector that either side writes (R298). -/
def Job.overlaps (a b : Job) : Bool :=
  a.wr.any (fun k => b.rd.contains k || b.wr.contains k) || a.rd.any (fun k => b.wr.contains k)

/-- An earlier-registered job of the context holds a job back (R298). -/
def State.jobHeld (s : State) (id : Nat) (j : Job) : Bool :=
  s.jobs.any (fun x => decide (x.1 < id) && decide (x.2.ctx = j.ctx) && x.2.overlaps j)

/-- JOB_START (R298): job `unit` starts moving data; a collective's member waits for its outcome. -/
def execJobStart (s : State) : Out :=
  let id := s.focus.unit
  match look s.jobs id with
  | none => .next s
  | some j =>
    if j.state = .registered && !s.jobHeld id j then
      .next (s.modJob id (fun j => { j with state := if j.coll.isSome then .collecting else .running }))
    else .next s

/-- The sector of a job's access that stopped on POISON_READ, settled: an uncorrectable one is written back as POISON
with its record (R31, R375). A tensor request names its sources by DPA. -/
def State.settleJob (s : State) (j : Job) (a : Dword) : State :=
  if j.opc = 0x09 && a != j.barVa then
    match s.dpaLoc (some j.ctx) j.core a.toNat with
    | .ok l => (s.recall a.toNat).settle l a.toNat
    | .error _ => s
  else
    match s.jobLoc j .r a with
    | .ok (_, dpa, l) => (s.recall dpa).settle l dpa
    | .error _ => s

/-- A job meets what stops it (R260): it parks on a page-absent reply, with a record, or stands faulted; traffic that a link
holds waits. -/
def State.stopJob (s : State) (id : Nat) (j : Job) (x : Stop) : State :=
  match x with
  | .absent _ dpa w =>
    let slot := match j.hart.bind (look s.harts) with
      | some h => h.slot
      | none => 0
    (s.absentRecord (dpa / 65536) (dpa % 65536 / 256) j.ctx j.core slot true w).modJob id
      (fun j => { j with state := .parked (dpa / 65536) })
  | .cause c _ a =>
    let s := match c, a with
      | .poisonRead, some va => s.settleJob j va
      | _, _ => s
    s.modJob id (fun j => { j with state := .faulted c a })
  | .held => s

/-- A structure that a job names, reached as a raw access at its home slice: its faults carry the address (R365, R368). -/
def State.jobRaw (s : State) (j : Job) (dpa : Nat) (va : Dword) : Except Stop (State × Nat × Loc) :=
  match s.dpaLoc (some j.ctx) j.core dpa with
  | .error (.absent _) => .error (.absent j.row dpa true)
  | .error (.fault c) => .error (.cause c j.row (some va))
  | .error .held => .error .held
  | .ok l =>
    if s.recallFinds dpa then .error (.cause .poisonRead j.row (some va))
    else
      let s := (s.writePast j.core dpa l).settle l dpa
      match rawFault (s.tagAt l.key) with
      | some c => .error (.cause c j.row (some va))
      | none =>
        if s.rawBarred dpa l then .error (.cause .storeFormatOverflow j.row (some va)) else .ok (s.crossed l, dpa, l)

/-- The barrier object of a job, reached as a raw access. -/
def State.jobBarrier (s : State) (j : Job) : Except Stop (Option (State × Nat × Loc)) :=
  match j.bar with
  | none => .ok none
  | some dpa => (s.jobRaw j dpa j.barVa).map some

/-- A job as an agent (R279): its issuing core's, and that of a JOB node a member of entries 0 and 31 only (R336). -/
def Job.agent (j : Job) : Agent := if j.hart.isSome then .core j.core else .other

/-- The place of a job's arrival among the actions on its object in one cycle (R361): after every instruction, by issuing
core, then by registration. -/
def Job.place (j : Job) (id : Nat) (dpa : Nat) : List (Nat × Nat) :=
  [(objectKey j.core dpa, 2 ^ 16 + j.core * 2 ^ 64 + id)]

/-- The arrival of job `id` (R252, R299): none where the flip waits at a PENDING entry, or where a later action of the cycle
has come first (R361). -/
def State.jobArrive (s : State) (id : Nat) (j : Job) (a : BarAct) : Option (State × Option Cause) :=
  match s.jobBarrier j with
  | .ok (some (s, dpa, l)) =>
    if s.barrierMay (j.place id dpa) then (s.barrierTook (j.place id dpa)).barrierAct j.ctx j.core j.agent dpa l a else none
  | _ => some (s, none)

/-- The reader of PLAIN sectors: LDFMT as captured (R40). -/
def Job.reader (j : Job) : Reader := { fmt := j.ldFmt, cw := j.ldCw, sexp := j.ldSexp }

/-- A source sector as it stands. -/
def State.jobRead (s : State) (j : Job) (va : Dword) : Except Stop (State × Sector) := do
  let (s, _, l) ← s.jobLoc j .r va
  pure (s, s.readSector l)

/-- A cause at an address. -/
def atVa {α : Type} (j : Job) (va : Dword) (x : Except Cause α) : Except Stop α :=
  match x with
  | .ok a => .ok a
  | .error c => .error (.cause c j.row (some va))

/-- A sector written whole at its home slice (R295), with the waiters of the cell that it replaces released (R363). -/
def State.jobSector (s : State) (j : Job) (dpa : Nat) (l : Loc) (x : Sector) : State :=
  (((s.writePast j.core dpa l).writeSector l x).noteStore dpa l).releaseCell j.ctx (keepKey j.core dpa)

/-- A sector stored verbatim (R37, R255). -/
def State.jobPut (s : State) (j : Job) (dst : Dword) (x : Sector) : Except Stop State := do
  let (s, dpa, l) ← s.jobLoc j .w dst
  let (x, _) ← atVa j dst (storable dpa l (x, 0))
  pure (s.jobSector j dpa l x)

/-- A sector moved verbatim. -/
def State.jobCopy (s : State) (j : Job) (src dst : Dword) : Except Stop State := do
  let (s, x) ← s.jobRead j src
  s.jobPut j dst x

/-- A typed sector stored whole under the page's policy (R74, R76). -/
def State.jobStore (s : State) (j : Job) (dst : Dword) (x : Sector) : Except Stop State := do
  let (s, dpa, l) ← s.jobLoc j .w dst
  let (x, _) ← atVa j dst (fullStore s dpa l x)
  pure (s.jobSector j dpa l x)

/-- Two sectors combined (R258, R404): the promoted format, the shared container, RNE, integers saturated. -/
def combineSectors2 (prt : Option (List Byte)) (op : Nat) (rd : Reader) (dst src : Sector) : Except Cause Sector := do
  let a ← openScaled rd dst
  let b ← openScaled rd src
  if (!a.zero && a.fmt == fE2m1) || (!b.zero && b.fmt == fE2m1) then throw .forbiddenFormatPair
  let (f, _) ← promoteAll prt [a, b]
  let w ← sharedCw none 3 [a, b]
  match f with
  | none => pure (secVisible dst)
  | some f =>
    if !fmtFits f w then throw .containerMismatch
    let g := fun (x y : Exact) =>
      match op with
      | 0 => if fmtInt f then exactOfInt (intOf x + intOf y) else (addE false x y).1
      | 1 => pickE true x y
      | _ => pickE false x y
    let vs := ((a.values w).zip (b.values w)).map (fun p => (g p.1 p.2, true))
    pure (encodeSector f w (some 0) .sat 0 false 0 vs).sector

/-- The pattern of JFILL over a sector. -/
def fillData (x : Dword) : BitVec 2048 := BitVec.ofNat 2048 ((List.range 32).foldl (fun acc i => acc + x.toNat * 2 ^ (64 * i)) 0)

/-- The sector that JFILL leaves with FMT and CW named: its padding bits are zero (R36), and an E4M3U code is one
that the part writes (R48). -/
def fillTyped (f : BitVec 5) (w : BitVec 3) (d : BitVec 2048) : Sector :=
  let x : Sector := { tag := mkTag clsTyped f w 0, bmeta := 0, data := d }
  { x with data := packSlots (cwBits w) ((secSlots x w).map (writtenCode f)) }

/-- A sector of JFILL (R256): typed, or the bytes alone, its tag and metadata kept. One of class ZERO keeps its class, so that
it reads as zero still (R38). -/
def State.jobFill (s : State) (j : Job) (dst : Dword) : Except Stop State := do
  let d := fillData j.aux1
  if j.fmt = 0x1F then
    let (s, dpa, l) ← s.jobLoc j .w dst
    match rawFault (s.tagAt l.key) with
    | some c => throw (.cause c j.row (some dst))
    | none =>
      if tagCls (s.tagAt l.key) = 0 then pure s
      else pure (s.jobSector j dpa l { s.readSector l with data := d })
  else s.jobStore j dst (fillTyped j.fmt j.cw d)

/-- A sector of JRED at DST's home slice (R258). -/
def State.jobReduce (s : State) (j : Job) (src dst : Dword) : Except Stop State := do
  let (s, x) ← s.jobRead j src
  let (s, dpa, l) ← s.jobLoc j .rw dst
  let y ← atVa j dst (combineSectors2 j.prt j.op j.reader (s.readSector l) x)
  let (y, _) ← atVa j dst (fullStore s dpa l y)
  pure (s.jobSector j dpa l y)

/-- A source sector converted by JRECODE (R76, R258): a ZERO sector is carried; draws in SR are free values (log 14). -/
def recodeJob (j : Job) (draw : Nat) (x : Sector) : Except Cause Sector := do
  let o ← openScaled j.reader x
  if o.zero then pure (secVisible x)
  else
    if o.cw ≠ j.cw then throw .containerMismatch
    let xs := o.values o.cw
    let t : Int := if bitOf j.aux0.toNat 8 then (j.aux0.extractLsb' 0 8).toInt else autoExp j.fmt xs
    let fit := fitFrom (fmtInt o.fmt)
    let seed := (Config.freeDword draw).setWidth 32
    pure (encodeSector j.fmt j.cw (some t) fit j.op true seed (xs.map (fun v => (v, true)))).sector

/-- A sector of JRECODE. -/
def State.jobRecode (s : State) (j : Job) (src dst : Dword) : Except Stop State := do
  let (s, x) ← s.jobRead j src
  let y ← atVa j src (recodeJob j s.draws x)
  ({ s with draws := s.draws + 1 } : State).jobStore j dst y

/-- The indexed row of JGATH or JSCAT (R258): the row's address, inside the declared extent. -/
def State.jobRow (s : State) (j : Job) (base stride : Dword) (r : Nat) : Except Stop (State × Dword) := do
  let va := j.aux1 + BitVec.ofNat 64 (4 * r)
  let (s, _, l) ← s.jobLoc j .r va
  match rawFault (s.tagAt l.key) with
  | some c => throw (.cause c j.row (some va))
  | none =>
    let x := s.readRaw l 4
    let a : Int := (base.toNat : Int) + x * stride.toInt
    if a < base.toNat || (base.toNat : Int) + j.aux2.toNat < a + 256 * j.n0 then
      throw (.cause .jobFootprintInvalid j.row (some va))
    pure (s, BitVec.ofInt 64 a)

/-- What a job's next sector write gives. -/
inductive JobStep where
  | wait
  | stop (x : Stop)
  | ok (s : State)
  deriving DecidableEq, Repr

def jobStepOf (x : Except Stop State) : JobStep :=
  match x with
  | .ok s => .ok s
  | .error e => .stop e

/-- Sector `k` of a job written (R256, R258). -/
def State.jobWrite (s : State) (id k : Nat) (j : Job) : JobStep :=
  let r := k / Nat.max 1 j.n0
  let q := BitVec.ofNat 64 (256 * (k % Nat.max 1 j.n0))
  let flat := BitVec.ofNat 64 (256 * k)
  let row := fun (base stride : Dword) => base + BitVec.ofNat 64 r * stride + q
  match j.opc with
  | 0x01 => jobStepOf (s.jobCopy j (j.src + flat) (j.dst + flat))
  | 0x02 => jobStepOf (s.jobCopy j (row j.src j.sstr) (row j.dst j.dstr))
  | 0x03 => jobStepOf (do
      let (s, a) ← s.jobRow j j.src j.sstr r
      s.jobCopy j (a + q) (row j.dst j.dstr))
  | 0x04 => jobStepOf (do
      let (s, a) ← s.jobRow j j.dst j.dstr r
      s.jobCopy j (row j.src j.sstr) (a + q))
  | 0x05 => jobStepOf (s.jobFill j (j.dst + flat))
  | 0x06 => jobStepOf (s.jobReduce j (j.src + flat) (j.dst + flat))
  | 0x07 =>
    let x := j.staged.getD k zeroSector
    jobStepOf (if j.aux0.toNat % 2 = 1 then s.jobPut j (j.dst + flat) x else s.jobStore j (j.dst + flat) x)
  | 0x08 => jobStepOf (s.jobRecode j (j.src + flat) (j.dst + flat))
  | 0x09 =>
    let spec : JobSpec := { opc := 9, op := 0, fmt := 0, cw := 0, scope := 0, src := 0, dst := j.dst, sstr := 0, dstr := 0,
                            n0 := 0, aux0 := j.aux0, aux1 := j.aux1, aux2 := j.aux2 }
    if j.staged.isEmpty then
      match s.tensorRead j.ctx (j.aux0.toNat / 256 % 16) spec.request with
      | .error .hold => .wait
      | .error (.absent dpa) => .stop (.absent j.row dpa false)
      | .error (.cause c a) => .stop (.cause c j.row (some (BitVec.ofNat 64 a)))
      | .ok (s, xs) =>
        jobStepOf ((s.modJob id (fun y => { y with staged := xs })).jobStore j (j.dst + flat) (xs.getD k zeroSector))
    else jobStepOf (s.jobStore j (j.dst + flat) (j.staged.getD k zeroSector))
  | _ => .ok s

/-- The count of sectors written from the first on, moved past those written beyond it. -/
def Job.settled : Nat → Job → Job
  | 0, j => j
  | k + 1, j =>
    if j.ahead.contains j.done then Job.settled k { j with done := j.done + 1, ahead := j.ahead.filter (fun x => x != j.done) }
    else j

/-- Sector k of a job has been written. -/
def Job.wrote (j : Job) (k : Nat) : Job := Job.settled (j.ahead.length + 1) { j with ahead := k :: j.ahead }

/-- The sector that a job writes in a step that names the n-th one from its first unwritten sector on: its sectors are not
ordered among themselves (R295), but for JSCAT, whose rows go in order (R258): there it is one of the row that has the
first unwritten sector. -/
def Job.pick (j : Job) (n : Nat) : Option Nat :=
  let k := j.done + n
  if k < j.total && !j.ahead.contains k && (j.opc != 0x04 || k / Nat.max 1 j.n0 == j.done / Nat.max 1 j.n0) then some k else none

/-- What stops a job at a sector (R260): it stops at the first that it cannot complete, so one beyond that is left for
later. -/
def State.stopAt (s t : State) (id k : Nat) (j : Job) (x : Stop) : State := if k = j.done then s.stopJob id j x else t

/-- JOB_SECTOR_WRITE (R260, R295, R299): job `unit` performs a sector write and counts its bytes on the barrier. -/
def execJobSectorWrite (s : State) : Out :=
  let id := s.focus.unit
  match look s.jobs id with
  | none => .next s
  | some j =>
    if j.state ≠ .running || j.skip || j.outcome.any (fun o => o.1 ≠ 0) then .next s
    else
      match j.pick s.focus.sub with
      | none => .next s
      | some k =>
        match s.jobBarrier j with
        | .error x => .next (s.stopAt s id k j x)
        | .ok _ =>
          match s.jobWrite id k j with
          | .wait => .next s
          | .stop x => .next (s.stopAt s id k j x)
          | .ok s' =>
            match s'.jobArrive id j { arrb := 256 } with
            | none => .next s
            | some (s', none) => .next (s'.modJob id (fun j => j.wrote k))
            | some (s', some c) => .next (s'.modJob id (fun j => { j.wrote k with state := .faulted c (some j.barVa) }))

/-- The status record of a collective's member (R405). -/
def statusRecord (o : Nat × Nat × Nat) : Nat :=
  (if o.1 = 0 then 0 else 0x380) + o.2.1 * 2 ^ 64 + o.1 * 2 ^ 72 + o.2.2 * 2 ^ 256

/-- The status record written, where the job is a collective's (R405). -/
def State.writeOutcome (s : State) (j : Job) : Except Stop State :=
  match j.coll, j.outcome with
  | some _, some o =>
    match s.jobRaw j j.stata j.stataVa with
    | .error x => .error x
    | .ok (s, dpa, l) => .ok (s.storeRaw dpa l 64 (statusRecord o))
  | _, _ => .ok s

/-- The arrival of a job that completes (R252, R260, R405): an abandoned one sets ERR, and an aborted collective also
counts the bytes that its destination would have received. -/
def Job.lastArrival (j : Job) : BarAct :=
  let aborted := j.outcome.any (fun o => o.1 ≠ 0)
  { arra := 1, err := j.skip || aborted, arrb := if aborted && !j.skip then 256 * (j.total - j.done - j.ahead.length) else 0 }

/-- A job leaves the tracker: its hart's event flag is set (R149), which has waited for it till now (R95), and its JOB node
completes (R336). -/
def State.endJob (s : State) (id : Nat) (j : Job) : State :=
  let s := { s with jobs := del s.jobs id }
  match j.hart with
  | some h => s.modHart h (fun g => { g with event := true, lastProgress := s.now })
  | none => s.nodeDone j.launch (.job j.node id)

/-- JOB_COMPLETE (R252, R301): job `unit` has written its footprint, or is abandoned, and makes its arrival. An arrival
that raises a cause is made once: the job stands faulted with every sector done, an abandoned one as well (R359); that of a
JOB node has no engine to raise it on and stands so (log 24). An abandoned job whose barrier object cannot be reached ends
without its arrival. -/
def execJobComplete (s : State) : Out :=
  let id := s.focus.unit
  match look s.jobs id with
  | none => .next s
  | some j =>
    let ended := decide (j.total ≤ j.done) || j.skip || j.outcome.any (fun o => o.1 ≠ 0)
    if j.state ≠ .running || !ended then .next s
    else
      match s.jobBarrier j with
      | .error (.cause c row a) => .next (if j.skip then s.endJob id j else s.stopJob id j (.cause c row a))
      | .error x => .next (s.stopJob id j x)
      | .ok _ =>
        match (if j.skip && j.outcome.isNone then .ok s else s.writeOutcome j) with
        | .error x => .next (s.stopJob id j x)
        | .ok s' =>
          match s'.jobArrive id j j.lastArrival with
          | none => .next s
          | some (s', none) => .next (s'.endJob id j)
          | some (s', some c) =>
            if j.hart.isNone && j.skip then .next (s'.endJob id j)
            else
              .next (s'.modJob id (fun j =>
                { j with bar := none, state := .faulted c (some j.barVa), outcome := none, done := j.total, ahead := [] }))

/-- JOB_RESUME (R260): job `unit`, parked, resumes once its page is reported present. -/
def execJobResume (s : State) : Out :=
  let id := s.focus.unit
  match look s.jobs id with
  | none => .next s
  | some j =>
    match j.state with
    | .parked p =>
      if pitState (s.pitEntry p) = 0 then .next s
      else
        .next (s.modJob id (fun j =>
          { j with state := if j.coll.isSome && j.outcome.isNone then .collecting else .running }))
    | _ => .next s

/-- JOB_FAULT_RAISE (R260): the fault of job `unit` is raised on its hart's JB engine, at a boundary between commands. A
frozen core raises nothing (R99), a deadline that has passed comes first (R358), and a sleeping hart has its clusters again
with the trap (R352). -/
def execJobFaultRaise (s : State) : Out :=
  let id := s.focus.unit
  match look s.jobs id with
  | none => .next s
  | some j =>
    match j.state, j.hart with
    | .faulted c a, some hid =>
      match look s.harts hid with
      | none => .next s
      | some h =>
        let boundary := match h.queue .jb with
          | k :: _ => !k.issued || k.done.isSome
          | [] => true
        if !h.traps.isEmpty || !boundary || s.stopped h || !s.mayTrap hid h then .next s
        else
          let s' := s.modJob id (fun j => { j with state := .trapped })
          .next (s'.takeTrap hid
            { cause := c, eng := 5, row := j.row, addr := a, status := BitVec.ofNat 32 j.done,
              progress := true, pc := j.pc, cls := eclsOf .jb, tix := j.tix, idx := some j.idx })
    | _, _ => .next s

end Sys2Proof.Machine
end

