-- ==== Sys2Proof/Machine/Queue.lean ====
section
/-! DEFINITION. The package scheduler's register block (spec/00_scope.md R4; spec/18_queue.md R323, R324), the
hardware work queues with their commands and doorbells (R325, R327, R329), and launch admission (R326, R328). -/

namespace Sys2Proof.Machine

/-! ## The register block -/

/-- QTBASE, the command registers and their places (R311, R321, R323, R370). -/
def regQcmd : Nat := 0x000
def regQtbase : Nat := 0x010
def regCtxcmd : Nat := 0x100
def regCtxdesc : Nat := 0x108
def regHcmd : Nat := 0x110
def regPitcmd : Nat := 0x200
def regPitarg0 : Nat := 0x208
def regPitarg1 : Nat := 0x210
def regPsring : Nat := 0x220
def regPstail : Nat := 0x228
def regPshead : Nat := 0x230
def regPsmsi : Nat := 0x238

/-- The DPA of the register block and of the first doorbell page (R323). -/
def regBlock : Nat := 0xF0000000000
def doorbells : Nat := 0xF0010000000

/-- A command is in progress in a command register. -/
def cmdBusy (r : Dword) : Bool := r.getLsbD 55

/-- OP of a command register. -/
def cmdOp (r : Dword) : Nat := (r.extractLsb' 60 4).toNat

/-- A command completed: OP reads zero, BUSY is 0, STATUS is given, and the operand field stays. -/
def cmdDone (r : Dword) (status : Nat) (operand : Dword) : Dword :=
  (r &&& operand) ||| BitVec.ofNat 64 (status * 2 ^ 56)

/-- What a command register accepts: its commands are 1 to `last`, its operand field, and the STATUS of an undefined OP. -/
structure CmdKind where
  last    : Nat
  operand : Dword
  bad     : Nat
  deriving DecidableEq, Repr

/-- A command written: BUSY is set until the command's own step completes it, and an undefined OP completes at once. While
BUSY is 1 the write has no effect (R311, R321, R323, R370). -/
def cmdWrite (k : CmdKind) (r v : Dword) : Dword :=
  if cmdBusy r then r
  else if cmdOp v = 0 || k.last < cmdOp v then cmdDone v k.bad k.operand
  else (v &&& ~~~ (0xF80000000000000 : Dword)) ||| (r &&& 0xF00000000000000) ||| 0x80000000000000

/-- A command register as it reads: OP is WO (R4), and RZ bits read zero. -/
def cmdRead (r operand : Dword) : Dword := r &&& (operand ||| 0xF80000000000000)

/-- The operand fields: QID, ID, and those of HCMD and PITCMD. -/
def qcmdOperand : Dword := 0xFFFF
def ctxcmdOperand : Dword := 0xFFF
def hcmdOperand : Dword := 0xFFF7F03
def pitcmdOperand : Dword := 0xFFFFFFFFF

def qcmdKind : CmdKind := { last := 6, operand := qcmdOperand, bad := 1 }
def ctxcmdKind : CmdKind := { last := 3, operand := ctxcmdOperand, bad := 5 }
def hcmdKind : CmdKind := { last := 1, operand := hcmdOperand, bad := 1 }
def pitcmdKind : CmdKind := { last := 3, operand := pitcmdOperand, bad := 1 }

/-- A command register holds a nonzero bit of an RZ field, `writeOnly` naming the WO bits beside OP. -/
def cmdRz (r operand writeOnly : Dword) : Bool := (r &&& ~~~ (operand ||| writeOnly ||| 0xFF80000000000000)) != 0

/-- Every queue is DISABLED: the scheduler holds no live copy. -/
def State.queuesDisabled (s : State) : Bool := s.wqueues.isEmpty

/-- A write of QTBASE: no effect while any queue is not DISABLED (R324). -/
def State.writeQtbase (s : State) (v : Dword) : State :=
  if s.queuesDisabled then { s with regs := { s.regs with qtbase := v &&& ~~~ 0x3FFFFF } } else s

/-- Waiting page-service records written into the ring, where it has room now (R371). -/
def State.psDrain (s : State) : State := psFlush s.psWait.length s

/-- A write of eight bytes to the register block by the access codes of its fields (R4, R323). The spec does not say what
nonzero RZ bits in a write to CTXDESC, QTBASE, PSRING or PSMSI do: they are dropped and the other bits stored (DESIGN
CHOICE, log 23). -/
def State.writeReg (s : State) (off : Nat) (v : Dword) : State :=
  let r := s.regs
  if off = regQcmd then { s with regs := { r with qcmd := cmdWrite qcmdKind r.qcmd v } }
  else if off = regQtbase then s.writeQtbase v
  else if off = regCtxcmd then { s with regs := { r with ctxcmd := cmdWrite ctxcmdKind r.ctxcmd v } }
  else if off = regCtxdesc then { s with regs := { r with ctxdesc := v &&& ~~~ 0x3F } }
  else if off = regHcmd then { s with regs := { r with hcmd := cmdWrite hcmdKind r.hcmd v } }
  else if off = regPitcmd then { s with regs := { r with pitcmd := cmdWrite pitcmdKind r.pitcmd v } }
  else if off = regPitarg0 then { s with regs := { r with pitarg0 := v } }
  else if off = regPitarg1 then { s with regs := { r with pitarg1 := v } }
  else if off = regPsring then { s with regs := { r with psring := v &&& ~~~ 0xFF0 } }.psDrain
  else if off = regPshead then { s with regs := { r with pshead := v } }.psDrain
  else if off = regPsmsi then { s with regs := { r with psmsi := v &&& 0x3F07FF } }
  else s

/-- A read of eight bytes of the register block: zero at an offset that is not listed (R323). -/
def State.readReg (s : State) (off : Nat) : Dword :=
  let r := s.regs
  if off = regQcmd then cmdRead r.qcmd qcmdOperand
  else if off = regQtbase then r.qtbase
  else if off = regCtxcmd then cmdRead r.ctxcmd ctxcmdOperand
  else if off = regCtxdesc then r.ctxdesc
  else if off = regHcmd then cmdRead r.hcmd hcmdOperand
  else if off = regPitcmd then cmdRead r.pitcmd pitcmdOperand
  else if off = regPitarg0 then r.pitarg0
  else if off = regPitarg1 then r.pitarg1
  else if off = regPsring then r.psring
  else if off = regPstail then r.pstail.zeroExtend 64
  else if off = regPshead then r.pshead
  else if off = regPsmsi then r.psmsi
  else 0

/-- QTBASE_WRITE (R324): the value of the focus. -/
def execQtbaseWrite (s : State) : Out := .next (s.writeQtbase s.focus.val)

/-! ## Doorbells -/

/-- A queue's live copy changed with no change of state. -/
def State.keepQueue (s : State) (q : Nat) (x : HwQueue) : State := { s with wqueues := put s.wqueues q x }

/-- A doorbell store of eight aligned bytes (R327). -/
def State.doorbell (s : State) (q : Nat) (v : Dword) : State :=
  match look s.wqueues q with
  | none => s
  | some x =>
    let t := v.extractLsb' 0 32
    let n := 2 ^ x.logn
    if v.extractLsb' 32 32 != 0 then s
    else
      match x.state with
      | .disabled | .draining => s
      | _ =>
        if t = x.tail then s
        else if n < (t - x.tail).toNat || n < (t - x.head).toNat then
          s.setQueue q { x with state := .error, err := 3 }
        else s.keepQueue q { x with tail := t }

/-- DOORBELL_WRITE (R327): the queue is the focus's unit, the value stored its value. -/
def execDoorbellWrite (s : State) : Out := .next (s.doorbell (s.focus.unit % 65536) s.focus.val)

/-- REGISTER_WRITE (R4): eight bytes stored to a register of the scheduler block, or elsewhere with no effect. -/
def execRegisterWrite (dpa : Nat) (v : Dword) (s : State) : Out :=
  if decide (regBlock ≤ dpa) && decide (dpa < regBlock + 4096) then .next (s.writeReg (dpa - regBlock) v)
  else .next s

/-! ## Queue commands -/

/-- A context is LIVE (R312). -/
def State.live (s : State) (ctx : Nat) : Bool :=
  match look s.ctxs ctx with
  | some c => !c.purging
  | none => false

/-- The queue descriptor as the live copy that ENABLE makes of it (R325, R329): HEAD and TAIL are 0. -/
def queueOf (d : Nat) : HwQueue :=
  { rbase := bits d 511 448, head := 0, tail := 0, statw := bits d 383 320, state := .active, err := 0,
    prio := BitVec.ofNat 2 (bits d 25 24), logn := bits d 20 16, ctx := bits d 11 0 }

/-- A descriptor that ENABLE refuses with STATUS 1 (R329): a nonzero RZ bit, LOGN outside 4 to 16, a misaligned
address, or a ring that does not lie wholly in HBM data. -/
def queueDescBad (d : Nat) : Bool :=
  let x := queueOf d
  bits d 319 36 != 0 || bits d 31 26 != 0 || bits d 23 21 != 0 || bits d 15 12 != 0
    || decide (x.logn < 4) || decide (16 < x.logn) || x.rbase % 4096 != 0 || x.statw % 8 != 0
    || decide (hbmEnd < x.rbase + 64 * 2 ^ x.logn)

/-- QID of the command. -/
def State.qid (s : State) : Nat := (s.regs.qcmd.extractLsb' 0 16).toNat

/-- The queue command completes. -/
def State.qcmdEnd (s : State) (status : Nat) : State :=
  { s with regs := { s.regs with qcmd := cmdDone s.regs.qcmd status qcmdOperand } }

/-- A command of the given OP is in progress with no RZ bit set. -/
def State.qcmdIs (s : State) (op : Nat) : Bool :=
  cmdBusy s.regs.qcmd && decide (cmdOp s.regs.qcmd = op) && !cmdRz s.regs.qcmd qcmdOperand 0

/-- The state of the command's queue, with its live copy. -/
def State.queueNow (s : State) : Option HwQueue := look s.wqueues s.qid

/-- QCMD_ENABLE (R325, R329). -/
def execQcmdEnable (s : State) : Out :=
  if !s.qcmdIs 1 then .next s
  else
    match s.queueNow with
    | some _ => .next (s.qcmdEnd 2)
    | none =>
      let d := s.sysRead (s.queueDesc s.qid) 64
      if queueDescBad d then .next (s.qcmdEnd 1)
      else if !s.live (queueOf d).ctx then .next (s.qcmdEnd 3)
      else .next ((s.setQueue s.qid (queueOf d)).qcmdEnd 0)

/-- A command that moves a queue between states: STATUS 2 where the table of R329 does not list it. -/
def queueCommand (s : State) (op : Nat) (f : HwQueue → Option (State × Nat)) : Out :=
  if !s.qcmdIs op then .next s
  else
    match s.queueNow.bind f with
    | some (t, status) => .next (t.qcmdEnd status)
    | none => .next (s.qcmdEnd 2)

/-- QCMD_PAUSE (R329). -/
def execQcmdPause (s : State) : Out :=
  queueCommand s 2 (fun x => if x.state = .active then some (s.setQueue s.qid { x with state := .paused }, 0) else none)

/-- QCMD_RESUME (R329): from ERROR, ERR becomes 0. -/
def execQcmdResume (s : State) : Out :=
  queueCommand s 3 (fun x =>
    match x.state with
    | .paused => some (s.setQueue s.qid { x with state := .active }, 0)
    | .error => some (s.setQueue s.qid { x with state := .active, err := 0 }, 0)
    | _ => none)

/-- A queue enters DRAINING, its records that are not admitted dropped, and DISABLED where no launch is left
(R329). -/
def State.drainQueue (s : State) (q : Nat) (x : HwQueue) : State :=
  (s.setQueue q { x with state := .draining }).drained q

/-- QCMD_DRAIN (R329). -/
def execQcmdDrain (s : State) : Out :=
  queueCommand s 4 (fun x =>
    match x.state with
    | .active | .paused | .error => some (s.drainQueue s.qid x, 0)
    | _ => none)

/-- QCMD_DISABLE (R329): STATUS 4 while a launch of the queue runs. -/
def execQcmdDisable (s : State) : Out :=
  queueCommand s 5 (fun x =>
    match x.state with
    | .paused | .error =>
      if s.queueRuns s.qid then some (s, 4) else some (s.setQueue s.qid { x with state := .disabled }, 0)
    | _ => none)

/-- QCMD_SKIP (R329). -/
def execQcmdSkip (s : State) : Out :=
  queueCommand s 6 (fun x =>
    if x.state = .error then some (s.setQueue s.qid { x with state := .paused, head := x.head + 1 }, 0) else none)

/-- QCMD_INVALID (R323): an undefined OP, or a nonzero RZ bit. -/
def execQcmdInvalid (s : State) : Out :=
  let r := s.regs.qcmd
  if cmdBusy r && (decide (cmdOp r = 0) || decide (6 < cmdOp r) || cmdRz r qcmdOperand 0) then .next (s.qcmdEnd 1)
  else .next s

/-! ## Launch admission -/

/-- The head record of a queue (R325, R326). -/
def State.headRecord (s : State) (x : HwQueue) : Nat := s.sysRead (x.rbase + x.head.toNat % 2 ^ x.logn * 64) 64

/-- A queue whose head record can be admitted now (R328). -/
def State.queueReady (s : State) (q : Nat) (x : HwQueue) : Bool :=
  x.state == .active && x.head != x.tail && !(bitOf (s.headRecord x) 8 && s.queueRuns q)

/-- How far a queue stands behind the one admitted last in the round-robin order. -/
def State.turnOf (s : State) (q : Nat) : Nat := (q + 65535 - s.lastQueue) % 65536

/-- The queue that admission takes: the highest class, then round-robin (R328). -/
def State.pickQueue (s : State) : Option (Nat × HwQueue) :=
  (s.wqueues.filter (fun x => s.queueReady x.1 x.2)).foldl (fun best x =>
    match best with
    | none => some x
    | some b =>
      if b.2.prio.toNat < x.2.prio.toNat
          || (b.2.prio == x.2.prio && decide (s.turnOf x.1 < s.turnOf b.1)) then some x
      else some b) none

/-- An aligned HBM data DPA. -/
def hbmAligned (a n : Nat) : Bool := isHbm a && a % n == 0

/-- The error code of a launch record, 0 for none (R328). -/
def recordError (r head : Nat) : Nat :=
  let done := bits r 447 384
  if bits r 7 0 ≠ 1 || bits r 223 9 ≠ 0 then 1
  else if bits r 255 224 ≠ head then 2
  else if !hbmAligned (bits r 511 448) 64 || !(done == 0 || hbmAligned done 8) || !hbmAligned (bits r 319 256) 64 then 4
  else 0

/-- The launch that a record starts (R326, R337). -/
def launchOf (q : Nat) (x : HwQueue) (r : Nat) : Launch :=
  { queue := q, ctx := x.ctx, prio := x.prio, done := bits r 447 384, doneVal := BitVec.ofNat 64 (bits r 383 320),
    args := bits r 319 256, serial := bitOf r 8, next := some (bits r 511 448), counts := [], visits := 0, started := [],
    waitFor := none, fail := none }

/-- LAUNCH_ADMISSION (R328): at most one record; with none ready nothing happens. -/
def execLaunchAdmission (s : State) : Out :=
  match s.pickQueue with
  | none => .next s
  | some (q, x) =>
    let r := s.headRecord x
    match recordError r x.head.toNat with
    | 0 =>
      let x' := { x with head := x.head + 1, err := 0 }
      let s := { s with launches := put s.launches s.nextLaunch (launchOf q x r), nextLaunch := s.nextLaunch + 1,
                        lastQueue := q }
      .next ((s.keepQueue q x').sysWrite x'.statw 8 x'.status.toNat)
    | e => .next (s.setQueue q { x with state := .error, err := BitVec.ofNat 8 e })

end Sys2Proof.Machine
end

