-- ==== Sys2Proof/Machine/Context.lean ====
section
/-! DEFINITION. Creating, ending and freeing a context (spec/17_context.md R310 to R313, R318, R322), and resuming a
suspended hart by HCMD (R321). -/

namespace Sys2Proof.Machine

/-! ## Context commands -/

/-- ID of the context command. -/
def State.ctxcmdId (s : State) : Nat := (s.regs.ctxcmd.extractLsb' 0 12).toNat

/-- The context command completes. -/
def State.ctxcmdEnd (s : State) (status : Nat) : State :=
  { s with regs := { s.regs with ctxcmd := cmdDone s.regs.ctxcmd status ctxcmdOperand } }

/-- A command of the given OP is in progress with no RZ bit set. -/
def State.ctxcmdIs (s : State) (op : Nat) : Bool :=
  cmdBusy s.regs.ctxcmd && decide (cmdOp s.regs.ctxcmd = op) && !cmdRz s.regs.ctxcmd ctxcmdOperand 0

/-- Bytes from one address on meet those between two. -/
def spans (a n lo hi : Nat) : Bool := decide (a < hi) && decide (lo < a + n)

/-- Bytes that meet a reserved DPA (R23, and R189 beyond the views of the scratchpad window), or pass the end of the DPA
space. -/
def spansReserved (a n : Nat) : Bool :=
  spans a n hbmEnd cxlBase || spans a n (spadWindow + 5 * 2 ^ 24) (spadWindow + 2 ^ 32) || decide (2 ^ 52 < a + n)

/-- A context descriptor that CTXALLOC refuses (R310, R312). -/
def ctxDescBad (d : Nat) : Bool :=
  let spill := bits d 511 448
  let frames := bits d 447 384
  let img := bits d 383 320
  bits d 271 262 != 0 || bits d 255 0 != 0 || spill % 2 ^ 25 != 0 || frames % 2 ^ 20 != 0 || img % 1024 != 0
    || spansReserved spill (2 ^ 32) || spansReserved frames (2 ^ 31) || spansReserved img 1024

/-- A LIVE context as its descriptor makes it (R310, R312). -/
def ctxOf (d : Nat) : Ctx :=
  { purging := false, spill := bits d 511 448, frames := bits d 447 384, prtimg := bits d 383 320,
    deadline := bits d 319 288, msiid := bits d 287 272, ahart := bits d 261 256, scopes := [], prtaba := 0,
    prt := none, spilled := [], images := [] }

/-- The first FREE identifier after the last one allocated, in ascending order modulo 4,096 (R312). -/
def State.freeCtx (s : State) : Option Nat :=
  ((List.range 4096).map (fun i => (s.lastCtx + 1 + i) % 4096)).find? (fun i => (look s.ctxs i).isNone)

/-- CTXALLOC (R312). -/
def execCtxalloc (s : State) : Out :=
  if !s.ctxcmdIs 1 then .next s
  else
    match s.freeCtx with
    | none => .next (s.ctxcmdEnd 1)
    | some i =>
      match s.sysLoc s.regs.ctxdesc.toNat with
      | none => .next (s.ctxcmdEnd 5)
      | some l =>
        let d := s.readRaw l 64
        if ctxDescBad d then .next (s.ctxcmdEnd 5)
        else
          let s := { s with ctxs := put s.ctxs i (ctxOf d), lastCtx := i }
          let s := { s with regs := { s.regs with ctxcmd := BitVec.ofNat 64 (bits s.regs.ctxcmd.toNat 63 12 * 2 ^ 12 + i) } }
          .next (s.ctxcmdEnd 0)

/-- Work that a context holds (R312). -/
def State.holdsWork (s : State) (ctx : Nat) : Bool :=
  s.wqueues.any (fun x => decide (x.2.ctx = ctx)) || s.groups.any (fun x => decide (x.2.ctx = ctx))
    || s.harts.any (fun x => decide (x.2.ctx = ctx)) || s.jobs.any (fun x => decide (x.2.ctx = ctx))
    || s.keeps.any (fun k => decide (k.ctx = ctx))
    || (List.range 32).any (fun k => s.flight ctx k != 0 || s.scopePending ctx k)

/-- Pages that a context holds (R312). -/
def State.holdsPages (s : State) (ctx : Nat) : Bool :=
  s.pit.any (fun x => pitOwnv x.2 && decide (pitOwner x.2 = ctx))

/-- CTXFREE (R312): the purge begins, and BUSY stays until it is complete. -/
def execCtxfree (s : State) : Out :=
  let id := s.ctxcmdId
  if !s.ctxcmdIs 2 then .next s
  else
    match look s.ctxs id with
    | none => .next (s.ctxcmdEnd 4)
    | some c =>
      if c.purging then .next s
      else if s.holdsWork id then .next (s.ctxcmdEnd 2)
      else if s.holdsPages id then .next (s.ctxcmdEnd 3)
      else .next (s.modCtx id (fun c => { c with purging := true }))

/-- A core zeroed for its next owner (R318): scratchpad sectors, whose stored bytes are read no more (R31), ring descriptors
and strip queues. Its L1s keep no copy of the old owner's, and the waiters on its cells are released as though filled
(R363). -/
def State.zeroCore (s : State) (c : Nat) : State :=
  let lo := spadKey c 0 / 256
  let out := fun (k : Nat) => decide (k < lo) || decide (lo + 65536 ≤ k)
  let s := { s with sides := s.sides.filter (fun x => out x.1), errors := s.errors.filter (fun x => out x.1) }
  let s := s.modCore c (fun x => { x with rings := [], queues := [], l1 := [] })
  (s.waiters.filter (fun w => !out w.cell)).foldl (fun s w => s.releaseCell w.ctx w.cell) s

/-- The tiles of a core that a context owns, zeroed and unowned with no spill (R313). -/
def State.purgeTiles (s : State) (ctx core : Nat) : State :=
  ((s.core core).tileOwner.filter (fun x => decide (x.2.1 = ctx))).foldl (fun s x =>
    (s.zeroTile core x.1).modCore core (fun c => { c with tileOwner := del c.tileOwner x.1 })) s

/-- What a core still holds of a context, removed (R313). -/
def State.purgeCore (s : State) (ctx core : Nat) : State :=
  let s := s.purgeTiles ctx core
  if (s.core core).owner = some ctx then (s.zeroCore core).modCore core (fun c => { c with owner := none }) else s

/-- Every step of the purge (R313); the scope table, spilled bits, images and promotion table go with the context. -/
def State.purge (s : State) (ctx : Nat) : State :=
  let s := (s.cores.map (·.1)).foldl (fun s c => s.purgeCore ctx c) s
  { s with waiters := s.waiters.filter (fun w => decide (w.ctx ≠ ctx)), ctxs := del s.ctxs ctx,
           colls := s.colls.filter (fun x => decide (x.2.ctx ≠ ctx)) }

/-- PURGE_COMPLETE (R313): the identifier becomes FREE and CTXFREE completes. -/
def execPurgeComplete (s : State) : Out :=
  match look s.ctxs s.ctxcmdId with
  | some c => if s.ctxcmdIs 2 && c.purging then .next ((s.purge s.ctxcmdId).ctxcmdEnd 0) else .next s
  | none => .next s

/-- CTXCMD_INVALID (R311): an undefined OP, or a nonzero RZ bit. -/
def execCtxcmdInvalid (s : State) : Out :=
  let r := s.regs.ctxcmd
  if cmdBusy r && (decide (cmdOp r = 0) || decide (3 < cmdOp r) || cmdRz r ctxcmdOperand 0) then .next (s.ctxcmdEnd 5)
  else .next s

/-! ## Harts that leave their group -/

/-- A hart gone from the machine, at TEXIT or discarded: its lease, its pair slots and its KEEP registrations end
(R148, R212, R222, R231, R322). -/
def State.removeHart (s : State) (hid : Nat) : State :=
  match look s.harts hid with
  | none => s
  | some h =>
    let s := s.leaseBack h
    let s := h.cores.foldl (fun s c =>
      match s.pair h c with
      | .half k => if k = c then s.setPair h c .idle else s
      | .cancelled k _ => if k = c then s.setPair h c .idle else s
      | .idle => s) s
    let s := { s with keeps := s.keeps.filter (fun k => decide (k.hart ≠ hid)), harts := del s.harts hid,
                      requests := s.requests.map (fun (r : Request) => { r with harts := r.harts.filter (fun k => k != hid) }) }
    (s.lapse (.restore hid)).refreeze h

/-! ## CTXABORT (R322) -/

/-- The node at which a launch's walk stands. -/
def Started.node : Started → Nat
  | .checked n _ _ _ _ => n
  | .placed n _ => n
  | .job n _ => n
  | .waiting n _ _ _ => n

def Launch.at (l : Launch) : Nat :=
  match l.waitFor with
  | some x => x.node
  | none => l.next.getD 0

/-- The failure of an aborted launch, set once. -/
def Launch.aborted (l : Launch) : Option (Nat × Nat) :=
  match l.fail with
  | some (6, n) => some (6, n)
  | _ => some (6, Launch.at l)

/-- A job that has started runs on until it is abandoned; nothing else that a launch started is left. -/
def Started.isJob : Started → Bool
  | .job _ _ => true
  | _ => false

/-- Step 1: every queue of the context that is not DISABLED enters DRAINING. -/
def State.abortQueues (s : State) (ctx : Nat) : State :=
  (s.wqueues.filter (fun x => decide (x.2.ctx = ctx))).foldl (fun s x => s.drainQueue x.1 x.2) s

/-- Step 2: every launch of the context fails with code 6. -/
def State.abortLaunches (s : State) (ctx : Nat) : State :=
  (s.launches.filter (fun x => decide (x.2.ctx = ctx))).foldl (fun s x =>
    ((s.modLaunch x.1 (fun l =>
      { l with next := none, waitFor := none, fail := Launch.aborted l,
               started := l.started.filter Started.isJob })).finishLaunch x.1).lapse (.launch x.1)) s

/-- Step 3: every hart of the context is discarded, with its waiters. -/
def State.abortHarts (s : State) (ctx : Nat) : State :=
  let s := (s.harts.filter (fun x => decide (x.2.ctx = ctx))).foldl (fun s x => s.removeHart x.1) s
  { s with groups := s.groups.filter (fun x => decide (x.2.ctx ≠ ctx)),
           waiters := s.waiters.filter (fun w => decide (w.ctx ≠ ctx)) }

/-- Step 4: every job of the context is abandoned, and a collective with a member in the context aborts. -/
def State.abortJobs (s : State) (ctx : Nat) : State :=
  let s := s.jobs.foldl (fun s x =>
    match x.2.coll with
    | some (key, rank) =>
      if x.2.ctx = ctx && x.2.outcome.isNone then s.abortCollective key 5 rank else s
    | none => s) s
  { s with jobs := s.jobs.map (fun (x : Nat × Job) =>
      if x.2.ctx = ctx then
        (x.1, { x.2 with state := .running, skip := x.2.skip || !x.2.outcome.any (fun o => o.1 ≠ 0),
                         hart := none })
      else x) }

/-- Step 5: no operation is in flight, so every PENDING rewrite takes effect. -/
def ScopeEntry.settled (e : ScopeEntry) : ScopeEntry :=
  match e.pending.getLast? with
  | some r => { cur := r.new, pending := [], admits := false }
  | none => e

def State.abortScopes (s : State) (ctx : Nat) : State :=
  s.modCtx ctx (fun c => { c with scopes := c.scopes.foldl (fun m x => putD m x.1 ScopeEntry.invalid x.2.settled) c.scopes })

/-- CTXABORT (R322): everything the context runs is ended; the command completes once its jobs have made their
arrivals. -/
def execCtxabort (s : State) : Out :=
  let id := s.ctxcmdId
  if !s.ctxcmdIs 3 then .next s
  else if !s.live id then .next (s.ctxcmdEnd 4)
  else
    let s := ((((s.abortQueues id).abortLaunches id).abortHarts id).abortJobs id).abortScopes id
    if s.jobs.any (fun x => decide (x.2.ctx = id)) then .next s else .next (s.ctxcmdEnd 0)

/-! ## HCMD (R321) -/

/-- The HCMD command completes. -/
def State.hcmdEnd (s : State) (status : Nat) : State :=
  { s with regs := { s.regs with hcmd := cmdDone s.regs.hcmd status hcmdOperand } }

/-- The suspended hart that HCMD names. -/
def State.hcmdHart (s : State) : Option (Nat × Hart) :=
  let r := s.regs.hcmd
  s.harts.find? (fun x =>
    x.2.state == .suspended && decide (x.2.ctx = (r.extractLsb' 16 12).toNat)
      && decide (x.2.coreOf 0 = (r.extractLsb' 8 7).toNat) && decide (x.2.slot = (r.extractLsb' 0 2).toNat))

/-- A record of 64 bytes read from storage: its sector settled first (R31), and none where its class is not data (R37). -/
def State.recordAt (s : State) (l : Loc) (dpa : Nat) : State × Option Nat :=
  let s := s.settle l dpa
  (s, if (rawFault (s.tagAt l.key)).isSome then none else some (s.readRaw l 64))

/-- The trap record of a suspended hart, where R262 wrote it; none where it cannot be read. -/
def State.suspendedRecord (s : State) (h : Hart) : State × Option Nat :=
  let inFrame := match h.traps with
    | t :: _ => t.inFrame
    | [] => false
  if inFrame then
    match s.sysLoc (s.frameDpa h + frameTrap) with
    | some l => s.recordAt l (s.frameDpa h + frameTrap)
    | none => (s, none)
  else
    match s.reach h 0 .r h.csr.traprec with
    | .ok (l, dpa) => s.recordAt l dpa
    | .error _ => (s, none)

/-- HCMD_RESUME (R321). -/
def execHcmdResume (s : State) : Out :=
  let r := s.regs.hcmd
  if !(cmdBusy r && decide (cmdOp r = 1) && !cmdRz r hcmdOperand 0) then .next s
  else
    match s.hcmdHart with
    | none => .next (s.hcmdEnd 2)
    | some (hid, h) =>
      match s.suspendedRecord h with
      | (s, none) => .next (s.hcmdEnd 3)
      | (s, some y) =>
        if bitOf y 15 || recordRz y then .next (s.hcmdEnd 3)
        else
          let after := s.instrAfter h (BitVec.ofNat 64 (bits y 127 64))
          .next ((s.resumeTrap hid { h with lastProgress := s.now } y after (bitOf y 16)).hcmdEnd 0)

/-- HCMD_INVALID (R321): an undefined OP, or a nonzero RZ bit. -/
def execHcmdInvalid (s : State) : Out :=
  let r := s.regs.hcmd
  if cmdBusy r && (decide (cmdOp r ≠ 1) || cmdRz r hcmdOperand 0) then .next (s.hcmdEnd 1) else .next s

end Sys2Proof.Machine
end

