-- ==== Sys2Proof/Machine/Launch.lean ====
section
/-! DEFINITION. A hart as a launch leaves it (spec/05_words.md R105; spec/19_kernel.md R345). -/

namespace Sys2Proof.Machine

/-- The CSRs at group launch: the reset values of R105, with the grants, the die span, and TRAPVEC, TRAPREC and PRTABA as
R345 gives them. LDFMT resets to FMT 0x00 and CW 0. -/
def Csrs.launch (span xcl acl trows : Nat) (tvec trec prtaba : Dword) : Csrs :=
  { vl := 0, vlcw := 0, xcl := xcl, acl := acl, trows := trows, dmask := BitVec.ofNat 8 (2 ^ span - 1),
    ds := Vector.replicate 4 0, xstat := 0, rmode := 0, ldFmt := 0, ldCw := 0, ldSexp := 0, srseed := 0,
    retired := 0, tapeb := 0, tapel := 0, tapep := 0, tapen := 0, recMark := 0, recording := false, policy := 0,
    revAct := false, revNext := 0, trapvec := tvec, traprec := trec, trapEng := 0, trapCause := 0, prtaba := prtaba,
    panelRow := 0, panelCol := 0 }

/-- s3 to s11 as a launch sets them in every row (R345). -/
def RowRegs.launch (hl : Dword) (args : List Dword) : RowRegs :=
  (args.take 8).zipIdx.foldl (fun r x => r.set false (4 + x.2) x.1) (RowRegs.zero.set false 3 hl)

/-- The place of a hart: its group's context and number, its stage coordinates, cores, slot, frame and class. -/
structure Place where
  ctx   : Nat
  group : Nat
  coord : Nat
  stage : Nat
  cores : List Nat
  slot  : Nat
  frame : Nat
  prio  : BitVec 2
  deriving DecidableEq, Repr

/-- A hart launched (R345): at its entry, in U, every register zero, its template tables as filled. -/
def Hart.launch (p : Place) (entry : Dword) (csr : Csrs) (regs : RowRegs) (tmpl : Map Template) : Hart :=
  { ctx := p.ctx, group := p.group, coord := p.coord, stage := p.stage, cores := p.cores, slot := p.slot,
    frame := p.frame, prio := p.prio, state := .running, timed := [], waitSince := none, mcPending := false, wasSuspended := false, pc := entry, priv := false,
    rows := List.replicate p.cores.length regs, csr := csr, tmpl := tmpl, queues := Vector.replicate 5 [],
    idx := Vector.replicate 6 0, tokens := Vector.replicate 8 0, slots := 0, loads := [], stores := [],
    event := false, wait := .none, halted := false, traps := [], lastProgress := 0, lastIssue := none, order := 0,
    task := none, preempt := none, reissue := [], leaseKept := [], launchX := csr.xcl, launchA := csr.acl }

/-! ## A package about to fetch one instruction -/

/-- The DPA of the code page of the model's own placed program (log 17), and its virtual address. -/
def programDpa : Nat := 0x4000000
def programVa : Nat := 0x4000000000

/-- A kernel whose KTT maps the code page with X, W and R; every other table is empty. -/
def Kernel.program : Kernel :=
  { tmpl := 0, ktta := 0, sched := 0, hlbase := 0, d := 1, c := 1, t := 1, stages := [], fusion := false,
    tvec := 0, trec := 0, prtab := 0,
    ktt := [{ npages := 1, dpapg := programDpa / 65536, vapg := programVa / 65536, x := true, w := true, r := true }],
    templates := [] }

/-- The context that owns the placed program's page. -/
def Ctx.program : Ctx :=
  { purging := false, spill := 0, frames := 0, prtimg := 0, deadline := 0, msiid := 0, ahart := 0, scopes := [],
    prtaba := 0, prt := none, spilled := [], images := [] }

/-- The group of the placed program: one hart on virtual core 0. -/
def Group.program : Group :=
  { ctx := 0, launch := 0, node := 0, visit := 0, kernel := Kernel.program, result := 0, dies := [0], cidx := [0], sigma := [0],
    cursors := [], squashed := [], live := 1 }

/-- The hart of the placed program, as a launch leaves it. -/
def Hart.program : Hart :=
  Hart.launch { ctx := 0, group := 0, coord := 0, stage := 0, cores := [0], slot := 0, frame := 0, prio := 0 }
    (BitVec.ofNat 64 programVa) (Csrs.launch 1 1 1 2 0 0 0) RowRegs.zero []

/-- The PIT entry of the code page: PRESENT in the frame of its own number, owned by context 0 (R367). -/
def programEntry : BitVec 128 :=
  pitSet (pitSet (pitSet 0 45 3 1) 48 40 (programDpa / 65536)) 4 1 1

/-- The package with a program of at most five words at the PC of a running hart, which acts next (log 17). Every die is
released, so that the hart may run (R17), and its core holds nothing. -/
def State.withProgram (s : State) (w : Nat) : State :=
  let k := s.frameKey (programDpa / 65536) 0
  { s with trust := { s.trust with released := 23 }, cores := put s.cores 0 Core.reset, errors := del s.errors (k / 256),
           dieMap := s.dieMap.set 0 (some (((s.dieMap[0]?).getD none).getD 0)),
           harts := put s.harts 0 Hart.program, ctxs := put s.ctxs 0 Ctx.program,
           groups := put s.groups 0 Group.program, pit := put s.pit (programDpa / 65536) programEntry,
           mem := setNat s.mem k 20 w,
           sides := put s.sides (k / 256) ((mkTag clsPlain 0 0 0).zeroExtend 152),
           plan := [.scalar 0 false] }

end Sys2Proof.Machine
end

