-- ==== Sys2Proof/Machine/Kernel.lean ====
section
/-! DEFINITION. The graph walk of a launch (spec/19_kernel.md R335 to R338), the kernel descriptor with its tables
(R339 to R344), and the placement and launch of a group (R345; spec/20_group.md R347 to R349, R356). -/

namespace Sys2Proof.Machine

/-! ## Graph nodes -/

/-- A graph node (R335). -/
structure Node where
  next  : Nat
  p0    : Nat
  p1    : Nat
  p2    : Nat
  p3    : Nat
  word  : Nat
  limit : Nat
  async : Bool
  type  : Nat
  rz    : Bool
  deriving DecidableEq, Repr

/-- A node's fields. -/
def nodeOf (x : Nat) : Node :=
  { next := bits x 511 448, p0 := bits x 447 384, p1 := bits x 383 320, p2 := bits x 319 256, p3 := bits x 255 192,
    word := bits x 191 128, limit := bits x 127 96, async := bitOf x 8, type := bits x 7 0, rz := bits x 95 9 != 0 }

/-- A successor or a target: 0, which ends the walk, or an aligned HBM data DPA. -/
def targetOk (a : Nat) : Bool := a == 0 || hbmAligned a 64

/-- EVENT modes: 0 SET, 1 WAIT, 2 MSI (R336). -/
def Node.mode (n : Node) : Nat := n.p1 % 4

/-- A node is valid (R336, R338): its type and EVENT mode defined, RZ and unnamed fields zero, addresses aligned
HBM data DPAs, ASYNC and LIMIT in their places. The NEXT of a KERNEL or JOB is checked when it is reached. -/
def Node.ok (n : Node) : Bool :=
  !n.rz &&
  match n.type with
  | 1 => n.p3 == 0 && n.word == 0 && n.limit == 0 && hbmAligned n.p0 256 && hbmAligned n.p1 64 && hbmAligned n.p2 64
  | 2 => n.p2 == 0 && n.p3 == 0 && n.word == 0 && n.limit == 0 && hbmAligned n.p0 64 && hbmAligned n.p1 32
  | 3 => !n.async && n.p2 == 0 && n.p3 == 0 && n.limit == 0 && decide (n.p1 < 3) && hbmAligned n.word 8 && targetOk n.next
  | 4 => !n.async && n.p2 == 0 && n.p3 == 0 && n.limit == 0 && hbmAligned n.word 8 && targetOk n.next && targetOk n.p0
  | 5 => !n.async && n.p1 == 0 && n.p2 == 0 && n.p3 == 0 && decide (1 ≤ n.limit) && hbmAligned n.word 8
      && targetOk n.next && targetOk n.p0
  | 6 => !n.async && decide (1 ≤ n.limit) && decide (n.limit ≤ 4) && hbmAligned n.word 8 && targetOk n.next
      && targetOk n.p0 && targetOk n.p1 && targetOk n.p2 && targetOk n.p3
  | _ => false

/-- The node that a launch evaluates next, with its address: its predecessor in the walk has completed or has ASYNC
(R337), and no standing request asks the launch to start no further node (R356). -/
def State.nodeDue (s : State) (id : Nat) : Option (Launch × Nat × Node) :=
  match look s.launches id with
  | none => none
  | some l =>
    match l.next, l.waitFor with
    | some a, none => if s.launchHeld id then none else some (l, a, nodeOf (s.sysRead a 64))
    | _, _ => none

/-- The evaluation of the focus launch's next node, where its type is one of those given: code 1 where the node
is not valid (R338). -/
def nodeStep (s : State) (mine : Node → Bool) (f : Nat → Launch → Nat → Node → Out) : Out :=
  let id := s.focus.unit
  match s.nodeDue id with
  | none => .next s
  | some (l, a, n) =>
    if !mine n then .next s
    else if hbmAligned a 64 && n.ok then f id l a n
    else .next (s.nodeFail id 1 a)

/-- A node that has started: the walk goes on at NEXT, at once with ASYNC, or once it has completed (R337). -/
def State.nodeStart (s : State) (id : Nat) (n : Node) (x : Started) : State :=
  s.modLaunch id (fun l =>
    { l with started := l.started ++ [x], waitFor := if n.async then none else some x,
             next := if n.next = 0 then none else some n.next })

/-! ## Event and choice nodes -/

/-- EVENT_SET (R336): WORD := P0; a node with an undefined mode fails here. -/
def execEventSet (s : State) : Out :=
  nodeStep s (fun n => n.type == 3 && (n.mode == 0 || n.mode == 3)) (fun id _ _ n =>
    .next ((s.sysWrite n.word 8 n.p0).nodeNext id n.next))

/-- EVENT_WAIT (R336): complete when the word has reached P0, and otherwise waiting. -/
def execEventWait (s : State) : Out :=
  nodeStep s (fun n => n.type == 3 && n.mode == 1) (fun id _ a n =>
    if n.p0 ≤ s.sysRead n.word 8 then .next (s.nodeNext id n.next)
    else .next (s.nodeStart id { n with async := false } (.waiting a n.word n.p0 s.now)))

/-- Core-clock periods in 4 µs (R20). -/
def rereadPeriod : Nat := 4 * 940

/-- The EVENT WAIT node that a launch has started and that has not completed: the walk's failure elsewhere does not end it
(R338). -/
def Launch.waiting (l : Launch) : Option (Nat × Nat × Nat × Nat) :=
  l.started.findSome? (fun x => match x with
    | .waiting a w v t => some (a, w, v, t)
    | _ => none)

/-- EVENT_WAIT_REREAD (R336, R338): the word of the focus launch's waiting node is read again, and reached or not. -/
def execEventWaitReread (s : State) : Out :=
  let id := s.focus.unit
  match (look s.launches id).bind Launch.waiting with
  | none => .next s
  | some (a, w, v, t) =>
    if v ≤ s.sysRead w 8 then .next (s.nodeDone id (.waiting a w v t))
    else
      let again := fun (x : Started) => if x = .waiting a w v t then .waiting a w v s.now else x
      .next (s.modLaunch id (fun l => { l with started := l.started.map again, waitFor := l.waitFor.map again }))

/-- EVENT_MSI (R336). -/
def execEventMsi (s : State) : Out :=
  nodeStep s (fun n => n.type == 3 && n.mode == 2) (fun id l _ n => .next ((s.ctxMsi l.ctx).nodeNext id n.next))

/-- COND_NODE (R336). -/
def execCondNode (s : State) : Out :=
  nodeStep s (fun n => n.type == 4) (fun id _ _ n =>
    .next (s.nodeNext id (if s.sysRead n.word 8 &&& n.p1 ≠ 0 then n.p0 else n.next)))

/-- LOOP_NODE (R336, R337): the count belongs to the launch and the node. -/
def execLoopNode (s : State) : Out :=
  nodeStep s (fun n => n.type == 5) (fun id l a n =>
    let c := lookD l.counts a 0
    if s.sysRead n.word 8 ≠ 0 && decide (c < n.limit) then
      .next ((s.modLaunch id (fun l => { l with counts := put l.counts a (c + 1) })).nodeNext id n.p0)
    else .next ((s.modLaunch id (fun l => { l with counts := del l.counts a })).nodeNext id n.next))

/-- SWITCH_NODE (R336). -/
def execSwitchNode (s : State) : Out :=
  nodeStep s (fun n => n.type == 6) (fun id _ _ n =>
    let w := s.sysRead n.word 8
    .next (s.nodeNext id (if w < n.limit then [n.p0, n.p1, n.p2, n.p3].getD w 0 else n.next)))

/-! ## Job nodes -/

/-- The issuer of a JOB node's job: a member of entries 0 and 31 only (R336). It is issued on core 0 of the lowest virtual
die in service, in die row 0 (DESIGN CHOICE, log 24): the cores of another serve no program (R18). -/
def State.nodeIssuer (s : State) (id : Nat) (l : Launch) (a : Nat) (prt : Option (List Byte)) : Issuer :=
  { ctx := l.ctx, hart := none, launch := id, node := a, core := 16 * s.diesInService.headD 0, row := 0, group := 0, idx := 0, pc := 0, tix := 0,
    rmode := 0, ldFmt := 0, ldCw := 0, ldSexp := 0, prt := prt }

/-- A card that may stand in a JOB node (R336). -/
def nodeCardOk (x : Nat) : Bool :=
  let k := bits x 7 0
  (decide (2 ≤ k && k ≤ 4) || decide (6 ≤ k && k ≤ 9)) && (bits x 12 8 == 0 || bits x 12 8 == 31) && !cardBad x k

/-- JOB_NODE (R336): the job is issued, once the tracker of the core has an entry; a job refused at issue gives
code 5. -/
def execJobNode (s : State) : Out :=
  nodeStep s (fun n => n.type == 2) (fun id l a n =>
    let x := s.sysRead n.p0 64
    if !nodeCardOk x then .next (s.nodeFail id 5 a)
    else
      match s.issueJob (s.nodeIssuer id l a ((look s.ctxs l.ctx).bind (fun c => c.prt))) (specOf x) (if n.p1 = 0 then none else some (BitVec.ofNat 64 n.p1)) with
      | .error _ => .next (s.nodeFail id 5 a)
      | .ok none => .next s
      | .ok (some (s', j)) =>
        if !s'.trackerRoom [j] then .next s
        else
          let jid := s'.nextJob
          .next ((s'.registerMember j).nodeStart id n (.job a jid)))

/-! ## Kernel descriptors -/

/-- A stage declaration (R342). -/
def stageOf (x : Nat) : Stage :=
  let acl := fun c => [0, 1, 2, 4].getD c 0
  { entry := BitVec.ofNat 64 (bits x 255 192), inr := BitVec.ofNat 16 (bits x 191 176),
    outr := BitVec.ofNat 16 (bits x 175 160), inq := BitVec.ofNat 8 (bits x 159 152),
    outq := BitVec.ofNat 8 (bits x 151 144), xmin := 2 ^ bits x 139 138, xmax := 2 ^ bits x 137 136,
    amin := acl (bits x 135 134), amax := acl (bits x 133 132), tmin := 2 ^ (bits x 131 130 + 1),
    tmax := 2 ^ (bits x 129 128 + 1) }

/-- A stage declaration of a used stage is well formed. -/
def stageOk (x : Nat) : Bool :=
  let t := stageOf x
  bits x 143 140 == 0 && bits x 127 0 == 0 && t.entry.toNat % 4 == 0 && decide (t.xmin ≤ t.xmax)
    && decide (t.amin ≤ t.amax) && decide (t.tmin ≤ t.tmax)

/-- A loop level's kind and extent (R341). -/
def levelOk (x : Nat) : Bool :=
  let k := bits x 9 8
  let e := bits x 63 32
  bits x 31 10 == 0 && bits x 7 0 == 0 && decide (1 ≤ e) && k != 0 && (k != 2 || decide (e ≤ 16)) && (k != 3 || decide (e ≤ 8))

/-- The product of the extents of one kind. -/
def extents (levels : List Nat) (kind : Nat) : Nat :=
  (levels.filter (fun x => bits x 9 8 == kind)).foldl (fun acc x => acc * bits x 63 32) 1

/-- No bit is set in two of the masks. -/
def masksDisjoint : List Nat → Bool
  | [] => true
  | m :: ms => ms.all (fun n => m &&& n == 0) && masksDisjoint ms

/-- A KTT entry (R340). -/
def kttOf (x : Nat) : KttEntry :=
  { npages := bits x 127 96, dpapg := bits x 95 60, vapg := bits x 59 19, x := bitOf x 2, w := bitOf x 1, r := bitOf x 0 }

/-- The DPA range of an entry lies in HBM data, in one CXL window, or in the scratchpad views (R340). -/
def KttEntry.dpaOk (e : KttEntry) : Bool :=
  let lo := e.dpapg * 65536
  let hi := (e.dpapg + e.npages) * 65536
  decide (hi ≤ hbmEnd)
    || (decide (cxlBase ≤ lo) && decide (hi ≤ cxlEnd) && (lo - cxlBase) / 2 ^ 38 == (hi - 1 - cxlBase) / 2 ^ 38)
    || (decide (spadWindow ≤ lo) && decide (hi ≤ spadWindow + 5 * 2 ^ 24))

/-- Two virtual ranges meet. -/
def KttEntry.meets (a b : KttEntry) : Bool := decide (a.vapg < b.vapg + b.npages) && decide (b.vapg < a.vapg + a.npages)

/-- No two entries cover one address. -/
def kttDisjoint : List KttEntry → Bool
  | [] => true
  | e :: es => es.all (fun f => !e.meets f) && kttDisjoint es

/-- The KTT read from memory (R340); none where it is refused. -/
def State.readKtt (s : State) (ktta : Nat) : Option (List KttEntry) :=
  let xs := (List.range 256).map (fun i => s.sysRead (ktta + 16 * i) 16)
  let used := xs.filter (fun x => bits x 127 96 != 0)
  let es := used.map kttOf
  if used.any (fun x => bits x 18 3 != 0) || es.any (fun e => decide (2 ^ 41 < e.vapg + e.npages) || !e.dpaOk)
      || !kttDisjoint es then none
  else some es

/-- The template section read from memory (R339): keys as in a hart; none where a template is invalid (R85). -/
def State.readTemplates (s : State) (tmpl : Nat) : Option (Map Template) :=
  if tmpl = 0 then some []
  else
    let ts := (List.range 320).map (fun i => (i, templateOfNat (s.sysRead (tmpl + 16 * i) 16)))
    if ts.all (fun x => slotOk ([Eng.ld, .xv, .mx, .st, .jb].getD (x.1 / 64) .ld) x.2) then
      some (ts.filter (fun x => x.2 != emptyTemplate))
    else none

/-- A kernel read and checked at a descriptor (R339 to R342), or its failure code. -/
def State.readKernel (s : State) (a : Nat) : Except Nat Kernel :=
  let d := fun off => s.sysRead (a + off) 8
  let ctrl := d 0xE0
  let n := bits ctrl 3 0
  let lv := bits ctrl 11 8
  let levels := (List.range 8).map (fun i => d (0x20 + 8 * i))
  let decls := (List.range 4).map (fun i => s.sysRead (a + 0x60 + 32 * i) 32)
  let stages := (decls.take n).map stageOf
  let dies := extents (levels.take lv) 3
  let cores := extents (levels.take lv) 2
  let tmpl := d 0x00
  let ktta := d 0x08
  let hl := d 0x18
  let prtab := d 0xF8
  let bad :=
    ctrl &&& (2 ^ 64 - 1 - 0x10F0F) != 0 || decide (n < 1) || decide (4 < n) || decide (8 < lv)
      || (levels.drop lv).any (· != 0) || !(levels.take lv).all levelOk || (decls.drop n).any (· != 0)
      || !(decls.take n).all stageOk || decide (8 < dies) || decide (16 < cores)
      || decide (16 < (stages.map (fun t => t.xmin + t.amin)).sum)
      || !masksDisjoint (stages.map (·.inr.toNat)) || !masksDisjoint (stages.map (·.outr.toNat))
      || !masksDisjoint (stages.map (·.inq.toNat)) || !masksDisjoint (stages.map (·.outq.toNat))
      || !(tmpl == 0 || hbmAligned tmpl 1024) || !hbmAligned ktta 4096 || d 0x10 % 64 != 0 || hl % 256 != 0
      || d 0xE8 % 4 != 0 || d 0xF0 % 64 != 0 || prtab % 1024 != 0
  if bad then .error 2
  else
    match s.readTemplates tmpl with
    | none => .error 2
    | some ts =>
      match s.readKtt ktta with
      | none => .error 3
      | some ktt =>
        let mapped := match translate ktt .r prtab with
          | .ok _ => true
          | .error _ => false
        if prtab ≠ 0 && !mapped then .error 3
        else
          .ok { tmpl := tmpl, ktta := ktta, sched := BitVec.ofNat 64 (d 0x10), hlbase := BitVec.ofNat 64 hl, d := dies,
                c := cores, t := extents (levels.take lv) 1, stages := stages, fusion := bitOf ctrl 16,
                tvec := BitVec.ofNat 64 (d 0xE8), trec := BitVec.ofNat 64 (d 0xF0), prtab := BitVec.ofNat 64 prtab,
                ktt := ktt, templates := ts }

/-- KERNEL_NODE (R336, R344): the descriptor, the template section and the KTT are read and checked, and the kernel
stands in CHECKED, or the node fails with code 2, 3 or 4. A node of no defined type fails here with code 1. -/
def execKernelNode (s : State) : Out :=
  nodeStep s (fun n => decide (n.type < 2) || decide (6 < n.type)) (fun id l a n =>
    match s.readKernel n.p0 with
    | .error e => .next (s.nodeFail id e a)
    | .ok k =>
      if s.diesInService.length < k.d then .next (s.nodeFail id 4 a)
      else
        let s := s.modLaunch id (fun l => { l with visits := l.visits + 1 })
        .next (s.nodeStart id n (.checked a l.visits k (if n.p1 = 0 then l.args else n.p1) n.p2)))

/-! ## Placement (R347) -/

/-- The free slots of a core, lowest first. -/
def slotsFree (hs : List (Nat × Hart)) : List Nat := (List.range 4).filter (fun n => !hs.any (fun x => x.2.slot == n))

/-- The frames of a core's pool that no hart of the context holds (R314). -/
def State.framesFree (s : State) (ctx core : Nat) : List Nat :=
  (List.range 16).filter (fun f => !s.harts.any (fun x => decide (x.2.ctx = ctx) && x.2.coreOf 0 == core && x.2.frame == f))

/-- The sublists of n elements, in lexicographic order. -/
def choose {α : Type} : Nat → List α → List (List α)
  | 0, _ => [[]]
  | _ + 1, [] => []
  | n + 1, x :: xs => (choose n xs).map (x :: ·) ++ choose (n + 1) xs

/-- The slots that the stages take in a column of cores, where the placement is feasible there for the context (R347):
`keep` says which of the harts there are counted. -/
def State.columnSlots (s : State) (ctx : Nat) (k : Kernel) (keep : Hart → Bool) (cores : List Nat) : Option (List Nat) :=
  let n := k.stages.length
  let hs := fun c => (s.onCore c).filter (fun x => keep x.2)
  let fits := fun c =>
    ((s.placedOn c).filter (fun x => keep x.2)).all (fun x => decide (x.2.ctx = ctx))
      && decide ((k.stages.map (fun t => t.xmin + t.amin)).sum ≤ clustersFree (hs c))
      && decide (n ≤ (s.framesFree ctx c).length)
  let slots := (List.range 4).filter (fun m => cores.all (fun c => (slotsFree (hs c)).contains m))
  if cores.all fits && decide (n ≤ slots.length) then some (slots.take n) else none

/-- The slots of every column, where each is feasible. -/
def State.columns (s : State) (ctx : Nat) (k : Kernel) (keep : Hart → Bool) (dies : List Nat) :
    List Nat → Option (List Nat)
  | [] => some []
  | p :: ps => do
    let a ← s.columnSlots ctx k keep (dies.map (fun v => 16 * v + p))
    let b ← s.columns ctx k keep dies ps
    pure (a ++ b)

/-- The first feasible placement: dies, core indices and slots (R347). -/
def State.findPlace (s : State) (ctx : Nat) (k : Kernel) (keep : Hart → Bool) :
    Option (List Nat × List Nat × List Nat) :=
  (choose k.d (s.diesInService.filter s.dieFree)).findSome? (fun dies =>
    (choose k.c (List.range 16)).findSome? (fun idx => (s.columns ctx k keep dies idx).map (fun sl => (dies, idx, sl))))

/-! ## Core state (R318, R320, R348) -/

/-- The DPA of the ring-and-queue area of a core image. -/
def imageArea (c : Ctx) (core : Nat) : Nat := c.spill + core * 2 ^ 25 + 0x1800000

/-- A ring descriptor as its 64 bytes (R332). -/
def Ring.toNat (r : Ring) : Nat :=
  r.slots * 2 ^ 16 + r.efmt.toNat * 2 ^ 24 + r.ecw.toNat * 2 ^ 29 + r.tileb * 2 ^ 32 + r.sbase * 2 ^ 48
    + r.head * 2 ^ 64 + r.tail * 2 ^ 72 + r.owner % 65536 * 2 ^ 80 + r.full.toNat * 2 ^ 96

/-- A strip queue's state record (R330). -/
def StripQueue.toNat (q : StripQueue) : Nat :=
  q.srcSexp.toNat + q.srcCw.toNat * 2 ^ 13 + q.srcFmt.toNat * 2 ^ 16 + q.sfmt.toNat * 2 ^ 24 + q.smode.toNat * 2 ^ 32
    + q.prod * 2 ^ 35 + q.cons * 2 ^ 37 + q.strips.length * 2 ^ 41

/-- A strip as its 288 bytes (R331). -/
def stripBytes (x : Sector) : List Byte := bytesOfNat x.data.toNat 256 ++ sectorRecord x

/-- A strip from its 288 bytes. -/
def stripOf (x : Nat) : Sector :=
  { tag := BitVec.ofNat 24 (bits x (2048 + 23) 2048), bmeta := BitVec.ofNat 128 (bits x (2048 + 255) (2048 + 128)),
    data := BitVec.ofNat 2048 x }

/-- A core's scratchpad, ring descriptors and strip queues written to its owner's image (R320, R331). -/
def State.writeImage (s : State) (ctx core : Nat) : State :=
  match look s.ctxs ctx with
  | none => s
  | some c =>
    let base := c.spill + core * 2 ^ 25
    let k := s.core core
    let s := (List.range 65536).foldl (fun s i =>
      s.sysWriteSector (base + 256 * i) (s.readSector { key := spadKey core (256 * i), xf := .plain })) s
    let s := (List.range 16).foldl (fun s g => s.sysWrite (imageArea c core + 64 * g) 64 (k.ring g).toNat) s
    let s := (List.range 8).foldl (fun s q =>
      let a := imageArea c core + 0x1000 + q * 0x5000
      let s := s.sysWrite a 64 (k.queue q).toNat
      (k.queue q).strips.zipIdx.foldl (fun s x => s.sysPut (a + 0x40 + 288 * x.2) (stripBytes x.1)) s) s
    s.modCtx ctx (fun c => { c with images := put c.images core { rings := k.rings, queues := k.queues } })

/-- A ring read back: its descriptor from the image, the sources of its tiles as they were. -/
def ringFrom (x : Nat) (old : Ring) : Ring :=
  { old with slots := bits x 21 16, efmt := BitVec.ofNat 5 (bits x 28 24), ecw := BitVec.ofNat 3 (bits x 31 29),
             tileb := bits x 47 32, sbase := bits x 63 48, head := bits x 68 64, tail := bits x 76 72,
             full := BitVec.ofNat 32 (bits x 127 96) }

/-- A strip queue read back, with the group that owns it as it was. -/
def queueFrom (x : Nat) (strips : List Sector) (old : StripQueue) : StripQueue :=
  { old with prod := bits x 36 35, cons := bits x 38 37, smode := BitVec.ofNat 3 (bits x 34 32),
             sfmt := BitVec.ofNat 5 (bits x 28 24), srcFmt := BitVec.ofNat 5 (bits x 20 16),
             srcCw := BitVec.ofNat 3 (bits x 15 13), srcSexp := BitVec.ofNat 8 (bits x 7 0), strips := strips }

/-- An image that a restore would fill in holds a ring descriptor or a strip queue's record with an RZ bit set (R5, R330,
R332). -/
def State.imageRz (s : State) (ctx core : Nat) : Bool :=
  match look s.ctxs ctx with
  | none => false
  | some c =>
    (look c.images core).isSome
      && ((List.range 16).any (fun g =>
            let x := s.sysRead (imageArea c core + 64 * g) 64
            bits x 15 0 != 0 || bits x 23 22 != 0 || bits x 71 69 != 0 || bits x 79 77 != 0 || bits x 511 128 != 0)
          || (List.range 8).any (fun q =>
            let x := s.sysRead (imageArea c core + 0x1000 + q * 0x5000) 8
            bits x 12 8 != 0 || bits x 23 21 != 0 || bits x 31 29 != 0 || bits x 40 39 != 0 || bits x 63 48 != 0))

/-- A core's image filled in, where one has been written and not filled since (R320). -/
def State.fillImage (s : State) (ctx core : Nat) : State :=
  match look s.ctxs ctx with
  | none => s
  | some c =>
    match look c.images core with
    | none => s
    | some im =>
      let base := c.spill + core * 2 ^ 25
      let s := (List.range 65536).foldl (fun s i =>
        s.writeSector { key := spadKey core (256 * i), xf := .plain } (s.sysReadSector (base + 256 * i))) s
      let s := (List.range 16).foldl (fun s g =>
        let x := s.sysRead (imageArea c core + 64 * g) 64
        s.modCore core (fun k => k.setRing g (ringFrom x (lookD im.rings g Ring.reset)))) s
      let s := (List.range 8).foldl (fun s q =>
        let a := imageArea c core + 0x1000 + q * 0x5000
        let x := s.sysRead a 64
        let strips := (List.range (bits x 47 41)).map (fun i => stripOf (natOfBytes (s.sysGet (a + 0x40 + 288 * i) 288)))
        s.modCore core (fun k => k.setQueue q (queueFrom x strips (lookD im.queues q StripQueue.reset)))) s
      s.modCtx ctx (fun c => { c with images := del c.images core })

/-- A context has a hart saved whole-context on a core. -/
def State.savedOn (s : State) (ctx core : Nat) : Bool :=
  s.harts.any (fun x => decide (x.2.ctx = ctx) && x.2.cores.contains core &&
    (match x.2.state with
      | .saved | .savedPage _ => true
      | _ => false))

/-- A core given to a context (R348): on a change of context the old one's state is written out where it has a hart
saved there, the core is zeroed, and its slices are assigned. -/
def State.takeCore (s : State) (ctx core : Nat) : State :=
  match (s.core core).owner with
  | some o =>
    if o = ctx then s
    else
      let s := if s.savedOn o core then s.writeImage o core else s
      (s.zeroCore core).modCore core (fun c => { c with owner := some ctx })
  | none => (s.zeroCore core).modCore core (fun c => { c with owner := some ctx })

/-! ## Launching a group (R330, R345, R349) -/

/-- One step up of XCL and of ACL. -/
def xclUp (n : Nat) : Nat := 2 * n
def aclUp (n : Nat) : Nat := if n = 0 then 1 else 2 * n

/-- A stage's gain in one round of R349: a step of ACL before one of XCL, where the clusters are free. -/
def grantStep (t : Stage) (g : Nat × Nat) (free : Nat) : (Nat × Nat) × Nat :=
  if g.2 < t.amax && aclUp g.2 - g.2 ≤ free then ((g.1, aclUp g.2), free - (aclUp g.2 - g.2))
  else if g.1 < t.xmax && xclUp g.1 - g.1 ≤ free then ((xclUp g.1, g.2), free - (xclUp g.1 - g.1))
  else (g, free)

/-- One round in ascending stage order. -/
def grantRound : List (Stage × (Nat × Nat)) → Nat → List (Stage × (Nat × Nat)) × Nat
  | [], free => ([], free)
  | (t, g) :: rest, free =>
    let (g', free) := grantStep t g free
    let (rest', free) := grantRound rest free
    ((t, g') :: rest', free)

/-- Rounds until one changes nothing; each stage can gain at most six steps. -/
def grantRounds : Nat → List (Stage × (Nat × Nat)) → Nat → List (Stage × (Nat × Nat))
  | 0, gs, _ => gs
  | k + 1, gs, free =>
    let (gs', free') := grantRound gs free
    grantRounds k gs' free'

/-- The launch grants (XCL, ACL) of the stages with some clusters free on every core (R349). -/
def launchGrants (stages : List Stage) (free : Nat) : List (Nat × Nat) :=
  let least := stages.map (fun t => (t, (t.xmin, t.amin)))
  let rest := free - (stages.map (fun t => t.xmin + t.amin)).sum
  (grantRounds 24 least rest).map (·.2)

/-- A strip queue assigned to a group, its producer and consumer slots written (R330, R331). -/
def StripQueue.assign (q : StripQueue) (g prod cons : Nat) : StripQueue :=
  { q with owner := some g, prod := prod, cons := cons, strips := [] }

/-- The queues that a column's stages name, assigned on one core. -/
def State.assignQueues (s : State) (g core : Nat) (stages : List Stage) (slots : List Nat) : State :=
  (List.range 8).foldl (fun s n =>
    let push := (stages.zip slots).find? (fun x => x.1.outq.getLsbD n)
    let pop := (stages.zip slots).find? (fun x => x.1.inq.getLsbD n)
    match push, pop with
    | some a, some b => s.modCore core (fun c => c.setQueue n ((c.queue n).assign g a.2 b.2))
    | some a, none => s.modCore core (fun c => c.setQueue n ((c.queue n).assign g a.2 a.2))
    | none, some b => s.modCore core (fun c => c.setQueue n ((c.queue n).assign g b.2 b.2))
    | none, none => s) s

/-- The harts of a group launched (R345), in ascending order of (c, s), each with the lowest free frame (R314). -/
def State.launchHarts (s : State) (g : Nat) (l : Launch) (x : Group) (args : List Dword) (grants : List (Nat × Nat)) :
    State :=
  let n := x.kernel.stages.length
  (List.range (x.kernel.c * n)).foldl (fun s i =>
    let c := i / n
    let st := i % n
    let cores := x.dies.map (fun v => 16 * v + x.cidx.getD c 0)
    let f := (s.framesFree l.ctx (cores.headD 0)).headD 0
    let (xcl, acl) := grants.getD st (1, 0)
    let stage := x.kernel.stages.getD st Stage.least
    let hl := if x.kernel.hlbase = 0 then 0 else x.kernel.hlbase + BitVec.ofNat 64 (i * 256)
    let p : Place := { ctx := l.ctx, group := g, coord := c, stage := st, cores := cores, slot := x.sigma.getD i 0,
                       frame := f, prio := l.prio }
    let csr := Csrs.launch x.kernel.d xcl acl stage.tmax x.kernel.tvec x.kernel.trec
      (((look s.ctxs x.ctx).map (fun c => c.prtaba)).getD 0)
    let h := Hart.launch p stage.entry csr (RowRegs.launch hl args) x.kernel.templates
    s.setHart (hartId l.ctx (cores.headD 0) f) { h with lastProgress := s.now }) s

/-- A group placed and its harts launched (R344, R345). -/
def State.placeGroup (s : State) (id : Nat) (l : Launch) (node visit : Nat) (k : Kernel) (args result : Nat)
    (dies cidx sigma : List Nat) : State :=
  let g := s.nextGroup
  let cores := dies.flatMap (fun v => cidx.map (fun p => 16 * v + p))
  let free := (cores.map (fun c => clustersFree (s.onCore c))).foldl Nat.min 16
  let grants := launchGrants k.stages free
  let words := s.sysDwords args 8
  let s := cores.foldl (fun s c => s.takeCore l.ctx c) s
  let x : Group := { ctx := l.ctx, launch := id, node := node, visit := visit, kernel := k, result := result, dies := dies, cidx := cidx,
                     sigma := sigma, cursors := [], squashed := [], live := k.c * k.stages.length }
  let s := ({ s with groups := put s.groups g x, nextGroup := g + 1 } : State).lapse (.launch id)
  let s := cidx.zipIdx.foldl (fun s p =>
    let slots := (sigma.drop (p.2 * k.stages.length)).take k.stages.length
    dies.foldl (fun s v => s.assignQueues g (16 * v + p.1) k.stages slots) s) s
  let s := if k.prtab = 0 then s
    else
      match translate k.ktt .r k.prtab.toNat with
      | .ok dpa => s.installPrt l.ctx k.prtab (s.sysGet dpa 1024)
      | .error _ => s
  let s := (s.launchHarts g l x words grants).fuse cores
  let placed := fun (y : Started) =>
    match y with
    | .checked n v _ _ _ => if n = node && v = visit then Started.placed node g else y
    | y => y
  s.modLaunch id (fun l => { l with started := l.started.map placed, waitFor := l.waitFor.map placed })

/-! ## Asking for cores (R356) -/

/-- The cores of a placement. -/
def placeCores (dies idx : List Nat) : List Nat := dies.flatMap (fun v => idx.map (fun p => 16 * v + p))

/-- The request that would make room for a launch (R356): the first placement that is feasible without the harts of
lower classes, and those of them that hold its cores. -/
def State.askCores (s : State) (id : Nat) (l : Launch) (k : Kernel) : State :=
  match s.findPlace l.ctx k (fun h => decide (l.prio.toNat ≤ h.prio.toNat)) with
  | none => s
  | some (dies, idx, _) =>
    let cores := placeCores dies idx
    let hs := s.harts.filter (fun x => x.2.cores.any cores.contains && decide (x.2.prio.toNat < l.prio.toNat))
    s.raiseRequest (.launch id) (hs.map (·.1))

/-- The kernels of a launch in CHECKED, oldest first. -/
def Launch.checked (l : Launch) : List (Nat × Nat × Kernel × Nat × Nat) :=
  l.started.filterMap (fun x => match x with
    | .checked n v k a r => some (n, v, k, a, r)
    | _ => none)

/-- KERNEL_PLACEMENT (R344, R347): the kernel in CHECKED at position `sub` of those of launch `unit`, oldest first, is placed
where a placement is feasible; otherwise it stays, and asks for cores where its class is higher than that of groups there.
One whose die span exceeds the dies in service fails with code 4 instead, at once, and its request for cores lapses. -/
def execKernelPlacement (s : State) : Out :=
  let id := s.focus.unit
  match look s.launches id with
  | none => .next s
  | some l =>
    match l.checked[s.focus.sub]? with
    | none => .next s
    | some (node, visit, k, args, result) =>
      if s.diesInService.length < k.d then
        .next ((s.modLaunch id (fun l =>
          { l with started := l.started.filter (fun x => x != .checked node visit k args result) })).nodeFail id 4 node
            |>.lapse (.launch id))
      else
      match s.findPlace l.ctx k (fun _ => true) with
      | some (dies, idx, sl) => .next (s.placeGroup id l node visit k args result dies idx sl)
      | none => .next (s.askCores id l k)

end Sys2Proof.Machine
end

