-- ==== Sys2Proof/Machine/HartSched.lean ====
section
/-! DEFINITION. The die scheduler: resumption points and the end of a hart (spec/07_scalar.md R143 to R148), grants,
eligibility and tasks (spec/20_group.md R350 to R353), results and completion (spec/19_kernel.md R344, R346),
pre-emption, restore and the die drain (R356, R357; spec/17_context.md R320). -/

namespace Sys2Proof.Machine

/-! ## Resumption points (R143) -/

/-- Every engine command of the hart has completed. -/
def Hart.queuesEmpty (h : Hart) : Bool :=
  [Eng.ld, .xv, .mx, .st, .jb].all (fun e => (h.queue e).isEmpty) && h.timed.isEmpty

/-- A row's masks zero and its vectors ZERO (R143). -/
def RowRegs.cleared (r : RowRegs) : RowRegs := { r with k := Vector.replicate 8 0, v := [] }

/-- What a resumption point leaves of a hart (R143): ZERO vectors, zero masks, token counters and slots, VL and
VLCW 0. -/
def Hart.resumed (h : Hart) : Hart :=
  { h with rows := h.rows.map RowRegs.cleared, tokens := Vector.replicate 8 0, slots := 0, csr := { h.csr with vl := 0, vlcw := 0 } }

/-- The scalars that survive NODEB (R145): s4 to s11. -/
def RowRegs.nodeb (r : RowRegs) : RowRegs :=
  { r with s := ((List.range 32).filter (fun i => decide (i < 4) || decide (11 < i))).foldl
             (fun s i => s.setIfInBounds i 0) r.s,
           hb := Vector.replicate 8 0 }

/-- A resumption point retires: the lease ends, and the hart is as R143 and R350 leave it. -/
def State.resumption (s : State) (hid : Nat) (h : Hart) (px : Px) : State :=
  let g := ({ s.regrant hid h with waitSince := none }).resumed.retire s.now px
  (s.dropLeases h).setHart hid g

/-! ## CURSOR (R144, R353) -/

/-- The DPA-independent address of an entry (R343). -/
def State.entryVa (s : State) (h : Hart) (g : Group) (entry : Nat) : Dword :=
  g.kernel.sched + BitVec.ofNat 64 ((s.tableOf h * g.kernel.t + entry) * 64)

/-- No entry of the stage remains: the table is exhausted and none is squashed. -/
def State.exhausted (s : State) (h : Hart) (g : Group) : Bool :=
  decide (g.kernel.t ≤ lookD g.cursors (s.tableOf h) 0) && !g.squashed.any (fun x => x.table == s.tableOf h)

/-- An entry taken from its table or from the squashed ones. -/
def Group.take (g : Group) (table entry : Nat) : Group :=
  if g.squashed.any (fun x => x.table == table && x.entry == entry && x.deps == 0) then
    { g with squashed := g.squashed.filter (fun x => !(x.table == table && x.entry == entry && x.deps == 0)) }
  else { g with cursors := put g.cursors table (entry + 1) }

/-- CURSOR takes an entry: its fields are read through the KTT, and it becomes the hart's task. -/
def State.takeEntry (s : State) (hid : Nat) (h : Hart) (g : Group) (px : Px) (d : Reg) (entry : Nat) : State :=
  let va := s.entryVa h g entry
  match s.rawStruct h 0 64 64 1 va with
  | .error x => s.stopScalar hid h 1 x
  | .ok (s, x) =>
    if bits x 63 0 ≠ 0 then s.takeTrap hid (scalarInfo h 1 .reservedField 0 (some va))
    else
      let t : Task :=
        { entry := entry, rows := BitVec.ofNat 32 (bits x 95 64), cols := BitVec.ofNat 32 (bits x 127 96), row0 := 0,
          col0 := 0, cursor := h.pc, stored := false, before := h.checkpoint }
      let s := s.modGroup h.group (fun g => g.take (s.tableOf h) entry)
      s.resumption hid ({ h with task := some t }.setRegs h.allRows d.toNat (fun _ => va)) px

/-- CURSOR (R144): it waits for the hart's commands; with no entry left it writes 0; otherwise it takes an eligible
entry, or the hart sleeps and lends its clusters. -/
def execCursor (px : Px) (d : Reg) (s : State) : Out :=
  withRegs s px [d.toNat] (fun hid h =>
    if !h.queuesEmpty then .next s
    else
      match look s.groups h.group with
      | none => .next (s.resumption hid ({ h with task := none }.setRegs h.allRows d.toNat (fun _ => 0)) px)
      | some g =>
        if s.exhausted h g then
          .next (s.resumption hid ({ h with task := none }.setRegs h.allRows d.toNat (fun _ => 0)) px)
        else
          match s.nextEntry h with
          | some e =>
            if s.eligible h then .next (s.takeEntry hid h g px d e)
            else .next (s.setHart hid { h with state := .sleeping, wait := .cursor, lastProgress := s.now })
          | none => .next (s.setHart hid { h with state := .sleeping, wait := .cursor, lastProgress := s.now }))

/-- CURSOR_WAKE (R351 to R353): the focus hart's entry is eligible and its clusters are granted, and its CURSOR
retires with that grant, less what it gives up for another that waits (R351). A hart whose table has meanwhile been exhausted wakes too, and one that a machine check awaits wakes to take it
(R317). -/
def execCursorWake (s : State) : Out :=
  withHart s (fun hid h =>
    if h.state ≠ .sleeping || s.stopped h || s.expired h then .next s
    else
      let done := match look s.groups h.group with
        | some g => s.exhausted h g
        | none => true
      if h.mcPending then (if s.mayTrap hid h then .next (s.mcTake hid h) else .next s)
      else if !done && !(s.eligible h && (s.nextEntry h).isSome) then .next s
      else
        match (s.wakeHart hid h).bind (fun s => (look s.harts hid).map (fun g => (s, g))) with
        | none => .next s
        | some (s', g) =>
          match decode (s'.peekWords g g.pc 5) with
          | .instr (.cursor px d) _ =>
            match execCursor px d s' with
            | .next t =>
              if (s'.clusterWaiters hid g).isEmpty then
                .next (t.modHart hid (fun k => { k with csr := { k.csr with xcl := g.csr.xcl, acl := g.csr.acl } }))
              else .next t
            | o => o
          | _ => .next s)

/-! ## NODEB and YIELD (R145, R146) -/

/-- A hart leaves its slot at a resumption point: its frame is written, with what the point keeps alone, so that a load which
lands at the save leaves nothing elsewhere (R143, R145). A request that has asked it still stands against
one that has only passed on its slot (R356). -/
def State.leaveSlot (s : State) (hid : Nat) (st : HartState) (k : SaveKind) : State :=
  let s := s.finishAccesses hid
  match look s.harts hid with
  | none => s
  | some g =>
    let g := { g with rows := g.rows.map (fun r => if k = .nodeb then r.cleared.nodeb else r.cleared) }
    let s := s.writeFrame g k
    (s.setHart hid { g with state := st, preempt := if st = .ready then g.preempt else none, leaseKept := [] }).refreeze g

/-- An interlocked load is in flight to a register that NODEB writes. -/
def Hart.loadsPast (h : Hart) : Bool :=
  h.loads.any (fun e => e.due.isNone &&
    match e.dest with
    | .scalar d _ _ _ => decide (d < 4) || decide (11 < d)
    | .vector _ _ => false)

/-- A fault of the hart's job can be raised now, which comes before NODEB's honouring of a request (R358). -/
def State.jobFaultDue (s : State) (hid : Nat) (h : Hart) : Bool :=
  h.traps.isEmpty && s.jobs.any (fun x => x.2.hart == some hid &&
    match x.2.state with
    | .faulted _ _ => true
    | _ => false)

/-- NODEB (R145, R356, R358): s4 to s11 alone survive, and a pre-emption request is honoured. -/
def execNodeb (px : Px) (s : State) : Out :=
  withRegs s px [] (fun hid h =>
    if !h.queuesEmpty || h.loadsPast || (h.preempt.isSome && s.jobFaultDue hid h) then .next s
    else
      let s' := s.resumption hid { h with rows := h.rows.map RowRegs.nodeb } px
      if h.preempt.isSome then .next (s'.leaveSlot hid .parked .nodeb) else .next s')

/-- A hart that is ready and waits for the slot of another (R352). -/
def State.readyFor (s : State) (hid : Nat) (h : Hart) : Bool :=
  s.harts.any (fun x =>
    x.1 != hid && s.mayRestore x.1 x.2 && x.2.slot == h.slot && x.2.cores.any h.cores.contains
      && decide (h.prio.toNat ≤ x.2.prio.toNat))

/-- YIELD (R146): the slot goes to a ready hart of the same or a higher class. -/
def execYield (px : Px) (s : State) : Out :=
  withRegs s px [] (fun hid h =>
    if !h.queuesEmpty then .next s
    else
      let ready := s.readyFor hid h
      let s := s.resumption hid h px
      if ready then .next (s.leaveSlot hid .ready .yield) else .next s)

/-! ## TEXIT (R148, R344, R346) -/

/-- s4 to s11 of each row written to the result area. -/
def State.writeResults (s : State) (h : Hart) : State :=
  match look s.groups h.group with
  | none => s
  | some g =>
    if g.result = 0 then s
    else
      h.allRows.foldl (fun s j =>
        let a := g.result + (s.tableOf h * g.kernel.d + j) * 64
        (List.range 8).foldl (fun s i => s.sysWrite (a + 8 * i) 8 ((h.row j).get false (4 + i)).toNat) s) s

/-- The last hart of a group has retired TEXIT: the group is gone and its node completes (R344). -/
def State.groupDone (s : State) (gid : Nat) : State :=
  match look s.groups gid with
  | none => s
  | some g =>
    if g.live = 0 then ({ s with groups := del s.groups gid } : State).nodeDone g.launch (.placed g.node gid) else s

/-- TEXIT (R148): after every command, load and job of the hart, with its stores made, its results are written and it leaves the group. -/
def execTexit (px : Px) (s : State) : Out :=
  withRegs s px [4, 5, 6, 7, 8, 9, 10, 11] (fun hid h =>
    if !h.queuesEmpty || !h.loads.isEmpty || !s.jobsDone hid h then .next s
    else
      let s' := s.finishAccesses hid
      if ((look s'.harts hid).map (fun g => g.stores)).getD [] != [] then .next s
      else
        let s' := (s'.writeResults h).removeHart hid
        .next ((s'.modGroup h.group (fun g => { g with live := g.live - 1 })).groupDone h.group))

/-! ## Pre-emption and restore (R356, R357) -/

/-- PREEMPTION_DEADLINE (R356): the focus hart has not parked in time and is saved whole-context. -/
def execPreemptionDeadline (s : State) : Out :=
  withHart s (fun hid h => if s.expired h then .next (s.saveWhole hid .saved) else .next s)

/-- The leases that a whole-context save found, requested again (R212). -/
def State.leaseAgain (s : State) (hid : Nat) (h : Hart) : State :=
  (h.cores.zip h.leaseKept).foldl (fun s x =>
    if x.2 = 0 then s else s.setLease h x.1 (leaseRequest hid (s.cycle x.1) x.2 0)) s

/-- The promotion table installed from PRTIMG (R319). -/
def State.tableAgain (s : State) (ctx : Nat) : State :=
  match look s.ctxs ctx with
  | some c => if c.prt.isNone then s else s.modCtx ctx (fun x => { x with prt := some (s.sysGet c.prtimg 1024) })
  | none => s

/-- A load that a restore executes again, issued afresh at its address (R99). -/
def LoadEntry.afresh (e : LoadEntry) (now : Nat) : LoadEntry :=
  { e with data := none, due := if e.land = 0 then none else some (now + e.land) }

/-- A hart whose frame breaks R314 or R315 is left suspended, and RESERVED_FIELD is delivered with ASYNC set (R315); so is
one whose core image has an RZ bit set, for which the spec names no cause (R5; DEDUCED, log 39). -/
def State.brokenFrame (s : State) (hid : Nat) (h : Hart) : State :=
  let r := { s.trapRecord h { scalarInfo h 0 .reservedField 0 none with eng := 7 } with async := true }
  let g := { h with traps := { hold := h.pc, inFrame := true, wait := .none } :: h.traps, lastProgress := s.now,
                    csr := { h.csr with trapEng := 7, trapCause := BitVec.ofNat 10 (causeCode .reservedField) } }
  (s.writeFrameRecord h r).suspend hid g

/-- How the hart was saved. -/
def HartState.saveKind : HartState → SaveKind
  | .parked => .nodeb
  | .ready => .yield
  | _ => .whole

/-- The hart back on its cores and slot, with the grant given. A machine check that struck while it was away is taken now
(R317). -/
def State.restoreHart (s : State) (hid : Nat) (h : Hart) (xcl acl : Nat) : State :=
  let s := h.cores.foldl (fun s c => s.takeCore h.ctx c) s
  let broken := h.cores.any (s.imageRz h.ctx)
  let s := if broken then s else h.cores.foldl (fun s c => s.fillImage h.ctx c) s
  let s := s.tableAgain h.ctx
  let s := s.lapse (.restore hid)
  let s := match (if broken then none else s.readFrame h h.state.saveKind) with
    | none => s.brokenFrame hid h
    | some g =>
      let g := { g with state := if h.wasSuspended then .suspended else .running, wasSuspended := false,
                        csr := { g.csr with xcl := xcl, acl := acl }, lastProgress := s.now, leaseKept := [],
                        waitSince := none, loads := g.loads ++ g.reissue.map (fun (e : LoadEntry) => e.afresh (s.hartCycle g)) }
      let s := (s.setHart hid g).leaseAgain hid h
      (if h.mcPending && !h.wasSuspended then s.mcTake hid g else s).refreeze g
  s.fuse h.cores

/-- The harts that a restore asks to give up its slot and its cores (R357): those in its way that are not of a higher
class. -/
def State.inTheWay (s : State) (hid : Nat) (h : Hart) : List Nat :=
  ((s.blockers hid h).filter (fun x => decide (x.2.prio.toNat ≤ h.prio.toNat))).map (·.1)

/-- A restore's request, raised again where a hart has come into its way since (R356, R357). -/
def State.askRoom (s : State) (hid : Nat) (h : Hart) : State :=
  let hs := s.inTheWay hid h
  let old := (s.requests.filter (fun r => r.by_ == .restore hid)).flatMap (fun r => r.harts)
  if hs.all old.contains then s else s.raiseRequest (.restore hid) (old ++ hs.filter (fun x => !old.contains x))

/-- HART_RESTORE (R356, R357): the focus hart, off its slot, is restored where its slot and its clusters are free; where
they are held it asks for them. -/
def execHartRestore (s : State) : Out :=
  withHart s (fun hid h =>
    if !s.mayRestore hid h || !s.coresServe h then .next s
    else if !(s.blockers hid h).isEmpty then .next (s.askRoom hid h)
    else if s.olderWaiter hid h then .next s
    else
      match h.state with
      | .parked | .ready =>
        match s.grantAgain hid h with
        | some (x, a) => .next (s.restoreHart hid h x a)
        | none => .next s
      | _ =>
        if h.csr.xcl + h.csr.acl ≤ s.poolFor hid h then .next (s.restoreHart hid h h.csr.xcl h.csr.acl) else .next s)

/-! ## The die drain (R320) -/

/-- The harts with a core on a virtual die. -/
def State.hartsOn (s : State) (v : Nat) : List (Nat × Hart) := s.harts.filter (fun x => x.2.cores.any (fun c => c / 16 == v))

/-- DIE_REMAP_REQUEST (R28, R320): virtual die `unit` is to move to physical die `sub`, or out of service for `sub` 8;
the request is pending until its gate, and every group there is asked to pre-empt. -/
def execDieRemapRequest (s : State) : Out :=
  let v := s.focus.unit % 8
  let d := if s.focus.sub < 8 then some s.focus.sub else none
  if !s.dieFree v then .next (s.answer managementPlane .busy)
  else
    .next ((s.askGate (.dieMap v d)).raiseRequest (.drain v) ((s.hartsOn v).map (·.1)))

end Sys2Proof.Machine
end

