-- ==== Sys2Proof/Machine/Page.lean ====
section
/-! DEFINITION. Page service and the Mandoline (spec/22_page.md R365 to R376; spec/14_order_engines.md R303 to R305). -/

namespace Sys2Proof.Machine

/-! ## Frames (R367) -/

/-- A frame code names an HBM frame that may hold a page. -/
def hbmFrame (f : Nat) : Bool :=
  !bitOf f 39 && bits f 38 24 == 0 && decide (bits f 23 20 ≤ 11) && decide (256 ≤ bits f 19 0)

/-- A frame code names a page of a CXL window. -/
def State.cxlFrame (s : State) (f : Nat) : Bool :=
  let a := bits f 35 0 * 65536
  bitOf f 39 && bits f 38 36 == 0 && isWindow a &&
    (match s.windowOf a with
      | .cxl _ _ _ => true
      | _ => false)

/-- A frame code is well formed (R372). -/
def State.frameOk (s : State) (f : Nat) : Bool := hbmFrame f || s.cxlFrame f

/-- The peer behind a CXL frame advertises enough metadata for tags (R376). -/
def State.cxlTags (s : State) (f : Nat) : Bool := decide (24 ≤ s.cxlMeta (s.frameKey f 0))

/-- An entry names a frame, in any state but ABSENT (R373). -/
def State.frameNamed (s : State) (f : Nat) : Bool :=
  s.pit.any (fun x => pitState x.2 != 0 && (pitFrame x.2 == f || (pitState x.2 == 2 && pitNframe x.2 == f)))

/-- An HBM frame whose bytes nobody has written under another seal stands under the entry that takes it (R367); the bytes of
a CXL frame are those that its window shows. -/
def State.sealFrame (s : State) (f key page : Nat) : State :=
  if bitOf f 39 || (look s.seals f).isSome then s else { s with seals := put s.seals f (s.sealOf key page) }

/-- Every sector tag of a frame zeroed (R318): the check codes are then those of zero data, so that no error of the bytes
that stand there counts any more (R31). -/
def State.zeroFrame (s : State) (f : Nat) : State :=
  let lo := s.frameKey f 0 / 256
  let out := fun (k : Nat) => decide (k < lo) || decide (lo + 256 ≤ k)
  { s with sides := s.sides.filter (fun x => out x.1), errors := s.errors.filter (fun x => out x.1),
           hostRes := s.hostRes.filter (fun x => out x.2), llc := s.llc.filter (fun x => out x.1) }

/-- The waiters of every cell of a page released as though filled (R363). -/
def State.releasePage (s : State) (ctx page : Nat) : State :=
  (dedupNat ((s.waiters.filter (fun w => decide (w.ctx = ctx) && decide (w.cell / 256 = page))).map (·.cell))).foldl
    (fun s c => s.releaseCell ctx c) s

/-! ## Page-service commands (R370 to R374) -/

/-- PAGE of the command. -/
def State.pitPage (s : State) : Nat := (s.regs.pitcmd.extractLsb' 0 36).toNat

/-- ZERO of the command. -/
def State.pitZero (s : State) : Bool := s.regs.pitcmd.getLsbD 40

/-- The page-service command completes. -/
def State.pitEnd (s : State) (status : Nat) : State :=
  { s with regs := { s.regs with pitcmd := cmdDone s.regs.pitcmd status pitcmdOperand } }

/-- Pages of HBM data (R366). -/
def pitPages : Nat := 12582912

/-- A command of the given OP is in progress with no RZ bit set; ZERO is WRITE's own. -/
def State.pitIs (s : State) (op : Nat) : Bool :=
  let r := s.regs.pitcmd
  cmdBusy r && decide (cmdOp r = op) && !cmdRz r pitcmdOperand (if op = 1 then 0x10000000000 else 0)

/-- The entry that WRITE is to install. -/
def State.pitArg (s : State) : BitVec 128 := s.regs.pitarg1 ++ s.regs.pitarg0

/-- An entry that WRITE refuses with STATUS 1 (R372). A REMOTE entry names CXL memory and a PRESENT one HBM; an ABSENT
one may name no frame. -/
def State.writeBad (s : State) (e : BitVec 128) : Bool :=
  let st := pitState e
  let f := pitFrame e
  e.extractLsb' 0 4 != 0 || pitNframe e != 0 || pitWmark e != 0 || pitRfmt e != 0 || pitBgdone e || pitPend e
    || (!pitOwnv e && pitOwner e != 0) || st == 2 || st == 3 || decide (5 < st)
    || !((st == 0 && f == 0) || s.frameOk f) || (st == 1 && bitOf f 39) || (st == 5 && !bitOf f 39)
    || (pitPmode e != 0 && !fmtFloat (pitPfmt e)) || decide (pitPages ≤ s.pitPage)

/-- An entry that WRITE refuses with STATUS 4 (R376). -/
def State.writeCxlBad (s : State) (e : BitVec 128) : Bool :=
  pitState e == 5 && (!s.cxlTags (pitFrame e) || pitPfmt e == fE2m1)

/-- An access begun under the page's old entry has not completed (R372). -/
def State.accessOpen (s : State) (page : Nat) : Bool :=
  s.harts.any (fun x =>
    x.2.onSlot && (x.2.stores.any (fun y => y.dpa / 65536 == page)
      || x.2.loads.any (fun y => y.data.isNone && y.dpa / 65536 == page)))

/-- The cached copies of a page's lines are written back, which finds their uncorrectable sectors (R375), or discarded where
OWNER or FRAME changes (R372). -/
def State.flushPage (s : State) (page : Nat) (discard : Bool) : State :=
  let mine := s.dirty.filter (fun x => x.1 / 64 == page)
  if discard then
    { s with dirty := s.dirty.filter (fun x => x.1 / 64 != page),
             cores := s.cores.map (fun (x : Nat × Core) =>
               (x.1, { x.2 with l1 := x.2.l1.filter (fun y => y.1 / 256 != page) })) }
  else mine.foldl (fun s x => s.recall (1024 * x.1)) s

/-- The entry installed, its frame zeroed where the owner changes or ZERO is set (R372). What waits on the page goes on once
the entry is no longer ABSENT: under a new ABSENT entry it keeps waiting (R356; DEDUCED, log 26). -/
def State.installEntry (s : State) (page : Nat) (e : BitVec 128) (zero : Bool) : State :=
  let old := s.pitEntry page
  let f := pitFrame e
  let changed := pitOwnv e != pitOwnv old || pitOwner e != pitOwner old
  let s := s.flushPage page (changed || f != pitFrame old)
  let s := if (changed || zero) && s.frameOk f then s.zeroFrame f else s
  let s := if changed && pitOwnv old then s.releasePage (pitOwner old) page else s
  let s := if s.frameOk f then s.sealFrame f (pitKey e) page else s
  s.setPit page e

/-- PITCMD_WRITE (R372): it waits for the accesses begun under the old entry. -/
def execPitcmdWrite (s : State) : Out :=
  let e := s.pitArg
  let p := s.pitPage
  let old := pitState (s.pitEntry p)
  if !s.pitIs 1 then .next s
  else if s.writeBad e then .next (s.pitEnd 1)
  else if old = 2 || old = 3 then .next (s.pitEnd 2)
  else if s.writeCxlBad e then .next (s.pitEnd 4)
  else if s.accessOpen p then .next s
  else .next ((s.installEntry p e s.pitZero).pitEnd 0)

/-- The hub of a page's home (R365). -/
def homeHub (page : Nat) : Nat := page % 2

def State.hubQueue (s : State) (hub : Nat) : List Pass := (s.passQ[hub]?).getD []
def State.hubPass (s : State) (hub : Nat) : Option Pass := (s.passCur[hub]?).getD none
def State.setHubPass (s : State) (hub : Nat) (p : Option Pass) : State := { s with passCur := s.passCur.setIfInBounds hub p }

/-- A MIGRATING page whose pass has halted (R376). -/
def State.halted (s : State) (page : Nat) : Bool :=
  pitState (s.pitEntry page) == 2 && !(s.hubQueue (homeHub page)).any (fun x => x.page == page)
    && !(match s.hubPass (homeHub page) with
        | some x => x.page == page
        | none => false)

/-- The location of a sector in a frame of a page. -/
def State.sectorLoc (s : State) (f page sector : Nat) : Loc :=
  s.frameLoc f (256 * sector) (pitKey (s.pitEntry page)) page

/-- A sector moved whole between two frames of a page (R293, R374). -/
def State.moveSector (s : State) (page sector src dst : Nat) : State :=
  let l := s.sectorLoc dst page sector
  let s := s.writeSector l (s.readSector (s.sectorLoc src page sector))
  { s with errors := del s.errors (l.key / 256) }

/-- The moved part of a halted page brought back into its frame, so that the page can be migrated again (R376). -/
def State.bringBack (s : State) (page : Nat) : State :=
  let e := s.pitEntry page
  (List.range (pitWmark e)).foldl (fun s k => s.moveSector page k (pitNframe e) (pitFrame e)) s

/-- The page holds a TYPED E2M1B sector (R376). -/
def State.holdsE2m1 (s : State) (page : Nat) : Bool :=
  (List.range 256).any (fun k =>
    let t := s.tagAt (s.sectorLoc (pitFrame (s.pitEntry page)) page k).key
    tagCls t == clsTyped && tagFmt t == fE2m1)

/-- A commanded pass queued on its hub (R374). -/
def State.queuePass (s : State) (page before : Nat) : State :=
  let hub := homeHub page
  let x : Pass := { page := page, background := false, before := BitVec.ofNat 3 before }
  { s with passQ := s.passQ.setIfInBounds hub (s.hubQueue hub ++ [x]) }

/-- PITCMD_MIGRATE (R374, R376). -/
def execPitcmdMigrate (s : State) : Out :=
  let p := s.pitPage
  let e := s.pitEntry p
  let f := (s.regs.pitarg0.extractLsb' 0 40).toNat
  let st := pitState e
  let back := s.halted p && hbmFrame f
  if !s.pitIs 2 then .next s
  else if s.regs.pitarg0.extractLsb' 40 24 != 0 || s.regs.pitarg1 != 0 || pitPages ≤ p then .next (s.pitEnd 1)
  else if !(st = 1 || st = 5 || back) then .next (s.pitEnd 2)
  else if !s.frameOk f then .next (s.pitEnd 1)
  else if bitOf f 39 && (!s.cxlTags f || s.holdsE2m1 p) then .next (s.pitEnd 4)
  else if 64 ≤ (s.hubQueue (homeHub p)).length then .next (s.pitEnd 3)
  else
    let s := if back then s.bringBack p else s
    let e := pitSet (pitSet (pitSet e 45 3 2) 12 8 0) 88 40 f
    let s := ((s.setPit p e).sealFrame f (pitKey e) p).queuePass p (if back then 1 else st)
    .next (s.pitEnd 0)

/-- PITCMD_RECODE (R374, R376). -/
def execPitcmdRecode (s : State) : Out :=
  let p := s.pitPage
  let e := s.pitEntry p
  let f := s.regs.pitarg0.extractLsb' 0 5
  let st := pitState e
  if !s.pitIs 3 then .next s
  else if s.regs.pitarg0.extractLsb' 5 59 != 0 || s.regs.pitarg1 != 0 || pitPages ≤ p then .next (s.pitEnd 1)
  else if !(st = 1 || st = 5) then .next (s.pitEnd 2)
  else if !fmtFloat f then .next (s.pitEnd 1)
  else if st = 5 && f == fE2m1 then .next (s.pitEnd 4)
  else if 64 ≤ (s.hubQueue (homeHub p)).length then .next (s.pitEnd 3)
  else
    let e := pitSet (pitSet (pitSet e 45 3 3) 12 8 0) 7 5 f.toNat
    .next (((s.setPit p e).queuePass p st).pitEnd 0)

/-- PITCMD_INVALID (R370): an undefined OP, or a nonzero RZ bit. -/
def execPitcmdInvalid (s : State) : Out :=
  let r := s.regs.pitcmd
  if cmdBusy r && !(s.pitIs 1 || s.pitIs 2 || s.pitIs 3) then .next (s.pitEnd 1) else .next s

/-! ## Passes of the Mandoline (R303, R374) -/

/-- PASS_START (R374): hub `unit` takes its oldest commanded pass. -/
def execPassStart (s : State) : Out :=
  let hub := s.focus.unit % 2
  match s.hubPass hub, s.hubQueue hub with
  | none, p :: rest => .next (({ s with passQ := s.passQ.setIfInBounds hub rest } : State).setHubPass hub (some p))
  | _, _ => .next s

/-- A page that a background pass may take (R374). -/
def backgroundDue (e : BitVec 128) : Bool := pitState e == 1 && decide (2 ≤ pitPmode e) && !pitBgdone e

/-- BACKGROUND_PASS_START (R374): with no commanded pass, hub `unit` recodes the lowest home page due. -/
def execBackgroundPassStart (s : State) : Out :=
  let hub := s.focus.unit % 2
  match s.hubPass hub, s.hubQueue hub with
  | none, [] =>
    match s.pit.find? (fun x => homeHub x.1 == hub && backgroundDue x.2) with
    | none => .next s
    | some (p, e) =>
      let e' := pitSet (pitSet (pitSet e 45 3 3) 12 8 0) 7 5 (pitPfmt e).toNat
      .next ((s.setPit p e').setHubPass hub (some { page := p, background := true, before := 1 }))
  | _, _ => .next s

/-- A page-service record of the Mandoline. -/
def State.reportPass (s : State) (page sector kind : Nat) : State :=
  s.psRecord { cycle := s.now, page := page, sector := sector, ctxid := 0, vcore := 0, slot := 0, job := false,
               write := false, kind := kind }

/-- A sector as a recoding pass leaves it (R76, R374): TYPED float data of another format whose container holds the
target is converted; every other sector is unchanged, as is one that cannot be read. -/
def recodedSector (f : BitVec 5) (x : Sector) : Sector :=
  let w := tagCw x.tag
  if tagCls x.tag = clsTyped && tagOk x.tag && fmtFloat (tagFmt x.tag) && tagFmt x.tag != f && fmtFits f w
      && !(f == fE2m1 && w == 4) then
    match openScaled { fmt := tagFmt x.tag, cw := w, sexp := tagSexp x.tag } x with
    | .ok o => (recodeSector f w (o.values w)).1
    | .error _ => x
  else x

/-- The end of a pass (R369, R374). -/
def State.endPass (s : State) (hub : Nat) (p : Pass) : State :=
  let e := s.pitEntry p.page
  let e' :=
    if pitState e = 2 then
      let f := pitNframe e
      pitSet (pitSet (pitSet (pitSet e 45 3 (if bitOf f 39 then 5 else 1)) 12 8 0) 48 40 f) 88 40 0
    else
      let e' := pitSet (pitSet (pitSet e 45 3 p.before.toNat) 12 8 0) 7 5 0
      if p.background then pitSet e' 6 1 1 else e'
  ((s.setPit p.page e').setHubPass hub none).reportPass p.page 0 2

/-- The watermark raised past a sector, and the end of the pass after the last one. -/
def State.raiseMark (s : State) (hub : Nat) (p : Pass) (k : Nat) : State :=
  if k = 255 then s.endPass hub p
  else s.setPit p.page (pitSet (s.pitEntry p.page) 12 8 (k + 1))

/-- A store in flight to a sector, by its DPA divided by 256. -/
def State.storesTo (s : State) (k : Nat) : Bool := s.harts.any (fun x => x.2.stores.any (fun y => y.dpa / 256 == k))

/-- PASS_SECTOR_STEP (R293, R303, R305, R374, R376): the Mandoline of hub `unit` moves or converts the next sector of
its page and raises the watermark past it. A store in flight to the sector is performed first (R304). -/
def execPassSectorStep (s : State) : Out :=
  let hub := s.focus.unit % 2
  match s.hubPass hub with
  | none => .next s
  | some p =>
    let e := s.pitEntry p.page
    let k := pitWmark e
    let l := s.sectorLoc (pitFrame e) p.page k
    let s := s.settle l (p.page * 65536)
    if pitState e = 2 then
      let t := s.tagAt l.key
      if bitOf (pitNframe e) 39 && tagCls t == clsTyped && tagFmt t == fE2m1 then
        .next ((s.setHubPass hub none).reportPass p.page k 4)
      else .next ((s.moveSector p.page k (pitFrame e) (pitNframe e)).raiseMark hub p k)
    else if s.keeps.any (fun y => y.sectors.contains (p.page * 256 + k)) || s.storesTo (p.page * 256 + k) then .next s
    else
      let x := s.readSector l
      let y := recodedSector (pitRfmt e) x
      let s := if y = x then s else s.writeSector l y
      .next (s.raiseMark hub p k)

/-! ## Page-absent replies -/

/-- PAGE_ABSENT_REPLY (R368): the access of a job parks it, that of the focus hart saves the hart. -/
def execPageAbsentReply (a : Access) (s : State) : Out :=
  if !isHbm a.dpa || pitState (s.pitEntry (a.dpa / 65536)) ≠ 0 then .next s
  else
    match a.job with
    | some id =>
      match look s.jobs id with
      | some j => .next (s.stopJob id j (.absent j.row a.dpa a.write))
      | none => .next s
    | none => withHart s (fun hid _ => .next (s.pageAbsent hid a.dpa a.write))

end Sys2Proof.Machine
end

