-- ==== Sys2Proof/Machine/HostPort.lean ====
section
/-! DEFINITION. The accesses of application harts and of other packages to memory and to the structures in the MMIO range
(spec/13_order_dies.md R280; spec/02_machine.md R29; spec/18_queue.md R323, R325, R327; spec/22_page.md R373;
spec/23_stacks.md R381; spec/27_link.md R402; spec/30_bringup.md R431). -/

namespace Sys2Proof.Machine

/-! ## Base dies and links -/

/-- A link before bring-up (R398, R400). -/
def Link.reset : Link :=
  { state := .down, rate := 0, minRate := 0, maxRate := 2, flits := 0, replays := 0, holdns := 0, peer := 0, plink := 0,
    reach := 0, since := 0, stepAt := none, recent := [], highSince := none, lowSince := none }

def State.link (s : State) (n : Nat) : Link := lookD s.links n Link.reset
def State.setLink (s : State) (n : Nat) (l : Link) : State := { s with links := put s.links n l }

/-- Core-clock periods in a number of nanoseconds, and the reverse (R20). -/
def cyclesOf (ns : Nat) : Nat := ns * 940 / 1000
def nsOf (cycles : Nat) : Nat := cycles * 1000 / 940

/-! ## Accesses and their operands -/

/-- The bytes of a number as a reply. -/
def replyOf (x n : Nat) : Reply := .bytes (bytesOfNat x n)

def hostDpa : HostAccess → Nat
  | .load d _ | .store d _ _ | .amo _ d _ _ _ _ | .lr d _ _ _ | .sc d _ _ _ _ => d

def hostSize : HostAccess → Nat
  | .load _ n | .store _ n _ | .amo _ _ n _ _ _ | .lr _ n _ _ | .sc _ n _ _ _ => n

/-- An access changes memory. -/
def hostWrites : HostAccess → Bool
  | .store _ _ _ | .amo _ _ _ _ _ _ | .sc _ _ _ _ _ => true
  | _ => false

/-- The aq bit of an access (R280). -/
def hostAcquires : HostAccess → Bool
  | .amo _ _ _ _ aq _ | .lr _ _ aq _ | .sc _ _ _ aq _ => aq
  | _ => false

/-- An access is made at the home slice as one operation (R287). -/
def hostAtomic : HostAccess → Bool
  | .load _ _ | .store _ _ _ => false
  | _ => true

/-- An access is naturally aligned, of a size of its kind: loads up to 64 bytes (R29), stores up to 8, the others 4 or
8. -/
def hostOk (k : HostAccess) : Bool :=
  (match k with
    | .load _ n => [1, 2, 4, 8, 16, 32, 64].contains n
    | .store _ n _ => [1, 2, 4, 8].contains n
    | _ => [4, 8].contains (hostSize k)) && hostDpa k % hostSize k == 0

/-- The operation of R244 that has an application hart's operation's effect. -/
def hostAmoOp : HostAmo → AmoOp
  | .swap => .swap | .add => .add | .xor => .xor | .and => .and | .or => .or
  | .min => .min | .max => .max | .minu => .minu | .maxu => .maxu

/-- What an access makes of the bytes it finds: their new value, none where they stay, and the value it returns. `kept`
says whether a reservation is held. -/
def hostEffect (k : HostAccess) (kept : Bool) (old : Nat) : Option Nat × Reply :=
  let n := hostSize k
  match k with
  | .load _ _ | .lr _ _ _ _ => (none, replyOf old n)
  | .store _ _ v => (some (v.toNat % 2 ^ (8 * n)), .bytes [])
  | .amo op _ _ v _ _ => ((amoNew (hostAmoOp op) n old (v.toNat % 2 ^ (8 * n)) 0).1, replyOf old n)
  | .sc _ _ v _ _ => if kept then (some (v.toNat % 2 ^ (8 * n)), replyOf 0 8) else (none, replyOf 1 8)

/-! ## Memory -/

/-- The reservation of a requester after an access to a storage sector: LR takes one, SC ends it. -/
def State.reserve (s : State) (who key : Nat) (k : HostAccess) : State :=
  match k with
  | .lr _ _ _ _ => { s with hostRes := put s.hostRes who (key / 256) }
  | .sc _ _ _ _ _ => { s with hostRes := del s.hostRes who }
  | _ => s

/-- A write by a driver leaves the descriptors of queues that are not DISABLED as they are (R325). -/
def State.guardDescs (s t : State) (dpa : Nat) : State :=
  s.wqueues.foldl (fun t x =>
    let d := s.queueDesc x.1
    if d / 256 == dpa / 256 then t.sysWrite d 64 (s.sysRead d 64) else t) t

/-- A plain load may be served by the LLC's copy of a CXL line (R291). -/
def State.hostView (s : State) (l : Loc) (k : HostAccess) : Loc :=
  match k, (if isCxlKey l.key then look s.llc (l.key / 256) else none) with
  | .load _ _, some x => { l with xf := .copied x }
  | _, _ => l

/-- An access performed at a location as a raw access. -/
def State.hostAt (s : State) (who : Nat) (l : Loc) (dpa : Nat) (k : HostAccess) : State × Reply :=
  let old := s.readRaw (s.hostView l k) (hostSize k)
  let r := hostEffect k (look s.hostRes who == some (l.key / 256)) old
  let t := s.reserve who l.key k
  match r.1 with
  | none => (t, r.2)
  | some v => (s.guardDescs (t.storeRaw dpa l (hostSize k) v) dpa, r.2)

/-- An access waits behind a link that holds its traffic (R20, R398). -/
def State.hostHeld (s : State) (k : HostAccess) : Bool :=
  match s.dpaLoc none 0 (s.localDpa (hostDpa k)) with
  | .error .held => true
  | _ => false

/-- An access to memory, with the owner check of a context or none (R365, R368). One made at the home slice recalls the
line, and meets what the recall finds (R288). -/
def State.hostMemory (s : State) (who : Nat) (ctx : Option Nat) (k : HostAccess) : State × Reply :=
  let d := s.localDpa (hostDpa k)
  match s.dpaLoc ctx 0 d with
  | .error (.absent _) => (s, .accessFault)
  | .error (.fault c) => (s, if ctx.isSome then .cause c else .accessFault)
  | .error .held => (s, .accessFault)
  | .ok l =>
    let found := hostAtomic k && s.recallFinds d
    let s := if hostAtomic k && isHbm d then s.recall d else s
    let s := (s.settle l d).crossed l
    match if found then some Cause.poisonRead else rawFault (s.tagAt l.key) with
    | some c => (s, if ctx.isSome then .cause c else .accessFault)
    | none => if hostWrites k && s.rawBarred d l then (s, .accessFault) else s.hostAt who l d k

/-! ## The frame windows (R373) -/

def dataWindow : Nat := 0x100000000000
def sideWindow : Nat := 0x110000000000

/-- A storage key lies in a frame that holds the PIT (R366). -/
def pitFrameKey (key : Nat) : Bool := decide (bits (windowFrame key) 19 0 < 256)

/-- The page whose PIT entry lies at an offset of the stacks (R366). -/
def pitAt (off : Nat) : Nat := 12 * (off % 2 ^ 36 / 16) + off / 2 ^ 36

/-- The 16 entries of a sector of the PIT as its data. -/
def State.pitData (s : State) (key : Nat) : BitVec 2048 :=
  BitVec.ofNat 2048 ((List.range 16).foldl (fun acc i =>
    acc + (s.pitEntry (pitAt (key / 256 * 256 + 16 * i))).toNat * 2 ^ (128 * i)) 0)

/-- A sector of the PIT written. -/
def State.setPitData (s : State) (key : Nat) (d : BitVec 2048) : State :=
  (List.range 16).foldl (fun s i => s.setPit (pitAt (key / 256 * 256 + 16 * i)) (d.extractLsb' (128 * i) 128)) s

/-- A sector as it is stored; the stale bytes and metadata of a ZERO one are not returned (R38). -/
def State.storedSector (s : State) (key : Nat) : Sector :=
  let l := s.storedLoc (windowFrame key) key
  let t := (s.side key).extractLsb' 0 24
  let zero := tagCls t == 0
  { tag := t, bmeta := if zero then 0 else (s.side key).extractLsb' 24 128,
    data := if pitFrameKey key then s.pitData key
            else if zero then 0 else l.xf.see key (BitVec.ofNat 2048 (getNat s.mem key 256)) }

/-- A sector stored as it is given, which ends an error there. -/
def State.putStored (s : State) (key : Nat) (x : Sector) : State :=
  let s := if pitFrameKey key then
      { s.setPitData key x.data with sides := putD s.sides (key / 256) 0 (x.bmeta ++ x.tag) }
    else s.writeSector (s.storedLoc (windowFrame key) key) x
  { s with errors := del s.errors (key / 256) }

/-- A read or a write through a window, with the bytes that stand there and what a write makes of them. An atomic of a
window is performed on them as on memory. -/
def windowDo (s : State) (k : HostAccess) (old : Nat) (store : Nat → State) : State × Reply :=
  let r := hostEffect k false old
  match r.1 with
  | none => (s, r.2)
  | some v => (store v, r.2)

/-- The bytes of an access that stand at an offset of a number of bytes. -/
def bytesAt (x off n : Nat) : Nat := x / 2 ^ (8 * off) % 2 ^ (8 * n)

/-- A data access through the window. The first bytes written into a ZERO sector materialise it as a raw store does (R39),
so that no stale byte appears beside them; a sector of the PIT reads as its entries, and a write leaves it as it is (DESIGN
CHOICE, log 26). -/
def State.windowData (s : State) (off : Nat) (k : HostAccess) : State × Reply :=
  let f := windowFrame off
  let base := off / 256 * 256
  let x := s.storedSector base
  if s.frameNamed f then (s, .accessFault)
  else
    windowDo s k (bytesAt x.data.toNat (off % 256) (hostSize k)) (fun v =>
      if pitFrameKey off then s
      else
        let s := if (look s.seals f).isNone then { s with seals := put s.seals f .raw } else s
        let x := if tagCls x.tag = 0 then secMaterialise x else x
        let x := { x with data := BitVec.ofNat 2048 (replaceBits x.data.toNat (8 * (off % 256)) (8 * hostSize k) v) }
        s.writeSector (s.storedLoc f base) x)

/-- A side-band access through the window: bytes 0x00 to 0x0B read zero and ignore writes. A sector that leaves class ZERO
holds zero data and zero metadata but for what is written, not what stood under it (R38). -/
def State.windowSide (s : State) (off : Nat) (k : HostAccess) : State × Reply :=
  let key := off / 32 * 256
  if s.frameNamed (windowFrame key) then (s, .accessFault)
  else
    let x := s.storedSector key
    let side := x.tag.toNat * 2 ^ 96 + x.bmeta.toNat * 2 ^ 128
    windowDo s k (bytesAt side (off % 32) (hostSize k)) (fun v =>
      let y := replaceBits side (8 * (off % 32)) (8 * hostSize k) v
      let z : Sector := { x with tag := BitVec.ofNat 24 (bits y 119 96), bmeta := BitVec.ofNat 128 (bits y 255 128) }
      if tagCls x.tag = 0 && tagCls z.tag != 0 then s.putStored key z
      else { s with sides := putD s.sides (key / 256) 0 (z.bmeta ++ z.tag), errors := del s.errors (key / 256) })

/-! ## Telemetry (R29, R431) -/

def telemetry : Nat := 0xF0040000000

/-- The dies as the telemetry windows number them: SY, MH0 and MH1, SB0 to SB11, CD0 to CD7, TD (DESIGN CHOICE, log 46). -/
def telemetryDies : Nat := 24

/-- A trace entry's 32 bytes (R266). -/
def TraceEntry.toNat (x : TraceEntry) : Nat :=
  x.pc.toNat + x.first.toNat * 2 ^ 64 + x.last.toNat * 2 ^ 128 + x.vl.toNat * 2 ^ 192 + x.cw.toNat * 2 ^ 208
    + x.row.toNat * 2 ^ 211 + x.eng.toNat * 2 ^ 214 + x.mpop.toNat * 2 ^ 217 + x.slot.toNat * 2 ^ 230
    + x.ctxid.toNat * 2 ^ 232

/-- The state code of a link's telemetry record (R400). -/
def LinkState.code : LinkState → Nat
  | .down => 0 | .training => 1 | .active => 2 | .hold => 3 | .failed => 4

/-- The nanoseconds that a link has spent in HOLD, with a hold that stands (R400). -/
def Link.holdTime (l : Link) (now : Nat) : Dword :=
  if l.state = .hold then l.holdns + BitVec.ofNat 64 (nsOf (now - l.since)) else l.holdns

/-- A link's telemetry record (R400). -/
def Link.record (l : Link) (now : Nat) : Nat :=
  l.state.code + l.rate.toNat * 2 ^ 8 + l.minRate.toNat * 2 ^ 10 + l.maxRate.toNat * 2 ^ 12 + l.plink.toNat * 2 ^ 16
    + l.peer.toNat * 2 ^ 26 + (l.holdTime now).toNat * 2 ^ 320 + l.replays.toNat * 2 ^ 384 + l.flits.toNat * 2 ^ 448

/-- The count register of bank b of pseudo-channel p, under key 16 p + b (R389). -/
def Stack.counts (x : Stack) (k : Nat) : Nat := (lookD x.corr k 0).toNat + (lookD x.uncorr k 0).toNat * 65536

/-- The numbers of the list's elements, each of `w` bits, side by side. -/
def packed (w : Nat) (xs : List Nat) : Nat := xs.zipIdx.foldl (fun acc x => acc + x.1 * 2 ^ (w * x.2)) 0

/-- The newest 1,920 entries of a core's trace ring, two to a record (DESIGN CHOICE, log 46: the 2 MiB of 16 rings do not
fit the block of a die; the management plane reads the whole ring at once). -/
def Core.traceRecord (c : Core) (i : Nat) : Nat :=
  let es := c.trace.drop (c.trace.length - 1920)
  packed 256 (((es.drop (2 * i)).take 2).map TraceEntry.toNat)

/-- The virtual die of a physical compute die (R18). -/
def State.virtualDie (s : State) (d : Nat) : Option Nat := s.dieMap.findIdx? (fun x => x == some d)

/-- Record i of a die's telemetry block (R431; DESIGN CHOICE of the places, log 46). Record 0 of every die holds its power
and temperature, two free values, on SY the issue permits of the arrays and of the vector lanes, and on a base die the
takeover bit (R390); from record 64 on stand the links (SY), the bank error counts (SB), and from record 1,024 on the trace
rings (CD). -/
def State.telemetryRecord (s : State) (die i : Nat) : Nat :=
  if i = 0 then
    packed 64 ([(Config.freeDword s.draws).toNat, (Config.freeDword (s.draws + 1)).toNat] ++
      (if die = 0 then [s.permit, s.permitLanes]
       else if 3 ≤ die && die < 15 then [if (s.stack (die - 3)).takeover then 1 else 0]
       else []))
  else if die = 0 then if 64 ≤ i && i < 320 then (s.link (i - 64)).record s.now else 0
  else if 3 ≤ die && die < 15 then
    if 64 ≤ i && i < 192 then packed 64 ((List.range 8).map (fun b => (s.stack (die - 3)).counts (8 * (i - 64) + b))) else 0
  else if 15 ≤ die && die < 23 && 1024 ≤ i then
    match s.virtualDie (die - 15) with
    | some v => (s.core (16 * v + (i - 1024) / 960)).traceRecord ((i - 1024) % 960)
    | none => 0
  else 0

/-- A load at an offset of the telemetry range: values of one update of its record, since the step reads them together. -/
def State.telemetryRead (s : State) (off n : Nat) : State × Reply :=
  let x := s.telemetryRecord (off / 0x100000) (off % 0x100000 / 64)
  ({ s with draws := s.draws + 2 }, replyOf (x / 2 ^ (8 * (off % 64)) % 2 ^ (8 * n)) n)

/-! ## The MMIO range -/

def handleBlock : Nat := 0xF0020000000

/-- The bits of a tensor handle that are not RZ (R381). -/
def handleBits : Nat := (2 ^ 512 - 1) - (2 ^ 192 - 2 ^ 32) - (2 ^ 16 - 2 ^ 13) - (2 ^ 8 - 1)

/-- A doorbell page (R323). -/
def isDoorbell (dpa : Nat) : Bool := decide (doorbells ≤ dpa) && decide (dpa < doorbells + 65536 * 4096)

/-- An access to a doorbell page: an aligned store of eight bytes to its start rings, any other access is ignored (R327). -/
def State.doorbellAccess (s : State) (k : HostAccess) : State × Reply :=
  match k with
  | .store d 8 v => (if d % 8 = 0 then s.doorbell ((d - doorbells) / 4096) v else s, .bytes [])
  | _ => (s, if hostWrites k then .bytes [] else replyOf 0 (hostSize k))

/-- A register of the scheduler's block (R323). -/
def State.registerAccess (s : State) (k : HostAccess) : State × Reply :=
  let d := hostDpa k
  match k with
  | .load _ n => (s, replyOf ((s.readReg ((d - regBlock) / 8 * 8)).toNat / 2 ^ (8 * (d % 8))) n)
  | .store _ 8 v => (s.writeReg (d - regBlock) v, .bytes [])
  | _ => (s, .bytes [])

def isRegister (dpa : Nat) : Bool := decide (regBlock ≤ dpa) && decide (dpa < regBlock + 4096)

/-- A store to a tensor handle, whose RZ bits stay zero (R4, R381). -/
def State.handleStore (s : State) (d n v : Nat) : State :=
  let base := d / 64 * 64
  let x := replaceBits (getNat s.mem base 64) (8 * (d % 64)) (8 * n) v
  { s with mem := setNat s.mem base 64 (x &&& handleBits) }

/-- An access to the telemetry windows (R29): a write of any size and place has no effect and raises no fault. The spec does
not say what an LR or an AMO there returns: no bytes (DESIGN CHOICE, log 27). -/
def State.telemetryAccess (s : State) (k : HostAccess) : State × Reply :=
  match k with
  | .load d n => if hostOk k then s.telemetryRead (d - telemetry) n else (s, .accessFault)
  | _ => (s, .bytes [])

/-- An address in the telemetry windows. -/
def isTelemetry (d : Nat) : Bool := decide (telemetry ≤ d) && decide (d < telemetry + telemetryDies * 0x100000)

/-- An application hart's access to the MMIO range: registers, doorbells, tensor handles, telemetry, frame windows. -/
def State.hostMmio (s : State) (k : HostAccess) : State × Reply :=
  let d := hostDpa k
  if isDoorbell d then s.doorbellAccess k
  else if isTelemetry d then s.telemetryAccess k
  else if !hostOk k then (s, .accessFault)
  else if isRegister d then s.registerAccess k
  else if decide (handleBlock ≤ d) && decide (d < handleBlock + 12 * 65536) && d % 65536 < 256 * 64 then
    match k with
    | .load _ n => (s, replyOf (getNat s.mem d n) n)
    | .store _ n v => (s.handleStore d n v.toNat, .bytes [])
    | _ => (s, .accessFault)
  else if decide (dataWindow ≤ d) && decide (d < dataWindow + 12 * 2 ^ 36) then s.windowData (d - dataWindow) k
  else if decide (sideWindow ≤ d) && decide (d < sideWindow + 12 * 2 ^ 33) then s.windowSide (d - sideWindow) k
  else (s, .accessFault)

/-! ## The steps -/

/-- The context of an application hart: that whose CTXID is its current ASID (R280). -/
def State.hostCtx (s : State) (h : Nat) : Nat := lookD s.asids h 0

/-- An acquire of an application hart at an entry of its context (R280, R291): the LLC keeps no copy of a CXL line where
the entry names the peer. Its own accesses are performed as they are made, so a release has nothing left to wait for. -/
def State.hostAcquire (s : State) (ctx k : Nat) : State :=
  if s.scopeNamesPeer k (s.contents ctx k) && !s.llc.isEmpty then { s with llc := [] } else s

/-- The entries of which an application hart is a member in its context, which must exist (R279, R280). -/
def State.hostScopes (s : State) (h : Nat) : List Nat :=
  if (look s.ctxs (s.hostCtx h)).isNone then []
  else (List.range 32).filter (fun k => s.isMember (s.hostCtx h) k (.host h))

/-- APPLICATION_HART_ACCESS (R29, R280, R323, R368, R373): an access by application hart `h` under the ASID `ctx`; behind a
link that holds its traffic it waits (R398). -/
def execApplicationHartAccess (h ctx : Nat) (k : HostAccess) (s : State) : Out :=
  let h := h % 64
  if hostDpa k < cxlEnd && hostOk k && s.hostHeld k then .next s
  else
  let s := { s with asids := put s.asids h ctx }
  let (s, r) :=
    if cxlEnd ≤ hostDpa k then s.hostMmio k
    else if !hostOk k then (s, Reply.accessFault)
    else s.hostMemory h none k
  let s := if hostAcquires k && (s.hostScopes h).contains 31 then s.hostAcquire ctx 31 else s
  .next (s.answer h r)

/-- APPLICATION_HART_FENCE (R280): a FENCE rw,rw of application hart `unit` is a release and an acquire at every entry of
which the hart is a member. -/
def execApplicationHartFence (s : State) : Out :=
  let h := s.focus.unit % 64
  .next ((s.hostScopes h).foldl (fun s k => s.hostAcquire (s.hostCtx h) k) s)

/-- The requester number of another package. -/
def domainRequester (pkg : Nat) : Nat := 2000 + pkg

/-- The DPA of an access, and whether it writes and is of its kind. -/
def domainDpa : DomainAccess → Nat
  | .raw k => hostDpa k
  | .getSector d | .putSector d _ => d

def domainWrites : DomainAccess → Bool
  | .raw k => hostWrites k
  | .getSector _ => false
  | .putSector _ _ => true

def domainOk : DomainAccess → Bool
  | .raw k => hostOk k
  | .getSector d | .putSector d _ => d % 256 == 0

/-- An access of another package performed (R37, R402): a whole sector moves with its tag and block metadata, under the
class rules of a verbatim transfer. -/
def State.domainDo (s : State) (who ctx : Nat) (k : DomainAccess) : State × Reply :=
  match k with
  | .raw k => s.hostMemory who (some ctx) k
  | .getSector d =>
    match s.dpaLoc (some ctx) 0 d with
    | .error (.fault c) => (s, .cause c)
    | .error _ => (s, .accessFault)
    | .ok l => let s := s.settle l d; (s, .packet 0 [s.readSector l])
  | .putSector d x =>
    match s.dpaLoc (some ctx) 0 d with
    | .error (.fault c) => (s, .cause c)
    | .error _ => (s, .accessFault)
    | .ok l =>
      if barredOnCxl d l x then (s, .cause .storeFormatOverflow)
      else ((((s.recall d).writeSector l x).noteStore d l).releaseCell ctx (keepKey 0 d), .bytes [])

/-- DOMAIN_ACCESS_ARRIVAL (R290, R402): an access of a context in package `pkg` is checked against the page's owner,
performed, and acknowledged. An ABSENT page gives its page-absent reply with a record (R368). -/
def execDomainAccessArrival (pkg ctx : Nat) (k : DomainAccess) (s : State) : Out :=
  let who := domainRequester pkg
  let d := domainDpa k
  if !domainOk k || !isHbm d then .next (s.answer who (.cause .kttPermission))
  else if pitState (s.pitEntry (d / 65536)) = 0 then
    let s := s.absentRecord (d / 65536) (d % 65536 / 256) ctx 0 0 false (domainWrites k)
    .next (s.answer who .accessFault)
  else
    let (s, r) := s.domainDo who ctx k
    .next (s.answer who r)

end Sys2Proof.Machine
end

