-- ==== Sys2Proof/Machine/StackDie.lean ====
section
/-! DEFINITION. The stacks and their base dies (spec/23_stacks.md R377 to R380, R383 to R390): addresses, packets, refresh,
scrub and error counts. -/

namespace Sys2Proof.Machine

/-- The stack-local address of the sector at a pseudo-channel address of a port (R378, R379). -/
def Stack.slaOf (x : Stack) (port pca : Nat) : Nat :=
  let up := pca % 2 ^ 22 * 2 ^ 14
  let low := x.hmask.zipIdx.foldl (fun acc m =>
    if xor (bitOf port m.2) (parity 36 (up &&& m.1.toNat)) then acc + 2 ^ (8 + m.2) else acc) 0
  up + low

/-- The memory key of a stack-local address. -/
def slaKey (stack sla : Nat) : Nat := stack * 2 ^ 36 + sla

/-- The page whose entry names a frame, where there is one. -/
def State.pageOfFrame (s : State) (f : Nat) : Option Nat :=
  (s.pit.find? (fun x => pitState x.2 != 0 && (pitFrame x.2 == f || (pitState x.2 == 2 && pitNframe x.2 == f)))).map (·.1)

/-- A sector read by the base die: what its decoder finds is counted, a correctable sector is corrected and written back, and
an uncorrectable one is charged to its page (R375, R387). The status is that of the reply. -/
def State.dieRead (s : State) (n port pca : Nat) : State × Nat :=
  let key := slaKey n ((s.stack n).slaOf port pca)
  match s.errorKind key with
  | none => (s.correct key, 0)
  | some false => ((s.setStack n ((s.stack n).found port pca false)).correct key, 1)
  | some true =>
    let s := s.setStack n ((s.stack n).found port pca true)
    match s.pageOfFrame (windowFrame key) with
    | some p => (s.poisonSector (key / 256 * 256) p, 2)
    | none => (s, 2)

/-! ## Performing a packet (R384 to R387) -/

/-- The data of a WRM: bit m of ARG covers bytes 8 m to 8 m + 7. -/
def maskedData (arg : BitVec 32) (old new : BitVec 2048) : BitVec 2048 :=
  BitVec.ofNat 2048 ((List.range 32).foldl (fun acc m =>
    acc + ((if arg.getLsbD m then new else old).extractLsb' (64 * m) 64).toNat * 2 ^ (64 * m)) 0)

/-- The sector of a DPA settled where it lies. -/
def State.settleDpa (s : State) (dpa : Nat) : State :=
  match s.dpaLoc none 0 dpa with
  | .ok l => s.settle l dpa
  | .error _ => s

/-- A packet performed on its stack, with its reply and status; none while a tensor request is held. RD returns the sector
and its side-band (R30, R384), of a frame of the PIT its entries (R366); TAGW away from class ZERO leaves zero data, which is what the sector read as (R38, R387). -/
def State.doPacket (s : State) (n : Nat) (p : Packet) : Option (State × List Sector × Nat) :=
  let key := slaKey n ((s.stack n).slaOf p.port p.pca)
  match p.op with
  | 0 =>
    let (t, st) := s.dieRead n p.port p.pca
    if st = 2 then some (t, [], 2) else some (t, [t.storedSector key, carry (sideBand (t.storedSector key))], st)
  | 1 => some (s.putStored key p.data, [], 0)
  | 2 =>
    let (t, st) := if p.arg = 0xFFFFFFFF then (s, 0) else s.dieRead n p.port p.pca
    if st = 2 then some (t, [], 2)
    else
      let old := t.storedSector key
      some (t.putStored key { old with data := maskedData p.arg old.data p.data.data }, [], st)
  | 3 =>
    let ctx := handleOf (s.handle n p.req.handle)
    match s.tensorRead ctx.ctx n p.req with
    | .error .hold => none
    | .error (.absent _) => some (s, [], 3)
    | .error (.cause .poisonRead a) => some (s.settleDpa a, [], 2)
    | .error (.cause _ _) => some (s, [], 3)
    | .ok (t, xs) => some (t, xs, 0)
  | 4 =>
    let zero := tagCls p.data.tag == 0
    let (t, st) := if zero then (s, 0) else s.dieRead n p.port p.pca
    if st = 2 then some (t, [], 2)
    else if zero then
      some ({ t with sides := putD t.sides (key / 256) 0 (p.data.bmeta ++ p.data.tag), errors := del t.errors (key / 256) },
            [], st)
    else some (t.putStored key { p.data with data := (t.storedSector key).data }, [], st)
  | 5 =>
    let r := (p.arg.extractLsb' 0 8).toNat
    if 15 < r then some (s, [], 3)
    else
      let x := s.stack n
      let k := p.port * 16 + r
      some (s, [carry (x.counts k)], 0)
  | _ => some (s, [], 3)

/-- A packet of the stack replaced by its performed form. -/
def Stack.performed (x : Stack) (i : Nat) (reply : List Sector) (status : Nat) : Stack :=
  match x.packets[i]? with
  | some p => { x with packets := x.packets.set i { p with performed := true, reply := reply, status := status } }
  | none => x

/-- Two packets touch one sector of one port. -/
def Packet.sameSector (p q : Packet) : Bool :=
  p.port == q.port && p.pca == q.pca && p.op != 3 && q.op != 3 && p.op != 5 && q.op != 5

/-- The packets at the given positions performed in order, those already performed passed over. -/
def performPackets (n : Nat) : List Nat → State → Option State
  | [], s => some s
  | i :: is, s =>
    match (s.stack n).packets[i]? with
    | none => performPackets n is s
    | some p =>
      if p.performed then performPackets n is s
      else
        match s.doPacket n p with
        | none => none
        | some (t, reply, st) => performPackets n is (t.setStack n ((t.stack n).performed i reply st))

/-! ## Requests (R383, R384) -/

/-- The header's fields. -/
def hdrOp (v : Dword) : Nat := (v.extractLsb' 61 3).toNat
def hdrTag (v : Dword) : Nat := (v.extractLsb' 58 3).toNat
def hdrPca (v : Dword) : Nat := (v.extractLsb' 36 22).toNat

/-- The tags of a port that no packet holds, lowest first. -/
def Stack.freeTags (x : Stack) (port : Nat) : List Nat :=
  (List.range 8).filter (fun t => !x.packets.any (fun p => p.port == port && p.tag == t))

/-- A packet sent with a tag, or queued at the hub where its port has none free or others wait (R383): the tag that it asks
for where that is free, else the lowest free one (DESIGN CHOICE, log 30). -/
def Stack.send (x : Stack) (p : Packet) : Stack :=
  if x.waiting.any (fun q => q.port == p.port) then { x with waiting := x.waiting ++ [p] }
  else
    match x.freeTags p.port with
    | [] => { x with waiting := x.waiting ++ [p] }
    | t :: ts => { x with packets := x.packets ++ [{ p with tag := if (t :: ts).contains p.tag then p.tag else t }] }

/-- The oldest request that waits for a port is sent with the tag that a reply has freed (R383). -/
def Stack.sendNext (x : Stack) (port tag : Nat) : Stack :=
  match x.waiting.find? (fun q => q.port == port) with
  | none => x
  | some q => { x with waiting := x.waiting.erase q, packets := x.packets ++ [{ q with tag := tag }] }

/-- A request of the given opcode made to stack `unit` on port `sub` with the header of the focus's value: it waits at the
hub while no tag is free (R383). WR, WRM and TAGW carry the bytes of the focus's sector. -/
def request (s : State) (op : Nat) : Out :=
  let n := s.focus.unit
  let port := s.focus.sub
  let v := s.focus.val
  let carries := op = 1 || op = 2 || op = 4
  if 11 < n || hdrOp v ≠ op || (if op = 3 then port ≠ 64 else 63 < port) || (carries && s.focus.data.isEmpty) then .next s
  else
    let p : Packet := { port := port, tag := hdrTag v, op := op, pca := hdrPca v, arg := v.extractLsb' 0 32,
                        data := s.focus.data.headD zeroSector, req := s.focus.req, performed := false, reply := [],
                        status := 0 }
    .next (s.setStack n ((s.stack n).send p))

/-- RD (R384). -/
def execRd (s : State) : Out := request s 0
/-- WR (R384). -/
def execWr (s : State) : Out := request s 1
/-- WRM (R384, R387). -/
def execWrm (s : State) : Out := request s 2
/-- TRD (R382, R384). -/
def execTrd (s : State) : Out := request s 3
/-- TAGW (R384, R387). -/
def execTagw (s : State) : Out := request s 4
/-- MRR (R384, R389). -/
def execMrr (s : State) : Out := request s 5

/-- The requester number of a port of a stack. -/
def portRequester (n port : Nat) : Nat := 3000 + n * 128 + port

/-- The header of a reply. -/
def Packet.header (p : Packet) : Dword := BitVec.ofNat 64 (p.op * 2 ^ 61 + p.tag * 2 ^ 58 + p.status * 2 ^ 56)

/-- PACKET_REPLY (R383 to R387): the reply to the packet of stack `unit`, port `sub` and the tag in the focus's value.
Every earlier packet of the port to its sector has taken effect before it, and a request that waits for the port takes the
tag that it frees. -/
def execPacketReply (s : State) : Out :=
  let n := s.focus.unit
  let port := s.focus.sub
  let tag := s.focus.val.toNat % 8
  let ps := (s.stack n).packets
  match ps.findIdx? (fun p => p.port == port && p.tag == tag) with
  | none => .next s
  | some i =>
    let before := (List.range i).filter (fun k =>
      match ps[k]?, ps[i]? with
      | some a, some b => a.sameSector b
      | _, _ => false)
    match performPackets n (before ++ [i]) s with
    | none => .next s
    | some t =>
      match (t.stack n).packets[i]? with
      | none => .next s
      | some p =>
        let x := t.stack n
        let t := t.setStack n ({ x with packets := x.packets.eraseIdx i }.sendNext port tag)
        .next (t.answer (portRequester n port) (.packet p.header p.reply))

/-! ## Refresh, scrub and the fallback sequencer (R388, R390) -/

/-- REFRESH (R388, R390): one refresh of a pseudo-channel of stack `unit`. -/
def execRefresh (s : State) : Out :=
  let n := s.focus.unit % 12
  let x := s.stack n
  .next (s.setStack n { x with refreshes := x.refreshes + 1 })

/-- SCRUB_STEP (R388): the next sector of stack `unit` is read, corrected or reported; scrub pauses while the fallback
sequencer refreshes (R390). -/
def execScrubStep (s : State) : Out :=
  let n := s.focus.unit % 12
  let x := s.stack n
  if x.takeover then .next s
  else
    let sla := x.scrubPos * 256
    let (s, _) := s.dieRead n (x.csel sla) (sla / 2 ^ 14)
    .next (s.setStack n { s.stack n with scrubPos := (x.scrubPos + 1) % 2 ^ 28 })

/-- HEARTBEAT_MISSING (R390): the sequencer issues the refresh then due and takes refresh over, and the management plane is
told. -/
def execHeartbeatMissing (s : State) : Out :=
  let n := s.focus.unit % 12
  let x := s.stack n
  let s := s.setStack n { x with takeover := true, restarted := false, refreshes := x.refreshes + 1 }
  .next (s.answer managementPlane (.takeover n))

/-- Core-clock periods of tREFI (R388). -/
def trefi : Nat := cyclesOf 3900

/-- REFRESH_HANDOVER (R390): once the management plane has restarted it, the management core takes refresh back at a tREFI
boundary; boundaries are counted from package reset (DESIGN CHOICE, log 30). -/
def execRefreshHandover (s : State) : Out :=
  let n := s.focus.unit % 12
  let x := s.stack n
  if x.takeover && x.restarted && s.now % trefi == 0 then
    .next (s.setStack n { x with takeover := false, restarted := false })
  else .next s

/-! ## Hash masks (R379, R380) -/

/-- Masks that the stack management core accepts: no RZ bit, and LOW of mask i exactly bit 8 + i. -/
def masksOk (ms : List Dword) : Bool :=
  ms.length == 6 && ms.zipIdx.all (fun m =>
    m.1.extractLsb' 36 28 == 0 && m.1.extractLsb' 0 8 == 0 && (m.1.extractLsb' 8 6).toNat == 2 ^ m.2)

/-- HMASK_CHANGE (R28, R380): a change of the masks of stack `unit` is requested, or refused with nothing changed. -/
def execHmaskChange (masks : List Dword) (s : State) : Out :=
  let n := s.focus.unit
  .next (if 11 < n || !masksOk masks then s.refuse else s.askGate (.hmask n masks))

end Sys2Proof.Machine
end

