-- ==== Sys2Proof/Machine/LinkDom.lean ====
section
/-! DEFINITION. Links, domain windows, the progress of collectives, and the accesses of devices (spec/27_link.md R398 to
R402, R404 to R407; spec/13_order_dies.md R291, R292). -/

namespace Sys2Proof.Machine

/-! ## Links (R398 to R400) -/

/-- The retraining window of a link (R398): links 0 to 17 are the Axdom links (log 13). -/
def holdWindow (n : Nat) : Nat := cyclesOf (if n < 18 then 2000 else 200)

/-- A link enters a state. -/
def Link.enter (l : Link) (x : LinkState) (now : Nat) : Link := { l with state := x, since := now }

/-- Whether a link is in a state. -/
def Link.is (l : Link) (x : LinkState) : Bool := l.state == x

/-- LINK_TRAINING_START (R398): link `unit`, DOWN, starts training; a FAILED one does so through a gate (R28). -/
def execLinkTrainingStart (s : State) : Out :=
  let n := s.focus.unit
  let l := s.link n
  match l.state with
  | .down => .next (s.setLink n (l.enter .training s.now))
  | .failed => .next (s.askGate (.linkRestart n))
  | _ => .next s

/-- LINK_TRAINING_COMPLETE (R398, R400, R402): traffic flows at MAXRATE toward the link `val` of, on Axdom, package `sub`;
the focus's data, where it has some, names the packages behind the far end's switches. -/
def execLinkTrainingComplete (s : State) : Out :=
  let n := s.focus.unit
  let l := s.link n
  if l.is .training && decide (s.now - l.since < cyclesOf 1000000) then
    let l := l.enter .active s.now
    let behind := (s.focus.data.headD zeroSector).data.setWidth 64
    .next (s.setLink n { l with rate := l.maxRate, peer := if n < 18 then BitVec.ofNat 6 s.focus.sub else 0,
                                plink := s.focus.val.setWidth 8, reach := if n < 18 then behind else 0,
                                recent := [], highSince := none, lowSince := none })
  else .next s

/-- LINK_TRAINING_TIMEOUT (R398): training that lasts 1 ms fails. -/
def execLinkTrainingTimeout (s : State) : Out :=
  let n := s.focus.unit
  let l := s.link n
  if l.is .training && decide (cyclesOf 1000000 ≤ s.now - l.since) then .next (s.setLink n (l.enter .failed s.now))
  else .next s

/-- A step may be taken: 100 µs have passed since the last (R399). -/
def Link.mayStep (l : Link) (now : Nat) : Bool :=
  match l.stepAt with
  | none => true
  | some t => decide (cyclesOf 100000 ≤ now - t)

/-- A speed step opens a hold (R399). -/
def Link.stepTo (l : Link) (rate : BitVec 2) (now : Nat) : Link :=
  { l.enter .hold now with rate := rate, stepAt := some now }

/-- A utilisation has stood for a number of nanoseconds (R399). -/
def stoodFor (since : Option Nat) (ns now : Nat) : Bool :=
  match since with
  | none => false
  | some t => decide (cyclesOf ns ≤ now - t)

/-- The utilisation of a link as it is from now on, in per cent (R399). -/
def Link.traffic (l : Link) (percent now : Nat) : Link :=
  { l with highSince := if 60 < percent then some (l.highSince.getD now) else none,
           lowSince := if percent < 20 then some (l.lowSince.getD now) else none }

/-- LINK_STEP_UP (R399): after 10 µs at more than 60 % utilisation. -/
def execLinkStepUp (s : State) : Out :=
  let n := s.focus.unit
  let l := s.link n
  if l.is .active && l.mayStep s.now && stoodFor l.highSince 10000 s.now && decide (l.rate.toNat < l.maxRate.toNat) then
    .next (s.setLink n (l.stepTo (l.rate + 1) s.now))
  else .next s

/-- A gate waits for a link to step down to its new bound (R399). -/
def State.ratePressed (s : State) (n : Nat) (l : Link) : Bool :=
  s.gates.any (fun g => match g with
    | .rates m _ hi => decide (m = n) && decide (hi.toNat < l.rate.toNat)
    | _ => false)

/-- LINK_STEP_DOWN (R399): after 100 µs at less than 20 % utilisation, or for a gate. -/
def execLinkStepDown (s : State) : Out :=
  let n := s.focus.unit
  let l := s.link n
  if l.is .active && l.mayStep s.now
      && ((stoodFor l.lowSince 100000 s.now && decide (l.minRate.toNat < l.rate.toNat)) || s.ratePressed n l) then
    .next (s.setLink n (l.stepTo (l.rate - 1) s.now))
  else .next s

/-- LINK_RATE_POLICY (R28, R399): new bounds `sub` to `val` for link `unit` are requested; codes that no rate has are
refused. -/
def execLinkRatePolicy (s : State) : Out :=
  let lo := s.focus.sub
  let hi := s.focus.val.toNat
  .next (if decide (lo ≤ hi) && decide (hi ≤ 2) then s.askGate (.rates s.focus.unit (BitVec.ofNat 2 lo) (BitVec.ofNat 2 hi))
    else s.refuse)

/-- FLIT_REPLAY (R398): a flit of link `unit` is sent again; more than 64 replays within any 1 µs hold the link. -/
def execFlitReplay (s : State) : Out :=
  let n := s.focus.unit
  let l := s.link n
  if !l.is .active then .next s
  else
    let recent := s.now :: l.recent.filter (fun t => decide (s.now - t < cyclesOf 1000))
    let l := { l with flits := l.flits + 1, replays := l.replays + 1, recent := recent }
    .next (s.setLink n (if 64 < recent.length then { l.enter .hold s.now with recent := [] } else l))

/-- A hold's time counted (R400). -/
def Link.held (l : Link) (now : Nat) : Link := { l with holdns := l.holdTime now }

/-- LINK_RETRAIN_COMPLETE (R398): within the window the held flits go out in their order. -/
def execLinkRetrainComplete (s : State) : Out :=
  let n := s.focus.unit
  let l := s.link n
  if l.is .hold && decide (s.now - l.since < holdWindow n) then .next (s.setLink n ((l.held s.now).enter .active s.now))
  else .next s

/-- A collective whose members can no longer all be reached aborts (R405). -/
def State.abortUnreachable (s : State) : State :=
  s.colls.foldl (fun (s : State) (x : Nat × Collective) =>
    match s.unreached x.2 with
    | some (r, f) => if x.2.ended.isNone then s.abortCollective x.1 r f else s
    | none => s) s

/-- LINK_HOLD_EXPIRY (R292, R398, R402): the window passes and the link goes DOWN; its traffic takes another path where
there is one. -/
def execLinkHoldExpiry (s : State) : Out :=
  let n := s.focus.unit
  let l := s.link n
  if l.is .hold && decide (holdWindow n ≤ s.now - l.since) then
    .next (s.setLink n ((l.held s.now).enter .down s.now)).abortUnreachable
  else .next s

/-! ## Domain windows (R401) -/

/-- The CXL ports, as the configuration record bifurcates them (R406); two without a record. -/
def State.cxlPorts (s : State) : Nat :=
  match s.trust.record with
  | some r => (r.cxlSplit.map (· + 1)).sum
  | none => 2

/-- A window's configuration is well formed: a port that there is, an offset in whole pages (DESIGN CHOICE, log 13), a package
number, a base in whole windows. -/
def State.windowOk (s : State) (c : WindowCfg) : Bool :=
  match c with
  | .unused => true
  | .cxl port off _ => decide (port < s.cxlPorts) && decide (off % 65536 = 0)
  | .domain pkg base => decide (pkg < 64) && decide (base % 2 ^ 38 = 0) && decide (base < 2 ^ 52)

/-- DOMAIN_WINDOW_CONFIG (R28, R401): a configuration of window `unit` is requested. -/
def execDomainWindowConfig (cfg : WindowCfg) (s : State) : Out :=
  .next (if decide (s.focus.unit < 56) && s.windowOk cfg then s.askGate (.window s.focus.unit cfg) else s.refuse)

/-! ## Collectives (R404, R405) -/

/-- The sectors of a contribution read at a member's SRC. -/
def State.readContribution (s : State) (j : Job) (base : Dword) : Nat → Except Stop (State × List Sector)
  | 0 => .ok (s, [])
  | n + 1 => do
    let (s, xs) ← s.readContribution j base n
    let (s, x) ← s.jobRead j (base + BitVec.ofNat 64 (256 * n))
    pure (s, xs ++ [x])

/-- A contribution to a reduction is read by its classes and tags (R37, R405). -/
def readsAs (rd : Reader) (xs : List Sector) : Bool := xs.all (fun x => (openScaled rd x).isOk)

/-- A PLAIN sector as its member reads it, under LDFMT (R40). -/
def Job.typed (j : Job) (x : Sector) : Sector :=
  if tagCls x.tag = 1 then { x with tag := mkTag clsTyped j.ldFmt j.ldCw j.ldSexp } else x

/-- Two contributions combined sector by sector, under the default promotion table (R404). -/
def combineAll (op : Nat) (xs ys : List Sector) : Except Cause (List Sector) :=
  (xs.zip ys).mapM (fun p => combineSectors2 none op { fmt := 0, cw := 0, sexp := 0 } p.1 p.2)

/-- A contribution reaches the reduction point (R404, R405): the timer starts with the first, sums and extrema combine in
arrival order, and the last sends the result. -/
def State.contribute (s : State) (key rank : Nat) (c : Collective) (xs : List Sector) : State :=
  let acc := if c.kind = 0 || c.kind = 2 then
      (if c.got.isEmpty then .ok xs else combineAll c.op c.acc xs)
    else Except.ok []
  let got := put c.got rank (if c.kind = 0 || c.kind = 2 then [] else xs)
  let c := { c with started := some (c.started.getD s.now), got := got, sent := decide (got.length = c.members) }
  match acc with
  | .error _ => ({ s with colls := put s.colls key c } : State).abortCollective key 3 rank
  | .ok a => { s with colls := put s.colls key { c with acc := a } }

/-- COLLECTIVE_CONTRIBUTION (R404, R405). With value 0 the member is the job `unit` of this package, which reads its
SRC; with value 8 the data is that of rank `sub` of collective `unit`, from another package, and with value 1, 3 or 5
that package reports the abort of that REASON, also after it has contributed. A contribution to a reduction that a member
cannot read by its class and tag is a read fault. -/
def execCollectiveContribution (s : State) : Out :=
  let f := s.focus
  match f.val.toNat with
  | 0 =>
    match look s.jobs f.unit with
    | none => .next s
    | some j =>
      match j.coll with
      | none => .next s
      | some (key, rank) =>
        match look s.colls key with
        | none => .next s
        | some c =>
          if j.state ≠ .collecting || (look c.got rank).isSome then .next s
          else
            match s.readContribution j j.src (collSource c.kind c.members c.n0 rank c.root) with
            | .error (.absent r d w) => .next (s.stopJob f.unit j (.absent r d w))
            | .error .held => .next s
            | .error (.cause _ _ _) => .next (s.abortCollective key 5 rank)
            | .ok (t, xs) =>
              if c.kind % 2 = 0 && !readsAs j.reader xs then .next (t.abortCollective key 5 rank)
              else .next (t.contribute key rank c (if c.kind % 2 = 0 then xs.map j.typed else xs))
  | v =>
    match look s.colls f.unit with
    | none => .next s
    | some c =>
      if c.ended.isSome || (c.ranksOf s.pkg).contains f.sub || decide (c.members ≤ f.sub) then .next s
      else if v = 1 || v = 3 || v = 5 then .next (s.abortCollective f.unit v f.sub)
      else if v = 8 && (look c.got f.sub).isNone && decide (f.data.length = collSource c.kind c.members c.n0 f.sub c.root) then
        if c.kind % 2 = 0 && !readsAs { fmt := 0, cw := 0, sexp := 0 } f.data then .next (s.abortCollective f.unit 5 f.sub)
        else .next (s.contribute f.unit f.sub c f.data)
      else .next s

/-- The timer of a collective has ended (R405). -/
def Collective.late (c : Collective) (now : Nat) : Bool :=
  match c.started with
  | some t => decide (t + cyclesOf (1000 * c.timeout) ≤ now)
  | none => false

/-- COLLECTIVE_TIMEOUT (R405). -/
def execCollectiveTimeout (s : State) : Out :=
  match look s.colls s.focus.unit with
  | some c => if c.ended.isNone && c.late s.now then .next (s.abortCollective s.focus.unit 2 0) else .next s
  | none => .next s

/-- What a rank receives (R404). -/
def Collective.result (c : Collective) (rank : Nat) : List Sector :=
  match c.kind with
  | 0 => c.acc
  | 1 => c.got.flatMap (fun x => x.2)
  | 2 => (c.acc.drop (rank * c.n0)).take c.n0
  | _ => lookD c.got c.root []

/-- A collective commits (R405): every member's job of this package goes on with its staged result. -/
def State.commitCollective (s : State) (key : Nat) (c : Collective) : State :=
  { s with colls := del s.colls key, jobs := s.jobs.map (fun (x : Nat × Job) =>
      match x.2.coll with
      | some (k, rank) =>
        if k = key && x.2.outcome.isNone then
          (x.1, { x.2 with outcome := some (0, 0, c.mask), staged := c.result rank, state := .running })
        else x
      | none => x) }

/-- COLLECTIVE_ACK (R405): rank `sub` of collective `unit` has staged the result; the last acknowledgement before the
timer ends commits. -/
def execCollectiveAck (s : State) : Out :=
  let key := s.focus.unit
  let rank := s.focus.sub
  match look s.colls key with
  | none => .next s
  | some c =>
    if c.ended.isSome || !c.sent || c.late s.now || decide (c.members ≤ rank) || c.acked.contains rank then .next s
    else
      let c := { c with acked := rank :: c.acked }
      if c.acked.length = c.members then .next (s.commitCollective key c)
      else
        let s' : State := { s with colls := put s.colls key c }
        .next s'

/-! ## Devices (R24, R323, R368, R407) -/

/-- The requester number of a device. -/
def deviceRequester (n : Nat) : Nat := 1000 + n % 1000

/-- The runs of bytes of an access, each inside one sector: DPA, offset in the access and length. -/
def deviceRuns (dpa n : Nat) : List (Nat × Nat × Nat) :=
  (List.range ((dpa % 256 + n + 255) / 256)).map (fun i =>
    let lo := Nat.max dpa (dpa / 256 * 256 + 256 * i)
    let hi := Nat.min (dpa + n) (dpa / 256 * 256 + 256 * (i + 1))
    (lo, lo - dpa, hi - lo))

/-- Where a device's access lands: HBM data or a CXL window that is not a domain window (R407). -/
def State.deviceLoc (s : State) (dpa : Nat) : Option Loc :=
  let domain := decide (cxlBase ≤ dpa) && decide (dpa < cxlEnd) &&
    (match lookD s.windows ((dpa - cxlBase) / 2 ^ 38) .unused with
      | .domain _ _ => true
      | _ => false)
  if domain then none else s.sysLoc dpa

/-- What a device meets at a sector (R407). -/
def deviceReply (t : BitVec 24) : Option Reply :=
  match tagCls t with
  | 5 => some .poisoned
  | 3 | 4 | 7 => some .abort
  | _ => none

/-- The bytes of some runs, or what ends the read. -/
def State.deviceBytes (s : State) : List (Option Nat × Nat × Nat) → State × Except Reply (List Byte)
  | [] => (s, .ok [])
  | (a, _, n) :: rs =>
    match a.bind (fun d => (s.deviceLoc d).map (fun l => (d, l))) with
    | none => (s, .error .accessFault)
    | some (d, l) =>
      let s := s.settle l d
      match deviceReply (s.tagAt l.key) with
      | some r => (s, .error r)
      | none =>
        let bs := bytesOfNat (s.readRaw l n) n
        match s.deviceBytes rs with
        | (s, .ok xs) => (s, .ok (bs ++ xs))
        | (s, .error r) => (s, .error r)

/-- An access to the scheduler's registers and doorbells, which devices reach through the IOMMU (R323, R327). -/
def State.deviceMmio (s : State) (k : HostAccess) : State × Reply :=
  if isDoorbell (hostDpa k) then s.doorbellAccess k
  else if hostOk k && isRegister (hostDpa k) then s.registerAccess k
  else (s, .accessFault)

/-- The IOMMU's translation of a device's address for a read or a write (R407): the mapping of the 4 KiB page in the device
context of device `unit` modulo 1,000, or in its process context p where `unit` / 1,000 is p + 1, with the permissions that it
gives (the numbering is a DESIGN CHOICE, log 27). What the RISC-V specification puts into the contexts and their page tables is
the operating system's act. -/
def State.ioAddr (s : State) (unit va : Nat) (write : Bool) : Option Nat :=
  match look s.iommu (unit * 2 ^ 52 + va / 4096) with
  | some p => if if write then p.write else p.read then some (p.page * 4096 + va % 4096) else none
  | none => none

/-- The runs of an access with the DPA to which each is translated, none where the IOMMU has no mapping. -/
def State.ioRuns (s : State) (unit va n : Nat) (write : Bool) : List (Option Nat × Nat × Nat) :=
  (deviceRuns va n).map (fun r => (s.ioAddr unit r.1 write, r.2))

/-- An IOMMU fault reported with the device's address (R407). -/
def State.ioFault (s : State) (va : Nat) : State := { s with iommuFaults := s.iommuFaults ++ [va] }

/-- DEVICE_READ (R407): device `unit` reads `sub` bytes, at most 4,096, at its address in the focus's value. -/
def execDeviceRead (s : State) : Out :=
  let va := s.focus.val.toNat
  let n := Nat.min s.focus.sub 4096
  let who := deviceRequester s.focus.unit
  match s.ioAddr s.focus.unit va false with
  | none => .next ((s.ioFault va).answer who .accessFault)
  | some dpa =>
    if cxlEnd ≤ dpa then
      let (s, r) := s.deviceMmio (.load dpa n)
      .next (s.answer who r)
    else
      match s.deviceBytes (s.ioRuns s.focus.unit va n false) with
      | (s, .ok xs) => .next (s.answer who (.bytes xs))
      | (s, .error r) => .next (s.answer who r)

/-- One run of a device's write: dropped and reported where the sector does not take it (R407). -/
def State.deviceRun (s : State) (va data : Nat) (r : Option Nat × Nat × Nat) : State :=
  match r.1.bind (fun a => (s.deviceLoc a).map (fun l => (a, l))) with
  | none => s.ioFault (va + r.2.1)
  | some (a, l) =>
    let s := s.settle l a
    match deviceReply (s.tagAt l.key) with
    | some _ => s.ioFault (va + r.2.1)
    | none => s.guardDescs (s.storeRaw a l r.2.2 (data / 2 ^ (8 * r.2.1) % 2 ^ (8 * r.2.2))) a

/-- DEVICE_WRITE (R39, R407): device `unit` writes the first `sub` bytes, at most 4,096, of the focus's data at its address
in the value. -/
def execDeviceWrite (s : State) : Out :=
  let va := s.focus.val.toNat
  let n := Nat.min s.focus.sub (Nat.min 4096 (256 * s.focus.data.length))
  let data := s.focus.data.foldr (fun x acc => x.data.toNat + 2 ^ 2048 * acc) 0
  match s.ioAddr s.focus.unit va true with
  | none => .next (s.ioFault va)
  | some dpa =>
    if cxlEnd ≤ dpa then
      let (s, r) := s.deviceMmio (.store dpa n (BitVec.ofNat 64 data))
      .next (if r = .accessFault then s.ioFault va else s)
    else .next ((s.ioRuns s.focus.unit va n true).foldl (fun s r => s.deviceRun va data r) s)

/-- CXL_BACK_INVALIDATION (R291, R406): a peer takes the 256 bytes of a CXL window at the focus's value: the LLC's clean copy
of them is invalidated, and the focus's sector, where it has one, is what the peer writes there. -/
def execCxlBackInvalidation (s : State) : Out :=
  match s.dpaLoc none 0 s.focus.val.toNat with
  | .ok l =>
    if !isCxlKey l.key then .next s
    else
      let s := match s.focus.data with
        | x :: _ => s.writeSector { key := l.key / 256 * 256, xf := .plain } x
        | [] => s
      .next { s with llc := del s.llc (l.key / 256) }
  | .error _ => .next s

end Sys2Proof.Machine
end

