-- ==== Sys2Proof/Machine/Bringup.lean ====
section
/-! DEFINITION. Quiesce gates, measured release, keys, SPDM answers, watch units, and power (spec/02_machine.md R28;
spec/17_context.md R320; spec/30_bringup.md R425 to R432). -/

namespace Sys2Proof.Machine

/-! ## Quiesce gates (R28) -/

/-- The drain of a virtual die is complete (R320): no hart is left there on its slot and no tile there is owned. -/
def State.dieDrained (s : State) (v : Nat) : Bool :=
  !(s.hartsOn v).any (fun x => x.2.onSlot)
    && (List.range 16).all (fun p => (s.core (16 * v + p)).tileOwner.isEmpty)

/-- A context has a hart saved whole-context on a virtual die. -/
def State.savedOnDie (s : State) (ctx v : Nat) : Bool := (List.range 16).any (fun p => s.savedOn ctx (16 * v + p))

/-- A core left behind by a move of its die (R320): its owner's slices, rings and queues are written out where the owner
has a hart saved whole-context anywhere on the die, and the core of the new die holds nothing. -/
def State.leaveCore (s : State) (core : Nat) : State :=
  let s := match (s.core core).owner with
    | some o => if s.savedOnDie o (core / 16) then s.writeImage o core else s
    | none => s
  let lost := (s.core core).lost
  (s.zeroCore core).modCore core (fun _ => { Core.reset with lost := lost })

/-- The die map changed (R18, R320). -/
def State.remap (s : State) (v : Nat) (d : Option Nat) : State :=
  let s := (List.range 16).foldl (fun s p => s.leaveCore (16 * v + p)) s
  ({ s with dieMap := s.dieMap.set v d } : State).lapse (.drain v)

/-- Every working compute die has a virtual die (R18). -/
def allMapped (m : List (Option Nat)) : Bool := (List.range 8).all (fun d => m.contains (some d) || !Config.dieWorks d)

/-- The die map stays one-to-one, and leaves a virtual die out of service only where no working die is left for it (R18,
R426). -/
def State.mapFree (s : State) (v : Nat) (d : Option Nat) : Bool :=
  match d with
  | none => allMapped (s.dieMap.set v none)
  | some p => s.dieMap.zipIdx.all (fun x => x.2 == v || x.1 != some p)

/-- An engine command of a hart has begun its accesses and not completed. -/
def Hart.begun (h : Hart) : Bool :=
  [Eng.ld, .xv, .mx, .st].any (fun e => (h.queue e).any (fun c => c.issued && c.done.isNone && c.accesses e))

/-- A job has written some of its sectors and not all, or has read what it has still to write. -/
def Job.begun (j : Job) : Bool :=
  !j.ahead.isEmpty || (decide (0 < j.done) && decide (j.done < j.total)) || j.state == .collecting
    || (!j.staged.isEmpty && decide (j.done < j.total))

/-- A job half done on a virtual die: it runs on a core there, or in the scratchpad of one. -/
def Job.spansDie (j : Job) (v : Nat) : Bool :=
  j.begun && (j.core / 16 == v
    || (j.rd ++ j.wr).any (fun k => decide (spadKey (16 * v) 0 / 256 ≤ k) && decide (k < spadKey (16 * v + 16) 0 / 256)))

/-- An operation at work touches one of some DPAs: an access in flight, a command or a job that stands between two of its
sectors, or a pass of a page. -/
def State.busyAt (s : State) (touch : Nat → Bool) : Bool :=
  s.harts.any (fun x => x.2.begun || x.2.stores.any (fun y => touch y.dpa)
      || x.2.loads.any (fun y => y.data.isNone && y.dpas.any touch))
    || s.jobs.any (fun x => x.2.begun && (x.2.rd ++ x.2.wr).any (fun k => touch (256 * k)))
    || [0, 1].any (fun hub => (s.hubPass hub).any (fun p => touch (p.page * 65536)))

/-- A DPA of a page under a key index. -/
def State.underKey (s : State) (i dpa : Nat) : Bool := isHbm dpa && pitKey (s.pitEntry (dpa / 65536)) == i

/-- A frame lies in a window. -/
def frameIn (n f : Nat) : Bool := bitOf f 39 && (bits f 35 0 * 65536 - cxlBase) / 2 ^ 38 == n

/-- A DPA of a window, or of a page with a frame there. -/
def State.inWindow (s : State) (n dpa : Nat) : Bool :=
  if isHbm dpa then
    let e := s.pitEntry (dpa / 65536)
    frameIn n (pitFrame e) || frameIn n (pitNframe e)
  else decide (cxlBase + n * 2 ^ 38 ≤ dpa) && decide (dpa < cxlBase + (n + 1) * 2 ^ 38)

/-- A gate's units are quiesced: no operation that the change concerns stands partly done (R28). -/
def State.quiesced (s : State) (g : Gate) : Bool :=
  match g with
  | .dieMap v d => s.dieDrained v && s.mapFree v d && !s.jobs.any (fun x => x.2.spansDie v)
  | .hmask n _ => (s.stack n).packets.isEmpty
  | .rates n _ hi =>
    let l := s.link n
    decide (l.rate.toNat ≤ hi.toNat) || !(l.is .active || l.is .hold)
  | .linkRestart n => (s.link n).is .failed
  | .rekey i => !s.busyAt (s.underKey i)
  | .bootKeys => s.dieUp 2 && !s.busyAt isHbm
  | .watch c _ _ => !s.harts.any (fun x => x.2.onSlot && x.2.cores.contains c && x.2.begun)
  | .window n _ => !s.busyAt (s.inWindow n)

/-- A new key for each of the 64 indices (R428). -/
def newKeys (gen : Map Nat) : Map Nat :=
  (List.range 64).foldl (fun m i => put m i (lookD m i 0 + 1)) gen

/-- A change takes effect. -/
def State.applyGate (s : State) (g : Gate) : State :=
  match g with
  | .dieMap v d => s.remap v d
  | .hmask n ms => s.setStack n { s.stack n with hmask := ms }
  | .rates n lo hi => s.setLink n { s.link n with minRate := lo, maxRate := hi }
  | .rekey i =>
    let gen := put s.trust.keyGen i (lookD s.trust.keyGen i 0 + 1)
    { s with trust := { s.trust with keyGen := gen } }
  | .bootKeys => { s with trust := { s.trust with keysLoaded := true, keyGen := newKeys s.trust.keyGen } }
  | .watch c u cfg => { s with watches := put s.watches (2 * c + u) cfg }
  | .window n cfg => { s with windows := put s.windows n cfg }
  | .linkRestart n => s.setLink n ((s.link n).enter .training s.now)

/-- QUIESCE_GATE_ACK (R28, R320, R380, R398, R399, R428): the gate at position `unit` of those pending is acknowledged once
every unit that it concerns is quiesced, and its change takes effect whole. -/
def execQuiesceGateAck (s : State) : Out :=
  match s.gates[s.focus.unit]? with
  | none => .next s
  | some g =>
    if s.quiesced g then
      let s' : State := { s with gates := s.gates.eraseIdx s.focus.unit }
      .next ((s'.applyGate g).answer managementPlane .accepted)
    else .next s

/-- WATCH_SET (R28, R432): watch unit `sub` of core `unit` is to be set. -/
def execWatchSet (cfg : WatchCfg) (s : State) : Out :=
  .next (if decide (s.focus.unit < 128) && decide (s.focus.sub < 2) then s.askGate (.watch s.focus.unit s.focus.sub cfg)
    else s.refuse)

/-- REKEY_REQUEST (R28, R428): a new key for index `unit` is requested. -/
def execRekeyRequest (s : State) : Out :=
  .next (if s.focus.unit < 64 then s.askGate (.rekey s.focus.unit) else s.refuse)

/-! ## Measured release (R425, R426, R428, R429) -/

/-- No two list entries are equal. -/
def distinctNat : List Nat → Bool
  | [] => true
  | x :: xs => !xs.contains x && distinctNat xs

/-- Every value of the configuration record is in its range (R426). The record bounds the rates of the 18 Axdom links at least:
the spec does not count the die links (DESIGN CHOICE, log 29). -/
def recordOk (r : BootRecord) : Bool :=
  let phys := r.dieMap.filterMap id
  decide (r.pkg < 64) && decide (r.dieMap.length = 8) && phys.all (fun d => decide (d < 8)) && distinctNat phys
    && (!r.dieMap.contains none || allMapped r.dieMap)
    && decide (r.hmasks.length = 12) && r.hmasks.all masksOk
    && decide (r.scrubHours.length = 12) && r.scrubHours.all (fun h => decide (1 ≤ h) && decide (h ≤ 168))
    && decide (r.cxlSplit.length = 2) && r.cxlSplit.all (fun b => decide (b ≤ 1))
    && decide (r.rootSplit.length = 4) && r.rootSplit.all (fun b => decide (b ≤ 2))
    && decide (18 ≤ r.linkRates.length) && r.linkRates.all (fun x => decide (x.1 ≤ x.2) && decide (x.2 ≤ 2))
    && decide (1000 ≤ r.powerLimit) && decide (r.powerLimit ≤ 3600)

/-- The record's values taken over: die map, stacks, links and power (R426). -/
def State.configure (s : State) (r : BootRecord) : State :=
  let s := { s with pkg := r.pkg, dieMap := r.dieMap, powerLimit := r.powerLimit }
  let s := (r.hmasks.zip r.scrubHours).zipIdx.foldl (fun (s : State) x =>
    s.setStack x.2 { s.stack x.2 with hmask := x.1.1, scrubHours := x.1.2 }) s
  r.linkRates.zipIdx.foldl (fun (s : State) x =>
    s.setLink x.2 { s.link x.2 with minRate := BitVec.ofNat 2 x.1.1, maxRate := BitVec.ofNat 2 x.1.2 }) s

/-- A die map entry as a number, 8 for none. -/
def mapCode (d : Option Nat) : Nat := d.getD 8

/-- The section of the configuration record for die k of the release order (R425, R426; which values make a die's section is a
DESIGN CHOICE, log 29): identity, ports, links, power and boot address for SY, masks and scrub period for a base die, the
virtual die for a compute die. -/
def recordSection (r : BootRecord) (k : Nat) : List Nat :=
  if k = 0 then
    [r.pkg, r.domain] ++ r.cxlSplit ++ r.rootSplit ++ r.linkRates.flatMap (fun x => [x.1, x.2])
      ++ [r.powerLimit, r.bootAddr.toNat]
  else if 3 ≤ k && k < 15 then (r.hmasks.getD (k - 3) []).map BitVec.toNat ++ [r.scrubHours.getD (k - 3) 0]
  else if 15 ≤ k then [(r.dieMap.findIdx? (fun x => x == some (k - 15))).getD 8]
  else []

/-- The whole record. -/
def wholeRecord (r : BootRecord) : List Nat :=
  recordSection r 0 ++ r.dieMap.map mapCode ++ (List.range 12).flatMap (fun i => recordSection r (3 + i))

/-- TD reports a failure, over SPDM and on the board's fault pin (R425). -/
def Trust.failed (t : Trust) : Trust := { t with failure := true, faultPin := true }

/-- TD_BOOT (R425, R426, R428): the record and the images are verified and the record's values checked; the record's
measurement is recorded under index 1, and the keys are to be loaded into both hubs through a gate. -/
def execTdBoot (r : BootRecord) (signed : Bool) (s : State) : Out :=
  if s.trust.record.isSome || s.trust.failure then .next s
  else if !signed || !recordOk r then
    let s' : State := { s with trust := s.trust.failed }
    .next s'
  else
    let t : Trust := { s.trust with
      record := some r, verified := true, measured := put s.trust.measured 1 (Config.measurement 1 (wholeRecord r)) }
    let s' : State := { s with trust := t, gates := s.gates ++ [.bootKeys] }
    .next (s'.configure r)

/-- 100 ms in core-clock periods. -/
def readyLimit : Nat := cyclesOf 100000000

/-- Die k of the release order, SY first, is a stack's base die: firmware zeroes the stack's share of the PIT (R366). -/
def State.zeroPitOf (s : State) (k : Nat) : State :=
  if 3 ≤ k && k < 15 then { s with pit := s.pit.filter (fun x => x.1 % 12 != k - 3) } else s

/-- Application hart 0 at the boot address in machine mode; the others wait for an IMSIC interrupt (R429). -/
def State.startApps (s : State) (boot : Dword) : State :=
  { s with ahosts := [(0, { AppHart.reset with pc := boot, waiting := false })],
           trust := { s.trust with appStart := some boot } }

/-- DIE_RELEASE (R425, R428, R429): once the die released before it has reported its ready state, the next die is measured and
released, a base die only after the keys are in both hubs; application hart 0 starts with the last. With every die released,
the last one reports. -/
def execDieRelease (s : State) : Out :=
  let t := s.trust
  let k := t.released
  let inTime := k = 0 || s.now - t.releasedAt < readyLimit
  if !t.verified || t.failure || !inTime || (3 ≤ k && !t.keysLoaded) then .next s
  else if k < 23 then
    let own := match t.record with
      | some r => recordSection r k
      | none => []
    let u : Trust := { t with
      measured := put t.measured (k + 2) (Config.measurement (k + 2) own), released := k + 1, ready := false,
      releasedAt := s.now }
    let s' : State := { s with trust := u }
    .next (match t.record with
      | some r => if k = 22 then (s'.zeroPitOf k).startApps r.bootAddr else s'.zeroPitOf k
      | none => s'.zeroPitOf k)
  else
    let s' : State := { s with trust := { t with ready := true } }
    .next s'

/-- DIE_READY_TIMEOUT (R425): the released dies stay up and no further die is released. -/
def execDieReadyTimeout (s : State) : Out :=
  let t := s.trust
  if t.verified && decide (0 < t.released) && !t.ready && decide (readyLimit ≤ s.now - t.releasedAt) then
    let s' : State := { s with trust := t.failed }
    .next s'
  else .next s

/-! ## SPDM (R427) -/

/-- The answer of the responder to a request that comes over the management bus, or for `unit` 1 over DOE on root port 0: the
version, the failure that TD has to report (R425), and bytes that the manual does not fix. -/
def State.spdmBase (s : State) (q : SpdmReq) : SpdmAnswer :=
  { req := q, via := if s.focus.unit = 1 then .doe else .managementBus, version := 0x13, algorithms := [], digests := [],
    certificate := none, failure := s.trust.failure, opaqueBytes := Config.spdmAnswer s.draws }

/-- An answer given. -/
def State.spdmGive (s : State) (a : SpdmAnswer) : Out :=
  let s' : State := { s with draws := s.draws + 1, trust := { s.trust with answers := s.trust.answers ++ [a] } }
  .next s'

/-- GET_VERSION (R427). -/
def execGetVersion (s : State) : Out := s.spdmGive (s.spdmBase .getVersion)
/-- GET_CAPABILITIES (R427). -/
def execGetCapabilities (s : State) : Out := s.spdmGive (s.spdmBase .getCapabilities)
/-- NEGOTIATE_ALGORITHMS (R427): ECDSA P-384 and SHA-384. -/
def execNegotiateAlgorithms (s : State) : Out :=
  s.spdmGive { s.spdmBase .negotiateAlgorithms with algorithms := [.ecdsaP384, .sha384] }
/-- GET_DIGESTS (R427): the digest of the certificate chain. -/
def execGetDigests (s : State) : Out := s.spdmGive { s.spdmBase .getDigests with certificate := some Config.certificate }
/-- GET_CERTIFICATE (R427). -/
def execGetCertificate (s : State) : Out := s.spdmGive (s.spdmBase .getCertificate)
/-- CHALLENGE (R427): the digest of the certificate chain, under the algorithms of the responder. -/
def execChallenge (s : State) : Out :=
  s.spdmGive { s.spdmBase .challenge with algorithms := [.ecdsaP384, .sha384], certificate := some Config.certificate }
/-- GET_MEASUREMENTS (R427): every measurement recorded, under its index. -/
def execGetMeasurements (s : State) : Out := s.spdmGive { s.spdmBase .getMeasurements with digests := s.trust.measured }
/-- KEY_EXCHANGE (R427). -/
def execKeyExchange (s : State) : Out :=
  s.spdmGive { s.spdmBase .keyExchange with algorithms := [.ecdsaP384, .sha384] }

/-! ## Power and cooling (R430) -/

/-- The permits lowered by one step: that of the arrays, and once it stands at 4/16 that of the vector lanes (R430). -/
def State.lowerPermit (s : State) : State :=
  if 4 < s.permit then { s with permit := s.permit - 1 } else { s with permitLanes := Nat.max 4 (s.permitLanes - 1) }

/-- The permits raised by one step, in the reverse order (DESIGN CHOICE, log 29). -/
def State.raisePermit (s : State) : State :=
  if s.permitLanes < 16 then { s with permitLanes := s.permitLanes + 1 }
  else { s with permit := Nat.min 16 (s.permit + 1) }

/-- POWER_TICK (R430): once in each 10 µs SY compares the package power in the focus's value, in watts, with the limit and
moves a permit by one step of 1/16. -/
def execPowerTick (s : State) : Out :=
  let w := s.focus.val.toNat
  if s.now % cyclesOf 10000 ≠ 0 || s.permitAt == some s.now then .next s
  else
    let s : State := { s with permitAt := some s.now }
    if s.powerLimit < w then .next s.lowerPermit
    else if 100 * w < 95 * s.powerLimit then .next s.raisePermit
    else .next s

/-- THERMAL_TRIP (R430): TD resets the package. What stands in memory cells is left as it is, under keys that the next boot
replaces; the tensor handles are registers, and are all invalid (R381). -/
def execThermalTrip (s : State) : Out :=
  let t : Trust := { Trust.reset with keyGen := s.trust.keyGen }
  let kept := s.mem.filter (fun c => decide (c.1 < handleBlock) || decide (handleBlock + 12 * 65536 ≤ c.1))
  let s' : State := { State.reset with
    plan := s.plan, tick := s.tick, draws := s.draws, focus := s.focus, mem := kept, sides := s.sides, seals := s.seals,
    errors := s.errors, trust := t }
  .next s'

end Sys2Proof.Machine
end

