-- ==== Sys2Proof/Machine/Time.lean ====
section
/-! DEFINITION. Traps that no instruction raises by itself: the deadlock of a hart's engines and machine checks
(spec/05_words.md R95; spec/11_sync_system.md R265). -/

namespace Sys2Proof.Machine

/-- The hart's oldest head command and its engine, by dispatch order. -/
def Hart.oldestHead (h : Hart) : Option (Eng × Command) :=
  [Eng.ld, .xv, .mx, .st, .jb].foldl (fun best e =>
    match h.queue e, best with
    | c :: _, none => some (e, c)
    | c :: _, some (f, d) => if c.order < d.order then some (e, c) else some (f, d)
    | [], _ => best) none

/-- The hart waits for nothing in flight: no access, job or landing (R95). -/
def State.idleFlight (s : State) (hid : Nat) (h : Hart) : Bool :=
  h.loads.isEmpty && h.stores.isEmpty && h.reissue.isEmpty && !s.jobs.any (fun x => x.2.hart == some hid)
    && (match h.wait with
      | .fence _ _ => false
      | _ => true)

/-- Every engine of a hart stops before its head command (R95): it issues again after the trap. -/
def Hart.unissue (h : Hart) : Hart :=
  [Eng.ld, .xv, .mx, .st, .jb].foldl (fun g e =>
    match g.queue e with
    | c :: _ => if c.done.isNone then g.setHead e { c with issued := false } else g
    | [] => g) h

/-- ENGINE_DEADLOCK (R95): 2^20 cycles without progress are charged to the engine that holds the oldest head command, or
to the scalar pipeline. A sleeping hart takes its clusters back with the trap (R352), and the deadline of a request comes
first (R358). -/
def execEngineDeadlock (s : State) : Out :=
  withHart s (fun hid h =>
    if s.stopped h || !s.mayTrap hid h || !s.idleFlight hid h || s.now - h.lastProgress < 2 ^ 20 then .next s
    else
      let t := s.modHart hid Hart.unissue
      match h.oldestHead with
      | some (e, c) => .next (t.takeTrap hid (engineInfo e c .engineDeadlock 0 none 0 false))
      | none => .next (t.takeTrap hid (scalarInfo h 0 .engineDeadlock 0 none)))

/-- MC_UNCORRECTABLE (R265): an uncorrectable error strikes state of the focus hart that cannot be marked POISON. A RUNNING
hart takes it, and a sleeping one that has its clusters; another receives it when it next runs, as one does whose deadline
has passed (R317, R352, R358). -/
def execMcUncorrectable (s : State) : Out :=
  withHart s (fun hid h =>
    if !s.stopped h && s.mayTrap hid h then .next (s.mcTake hid h)
    else .next (s.modHart hid (fun g => { g with mcPending := true })))

end Sys2Proof.Machine
end

