-- ==== Sys2Proof/Machine/Dispatch.lean ====
section
/-! DEFINITION. The dispatch of an instruction or step to its meaning, one arm per constructor. -/

namespace Sys2Proof.Machine

open Sys2Proof

def exec (i : Instr) (s : State) : Host.Outcome State Fault Refusal :=
  match i with
  | .add px d a b => Sys2Proof.Machine.execAdd px d a b s
  | .sub px d a b => Sys2Proof.Machine.execSub px d a b s
  | .and px d a b => Sys2Proof.Machine.execAnd px d a b s
  | .or px d a b => Sys2Proof.Machine.execOr px d a b s
  | .xor px d a b => Sys2Proof.Machine.execXor px d a b s
  | .sll px d a b => Sys2Proof.Machine.execSll px d a b s
  | .srl px d a b => Sys2Proof.Machine.execSrl px d a b s
  | .sra px d a b => Sys2Proof.Machine.execSra px d a b s
  | .slt px d a b => Sys2Proof.Machine.execSlt px d a b s
  | .sltu px d a b => Sys2Proof.Machine.execSltu px d a b s
  | .mul px d a b => Sys2Proof.Machine.execMul px d a b s
  | .mulh px d a b => Sys2Proof.Machine.execMulh px d a b s
  | .mulhu px d a b => Sys2Proof.Machine.execMulhu px d a b s
  | .div px d a b => Sys2Proof.Machine.execDiv px d a b s
  | .divu px d a b => Sys2Proof.Machine.execDivu px d a b s
  | .rem px d a b => Sys2Proof.Machine.execRem px d a b s
  | .remu px d a b => Sys2Proof.Machine.execRemu px d a b s
  | .min px d a b => Sys2Proof.Machine.execMin px d a b s
  | .max px d a b => Sys2Proof.Machine.execMax px d a b s
  | .minu px d a b => Sys2Proof.Machine.execMinu px d a b s
  | .maxu px d a b => Sys2Proof.Machine.execMaxu px d a b s
  | .addw px d a b => Sys2Proof.Machine.execAddw px d a b s
  | .subw px d a b => Sys2Proof.Machine.execSubw px d a b s
  | .clz px d a => Sys2Proof.Machine.execClz px d a s
  | .ctz px d a => Sys2Proof.Machine.execCtz px d a s
  | .popc px d a => Sys2Proof.Machine.execPopc px d a s
  | .sext px d a w => Sys2Proof.Machine.execSext px d a w s
  | .zext px d a w => Sys2Proof.Machine.execZext px d a w s
  | .bfx px d a b x => Sys2Proof.Machine.execBfx px d a b x s
  | .cmov px d a b => Sys2Proof.Machine.execCmov px d a b s
  | .addi px d a im => Sys2Proof.Machine.execAddi px d a im s
  | .andi px d a im => Sys2Proof.Machine.execAndi px d a im s
  | .ori px d a im => Sys2Proof.Machine.execOri px d a im s
  | .xori px d a im => Sys2Proof.Machine.execXori px d a im s
  | .slli px d a h => Sys2Proof.Machine.execSlli px d a h s
  | .srli px d a h => Sys2Proof.Machine.execSrli px d a h s
  | .srai px d a h => Sys2Proof.Machine.execSrai px d a h s
  | .slti px d a im => Sys2Proof.Machine.execSlti px d a im s
  | .sltiu px d a im => Sys2Proof.Machine.execSltiu px d a im s
  | .lui px d u => Sys2Proof.Machine.execLui px d u s
  | .auipc px d u => Sys2Proof.Machine.execAuipc px d u s
  | .fadd32 px d a b sf m => Sys2Proof.Machine.execFadd32 px d a b sf m s
  | .fsub32 px d a b sf m => Sys2Proof.Machine.execFsub32 px d a b sf m s
  | .fmul32 px d a b sf m => Sys2Proof.Machine.execFmul32 px d a b sf m s
  | .fma32 px d a b sf m => Sys2Proof.Machine.execFma32 px d a b sf m s
  | .fdiv32 px d a b sf m => Sys2Proof.Machine.execFdiv32 px d a b sf m s
  | .fsqrt32 px d a sf m => Sys2Proof.Machine.execFsqrt32 px d a sf m s
  | .fmin32 px d a b => Sys2Proof.Machine.execFmin32 px d a b s
  | .fmax32 px d a b => Sys2Proof.Machine.execFmax32 px d a b s
  | .fcmp32 px d a b p => Sys2Proof.Machine.execFcmp32 px d a b p s
  | .fcvtif px d a k m => Sys2Proof.Machine.execFcvtif px d a k m s
  | .fcvtfi px d a k m => Sys2Proof.Machine.execFcvtfi px d a k m s
  | .fcvtffTo px d a sf f m => Sys2Proof.Machine.execFcvtffTo px d a sf f m s
  | .fcvtffFrom px d a f m => Sys2Proof.Machine.execFcvtffFrom px d a f m s
  | .lb px d a c o => Sys2Proof.Machine.execLb px d a c o s
  | .lbu px d a c o => Sys2Proof.Machine.execLbu px d a c o s
  | .lh px d a c o => Sys2Proof.Machine.execLh px d a c o s
  | .lhu px d a c o => Sys2Proof.Machine.execLhu px d a c o s
  | .lw px d a c o => Sys2Proof.Machine.execLw px d a c o s
  | .lwu px d a c o => Sys2Proof.Machine.execLwu px d a c o s
  | .ld px d a c o => Sys2Proof.Machine.execLd px d a c o s
  | .sb px d a im => Sys2Proof.Machine.execSb px d a im s
  | .sh px d a im => Sys2Proof.Machine.execSh px d a im s
  | .sw px d a im => Sys2Proof.Machine.execSw px d a im s
  | .sd px d a im => Sys2Proof.Machine.execSd px d a im s
  | .bwait px a p => Sys2Proof.Machine.execBwait px a p s
  | .barrive px d a n => Sys2Proof.Machine.execBarrive px d a n s
  | .bararm px d a => Sys2Proof.Machine.execBararm px d a s
  | .barinit px a n k => Sys2Proof.Machine.execBarinit px a n k s
  | .beq px x y im => Sys2Proof.Machine.execBeq px x y im s
  | .bne px x y im => Sys2Proof.Machine.execBne px x y im s
  | .blt px x y im => Sys2Proof.Machine.execBlt px x y im s
  | .bge px x y im => Sys2Proof.Machine.execBge px x y im s
  | .bltu px x y im => Sys2Proof.Machine.execBltu px x y im s
  | .bgeu px x y im => Sys2Proof.Machine.execBgeu px x y im s
  | .jal px d j => Sys2Proof.Machine.execJal px d j s
  | .jalr px d a im => Sys2Proof.Machine.execJalr px d a im s
  | .csrrw px d a c => Sys2Proof.Machine.execCsrrw px d a c s
  | .csrrs px d a c => Sys2Proof.Machine.execCsrrs px d a c s
  | .csrrc px d a c => Sys2Proof.Machine.execCsrrc px d a c s
  | .prtabaWrite px op d a => Sys2Proof.Machine.execPrtabaWrite px op d a s
  | .dmaskAccess px op d a => Sys2Proof.Machine.execDmaskAccess px op d a s
  | .xstatSrseedAccess px op d a c => Sys2Proof.Machine.execXstatSrseedAccess px op d a c s
  | .tapeCsrAccess px op d a c => Sys2Proof.Machine.execTapeCsrAccess px op d a c s
  | .vlset px d a w => Sys2Proof.Machine.execVlset px d a w s
  | .scopewr px d a n e => Sys2Proof.Machine.execScopewr px d a n e s
  | .scopeinv px d n e => Sys2Proof.Machine.execScopeinv px d n e s
  | .recordOff px => Sys2Proof.Machine.execRecordOff px s
  | .recordOn px => Sys2Proof.Machine.execRecordOn px s
  | .recordMark px => Sys2Proof.Machine.execRecordMark px s
  | .reverse px a => Sys2Proof.Machine.execReverse px a s
  | .ecall px n => Sys2Proof.Machine.execEcall px n s
  | .ebreak px => Sys2Proof.Machine.execEbreak px s
  | .trapret px => Sys2Proof.Machine.execTrapret px s
  | .wfe px => Sys2Proof.Machine.execWfe px s
  | .fences px k => Sys2Proof.Machine.execFences px k s
  | .lsync px => Sys2Proof.Machine.execLsync px s
  | .drainSpad px => Sys2Proof.Machine.execDrainSpad px s
  | .drainDev px => Sys2Proof.Machine.execDrainDev px s
  | .drainDom px => Sys2Proof.Machine.execDrainDom px s
  | .nodeb px => Sys2Proof.Machine.execNodeb px s
  | .yield px => Sys2Proof.Machine.execYield px s
  | .texit px => Sys2Proof.Machine.execTexit px s
  | .cursor px d => Sys2Proof.Machine.execCursor px d s
  | .pstep px d => Sys2Proof.Machine.execPstep px d s
  | .frd px d a im => Sys2Proof.Machine.execFrd px d a im s
  | .fwr px d a im => Sys2Proof.Machine.execFwr px d a im s
  | .tmld px a c f n => Sys2Proof.Machine.execTmld px a c f n s
  | .tmpli c n w0 w1 w2 w3 => Sys2Proof.Machine.execTmpli c n w0 w1 w2 w3 s
  | .amoadd px d a w o k => Sys2Proof.Machine.execAmoadd px d a w o k s
  | .amoand px d a w o k => Sys2Proof.Machine.execAmoand px d a w o k s
  | .amoor px d a w o k => Sys2Proof.Machine.execAmoor px d a w o k s
  | .amoxor px d a w o k => Sys2Proof.Machine.execAmoxor px d a w o k s
  | .amomin px d a w o k => Sys2Proof.Machine.execAmomin px d a w o k s
  | .amomax px d a w o k => Sys2Proof.Machine.execAmomax px d a w o k s
  | .amominu px d a w o k => Sys2Proof.Machine.execAmominu px d a w o k s
  | .amomaxu px d a w o k => Sys2Proof.Machine.execAmomaxu px d a w o k s
  | .amoswap px d a w o k => Sys2Proof.Machine.execAmoswap px d a w o k s
  | .amocas px d a w o k => Sys2Proof.Machine.execAmocas px d a w o k s
  | .ldaq px d a w k => Sys2Proof.Machine.execLdaq px d a w k s
  | .strl px d a w k => Sys2Proof.Machine.execStrl px d a w k s
  | .amofadd px d a o k => Sys2Proof.Machine.execAmofadd px d a o k s
  | .dmsetc px a z => Sys2Proof.Machine.execDmsetc px a z s
  | .dred px d a o => Sys2Proof.Machine.execDred px d a o s
  | .dbcast px d a r => Sys2Proof.Machine.execDbcast px d a r s
  | .commandFormation px e tix tok fsel val => Sys2Proof.Machine.execCommandFormation px e tix tok fsel val s
  | .pageAbsentReply a => Sys2Proof.Machine.execPageAbsentReply a s
  | .ald t => Sys2Proof.Machine.execAld t s
  | .alds t => Sys2Proof.Machine.execAlds t s
  | .ald2 t => Sys2Proof.Machine.execAld2 t s
  | .agath t => Sys2Proof.Machine.execAgath t s
  | .aldt t => Sys2Proof.Machine.execAldt t s
  | .aring t => Sys2Proof.Machine.execAring t s
  | .aspx t => Sys2Proof.Machine.execAspx t s
  | .aqcfg t => Sys2Proof.Machine.execAqcfg t s
  | .apref t => Sys2Proof.Machine.execApref t s
  | .sst t => Sys2Proof.Machine.execSst t s
  | .ssts t => Sys2Proof.Machine.execSsts t s
  | .sst2 t => Sys2Proof.Machine.execSst2 t s
  | .sscat t => Sys2Proof.Machine.execSscat t s
  | .sacc t => Sys2Proof.Machine.execSacc t s
  | .sspx t => Sys2Proof.Machine.execSspx t s
  | .stag t => Sys2Proof.Machine.execStag t s
  | .feset t => Sys2Proof.Machine.execFeset t s
  | .vadd t => Sys2Proof.Machine.execVadd t s
  | .vsub t => Sys2Proof.Machine.execVsub t s
  | .vmul t => Sys2Proof.Machine.execVmul t s
  | .vfma t => Sys2Proof.Machine.execVfma t s
  | .vfms t => Sys2Proof.Machine.execVfms t s
  | .vmin t => Sys2Proof.Machine.execVmin t s
  | .vmax t => Sys2Proof.Machine.execVmax t s
  | .vabs t => Sys2Proof.Machine.execVabs t s
  | .vneg t => Sys2Proof.Machine.execVneg t s
  | .vdiv t => Sys2Proof.Machine.execVdiv t s
  | .vsqrt t => Sys2Proof.Machine.execVsqrt t s
  | .vrsq t => Sys2Proof.Machine.execVrsq t s
  | .vexp t => Sys2Proof.Machine.execVexp t s
  | .vlog t => Sys2Proof.Machine.execVlog t s
  | .vtanh t => Sys2Proof.Machine.execVtanh t s
  | .vsigm t => Sys2Proof.Machine.execVsigm t s
  | .vand t => Sys2Proof.Machine.execVand t s
  | .vor t => Sys2Proof.Machine.execVor t s
  | .vxor t => Sys2Proof.Machine.execVxor t s
  | .vnot t => Sys2Proof.Machine.execVnot t s
  | .vshl t => Sys2Proof.Machine.execVshl t s
  | .vshr t => Sys2Proof.Machine.execVshr t s
  | .vshrr t => Sys2Proof.Machine.execVshrr t s
  | .vdot2 t => Sys2Proof.Machine.execVdot2 t s
  | .vdot4 t => Sys2Proof.Machine.execVdot4 t s
  | .vsadd t => Sys2Proof.Machine.execVsadd t s
  | .vssub t => Sys2Proof.Machine.execVssub t s
  | .vmulh t => Sys2Proof.Machine.execVmulh t s
  | .vcmp t => Sys2Proof.Machine.execVcmp t s
  | .vsel t => Sys2Proof.Machine.execVsel t s
  | .vclass t => Sys2Proof.Machine.execVclass t s
  | .vslide t => Sys2Proof.Machine.execVslide t s
  | .vperm t => Sys2Proof.Machine.execVperm t s
  | .vzip t => Sys2Proof.Machine.execVzip t s
  | .vunzip t => Sys2Proof.Machine.execVunzip t s
  | .vbcast t => Sys2Proof.Machine.execVbcast t s
  | .vextr t => Sys2Proof.Machine.execVextr t s
  | .vredsum t => Sys2Proof.Machine.execVredsum t s
  | .vredsumo t => Sys2Proof.Machine.execVredsumo t s
  | .vredmax t => Sys2Proof.Machine.execVredmax t s
  | .vredmin t => Sys2Proof.Machine.execVredmin t s
  | .vcvt t => Sys2Proof.Machine.execVcvt t s
  | .vqnt t => Sys2Proof.Machine.execVqnt t s
  | .vtagr t => Sys2Proof.Machine.execVtagr t s
  | .vtagw t => Sys2Proof.Machine.execVtagw t s
  | .vsexp t => Sys2Proof.Machine.execVsexp t s
  | .vpop t => Sys2Proof.Machine.execVpop t s
  | .vpush t => Sys2Proof.Machine.execVpush t s
  | .vldr t => Sys2Proof.Machine.execVldr t s
  | .vstr t => Sys2Proof.Machine.execVstr t s
  | .kand t => Sys2Proof.Machine.execKand t s
  | .kor t => Sys2Proof.Machine.execKor t s
  | .knot t => Sys2Proof.Machine.execKnot t s
  | .kpopc t => Sys2Proof.Machine.execKpopc t s
  | .kfirst t => Sys2Proof.Machine.execKfirst t s
  | .vrda t => Sys2Proof.Machine.execVrda t s
  | .vwra t => Sys2Proof.Machine.execVwra t s
  | .vmov t => Sys2Proof.Machine.execVmov t s
  | .vid t => Sys2Proof.Machine.execVid t s
  | .vseti t => Sys2Proof.Machine.execVseti t s
  | .mlease t => Sys2Proof.Machine.execMlease t s
  | .mrelease t => Sys2Proof.Machine.execMrelease t s
  | .ringcfg t => Sys2Proof.Machine.execRingcfg t s
  | .ringput t => Sys2Proof.Machine.execRingput t s
  | .ringpop t => Sys2Proof.Machine.execRingpop t s
  | .ringqry t => Sys2Proof.Machine.execRingqry t s
  | .tmma t => Sys2Proof.Machine.execTmma t s
  | .tmmap t => Sys2Proof.Machine.execTmmap t s
  | .tzero t => Sys2Proof.Machine.execTzero t s
  | .tadd t => Sys2Proof.Machine.execTadd t s
  | .tsub t => Sys2Proof.Machine.execTsub t s
  | .tmul t => Sys2Proof.Machine.execTmul t s
  | .tscl t => Sys2Proof.Machine.execTscl t s
  | .tbias t => Sys2Proof.Machine.execTbias t s
  | .tact t => Sys2Proof.Machine.execTact t s
  | .trsum t => Sys2Proof.Machine.execTrsum t s
  | .tcsum t => Sys2Proof.Machine.execTcsum t s
  | .trmax t => Sys2Proof.Machine.execTrmax t s
  | .ttrans t => Sys2Proof.Machine.execTtrans t s
  | .tcvt t => Sys2Proof.Machine.execTcvt t s
  | .tloada t => Sys2Proof.Machine.execTloada t s
  | .tcopy t => Sys2Proof.Machine.execTcopy t s
  | .jcopy t => Sys2Proof.Machine.execJcopy t s
  | .jfill t => Sys2Proof.Machine.execJfill t s
  | .jpref t => Sys2Proof.Machine.execJpref t s
  | .jcopy2 t => Sys2Proof.Machine.execJcopy2 t s
  | .jgath t => Sys2Proof.Machine.execJgath t s
  | .jscat t => Sys2Proof.Machine.execJscat t s
  | .jred t => Sys2Proof.Machine.execJred t s
  | .jcoll t => Sys2Proof.Machine.execJcoll t s
  | .jrecode t => Sys2Proof.Machine.execJrecode t s
  | .jtens t => Sys2Proof.Machine.execJtens t s
  | .hmaskChange masks => Sys2Proof.Machine.execHmaskChange masks s
  | .domainWindowConfig cfg => Sys2Proof.Machine.execDomainWindowConfig cfg s
  | .tdBoot r signed => Sys2Proof.Machine.execTdBoot r signed s
  | .watchSet cfg => Sys2Proof.Machine.execWatchSet cfg s
  | .registerWrite dpa v => Sys2Proof.Machine.execRegisterWrite dpa v s
  | .illegalOpcode px w => Sys2Proof.Machine.execIllegalOpcode px w s
  | .applicationHartAccess h ctx kind => Sys2Proof.Machine.execApplicationHartAccess h ctx kind s
  | .domainAccessArrival pkg ctx kind => Sys2Proof.Machine.execDomainAccessArrival pkg ctx kind s
  | .scopeChangeInstall => Sys2Proof.Machine.execScopeChangeInstall s
  | .spatulaRecord => Sys2Proof.Machine.execSpatulaRecord s
  | .wfeTimeout => Sys2Proof.Machine.execWfeTimeout s
  | .formationFaultRaise => Sys2Proof.Machine.execFormationFaultRaise s
  | .commandCompletion => Sys2Proof.Machine.execCommandCompletion s
  | .engineDeadlock => Sys2Proof.Machine.execEngineDeadlock s
  | .loadDataArrival => Sys2Proof.Machine.execLoadDataArrival s
  | .loadLanding => Sys2Proof.Machine.execLoadLanding s
  | .mcUncorrectable => Sys2Proof.Machine.execMcUncorrectable s
  | .leaseGrant => Sys2Proof.Machine.execLeaseGrant s
  | .leaseTimeout => Sys2Proof.Machine.execLeaseTimeout s
  | .leaseIdleExpiry => Sys2Proof.Machine.execLeaseIdleExpiry s
  | .tileSpill => Sys2Proof.Machine.execTileSpill s
  | .jobStart => Sys2Proof.Machine.execJobStart s
  | .jobSectorWrite => Sys2Proof.Machine.execJobSectorWrite s
  | .jobComplete => Sys2Proof.Machine.execJobComplete s
  | .jobResume => Sys2Proof.Machine.execJobResume s
  | .jobFaultRaise => Sys2Proof.Machine.execJobFaultRaise s
  | .ctxalloc => Sys2Proof.Machine.execCtxalloc s
  | .ctxfree => Sys2Proof.Machine.execCtxfree s
  | .ctxabort => Sys2Proof.Machine.execCtxabort s
  | .ctxcmdInvalid => Sys2Proof.Machine.execCtxcmdInvalid s
  | .purgeComplete => Sys2Proof.Machine.execPurgeComplete s
  | .hcmdResume => Sys2Proof.Machine.execHcmdResume s
  | .hcmdInvalid => Sys2Proof.Machine.execHcmdInvalid s
  | .qcmdEnable => Sys2Proof.Machine.execQcmdEnable s
  | .qcmdPause => Sys2Proof.Machine.execQcmdPause s
  | .qcmdResume => Sys2Proof.Machine.execQcmdResume s
  | .qcmdDrain => Sys2Proof.Machine.execQcmdDrain s
  | .qcmdDisable => Sys2Proof.Machine.execQcmdDisable s
  | .qcmdSkip => Sys2Proof.Machine.execQcmdSkip s
  | .qcmdInvalid => Sys2Proof.Machine.execQcmdInvalid s
  | .qtbaseWrite => Sys2Proof.Machine.execQtbaseWrite s
  | .doorbellWrite => Sys2Proof.Machine.execDoorbellWrite s
  | .launchAdmission => Sys2Proof.Machine.execLaunchAdmission s
  | .kernelNode => Sys2Proof.Machine.execKernelNode s
  | .jobNode => Sys2Proof.Machine.execJobNode s
  | .eventSet => Sys2Proof.Machine.execEventSet s
  | .eventWait => Sys2Proof.Machine.execEventWait s
  | .eventWaitReread => Sys2Proof.Machine.execEventWaitReread s
  | .eventMsi => Sys2Proof.Machine.execEventMsi s
  | .condNode => Sys2Proof.Machine.execCondNode s
  | .loopNode => Sys2Proof.Machine.execLoopNode s
  | .switchNode => Sys2Proof.Machine.execSwitchNode s
  | .kernelPlacement => Sys2Proof.Machine.execKernelPlacement s
  | .cursorWake => Sys2Proof.Machine.execCursorWake s
  | .preemptionDeadline => Sys2Proof.Machine.execPreemptionDeadline s
  | .hartRestore => Sys2Proof.Machine.execHartRestore s
  | .dieRemapRequest => Sys2Proof.Machine.execDieRemapRequest s
  | .quiesceGateAck => Sys2Proof.Machine.execQuiesceGateAck s
  | .pitcmdWrite => Sys2Proof.Machine.execPitcmdWrite s
  | .pitcmdMigrate => Sys2Proof.Machine.execPitcmdMigrate s
  | .pitcmdRecode => Sys2Proof.Machine.execPitcmdRecode s
  | .pitcmdInvalid => Sys2Proof.Machine.execPitcmdInvalid s
  | .passStart => Sys2Proof.Machine.execPassStart s
  | .backgroundPassStart => Sys2Proof.Machine.execBackgroundPassStart s
  | .passSectorStep => Sys2Proof.Machine.execPassSectorStep s
  | .rd => Sys2Proof.Machine.execRd s
  | .wr => Sys2Proof.Machine.execWr s
  | .wrm => Sys2Proof.Machine.execWrm s
  | .trd => Sys2Proof.Machine.execTrd s
  | .tagw => Sys2Proof.Machine.execTagw s
  | .mrr => Sys2Proof.Machine.execMrr s
  | .packetReply => Sys2Proof.Machine.execPacketReply s
  | .refresh => Sys2Proof.Machine.execRefresh s
  | .scrubStep => Sys2Proof.Machine.execScrubStep s
  | .heartbeatMissing => Sys2Proof.Machine.execHeartbeatMissing s
  | .refreshHandover => Sys2Proof.Machine.execRefreshHandover s
  | .linkTrainingStart => Sys2Proof.Machine.execLinkTrainingStart s
  | .linkTrainingComplete => Sys2Proof.Machine.execLinkTrainingComplete s
  | .linkTrainingTimeout => Sys2Proof.Machine.execLinkTrainingTimeout s
  | .linkStepUp => Sys2Proof.Machine.execLinkStepUp s
  | .linkStepDown => Sys2Proof.Machine.execLinkStepDown s
  | .linkRatePolicy => Sys2Proof.Machine.execLinkRatePolicy s
  | .flitReplay => Sys2Proof.Machine.execFlitReplay s
  | .linkRetrainComplete => Sys2Proof.Machine.execLinkRetrainComplete s
  | .linkHoldExpiry => Sys2Proof.Machine.execLinkHoldExpiry s
  | .collectiveContribution => Sys2Proof.Machine.execCollectiveContribution s
  | .collectiveTimeout => Sys2Proof.Machine.execCollectiveTimeout s
  | .collectiveAck => Sys2Proof.Machine.execCollectiveAck s
  | .deviceRead => Sys2Proof.Machine.execDeviceRead s
  | .deviceWrite => Sys2Proof.Machine.execDeviceWrite s
  | .dieRelease => Sys2Proof.Machine.execDieRelease s
  | .dieReadyTimeout => Sys2Proof.Machine.execDieReadyTimeout s
  | .rekeyRequest => Sys2Proof.Machine.execRekeyRequest s
  | .getVersion => Sys2Proof.Machine.execGetVersion s
  | .getCapabilities => Sys2Proof.Machine.execGetCapabilities s
  | .negotiateAlgorithms => Sys2Proof.Machine.execNegotiateAlgorithms s
  | .getDigests => Sys2Proof.Machine.execGetDigests s
  | .getCertificate => Sys2Proof.Machine.execGetCertificate s
  | .challenge => Sys2Proof.Machine.execChallenge s
  | .getMeasurements => Sys2Proof.Machine.execGetMeasurements s
  | .keyExchange => Sys2Proof.Machine.execKeyExchange s
  | .powerTick => Sys2Proof.Machine.execPowerTick s
  | .thermalTrip => Sys2Proof.Machine.execThermalTrip s
  | .applicationHartFence => Sys2Proof.Machine.execApplicationHartFence s
  | .accessPerformed => Sys2Proof.Machine.execAccessPerformed s
  | .cxlBackInvalidation => Sys2Proof.Machine.execCxlBackInvalidation s

end Sys2Proof.Machine
end

