-- ==== Sys2Proof/Machine/Fetch.lean ====
section
/-! DEFINITION. The fetch of an instruction's words, the choice of the act that a step performs, the acts of caches and of
the operating system, the dies that a step needs, and the period of the core clock (spec/05_words.md R78 to R80, R97;
spec/02_machine.md R17; spec/13_order_dies.md R281, R290, R291; log 2, 3, 5). -/

namespace Sys2Proof.Machine

open Sys2Proof

/-! ## Fetching -/

/-- One instruction word: the fetch needs X, and is a raw read of container bytes (R128, R340). -/
def State.fetchWord (s : State) (h : Hart) (va : Dword) : Except Stop (State × Word) := do
  let dpa ← s.issueCheck h 0 .x va 4 4
  let (s, l) ← s.homeRaw h 0 dpa va .plain
  pure (s, BitVec.ofNat 32 (s.readRaw l 4))

/-- The words at an address, fetched while the decoder asks for more of them. -/
def State.fetchFrom (s : State) (h : Hart) (ws : List Word) : Nat → Except Stop (State × Decoded)
  | 0 => .ok (s, decode ws)
  | k + 1 => do
    let (s, w) ← s.fetchWord h (h.pc + BitVec.ofNat 64 (4 * ws.length))
    match decode (ws ++ [w]) with
    | .more => s.fetchFrom h (ws ++ [w]) k
    | d => pure (s, d)

/-- The instruction at the hart's PC: at most five words (R78, R92). -/
def State.fetch (s : State) (h : Hart) : Except Stop (State × Decoded) := s.fetchFrom h [] 5

/-- The Sieve may take an instruction of the hart: it runs on cores that are not frozen (R99), has taken none
in this period (R79), is not behind a command that faulted at formation except in its handler (R88), and no load
of a restored hart is still to be executed again (R99). -/
def State.sieveMay (s : State) (h : Hart) : Bool :=
  h.state == .running && !s.stopped h && h.lastIssue != some s.now
    && (h.priv || !h.halted) && h.reissue.isEmpty

/-- What a fetch that stops does: the page-absent reply (R368), the trap at the instruction (R262), or nothing behind a link
that holds its traffic (R398). -/
def State.fetchStop (s : State) (hid : Nat) (h : Hart) (x : Stop) : Out :=
  match x with
  | .absent _ dpa w => exec (.pageAbsentReply { dpa := dpa, write := w, job := none }) s
  | .cause c row addr => .next ((s.settleStop h x).takeTrap hid (scalarInfo h 0 c row addr))
  | .held => .next s

/-- Every compute die of the hart has left reset (R17). -/
def State.hartUp (s : State) (h : Hart) : Bool := h.cores.all s.coreUp

/-- A hart whose deadline has passed does nothing more but be saved for a page-absent reply, which comes before the
deadline (R358). -/
def deferExpired (s : State) (hid : Nat) (h : Hart) (o : Out) : Out :=
  if !s.expired h then o
  else
    match o with
    | .next t =>
      match look t.harts hid with
      | some g =>
        match g.state with
        | .savedPage _ => o
        | _ => .next s
      | none => .next s
    | _ => .next s

/-- The scalar pipeline of a hart: its next instruction is fetched, decoded and executed, or its trap raised. A machine
check that the hart has received comes first (R317). -/
def scalarTurn (s : State) (hid : Nat) (defer : Bool) : Out :=
  match look s.harts hid with
  | none => .next s
  | some h =>
    if !s.hartUp h then .next s
    else if h.mcPending && h.state == .running && !s.stopped h && !s.expired h then .next (s.mcTake hid h)
    else if !s.sieveMay h then .next s
    else
      let s := { s with focus := { Focus.reset with hart := hid }, defer := defer }
      let g := { h with lastIssue := some s.now }
      let s := s.setHart hid g
      deferExpired s hid g (match s.fetch g with
        | .error x => s.fetchStop hid g x
        | .ok (s, .instr i _) => exec i s
        | .ok (s, .trap c) => .next (s.takeTrap hid (scalarInfo g 0 c 0 none))
        | .ok (s, .more) => .next s)

/-! ## Engines -/

/-- The step of an engine on its head command: the fault of its formation, its completion, or its operation. -/
def Hart.headStep (h : Hart) (e : Eng) : Option Instr :=
  if (h.lateDone e).isSome then some .commandCompletion
  else
    match h.queue e with
    | [] => none
    | c :: _ =>
      if c.fault.isSome then some .formationFaultRaise
      else if c.done.isSome then some .commandCompletion
      else decodeTemplate e c.t

/-- One turn of a hart's engine on the command at the head of its queue, whose accesses may be deferred: a streaming load then
reads ahead in a row at a unit (log 3). -/
def engineTurn (s : State) (hid : Nat) (e : Eng) (defer : Bool) (row unit : Nat) : Out :=
  match look s.harts hid with
  | none => .next s
  | some h =>
    let s := { s with focus := { Focus.reset with hart := hid, eng := e, sub := row, unit := unit }, defer := defer }
    if s.stopped h || !s.hartUp h then .next s
    else
      match h.headStep e with
      | none => .next s
      | some i => deferExpired s hid h (exec i s)

/-! ## Caches and the operating system -/

/-- The sector that a DPA names, where it can be read and holds no error. -/
def State.cleanAt (s : State) (core dpa : Nat) : Option (Loc × Sector) :=
  match s.dpaLoc none core dpa with
  | .ok l => if (look s.errors (l.key / 256)).isSome then none else some (l, s.readSector l)
  | .error _ => none

/-- A sector comes into a core's L1, out of the L2 or the LLC where one of them has it (R281). -/
def State.fillL1 (s : State) (core dpa : Nat) : State :=
  match s.cleanAt core dpa with
  | some (l, x) =>
    if (look (s.core core).l1 (dpa / 256)).isSome then s
    else
      s.modCore core (fun c => { c with l1 := put c.l1 (dpa / 256) { sec := (s.farCopy core l).getD x, byJob := false } })
  | none => s

/-- The page that a DPA belongs to: that of a window may be the frame of a REMOTE page (R367, R375). -/
def State.pageOf (s : State) (dpa : Nat) : Nat :=
  if isWindow dpa then (s.pageOfFrame (2 ^ 39 + dpa / 65536)).getD (dpa / 65536) else dpa / 65536

/-- A line leaves the LLC, which finds an uncorrectable sector of it (R375). -/
def State.evictLlc (s : State) (dpa : Nat) : State :=
  match s.dpaLoc none 0 dpa with
  | .ok l =>
    if (look s.llc (l.key / 256)).isNone then s
    else { s.settle l (s.pageOf dpa * 65536) with llc := del s.llc (l.key / 256) }
  | .error _ => s

/-- The dies that a cache's act needs have left reset (R17): both hubs, and the compute die of an L1 or an L2. -/
def State.cacheUp (s : State) (a : CacheAct) : Bool :=
  s.dieUp 2 &&
  match a with
  | .fillL1 c _ | .dropL1 c _ => s.coreUp c
  | .fillL2 v _ | .dropL2 v _ => s.coreUp (16 * v)
  | _ => true

/-- What a cache does (R281, R288, R290, R291). -/
def cacheTurn (s : State) (a : CacheAct) : State :=
  match a with
  | .fillL1 c dpa => s.fillL1 c dpa
  | .dropL1 c dpa => s.dropL1 [c] dpa
  | .fillL2 v dpa =>
    match s.cleanAt 0 dpa with
    | some (l, x) => if 2 ^ 60 ≤ l.key then { s with l2 := put s.l2 (l2Key v l.key) x } else s
    | none => s
  | .dropL2 v dpa =>
    match s.dpaLoc none 0 dpa with
    | .ok l => { s with l2 := del s.l2 (l2Key v l.key) }
    | .error _ => s
  | .fillLlc dpa =>
    match s.cleanAt 0 dpa with
    | some (l, x) => if isCxlKey l.key then { s with llc := put s.llc (l.key / 256) x } else s
    | none => s
  | .dropLlc dpa => s.evictLlc dpa
  | .writeBack dpa => s.recall dpa

/-- An application hart acts: every die has been released, and it waits for no interrupt (R429). -/
def State.ahostUp (s : State) (h : Nat) : Bool := s.dieUp 22 && !(s.ahost h).waiting

/-- What the operating system does on the application harts beside its accesses (R16, R280, R407, R429). Register x0 stays
zero. -/
def osTurn (s : State) (a : OsAct) : State :=
  match a with
  | .asid h ctx => if s.ahostUp (h % 64) then { s with asids := put s.asids (h % 64) ctx } else s
  | .map key (some p) => if s.dieUp 22 then { s with iommu := put s.iommu key p } else s
  | .map key none => if s.dieUp 22 then { s with iommu := del s.iommu key } else s
  | .execute h d v pc priv wait =>
    if s.ahostUp (h % 64) then
      let g := s.ahost (h % 64)
      let x := if d = 0 then g.x else g.x.setIfInBounds d.toNat v
      { s with ahosts := put s.ahosts (h % 64) { x := x, pc := pc, priv := priv, waiting := wait } }
    else s
  | .ipi h t id => if s.ahostUp (h % 64) then s.sendMsi (t % 64) id else s

/-- A symbol of a stored sector upset (R31). -/
def State.upset (s : State) (sector i : Nat) (x : BitVec 16) : State :=
  if symbolCount ≤ i then s
  else
    match errorSum (lookD s.errors sector []) (if x = 0 then [] else [(i, x)]) with
    | [] => { s with errors := del s.errors sector }
    | e => { s with errors := put s.errors sector e }

/-- The whole trace ring of a core, as the management plane reads it (R266). -/
def Core.traceBytes (c : Core) : List Byte := c.trace.flatMap (fun e => bytesOfNat e.toNat 32)

/-- What happens around the package (R19, R31, R266, R390, R399). -/
def worldTurn (s : State) (a : WorldAct) : State :=
  match a with
  | .upset k i x => s.upset k i x
  | .traffic n p => s.setLink n ((s.link n).traffic p s.now)
  | .restart n => if 11 < n then s else s.setStack n { s.stack n with restarted := (s.stack n).takeover }
  | .readTrace c => if 127 < c then s else s.answer managementPlane (.bytes (s.core c).traceBytes)

/-! ## Steps and outside events -/

/-- The rows that are steps of the core, the package or its surroundings, which the plan or a choice may name;
the others are instructions, and execute only where a hart's Sieve or engine takes them. -/
def isStep (i : Instr) : Bool :=
  match i with
  | .hmaskChange _ | .domainWindowConfig _ | .tdBoot _ _ | .watchSet _ | .registerWrite _ _
  | .applicationHartAccess _ _ _ | .domainAccessArrival _ _ _ => true
  | j => steps.contains j
where
  /-- The steps that carry no data of their own. -/
  steps : List Instr :=
    [ .scopeChangeInstall, .spatulaRecord, .wfeTimeout, .engineDeadlock, .loadDataArrival, .loadLanding,
      .mcUncorrectable, .leaseGrant, .leaseTimeout, .leaseIdleExpiry, .tileSpill, .jobStart, .jobSectorWrite,
      .jobComplete, .jobResume, .jobFaultRaise, .ctxalloc, .ctxfree, .ctxabort, .ctxcmdInvalid, .purgeComplete,
      .hcmdResume, .hcmdInvalid, .qcmdEnable, .qcmdPause, .qcmdResume, .qcmdDrain, .qcmdDisable, .qcmdSkip,
      .qcmdInvalid, .qtbaseWrite, .doorbellWrite, .launchAdmission, .kernelNode, .jobNode, .eventSet, .eventWait,
      .eventWaitReread, .eventMsi, .condNode, .loopNode, .switchNode, .kernelPlacement, .cursorWake,
      .preemptionDeadline, .hartRestore, .dieRemapRequest, .quiesceGateAck, .pitcmdWrite, .pitcmdMigrate,
      .pitcmdRecode, .pitcmdInvalid, .passStart, .backgroundPassStart, .passSectorStep, .rd, .wr, .wrm, .trd,
      .tagw, .mrr, .packetReply, .refresh, .scrubStep, .heartbeatMissing, .refreshHandover, .linkTrainingStart,
      .linkTrainingComplete, .linkTrainingTimeout, .linkStepUp, .linkStepDown, .linkRatePolicy, .flitReplay,
      .linkRetrainComplete, .linkHoldExpiry, .collectiveContribution, .collectiveTimeout, .collectiveAck,
      .deviceRead, .deviceWrite, .dieRelease, .dieReadyTimeout, .rekeyRequest, .getVersion, .getCapabilities,
      .negotiateAlgorithms, .getDigests, .getCertificate, .challenge, .getMeasurements, .keyExchange, .powerTick,
      .thermalTrip, .applicationHartFence, .accessPerformed, .cxlBackInvalidation ]

/-- The dies that a step needs have left reset (R17, R425): none for what the trust die does, SY for its management mailbox,
its links and its power control (R430, R431), the base die of a packet's stack, the hub of a pass, both hubs for a CXL peer,
the compute dies of the hart at work, and every die for the rest, which runs only once application hart 0 has started
(R429). An application hart's access also needs that it does not wait for an interrupt. -/
def State.stepUp (s : State) (i : Instr) (f : Focus) : Bool :=
  match i with
  | .tdBoot _ _ | .dieRelease | .dieReadyTimeout | .thermalTrip | .getVersion | .getCapabilities | .negotiateAlgorithms
  | .getDigests | .getCertificate | .challenge | .getMeasurements | .keyExchange => true
  | .hmaskChange _ | .domainWindowConfig _ | .watchSet _ | .linkRatePolicy | .rekeyRequest | .dieRemapRequest
  | .quiesceGateAck | .powerTick | .linkTrainingStart | .linkTrainingComplete | .linkTrainingTimeout | .linkStepUp
  | .linkStepDown | .flitReplay | .linkRetrainComplete | .linkHoldExpiry => s.dieUp 0
  | .rd | .wr | .wrm | .trd | .tagw | .mrr | .packetReply | .refresh | .scrubStep | .heartbeatMissing | .refreshHandover =>
    s.dieUp (3 + f.unit % 12)
  | .passStart | .backgroundPassStart | .passSectorStep => s.dieUp (1 + f.unit % 2)
  | .cxlBackInvalidation => s.dieUp 2
  | .applicationHartAccess h _ _ => s.ahostUp (h % 64)
  | .applicationHartFence => s.ahostUp (f.unit % 64)
  | .loadDataArrival | .loadLanding | .accessPerformed | .cursorWake | .spatulaRecord | .wfeTimeout | .engineDeadlock
  | .mcUncorrectable =>
    match look s.harts f.hart with
    | some h => s.hartUp h
    | none => true
  | .leaseGrant | .leaseTimeout | .leaseIdleExpiry | .tileSpill => s.coreUp f.unit
  | _ => s.dieUp 22

/-! ## The clock -/

/-- A core's CYCLE stands still while it is frozen (R99). -/
def Core.tick (c : Core) : Core := if c.frozen then { c with lost := c.lost + 1 } else c

/-- The periods since a hart's last progress do not count those in which a core of it is frozen (R95). -/
def State.waitOn (s : State) (x : Nat × Hart) : Nat × Hart :=
  if x.2.cores.any (fun c => (s.core c).frozen) then (x.1, { x.2 with lastProgress := x.2.lastProgress + 1 }) else x

/-- The timed loads of a hart whose landing cycle has come land, or freeze their cores. -/
def State.landDue (s : State) (hid : Nat) (h : Hart) : State :=
  if h.onSlot && !h.loads.isEmpty then (s.landAll hid).refreeze h else s

/-- A period of the core clock ends (R20, R99): what is due lands, the harts that have begun to wait for clusters note it
(R351), and the actions of the period on barrier objects are over (R361). -/
def clockTurn (s : State) : State :=
  let cores := s.cores.map (fun (x : Nat × Core) => (x.1, x.2.tick))
  let s := { s with now := s.now + 1, cores := cores, barrierTurn := [], harts := s.harts.map s.waitOn }
  let s := s.harts.foldl (fun (s : State) (x : Nat × Hart) => s.landDue x.1 x.2) s
  { s with harts := s.harts.map s.noteWait }

/-! ## The act of a step -/

/-- An act of a cache by some numbers. -/
def cacheChoice (kind where_ dpa : Nat) : CacheAct :=
  match kind % 7 with
  | 0 => .fillL1 (where_ % 128) dpa
  | 1 => .dropL1 (where_ % 128) dpa
  | 2 => .fillL2 (where_ % 8) dpa
  | 3 => .dropL2 (where_ % 8) dpa
  | 4 => .fillLlc dpa
  | 5 => .dropLlc dpa
  | _ => .writeBack dpa

/-- What happens around the package, by some numbers. -/
def worldChoice (kind a b c : Nat) : WorldAct :=
  match kind % 4 with
  | 0 => .upset a (b % symbolCount) (BitVec.ofNat 16 c)
  | 1 => .traffic a (b % 101)
  | 2 => .restart (a % 12)
  | _ => .readTrace (a % 128)

/-- Where the plan lists nothing, a choice with no known value: an act of some hart, some step with no data of
its own, an act of a cache or of the surroundings, or the clock (log 2). -/
def freeAct (s : State) : Act :=
  let d := fun k => Config.nextChoice (16 * s.tick + k)
  let hid := ((s.harts.map (·.1))[d 1 % s.harts.length]?).getD (d 1)
  let eng := [Eng.ld, .xv, .mx, .st, .jb].getD (d 2 % 5) .ld
  match d 0 % 6 with
  | 0 => .scalar hid (d 3 % 2 == 1)
  | 1 => .engine hid eng (d 3 % 2 == 1) (d 4) (d 5)
  | 2 =>
    .event (isStep.steps.getD (d 3 % isStep.steps.length) .wfeTimeout)
      { Focus.reset with hart := hid, eng := eng, unit := d 4, sub := d 5, val := BitVec.ofNat 64 (d 6) }
  | 3 => .cache (cacheChoice (d 3) (d 4) (d 5))
  | 4 => .world (worldChoice (d 3) (d 4) (d 5) (d 6))
  | _ => .clock

/-- The act performed. -/
def perform (s : State) (a : Act) : Out :=
  match a with
  | .scalar hid defer => scalarTurn s hid defer
  | .engine hid e defer row unit => engineTurn s hid e defer row unit
  | .event i f => if isStep i && s.stepUp i f then exec i { s with focus := f, defer := false } else .next s
  | .cache c => .next (if s.cacheUp c then cacheTurn s c else s)
  | .os o => .next (osTurn s o)
  | .world w => .next (worldTurn s w)
  | .clock => .next (clockTurn s)

/-- The next act and the state in which it is performed. -/
def nextAct (s : State) : Act × State :=
  match s.plan with
  | a :: rest => (a, { s with plan := rest, tick := s.tick + 1 })
  | [] => (freeAct s, { s with tick := s.tick + 1 })

/-- One step of the package. -/
def stepWith (s : State) : Out := perform (nextAct s).2 (nextAct s).1

end Sys2Proof.Machine
end

