-- ==== Sys2Proof/Machine/Step.lean ====
section
/-! DEFINITION. One step of the machine, and a state that is about to fetch a given instruction. -/

namespace Sys2Proof.Machine

/-- One step: the next act of the plan, or a free one, is performed. -/
def step (s : State) : Host.Outcome State Fault Refusal := stepWith s

/-- The state with an instruction placed where the next step fetches it: the context, group, page and hart that
a launch would have made (log 17), the instruction's bytes at the hart's PC, and the plan naming the hart. -/
def State.withFetchWord (s : State) (nbits w : Nat) : State := s.withProgram (w % 2 ^ nbits)

end Sys2Proof.Machine
end

