-- ==== Sys2Proof/Safety.lean ====
section
/-! DEFINITION. What counts as a safe run: a step that answers a next state, and the invariant of the state's
tables that every step keeps. -/

namespace Sys2Proof.Safety

open Sys2Proof.Machine

/-- The step of the machine goes on. -/
def goesOn (o : Host.Outcome State Fault Refusal) : Prop := ∃ s, o = .next s

/-- Byte memory stands in its one canonical form. -/
def memoryCanonical (s : State) : Prop := Memory.wf s.mem = true

end Sys2Proof.Safety
end

