-- ==== Sys2Proof/WellFormed.lean ====
section
/-! DEFINITION. Well-formed instructions and steps: the fields are within the limits of R101, R112, R114,
R115 and R116 to R121, and the arguments of a step name units that exist (R16, R19, R21). -/

namespace Sys2Proof

open Sys2Proof.Machine

/-- The word, after well-formed prefixes that it cannot carry or with an undefined operation or CSR
number, has the fate ILLEGAL_OPCODE (R106). -/
def illegalWord (px : Px) (w : Word) : Bool :=
  match decodeWord px w with
  | .ok (.illegalOpcode _ _) => w.extractLsb' 29 3 != 7
  | _ => false

/-- The instruction or step is well-formed. -/
def Instr.wellFormed (i : Instr) : Bool :=
  match i with
  | .add px _ _ _ => pxOk px false
  | .sub px _ _ _ => pxOk px false
  | .and px _ _ _ => pxOk px false
  | .or px _ _ _ => pxOk px false
  | .xor px _ _ _ => pxOk px false
  | .sll px _ _ _ => pxOk px false
  | .srl px _ _ _ => pxOk px false
  | .sra px _ _ _ => pxOk px false
  | .slt px _ _ _ => pxOk px false
  | .sltu px _ _ _ => pxOk px false
  | .mul px _ _ _ => pxOk px false
  | .mulh px _ _ _ => pxOk px false
  | .mulhu px _ _ _ => pxOk px false
  | .div px _ _ _ => pxOk px false
  | .divu px _ _ _ => pxOk px false
  | .rem px _ _ _ => pxOk px false
  | .remu px _ _ _ => pxOk px false
  | .min px _ _ _ => pxOk px false
  | .max px _ _ _ => pxOk px false
  | .minu px _ _ _ => pxOk px false
  | .maxu px _ _ _ => pxOk px false
  | .addw px _ _ _ => pxOk px false
  | .subw px _ _ _ => pxOk px false
  | .clz px _ _ => pxOk px false
  | .ctz px _ _ => pxOk px false
  | .popc px _ _ => pxOk px false
  | .sext px _ _ w => pxOk px false && w != 3
  | .zext px _ _ w => pxOk px false && w != 3
  | .bfx px _ _ _ _ => pxOk px false
  | .cmov px _ _ _ => pxOk px false
  | .addi px _ _ _ => pxOk px true
  | .andi px _ _ _ => pxOk px true
  | .ori px _ _ _ => pxOk px true
  | .xori px _ _ _ => pxOk px true
  | .slli px _ _ _ => pxOk px true && shiftValxOk px
  | .srli px _ _ _ => pxOk px true && shiftValxOk px
  | .srai px _ _ _ => pxOk px true && shiftValxOk px
  | .slti px _ _ _ => pxOk px true
  | .sltiu px _ _ _ => pxOk px true
  | .lui px _ _ => pxOk px false
  | .auipc px _ _ => pxOk px false
  | .fadd32 px _ _ _ _ m => pxOk px false && m != 7
  | .fsub32 px _ _ _ _ m => pxOk px false && m != 7
  | .fmul32 px _ _ _ _ m => pxOk px false && m != 7
  | .fma32 px _ _ _ _ m => pxOk px false && m != 7
  | .fdiv32 px _ _ _ _ m => pxOk px false && m != 7
  | .fsqrt32 px _ _ _ m => pxOk px false && m != 7
  | .fmin32 px _ _ _ => pxOk px false
  | .fmax32 px _ _ _ => pxOk px false
  | .fcmp32 px _ _ _ p => pxOk px false && p.toNat < 5
  | .fcvtif px _ _ _ m => pxOk px false && m != 7
  | .fcvtfi px _ _ _ m => pxOk px false && m != 7
  | .fcvtffTo px _ _ _ f m => pxOk px false && m != 7 && 9 ≤ f.toNat && f.toNat ≤ 14
  | .fcvtffFrom px _ _ f m => pxOk px false && m != 7 && 9 ≤ f.toNat && f.toNat ≤ 14
  | .lb px _ _ c _ => pxOk px true && landCodeOk c
  | .lbu px _ _ c _ => pxOk px true && landCodeOk c
  | .lh px _ _ c _ => pxOk px true && landCodeOk c
  | .lhu px _ _ c _ => pxOk px true && landCodeOk c
  | .lw px _ _ c _ => pxOk px true && landCodeOk c
  | .lwu px _ _ c _ => pxOk px true && landCodeOk c
  | .ld px _ _ c _ => pxOk px true && landCodeOk c
  | .sb px _ _ _ => pxOk px true
  | .sh px _ _ _ => pxOk px true
  | .sw px _ _ _ => pxOk px true
  | .sd px _ _ _ => pxOk px true
  | .bwait px _ _ => pxOk px false
  | .barrive px _ _ _ => pxOk px false
  | .bararm px _ _ => pxOk px false
  | .barinit px _ _ _ => pxOk px false
  | .beq px _ _ _ => pxOk px true
  | .bne px _ _ _ => pxOk px true
  | .blt px _ _ _ => pxOk px true
  | .bge px _ _ _ => pxOk px true
  | .bltu px _ _ _ => pxOk px true
  | .bgeu px _ _ _ => pxOk px true
  | .jal px _ _ => pxOk px false
  | .jalr px _ _ _ => pxOk px true
  | .csrrw px _ _ c => pxOk px false && csrDefined c
  | .csrrs px _ _ c => pxOk px false && csrDefined c
  | .csrrc px _ _ c => pxOk px false && csrDefined c
  | .prtabaWrite px _ _ _ => pxOk px false
  | .dmaskAccess px _ _ _ => pxOk px false
  | .xstatSrseedAccess px _ _ _ c => pxOk px false && (c == 0x008 || c == 0x00B)
  | .tapeCsrAccess px _ _ _ c => pxOk px false && 0x020 ≤ c.toNat && c.toNat ≤ 0x023
  | .vlset px _ _ w => pxOk px false && w.toNat < 5
  | .scopewr px _ _ _ e => pxOk px false && e != 0 && e != 31
  | .scopeinv px _ _ e => pxOk px false && e != 0 && e != 31
  | .scopeChangeInstall => true
  | .recordOff px => pxOk px false
  | .recordOn px => pxOk px false
  | .recordMark px => pxOk px false
  | .reverse px _ => pxOk px false
  | .spatulaRecord => true
  | .ecall px _ => pxOk px false
  | .ebreak px => pxOk px false
  | .trapret px => pxOk px false
  | .wfe px => pxOk px false
  | .wfeTimeout => true
  | .fences px _ => pxOk px false
  | .lsync px => pxOk px false
  | .drainSpad px => pxOk px false
  | .drainDev px => pxOk px false
  | .drainDom px => pxOk px false
  | .nodeb px => pxOk px false
  | .yield px => pxOk px false
  | .texit px => pxOk px false
  | .cursor px _ => pxOk px false
  | .pstep px _ => pxOk px false
  | .frd px _ _ _ => pxOk px false
  | .fwr px _ _ _ => pxOk px false
  | .tmld px _ c f n => pxOk px false && 2 ≤ c.toNat && c.toNat ≤ 6 && tmldFits f n
  | .tmpli c _ _ _ _ _ => 2 ≤ c.toNat && c.toNat ≤ 6
  | .amoadd px _ _ w _ _ => pxOk px false && w.toNat < 2
  | .amoand px _ _ w _ _ => pxOk px false && w.toNat < 2
  | .amoor px _ _ w _ _ => pxOk px false && w.toNat < 2
  | .amoxor px _ _ w _ _ => pxOk px false && w.toNat < 2
  | .amomin px _ _ w _ _ => pxOk px false && w.toNat < 2
  | .amomax px _ _ w _ _ => pxOk px false && w.toNat < 2
  | .amominu px _ _ w _ _ => pxOk px false && w.toNat < 2
  | .amomaxu px _ _ w _ _ => pxOk px false && w.toNat < 2
  | .amoswap px _ _ w _ _ => pxOk px false && w.toNat < 2
  | .amocas px d _ w _ _ => pxOk px false && w.toNat < 2 && d.toNat % 2 == 0
  | .ldaq px _ _ w _ => pxOk px false && w.toNat < 2
  | .strl px _ _ w _ => pxOk px false && w.toNat < 2
  | .amofadd px _ _ _ _ => pxOk px false
  | .dmsetc px _ _ => pxOk px false
  | .dred px _ _ o => pxOk px false && o != 7
  | .dbcast px _ _ _ => pxOk px false
  | .commandFormation px _ _ _ _ _ => pxOk px true
  | .formationFaultRaise => true
  | .commandCompletion => true
  | .engineDeadlock => true
  | .loadDataArrival => true
  | .loadLanding => true
  | .pageAbsentReply _ => true
  | .mcUncorrectable => true
  | .ald t => t.opc == 0x01 && templateOk .ld t
  | .alds t => t.opc == 0x02 && templateOk .ld t
  | .ald2 t => t.opc == 0x03 && templateOk .ld t
  | .agath t => t.opc == 0x04 && templateOk .ld t
  | .aldt t => t.opc == 0x05 && templateOk .ld t
  | .aring t => t.opc == 0x06 && templateOk .ld t
  | .aspx t => t.opc == 0x07 && templateOk .ld t
  | .aqcfg t => t.opc == 0x08 && templateOk .ld t
  | .apref t => t.opc == 0x09 && templateOk .ld t
  | .sst t => t.opc == 0x01 && templateOk .st t
  | .ssts t => t.opc == 0x02 && templateOk .st t
  | .sst2 t => t.opc == 0x03 && templateOk .st t
  | .sscat t => t.opc == 0x04 && templateOk .st t
  | .sacc t => t.opc == 0x05 && templateOk .st t
  | .sspx t => t.opc == 0x06 && templateOk .st t
  | .stag t => t.opc == 0x07 && templateOk .st t
  | .feset t => t.opc == 0x08 && templateOk .st t
  | .vadd t => t.opc == 0x01 && templateOk .xv t
  | .vsub t => t.opc == 0x02 && templateOk .xv t
  | .vmul t => t.opc == 0x03 && templateOk .xv t
  | .vfma t => t.opc == 0x04 && templateOk .xv t
  | .vfms t => t.opc == 0x05 && templateOk .xv t
  | .vmin t => t.opc == 0x06 && templateOk .xv t
  | .vmax t => t.opc == 0x07 && templateOk .xv t
  | .vabs t => t.opc == 0x08 && templateOk .xv t
  | .vneg t => t.opc == 0x09 && templateOk .xv t
  | .vdiv t => t.opc == 0x0A && templateOk .xv t
  | .vsqrt t => t.opc == 0x0B && templateOk .xv t
  | .vrsq t => t.opc == 0x0C && templateOk .xv t
  | .vexp t => t.opc == 0x0D && templateOk .xv t
  | .vlog t => t.opc == 0x0E && templateOk .xv t
  | .vtanh t => t.opc == 0x0F && templateOk .xv t
  | .vsigm t => t.opc == 0x10 && templateOk .xv t
  | .vand t => t.opc == 0x11 && templateOk .xv t
  | .vor t => t.opc == 0x12 && templateOk .xv t
  | .vxor t => t.opc == 0x13 && templateOk .xv t
  | .vnot t => t.opc == 0x14 && templateOk .xv t
  | .vshl t => t.opc == 0x15 && templateOk .xv t
  | .vshr t => t.opc == 0x16 && templateOk .xv t
  | .vshrr t => t.opc == 0x17 && templateOk .xv t
  | .vdot2 t => t.opc == 0x18 && templateOk .xv t
  | .vdot4 t => t.opc == 0x19 && templateOk .xv t
  | .vsadd t => t.opc == 0x1A && templateOk .xv t
  | .vssub t => t.opc == 0x1B && templateOk .xv t
  | .vmulh t => t.opc == 0x1C && templateOk .xv t
  | .vcmp t => t.opc == 0x20 && templateOk .xv t
  | .vsel t => t.opc == 0x21 && templateOk .xv t
  | .vclass t => t.opc == 0x22 && templateOk .xv t
  | .vslide t => t.opc == 0x28 && templateOk .xv t
  | .vperm t => t.opc == 0x29 && templateOk .xv t
  | .vzip t => t.opc == 0x2A && templateOk .xv t
  | .vunzip t => t.opc == 0x2B && templateOk .xv t
  | .vbcast t => t.opc == 0x2C && templateOk .xv t
  | .vextr t => t.opc == 0x2D && templateOk .xv t
  | .vredsum t => t.opc == 0x30 && templateOk .xv t
  | .vredsumo t => t.opc == 0x31 && templateOk .xv t
  | .vredmax t => t.opc == 0x32 && templateOk .xv t
  | .vredmin t => t.opc == 0x33 && templateOk .xv t
  | .vcvt t => t.opc == 0x38 && templateOk .xv t
  | .vqnt t => t.opc == 0x39 && templateOk .xv t
  | .vtagr t => t.opc == 0x3A && templateOk .xv t
  | .vtagw t => t.opc == 0x3B && templateOk .xv t
  | .vsexp t => t.opc == 0x3C && templateOk .xv t
  | .vpop t => t.opc == 0x40 && templateOk .xv t
  | .vpush t => t.opc == 0x41 && templateOk .xv t
  | .vldr t => t.opc == 0x44 && templateOk .xv t
  | .vstr t => t.opc == 0x45 && templateOk .xv t
  | .kand t => t.opc == 0x48 && templateOk .xv t
  | .kor t => t.opc == 0x49 && templateOk .xv t
  | .knot t => t.opc == 0x4A && templateOk .xv t
  | .kpopc t => t.opc == 0x4B && templateOk .xv t
  | .kfirst t => t.opc == 0x4C && templateOk .xv t
  | .vrda t => t.opc == 0x50 && templateOk .xv t
  | .vwra t => t.opc == 0x51 && templateOk .xv t
  | .vmov t => t.opc == 0x58 && templateOk .xv t
  | .vid t => t.opc == 0x59 && templateOk .xv t
  | .vseti t => t.opc == 0x5A && templateOk .xv t
  | .mlease t => t.opc == 0x01 && templateOk .mx t
  | .mrelease t => t.opc == 0x02 && templateOk .mx t
  | .leaseGrant => true
  | .leaseTimeout => true
  | .leaseIdleExpiry => true
  | .ringcfg t => t.opc == 0x03 && templateOk .mx t
  | .ringput t => t.opc == 0x04 && templateOk .mx t
  | .ringpop t => t.opc == 0x05 && templateOk .mx t
  | .ringqry t => t.opc == 0x06 && templateOk .mx t
  | .tmma t => t.opc == 0x10 && templateOk .mx t
  | .tmmap t => t.opc == 0x11 && templateOk .mx t
  | .tzero t => t.opc == 0x12 && templateOk .mx t
  | .tadd t => t.opc == 0x13 && templateOk .mx t
  | .tsub t => t.opc == 0x14 && templateOk .mx t
  | .tmul t => t.opc == 0x15 && templateOk .mx t
  | .tscl t => t.opc == 0x16 && templateOk .mx t
  | .tbias t => t.opc == 0x17 && templateOk .mx t
  | .tact t => t.opc == 0x18 && templateOk .mx t
  | .trsum t => t.opc == 0x19 && templateOk .mx t
  | .tcsum t => t.opc == 0x1A && templateOk .mx t
  | .trmax t => t.opc == 0x1B && templateOk .mx t
  | .ttrans t => t.opc == 0x1C && templateOk .mx t
  | .tcvt t => t.opc == 0x1D && templateOk .mx t
  | .tloada t => t.opc == 0x1E && templateOk .mx t
  | .tcopy t => t.opc == 0x1F && templateOk .mx t
  | .tileSpill => true
  | .jcopy t => t.opc == 0x01 && templateOk .jb t
  | .jfill t => t.opc == 0x05 && templateOk .jb t
  | .jpref t => t.opc == 0x0A && templateOk .jb t
  | .jcopy2 t => t.opc == 0x02 && templateOk .jb t
  | .jgath t => t.opc == 0x03 && templateOk .jb t
  | .jscat t => t.opc == 0x04 && templateOk .jb t
  | .jred t => t.opc == 0x06 && templateOk .jb t
  | .jcoll t => t.opc == 0x07 && templateOk .jb t
  | .jrecode t => t.opc == 0x08 && templateOk .jb t
  | .jtens t => t.opc == 0x09 && templateOk .jb t
  | .jobStart => true
  | .jobSectorWrite => true
  | .jobComplete => true
  | .jobResume => true
  | .jobFaultRaise => true
  | .ctxalloc => true
  | .ctxfree => true
  | .ctxabort => true
  | .ctxcmdInvalid => true
  | .purgeComplete => true
  | .hcmdResume => true
  | .hcmdInvalid => true
  | .qcmdEnable => true
  | .qcmdPause => true
  | .qcmdResume => true
  | .qcmdDrain => true
  | .qcmdDisable => true
  | .qcmdSkip => true
  | .qcmdInvalid => true
  | .qtbaseWrite => true
  | .doorbellWrite => true
  | .launchAdmission => true
  | .kernelNode => true
  | .jobNode => true
  | .eventSet => true
  | .eventWait => true
  | .eventWaitReread => true
  | .eventMsi => true
  | .condNode => true
  | .loopNode => true
  | .switchNode => true
  | .kernelPlacement => true
  | .cursorWake => true
  | .preemptionDeadline => true
  | .hartRestore => true
  | .dieRemapRequest => true
  | .quiesceGateAck => true
  | .pitcmdWrite => true
  | .pitcmdMigrate => true
  | .pitcmdRecode => true
  | .pitcmdInvalid => true
  | .passStart => true
  | .backgroundPassStart => true
  | .passSectorStep => true
  | .hmaskChange masks => masks.length == 6
  | .rd => true
  | .wr => true
  | .wrm => true
  | .trd => true
  | .tagw => true
  | .mrr => true
  | .packetReply => true
  | .refresh => true
  | .scrubStep => true
  | .heartbeatMissing => true
  | .refreshHandover => true
  | .linkTrainingStart => true
  | .linkTrainingComplete => true
  | .linkTrainingTimeout => true
  | .linkStepUp => true
  | .linkStepDown => true
  | .linkRatePolicy => true
  | .flitReplay => true
  | .linkRetrainComplete => true
  | .linkHoldExpiry => true
  | .domainWindowConfig _ => true
  | .collectiveContribution => true
  | .collectiveTimeout => true
  | .collectiveAck => true
  | .deviceRead => true
  | .deviceWrite => true
  | .tdBoot _ _ => true
  | .dieRelease => true
  | .dieReadyTimeout => true
  | .rekeyRequest => true
  | .getVersion => true
  | .getCapabilities => true
  | .negotiateAlgorithms => true
  | .getDigests => true
  | .getCertificate => true
  | .challenge => true
  | .getMeasurements => true
  | .keyExchange => true
  | .powerTick => true
  | .thermalTrip => true
  | .watchSet _ => true
  | .registerWrite _ _ => true
  | .illegalOpcode px w => illegalWord px w
  | .applicationHartAccess h _ _ => h < 64
  | .applicationHartFence => true
  | .accessPerformed => true
  | .domainAccessArrival pkg _ _ => pkg < 64
  | .cxlBackInvalidation => true

end Sys2Proof
end

