-- ==== Sys2Proof/Certificates/Slice0/Obligations.lean ====
section
/-! DEFINITION. The statements about this machine, and the words they are written in. -/

namespace Sys2Proof.Claim

open Sys2Proof Sys2Proof.Machine

/-- Hart `hid` is at work and a scalar instruction of it that names some registers runs now: it carries no prefix
in H (R263), and no register it names has a result pending (R80, R97). -/
def Runs (s : State) (px : Px) (regs : List Nat) (hid : Nat) (h : Hart) : Prop :=
  s.focus.hart = hid ∧ look s.harts hid = some h ∧ (h.priv && pxAny px) = false ∧ regs.any h.pending = false

/-- The state in which a scalar instruction has written one value per active row into d and has retired. -/
def rowsWritten (s : State) (hid : Nat) (h : Hart) (px : Px) (d : Reg) (v : Nat → Dword) : State :=
  s.retire hid (h.setRegs (h.active px) d.toNat v) px

/-- The state in which a scalar instruction has retired with no other effect. -/
def retired (s : State) (hid : Nat) (h : Hart) (px : Px) : State := s.retire hid h px

/-- The answer of a step that goes on. -/
abbrev goes (t : State) : Out := .next t

/-- A management change is pending behind its gate, and its request has returned busy (R28). -/
def pending (s : State) (g : Gate) : State :=
  { s with gates := s.gates ++ [g], replies := s.replies ++ [(5000, .busy)] }

/-- A management request has been refused, with nothing else changed. -/
def refused (s : State) : State := { s with replies := s.replies ++ [(5000, .refused)] }

/-- 1 where a condition holds, else 0. -/
def oneIf (p : Prop) [Decidable p] : Dword := if p then 1 else 0

/-- The number of leading zero bits of a 64-bit value. -/
def clz64 (a : Dword) : Nat := if a = 0 then 64 else 63 - Nat.log2 a.toNat

/-- The state in which a scalar float instruction has written its rows, in ascending order, each with the draw of
its own that stochastic rounding takes (R61), its flags added to XSTAT (R63), and has retired. -/
def floatWritten (s : State) (hid : Nat) (h : Hart) (px : Px) (d : Reg) (m : BitVec 3) (f : Nat → Nat → Nat → FRow) :
    State :=
  s.retire hid (floatRows h (effMode h.csr.rmode m) d.toNat (f (effMode h.csr.rmode m)) (h.active px) h) px

/-- Every hart has as many register rows as die rows. -/
def rowsMatch (h : Hart) : Prop := h.rows.length = h.cores.length

/-- Memory with its side-band, the page table and everything of the package that is not a hart are unchanged. -/
def onlyHarts (s t : State) : Prop := t = { s with harts := t.harts }

/-- Every hart but one is unchanged. -/
def onlyHart (s t : State) (hid : Nat) : Prop := ∀ k, k ≠ hid → look t.harts k = look s.harts k

/-- Every byte of memory reads as before. -/
def sameBytes (s t : State) : Prop := ∀ a, getByte t.mem a = getByte s.mem a

/-- The scalar registers of a hart but d in some rows are unchanged. -/
def otherRegs (h g : Hart) (rows : List Nat) (d : Nat) : Prop :=
  ∀ j n, ¬(j ∈ rows ∧ n = d) → g.reg j n = h.reg j n

/-- The masks and the vector registers of every row are unchanged. -/
def sameVectors (h g : Hart) : Prop :=
  ∀ j, (∀ n, (g.row j).mask n = (h.row j).mask n) ∧ (∀ v x, (g.row j).vec v x = (h.row j).vec v x)

/-- What a scalar instruction that retires changes of a hart outside its registers: RETIRED, the command index, the
wait it was in, the cycle of its last progress and the pc, which is the next instruction's. -/
def retiredHart (s : State) (h g : Hart) (px : Px) : Prop :=
  g.pc = h.pc + BitVec.ofNat 64 (pxBytes px) ∧ g.csr.retired = h.csr.retired + 1 ∧
  { g with rows := h.rows, csr := h.csr, pc := h.pc, idx := h.idx, lastProgress := h.lastProgress, wait := h.wait } = h ∧
  g.lastProgress = s.now ∧ g.wait = Wait.none

/-- The instructions that write one register from registers and immediates and touch nothing else, with their prefixes,
their destination and the registers they read. -/
def writesOne (i : Instr) : Option (Px × Reg × List Nat) :=
  match i with
  | .add px d a b | .sub px d a b | .and px d a b | .or px d a b | .xor px d a b | .sll px d a b | .srl px d a b
  | .sra px d a b | .slt px d a b | .sltu px d a b | .mul px d a b | .mulh px d a b | .mulhu px d a b | .div px d a b
  | .divu px d a b | .rem px d a b | .remu px d a b | .min px d a b | .max px d a b | .minu px d a b | .maxu px d a b
  | .addw px d a b | .subw px d a b | .bfx px d a b _ | .cmov px d a b | .fmin32 px d a b | .fmax32 px d a b =>
    some (px, d, [a.toNat, b.toNat])
  | .clz px d a | .ctz px d a | .popc px d a | .sext px d a _ | .zext px d a _ | .addi px d a _ | .andi px d a _
  | .ori px d a _ | .xori px d a _ | .slti px d a _ | .sltiu px d a _ | .slli px d a _ | .srli px d a _
  | .srai px d a _ => some (px, d, [a.toNat])
  | .lui px d _ | .auipc px d _ => some (px, d, [])
  | _ => none

/-- The scalar float instructions that can raise flags or draw a random number. -/
def writesFloat (i : Instr) : Option (Px × Reg × List Nat) :=
  match i with
  | .fadd32 px d a b _ _ | .fsub32 px d a b _ _ | .fmul32 px d a b _ _ | .fma32 px d a b _ _ | .fdiv32 px d a b _ _
  | .fcmp32 px d a b _ => some (px, d, [a.toNat, b.toNat])
  | .fsqrt32 px d a _ _ | .fcvtif px d a _ _ | .fcvtfi px d a _ _ | .fcvtffTo px d a _ _ _ | .fcvtffFrom px d a _ _ =>
    some (px, d, [a.toNat])
  | _ => none

/-! ### Engine commands -/

/-- Engine `e` of hart `hid` has command c, with no fault of formation, at the head of its queue, has not run it, and
may run it now: it holds or can take its token and slot waits (R93, R96), and no load in flight is to write a vector register
that it names (R97). -/
def AtHead (s : State) (e : Eng) (hid : Nat) (h : Hart) (c : Command) : Prop :=
  s.focus.hart = hid ∧ look s.harts hid = some h ∧ (∃ cs, h.queue e = c :: cs) ∧ c.fault = none ∧ c.done = none ∧
  h.engineMay c = true ∧ (c.consumed = true ∨ (h.waitsMet e c = true ∧ h.slotTaken e c = false)) ∧
  (e = .xv → h.vecPending c = false)

/-- A command at the head that has an active row (R91). -/
def Head (s : State) (e : Eng) (hid : Nat) (h : Hart) (c : Command) : Prop := AtHead s e hid h c ∧ c.rows h ≠ []

/-- A command has run in s: it stands as issued with the completion d, which COMMAND_COMPLETION takes. -/
def ranWith (s : State) (hid : Nat) (e : Eng) (c : Command) (d : Completion) : Out :=
  goes (s.issue hid e { c with done := some d })

/-- A command has run in s with flags and an entry of the trace, and nothing else left to do. -/
def Ran (s : State) (hid : Nat) (e : Eng) (c : Command) (fl : Flags) (o : Out) : Prop :=
  ∃ ts us, o = ranWith s hid e { c with touched := ts } { Completion.plain fl with touched := us }

/-- The rows of a command go on one unit at a time, each by its own count (R91, R188): row j is the first, in ascending
order, that has a unit left. -/
def unitOf (h : Hart) (c : Command) (count : Nat → Nat) (j : Nat) : Prop :=
  (c.rows h).find? (fun i => decide (c.doneOf i < count i)) = some j

/-- A unit of row j has taken effect in s, and the command has run where no row has a unit left. -/
def UnitRan (s : State) (hid : Nat) (e : Eng) (h : Hart) (c : Command) (j : Nat) (count : Nat → Nat) (o : Out) : Prop :=
  let d := c.setDone h j (c.doneOf j + 1)
  ∃ ts us, o = goes (s.issue hid e { d with
    touched := ts,
    done := if (c.rows h).any (fun i => decide (d.doneOf i < count i)) then none
            else some { Completion.plain c.flags with touched := us } })

/-- A command may go on: it has issued before, or it passes its checks in every active row; c1 is the command with what
it reads at its first issue. -/
def Passes (h : Hart) (c c1 : Command) (first : Except Stop Command) (ok : Nat → Prop) : Prop :=
  (c.issued = true ∧ c1 = c) ∨ (c.issued = false ∧ first = .ok c1 ∧ ∀ j ∈ c.rows h, ok j)

/-- A register sector reads, under a typed read, as one of format f and container w: TYPED, or PLAIN where the command's
LDFMT says so, with a well-formed tag and good block scales (R37, R40, R42, R53). -/
def ReadsAs (c : Command) (f : BitVec 5) (w : BitVec 3) (x : Sector) : Prop :=
  ∃ o, openScaled c.reader x = .ok o ∧ o.zero = false ∧ o.fmt = f ∧ o.cw = w

/-- Every sector of vector register v reads so in every row of a command. -/
def OperandIs (h : Hart) (c : Command) (f : BitVec 5) (w : BitVec 3) (v : Nat) : Prop :=
  ∀ j ∈ c.rows h, ∀ x, x < h.csr.xcl → ReadsAs c f w ((h.row j).vec v x)

/-- The result format and container of a command are AUTO, or those of its operands. -/
def namesNone (c : Command) (f : BitVec 5) (w : BitVec 3) : Prop :=
  (namedFmt c.t.fmt = none ∨ c.t.fmt = f) ∧ (namedCw c.t.cw = none ∨ c.t.cw = w)

/-- What a vector instruction that only reads and writes registers writes: vector register D, mask register D or scalar
register D. -/
inductive VecDest where
  | vector | mask | scalar
  deriving DecidableEq, Repr

/-- The vector instructions that only read and write registers, and what they write. -/
def vectorOnly (i : Instr) : Option (Template × VecDest) :=
  match i with
  | .vadd t | .vsub t | .vmul t | .vfma t | .vfms t | .vmin t | .vmax t | .vabs t | .vneg t | .vdiv t | .vsqrt t
  | .vrsq t | .vexp t | .vlog t | .vtanh t | .vsigm t | .vand t | .vor t | .vxor t | .vnot t | .vshl t | .vshr t
  | .vshrr t | .vdot2 t | .vdot4 t | .vsadd t | .vssub t | .vmulh t | .vsel t | .vclass t | .vslide t | .vperm t
  | .vzip t | .vunzip t | .vbcast t | .vredsum t | .vredsumo t | .vredmax t | .vredmin t | .vcvt t | .vqnt t
  | .vtagw t | .vsexp t | .vmov t | .vid t | .vseti t => some (t, .vector)
  | .vcmp t | .kand t | .kor t | .knot t => some (t, .mask)
  | .vextr t | .vtagr t | .kpopc t | .kfirst t => some (t, .scalar)
  | _ => none

/-- Sector x of vector register v of a row reads as o, which is not ZERO, in format f and container w. -/
def Opens (h : Hart) (c : Command) (j v x : Nat) (f : BitVec 5) (w : BitVec 3) (o : Opened) : Prop :=
  openScaled c.reader ((h.row j).vec v x) = .ok o ∧ o.zero = false ∧ o.fmt = f ∧ o.cw = w

/-- Every sector of vector register v of a row reads so. -/
def AllOpen (h : Hart) (c : Command) (j v : Nat) (f : BitVec 5) (w : BitVec 3) (o : Nat → Opened) : Prop :=
  ∀ x, x < h.csr.xcl → Opens h c j v x f w (o x)

/-- Element e of a register whose sectors have been opened. -/
def valueOf (o : Nat → Opened) (w : BitVec 3) (e : Nat) : Exact :=
  ((o (e / elemCount w)).values w).getD (e % elemCount w) (zeroOf false)

/-- The contents of container i of a sector. -/
def slotOf (y : Sector) (w : BitVec 3) (i : Nat) : Nat := (secSlots y w).getD i 0

/-- The mask of a command enables element e of a row (R180). -/
def Enabled (h : Hart) (c : Command) (j e : Nat) : Bool := maskBit c.t.cmask.toNat ((h.row j).mask c.t.cmask.toNat) e

/-- Element e, counted at container w, of a row is active (R152). -/
def Active (h : Hart) (c : Command) (j : Nat) (w : BitVec 3) (e : Nat) : Bool :=
  inVl (vlBits c.vl c.vlcw) w e && Enabled h c j e

/-- One round of R72's pairwise sum: element i takes the sum of elements 2i and 2i + 1, an odd last one going on as it is. -/
def pairRound (add : Exact → Exact → Exact) (xs : List Exact) : List Exact :=
  (List.range ((xs.length + 1) / 2)).map (fun i =>
    let x := xs.getD (2 * i) (zeroOf false)
    if 2 * i + 1 < xs.length then add x (xs.getD (2 * i + 1) (zeroOf false)) else x)

/-- The predicates of VCMP (R119, R166): 0 EQ, 1 NE, 2 LT, 3 LE, 4 GT, 5 GE, 6 UN. -/
def compares (p : Nat) (x y : Exact) : Prop :=
  if x.isNan || y.isNan then p = 1 ∨ p = 6
  else
    (p = 0 ∧ x.cmp y = .eq) ∨ (p = 1 ∧ x.cmp y ≠ .eq) ∨ (p = 2 ∧ x.cmp y = .lt) ∨ (p = 3 ∧ x.cmp y ≠ .gt) ∨
      (p = 4 ∧ x.cmp y = .gt) ∨ (p = 5 ∧ x.cmp y ≠ .lt)

/-- Operations numbered from an opcode on. -/
def numbered (k : Nat) (fs : List (Template → Instr)) : List (Nat × (Template → Instr)) :=
  fs.zipIdx.map (fun x => (k + x.2, x.1))

/-- The opcodes of each class of templates and the operations that they name (R117 to R121). -/
def opcodes (e : Eng) : List (Nat × (Template → Instr)) :=
  match e with
  | .ld => numbered 0x01 [.ald, .alds, .ald2, .agath, .aldt, .aring, .aspx, .aqcfg, .apref]
  | .st => numbered 0x01 [.sst, .ssts, .sst2, .sscat, .sacc, .sspx, .stag, .feset]
  | .xv =>
    numbered 0x01 [.vadd, .vsub, .vmul, .vfma, .vfms, .vmin, .vmax, .vabs, .vneg, .vdiv, .vsqrt, .vrsq, .vexp, .vlog,
      .vtanh, .vsigm, .vand, .vor, .vxor, .vnot, .vshl, .vshr, .vshrr, .vdot2, .vdot4, .vsadd, .vssub, .vmulh] ++
    numbered 0x20 [.vcmp, .vsel, .vclass] ++
    numbered 0x28 [.vslide, .vperm, .vzip, .vunzip, .vbcast, .vextr] ++
    numbered 0x30 [.vredsum, .vredsumo, .vredmax, .vredmin] ++
    numbered 0x38 [.vcvt, .vqnt, .vtagr, .vtagw, .vsexp] ++
    numbered 0x40 [.vpop, .vpush] ++ numbered 0x44 [.vldr, .vstr] ++
    numbered 0x48 [.kand, .kor, .knot, .kpopc, .kfirst] ++ numbered 0x50 [.vrda, .vwra] ++
    numbered 0x58 [.vmov, .vid, .vseti]
  | .mx =>
    numbered 0x01 [.mlease, .mrelease, .ringcfg, .ringput, .ringpop, .ringqry] ++
    numbered 0x10 [.tmma, .tmmap, .tzero, .tadd, .tsub, .tmul, .tscl, .tbias, .tact, .trsum, .tcsum, .trmax, .ttrans,
      .tcvt, .tloada, .tcopy]
  | .jb => numbered 0x01 [.jcopy, .jcopy2, .jgath, .jscat, .jfill, .jred, .jcoll, .jrecode, .jtens, .jpref]

/-- A row of the opcode table that has no words of its own: a step, an engine's operation, whose encoding is its template's,
or an access to one of the special registers, whose words are those of CSRRW, CSRRS or CSRRC. -/
def wordless (i : Instr) : Prop :=
  isStep i = true ∨ i = .formationFaultRaise ∨ i = .commandCompletion ∨ (∃ a, i = .pageAbsentReply a) ∨
  (∃ px op d a, i = .prtabaWrite px op d a ∨ i = .dmaskAccess px op d a) ∨
  (∃ px op d a c, i = .xstatSrseedAccess px op d a c ∨ i = .tapeCsrAccess px op d a c) ∨
  ∃ e t, decodeTemplate e t = some i

end Sys2Proof.Claim

open Sys2Proof Sys2Proof.Machine Sys2Proof.Claim

/-! ## Integer instructions (R122, R125, R126) -/

/-- R125, R126: each register form writes its function of a and b into d of every active row, and nothing else. -/
def Obligations.IntegerRegisterResults : Prop :=
  ∀ (s : State) (hid : Nat) (h : Hart) (px : Px) (d a b : Reg), Runs s px [d.toNat, a.toNat, b.toNat] hid h →
    let x := fun j => h.reg j a.toNat
    let y := fun j => h.reg j b.toNat
    let w := fun f => goes (rowsWritten s hid h px d f)
    exec (.add px d a b) s = w (fun j => BitVec.ofNat 64 ((x j).toNat + (y j).toNat)) ∧
    exec (.sub px d a b) s = w (fun j => BitVec.ofInt 64 ((x j).toInt - (y j).toInt)) ∧
    exec (.and px d a b) s = w (fun j => x j &&& y j) ∧
    exec (.or px d a b) s = w (fun j => x j ||| y j) ∧
    exec (.xor px d a b) s = w (fun j => x j ^^^ y j) ∧
    exec (.sll px d a b) s = w (fun j => BitVec.ofNat 64 ((x j).toNat * 2 ^ ((y j).toNat % 64))) ∧
    exec (.srl px d a b) s = w (fun j => BitVec.ofNat 64 ((x j).toNat / 2 ^ ((y j).toNat % 64))) ∧
    exec (.sra px d a b) s = w (fun j => BitVec.ofInt 64 ((x j).toInt / 2 ^ ((y j).toNat % 64))) ∧
    exec (.slt px d a b) s = w (fun j => oneIf ((x j).toInt < (y j).toInt)) ∧
    exec (.sltu px d a b) s = w (fun j => oneIf ((x j).toNat < (y j).toNat)) ∧
    exec (.mul px d a b) s = w (fun j => BitVec.ofNat 64 ((x j).toNat * (y j).toNat)) ∧
    exec (.mulh px d a b) s = w (fun j => BitVec.ofInt 64 ((x j).toInt * (y j).toInt / 2 ^ 64)) ∧
    exec (.mulhu px d a b) s = w (fun j => BitVec.ofNat 64 ((x j).toNat * (y j).toNat / 2 ^ 64)) ∧
    exec (.div px d a b) s =
      w (fun j => if y j = 0 then BitVec.ofInt 64 (-1) else BitVec.ofInt 64 ((x j).toInt.tdiv (y j).toInt)) ∧
    exec (.divu px d a b) s =
      w (fun j => if y j = 0 then BitVec.ofNat 64 (2 ^ 64 - 1) else BitVec.ofNat 64 ((x j).toNat / (y j).toNat)) ∧
    exec (.rem px d a b) s =
      w (fun j => if y j = 0 then x j else BitVec.ofInt 64 ((x j).toInt.tmod (y j).toInt)) ∧
    exec (.remu px d a b) s = w (fun j => BitVec.ofNat 64 ((x j).toNat % (y j).toNat)) ∧
    exec (.min px d a b) s = w (fun j => BitVec.ofInt 64 (min (x j).toInt (y j).toInt)) ∧
    exec (.max px d a b) s = w (fun j => BitVec.ofInt 64 (max (x j).toInt (y j).toInt)) ∧
    exec (.minu px d a b) s = w (fun j => BitVec.ofNat 64 (min (x j).toNat (y j).toNat)) ∧
    exec (.maxu px d a b) s = w (fun j => BitVec.ofNat 64 (max (x j).toNat (y j).toNat)) ∧
    exec (.addw px d a b) s = w (fun j => ((x j + y j).extractLsb' 0 32).signExtend 64) ∧
    exec (.subw px d a b) s = w (fun j => ((x j - y j).extractLsb' 0 32).signExtend 64) ∧
    exec (.cmov px d a b) s = w (fun j => if y j = 0 then h.reg j d.toNat else x j)

/-- R90, R125: the immediate forms, imm13 being extended by a VALX prefix, LUI and AUIPC, the forms with one source,
and BFX, which takes the field at b[5:0] of the length b[13:8]. -/
def Obligations.IntegerImmediateResults : Prop :=
  ∀ (s : State) (hid : Nat) (h : Hart) (px : Px) (d a b : Reg) (i : BitVec 13) (sh : BitVec 6) (u : BitVec 18)
    (wc : BitVec 2) (sg : BitVec 1), Runs s px [d.toNat, a.toNat, b.toNat] hid h → wc ≠ 3 →
    let x := fun j => h.reg j a.toNat
    let y := fun j => h.reg j b.toNat
    let w := fun f => goes (rowsWritten s hid h px d f)
    let k : Dword := match px.valx with
      | some v => (v.extractLsb' 7 19 ++ i).signExtend 64
      | none => i.signExtend 64
    let n := 8 * 2 ^ wc.toNat
    exec (.addi px d a i) s = w (fun j => BitVec.ofInt 64 ((x j).toInt + k.toInt)) ∧
    exec (.andi px d a i) s = w (fun j => x j &&& k) ∧
    exec (.ori px d a i) s = w (fun j => x j ||| k) ∧
    exec (.xori px d a i) s = w (fun j => x j ^^^ k) ∧
    exec (.slti px d a i) s = w (fun j => oneIf ((x j).toInt < k.toInt)) ∧
    exec (.sltiu px d a i) s = w (fun j => oneIf ((x j).toNat < k.toNat)) ∧
    exec (.slli px d a sh) s = w (fun j => BitVec.ofNat 64 ((x j).toNat * 2 ^ sh.toNat)) ∧
    exec (.srli px d a sh) s = w (fun j => BitVec.ofNat 64 ((x j).toNat / 2 ^ sh.toNat)) ∧
    exec (.srai px d a sh) s = w (fun j => BitVec.ofInt 64 ((x j).toInt / 2 ^ sh.toNat)) ∧
    exec (.lui px d u) s = w (fun _ => BitVec.ofInt 64 (u.toInt * 2 ^ 13)) ∧
    exec (.auipc px d u) s = w (fun _ => h.pc + BitVec.ofInt 64 (u.toInt * 2 ^ 13)) ∧
    exec (.clz px d a) s = w (fun j => BitVec.ofNat 64 (clz64 (x j))) ∧
    exec (.ctz px d a) s = w (fun j => BitVec.ofNat 64 (((List.range 64).find? (fun k => (x j).getLsbD k)).getD 64)) ∧
    exec (.popc px d a) s = w (fun j => BitVec.ofNat 64 ((List.range 64).countP (fun k => (x j).getLsbD k))) ∧
    exec (.sext px d a wc) s = w (fun j => ((x j).setWidth n).signExtend 64) ∧
    exec (.zext px d a wc) s = w (fun j => BitVec.ofNat 64 ((x j).toNat % 2 ^ n)) ∧
    exec (.bfx px d a b sg) s = w (fun j =>
      let len := (y j).toNat / 256 % 64
      let f := ((x j) >>> ((y j).toNat % 64)).setWidth len
      if len = 0 then 0 else if sg = 1 then f.signExtend 64 else f.zeroExtend 64)

/-! ## Scalar floating point, and what one register's write leaves (R101, R122, R127) -/

/-- R127: the scalar float instructions compute exactly, round once into FP32 or the named format, and write the code
into d of every active row; FMIN32 and FMAX32 give the operand that is smaller or larger, -0 lying below +0, and the
canonical NaN where either operand is a NaN. -/
def Obligations.ScalarFloatResults : Prop :=
  ∀ (s : State) (hid : Nat) (h : Hart) (px : Px) (d a b : Reg) (sf : BitVec 1) (m p : BitVec 3) (k : BitVec 2)
    (f : BitVec 5), Runs s px [d.toNat, a.toNat, b.toNat] hid h →
    let x := fun j => fp32.decode ((h.reg j a.toNat).toNat % 2 ^ 32)
    let y := fun j => fp32.decode ((h.reg j b.toNat).toNat % 2 ^ 32)
    let z := fun j => fp32.decode ((h.reg j d.toNat).toNat % 2 ^ 32)
    let w := fun m g => goes (floatWritten s hid h px d m g)
    let r := fun (mode sr : Nat) (e : Exact × Flags) =>
      let c := roundF fp32 mode (sf == 1) sr e.1
      ((BitVec.ofNat 64 c.1, e.2 ||| c.2) : FRow)
    exec (.fadd32 px d a b sf m) s = w m (fun mode j sr => r mode sr (addE (mode == 2) (x j) (y j))) ∧
    exec (.fsub32 px d a b sf m) s = w m (fun mode j sr => r mode sr (addE (mode == 2) (x j) (y j).negate)) ∧
    exec (.fmul32 px d a b sf m) s = w m (fun mode j sr => r mode sr (mulE (x j) (y j))) ∧
    exec (.fma32 px d a b sf m) s = w m (fun mode j sr =>
      let q := mulE (x j) (y j)
      let u := addE (mode == 2) q.1 (z j)
      r mode sr (u.1, q.2 ||| u.2)) ∧
    exec (.fdiv32 px d a b sf m) s = w m (fun mode j sr => r mode sr (divE (x j) (y j))) ∧
    exec (.fsqrt32 px d a sf m) s = w m (fun mode j sr => r mode sr (sqrtE (x j))) ∧
    exec (.fcmp32 px d a b p) s = w 0 (fun _ j _ =>
      let q := predE p.toNat (x j) (y j)
      (if q.1 then 1 else 0, q.2)) ∧
    exec (.fcvtif px d a k m) s = w m (fun mode j sr =>
      let c := roundF fp32 mode false sr (exactOfInt (kindValue k (h.reg j a.toNat)))
      (BitVec.ofNat 64 c.1, 0 ||| c.2)) ∧
    exec (.fcvtfi px d a k m) s = w m (fun mode j sr =>
      let c := roundI (kindWidth k) (kindSigned k) mode sr (x j)
      (extLoad (kindWidth k / 8) (kindSigned k) c.1, c.2)) ∧
    exec (.fcvtffTo px d a sf f m) s = w m (fun mode j sr =>
      let c := roundF (fspec f) mode (sf == 1) sr (x j)
      (BitVec.ofNat 64 c.1, c.2)) ∧
    exec (.fcvtffFrom px d a f m) s = w m (fun mode j sr =>
      let c := (h.reg j a.toNat).toNat % 2 ^ fmtWidth f
      (BitVec.ofNat 64 (roundF fp32 mode false sr ((fspec f).decode c)).1, flagIf (f == 11 && decide (128 ≤ c)) flagNv)) ∧
    (let nan := fun j => (x j).isNan || (y j).isNan
     let low := fun (n : Nat) j => BitVec.ofNat 64 ((h.reg j n).toNat % 2 ^ 32)
     exec (.fmin32 px d a b) s = goes (rowsWritten s hid h px d (fun j =>
       if nan j then 0x7FC00000 else if (x j).lessTotal (y j) then low a.toNat j else low b.toNat j)) ∧
     exec (.fmax32 px d a b) s = goes (rowsWritten s hid h px d (fun j =>
       if nan j then 0x7FC00000 else if (x j).lessTotal (y j) then low b.toNat j else low a.toNat j)))

/-- R101, R122: an instruction that writes one register changes d in the active rows and no other register, mask,
vector register, CSR but RETIRED, or byte of memory; with d = s0 it writes nothing. What the write of one value per
active row leaves to be read is that value in d of every active row, and 0 from s0, in a hart with a register row for
each die row. -/
def Obligations.OneRegisterFrame : Prop :=
  (∀ (i : Instr) (px : Px) (d : Reg) (regs : List Nat) (s t : State) (hid : Nat) (h : Hart),
    writesOne i = some (px, d, regs) → Runs s px (d.toNat :: regs) hid h → exec i s = goes t →
    onlyHarts s t ∧ onlyHart s t hid ∧ sameBytes s t ∧
    ∃ g, look t.harts hid = some g ∧ otherRegs h g (h.active px) d.toNat ∧ (d = 0 → g.rows = h.rows) ∧
      sameVectors h g ∧ retiredHart s h g px ∧ { g.csr with retired := h.csr.retired } = h.csr) ∧
  (∀ (s : State) (hid : Nat) (h : Hart) (px : Px) (d : Reg) (v : Nat → Dword), rowsMatch h →
    ∃ g, look (rowsWritten s hid h px d v).harts hid = some g ∧
      (∀ j ∈ h.active px, g.reg j d.toNat = if d = 0 then 0 else v j) ∧ rowsMatch g)

/-- R63, R101, R127: a scalar float instruction changes d in the active rows, SRSEED, and XSTAT, in which no flag is
cleared, and no other register, mask, vector register, CSR but RETIRED, or byte of memory. -/
def Obligations.FloatFrame : Prop :=
  ∀ (i : Instr) (px : Px) (d : Reg) (regs : List Nat) (s t : State) (hid : Nat) (h : Hart),
    writesFloat i = some (px, d, regs) → Runs s px (d.toNat :: regs) hid h → exec i s = goes t →
    onlyHarts s t ∧ onlyHart s t hid ∧ sameBytes s t ∧
    ∃ g, look t.harts hid = some g ∧ otherRegs h g (h.active px) d.toNat ∧ (d = 0 → g.rows = h.rows) ∧
      sameVectors h g ∧ retiredHart s h g px ∧ g.csr.xstat &&& h.csr.xstat = h.csr.xstat ∧
      { g.csr with retired := h.csr.retired, xstat := h.csr.xstat, srseed := h.csr.srseed } = h.csr

/-! ## Branches and jumps (R132 to R134) -/

/-- R132, R133: a branch whose condition holds in every active row goes to pc + 4 × imm13, which a VALX extends; one
whose condition holds in none, or with no active row, goes to the next instruction; one whose condition holds in one
active row and not in another raises DIE_DIVERGENT_BRANCH at itself, for one of the active rows. -/
def Obligations.BranchResults : Prop :=
  ∀ (s : State) (hid : Nat) (h : Hart) (px : Px) (x y : Reg) (i : BitVec 13), Runs s px [x.toNat, y.toNat] hid h →
    let u := fun j => h.reg j x.toNat
    let v := fun j => h.reg j y.toNat
    let target := h.pc + pxImm px i * 4
    let taken := goes (s.setHart hid (h.retireTo s.now target))
    let falls := goes (retired s hid h px)
    let gives := fun (e : Instr) (c : Nat → Prop) =>
      ((∀ j ∈ h.active px, ¬ c j) → exec e s = falls) ∧
      (h.active px ≠ [] → (∀ j ∈ h.active px, c j) → exec e s = taken) ∧
      ((∃ j ∈ h.active px, c j) → (∃ j ∈ h.active px, ¬ c j) →
        ∃ k ∈ h.active px, exec e s = goes (s.takeTrap hid (scalarInfo h 1 .dieDivergentBranch k none)))
    gives (.beq px x y i) (fun j => u j = v j) ∧
    gives (.bne px x y i) (fun j => u j ≠ v j) ∧
    gives (.blt px x y i) (fun j => (u j).toInt < (v j).toInt) ∧
    gives (.bge px x y i) (fun j => (v j).toInt ≤ (u j).toInt) ∧
    gives (.bltu px x y i) (fun j => (u j).toNat < (v j).toNat) ∧
    gives (.bgeu px x y i) (fun j => (v j).toNat ≤ (u j).toNat)

/-- R134: JAL writes the address of the next instruction into d of every active row and jumps to pc + 4 × imm18, also
with an empty mask; JALR jumps to the active rows' common value of a plus imm13, falls through with an empty mask, and
raises DIE_DIVERGENT_BRANCH at itself where two active rows differ. -/
def Obligations.JumpResults : Prop :=
  ∀ (s : State) (hid : Nat) (h : Hart) (px : Px) (d a : Reg) (i : BitVec 18) (k : BitVec 13) (target : Dword),
    Runs s px [d.toNat, a.toNat] hid h →
    let link := fun (_ : Nat) => h.pc + BitVec.ofNat 64 (pxBytes px)
    let linked := h.setRegs (h.active px) d.toNat link
    exec (.jal px d i) s = goes (s.setHart hid (linked.retireTo s.now (h.pc + i.signExtend 64 * 4))) ∧
    (h.active px ≠ [] → (∀ j ∈ h.active px, h.reg j a.toNat + pxImm px k = target) → target.toNat % 4 = 0 →
      exec (.jalr px d a k) s = goes (s.setHart hid (linked.retireTo s.now target))) ∧
    (h.active px = [] → exec (.jalr px d a k) s = goes (retired s hid h px)) ∧
    ((∃ j ∈ h.active px, ∃ r ∈ h.active px, h.reg j a.toNat ≠ h.reg r a.toNat) →
      ∃ j ∈ h.active px, exec (.jalr px d a k) s = goes (s.takeTrap hid (scalarInfo h 1 .dieDivergentBranch j none)))

/-! ## Loads, stores and atomics (R128 to R131, R243 to R245) -/

/-- R128, R129: the address of row j is a + the offset, in access units, + j × the selected die stride. An interlocked
load, whose rows' accesses pass their checks and meet no access that they must wait for (R131, R269), writes into d of each active row the bytes at a
+ offset × size + row × stride, extended by the sign or by zeros; where the plan defers it (log 3), it stands in flight.
R82, R97, R98: a timed load takes a Trivet entry that lands 8 × c cycles after its issue, and retires at once. -/
def Obligations.LoadResults : Prop :=
  (∀ (h : Hart) (px : Px) (a : Reg) (off : Dword) (j : Nat), (rowAddr h px a.toNat off j).toNat =
    ((h.reg j a.toNat).toNat + off.toNat + j * (h.stride px).toNat) % 2 ^ 64) ∧
  (∀ (s s' : State) (hid : Nat) (h : Hart) (px : Px) (d a : Reg) (o : BitVec 8) (acc : List (Nat × Nat))
    (locs : List (Nat × Loc)), Runs s px [d.toNat, a.toNat] hid h → s'.defer = s.defer → acc ≠ [] →
    let va := fun (n : Nat) => rowAddr h px a.toNat (pxLoadOffset px o * BitVec.ofNat 64 n)
    let gives := fun (e : Instr) (n : Nat) (sg : Bool) =>
      s.checkRows h .r n n (va n) (h.active px) = .ok acc → s.homeRows h .plain (va n) acc = .ok (s', locs) →
      (s.defer = false → h.accessAhead n acc = false →
        exec e s = goes (s'.retire hid (locs.foldl (fun g y =>
          g.setReg y.1 d.toNat (extLoad n sg (s'.readRaw y.2 n))) h) px)) ∧
      (s.defer = true →
        exec e s = goes (s'.retire hid { h with order := h.order + 1, loads := h.loads ++ acc.map (fun y =>
          { row := y.1, dest := .scalar d.toNat h.priv n sg, addr := va n y.1, dpa := y.2, land := 0, due := none,
            data := none, pc := h.pc, tix := 0, idx := (h.idx[0]?).getD 0, scalarPipe := true, join := none, prt := none,
            order := h.order }) } px))
    gives (.lb px d a 0 o) 1 true ∧ gives (.lbu px d a 0 o) 1 false ∧ gives (.lh px d a 0 o) 2 true ∧
    gives (.lhu px d a 0 o) 2 false ∧ gives (.lw px d a 0 o) 4 true ∧ gives (.lwu px d a 0 o) 4 false ∧
    gives (.ld px d a 0 o) 8 true) ∧
  (∀ (s : State) (hid : Nat) (h : Hart) (px : Px) (d a : Reg) (c : BitVec 5) (o : BitVec 8) (acc : List (Nat × Nat)),
    Runs s px [d.toNat, a.toNat] hid h → 4 ≤ c.toNat → acc ≠ [] → h.trivetUsed < 64 →
    let va := rowAddr h px a.toNat (pxLoadOffset px o * BitVec.ofNat 64 8)
    s.checkRows h .r 8 8 va (h.active px) = .ok acc →
    ∃ t g, exec (.ld px d a c o) s = goes t ∧ look t.harts hid = some g ∧
      g.pc = h.pc + BitVec.ofNat 64 (pxBytes px) ∧ g.rows = h.rows ∧ sameBytes s t ∧
      g.loads = h.loads ++ acc.map (fun y =>
        { row := y.1, dest := .scalar d.toNat h.priv 8 true, addr := va y.1, dpa := y.2, land := 8 * c.toNat,
          due := some (s.hartCycle h + 8 * c.toNat), data := none, pc := h.pc, tix := 0,
          idx := (h.idx[0]?).getD 0, scalarPipe := true, join := none, prt := none, order := h.order }))

/-- R128, R130, R131: a store, whose rows' accesses pass their checks and meet no access that they must wait for, writes the
low bytes of d of each active row at a + imm13 × size + row × stride, in ascending row order, or, where the plan defers it
(log 3), stands in flight. A raw store of n bytes inside a sector that is not ZERO, at a
location seen as it is stored, changes the n bytes at its key to the low bytes of the value and no other byte; that the
store goes through the caches of its core changes no byte of memory besides. -/
def Obligations.StoreResults : Prop :=
  (∀ (s s' : State) (hid : Nat) (h : Hart) (px : Px) (d a : Reg) (i : BitVec 13) (acc : List (Nat × Nat))
    (locs : List (Nat × Loc)), Runs s px [d.toNat, a.toNat] hid h → s'.defer = s.defer → acc ≠ [] →
    let va := fun (n : Nat) => rowAddr h px a.toNat (pxImm px i * BitVec.ofNat 64 n)
    let gives := fun (e : Instr) (n : Nat) =>
      s.checkRows h .w n n (va n) (h.active px) = .ok acc → s.homeRows h .write (va n) acc = .ok (s', locs) →
      (s.defer = false → h.accessAhead n acc = false →
        exec e s = goes ((locs.foldl (fun t y =>
          t.storeThrough h y.1 (dpaOf acc y.1) y.2 n (h.reg y.1 d.toNat).toNat) s').retire hid h.markStored px)) ∧
      (s.defer = true →
        exec e s = goes (s'.retire hid { h.markStored with order := h.order + 1, stores := h.stores ++ acc.map (fun y =>
          { row := y.1, unit := none, cluster := 0, addr := va n y.1, dpa := y.2, size := n, val := h.reg y.1 d.toNat,
            vec := none, order := h.order }) } px))
    gives (.sb px d a i) 1 ∧ gives (.sh px d a i) 2 ∧ gives (.sw px d a i) 4 ∧ gives (.sd px d a i) 8) ∧
  (∀ (s : State) (l : Loc) (dpa n x : Nat), rising s.mem = true → l.xf = .plain → tagCls (s.tagAt l.key) ≠ 0 →
    let t := s.storeRaw dpa l n x
    (∀ k, k < n → getByte t.mem (l.key + k) = BitVec.ofNat 8 (x / 256 ^ k)) ∧
    (∀ a, (a < l.key ∨ l.key + n ≤ a) → getByte t.mem a = getByte s.mem a) ∧ t.sides = s.sides ∧
    ∀ h row, (s.storeThrough h row dpa l n x).mem = t.mem ∧ (s.storeThrough h row dpa l n x).sides = t.sides)

/-- R109, R128, R134: a load or store whose address is no multiple of its size, and a JALR to an address that is no
multiple of 4, raise MISALIGNED at themselves with that address, and no row writes. -/
def Obligations.MisalignedTraps : Prop :=
  ∀ (s : State) (hid : Nat) (h : Hart) (px : Px) (d a : Reg) (i : BitVec 13) (o : BitVec 8) (j : Nat) (js : List Nat),
    Runs s px [d.toNat, a.toNat] hid h → h.active px = j :: js →
    let up := fun (e : Instr) (ad : Dword) (n : Nat) =>
      ad.toNat % n ≠ 0 → exec e s = goes (s.takeTrap hid (scalarInfo h 1 .misaligned j (some ad)))
    let la := fun (n : Nat) => rowAddr h px a.toNat (pxLoadOffset px o * BitVec.ofNat 64 n) j
    let sa := fun (n : Nat) => rowAddr h px a.toNat (pxImm px i * BitVec.ofNat 64 n) j
    up (.lh px d a 0 o) (la 2) 2 ∧ up (.lhu px d a 0 o) (la 2) 2 ∧ up (.lw px d a 0 o) (la 4) 4 ∧
    up (.lwu px d a 0 o) (la 4) 4 ∧ up (.ld px d a 0 o) (la 8) 8 ∧
    up (.sh px d a i) (sa 2) 2 ∧ up (.sw px d a i) (sa 4) 4 ∧ up (.sd px d a i) (sa 8) 8 ∧
    (∀ target, (∀ r ∈ h.active px, h.reg r a.toNat + pxImm px i = target) → up (.jalr px d a i) target 4)

/-- R243 to R245, R281: an atomic, whose rows' accesses pass their checks, that is ordered by its scope and its order field
and waits for nothing, replaces at each row's address the old value v by its function of v and the register's low bits x,
of w bytes, the lower row first, and writes v into d; AMOCAS stores the second register where v = x and nothing otherwise, and
AMOFADD stores the FP32 sum rounded to nearest even, whose flags it adds to XSTAT; one whose order field asks for it acquires at scope k. LDAQ loads, sign-extended, and acquires at scope k, and STRL, once
the hart's earlier accesses are performed, stores at scope k. -/
def Obligations.AtomicResults : Prop :=
  (∀ (s s' : State) (hid : Nat) (h : Hart) (px : Px) (d a : Reg) (wc o : BitVec 2) (k : BitVec 5)
    (acc : List (Nat × Nat)) (locs : List (Nat × Loc)),
    Runs s px [d.toNat, d.toNat + 1, a.toNat] hid h → wc.toNat < 2 → s.defer = false → acc ≠ [] → h.wait.fenceOn k.toNat = none →
    s.scopePending h.ctx k.toNat = false → s.scopeRows h k.toNat (h.active px) = none →
    (o.getLsbD 1 = true → h.releaseReady = true) →
    let va := rowAddr h px a.toNat 0
    let reg := fun j => (h.reg j d.toNat).toNat
    let reg1 := fun j => (h.reg j (d.toNat + 1)).toNat
    let gives := fun (e : Instr) (op : AmoOp) (n : Nat) =>
      s.checkRows h .rw n n va (h.active px) = .ok acc → h.accessAhead n acc = false →
      s.homeRows h .syncWrite va acc = .ok (s', locs) →
      let r := amoRows s' op n reg reg1 (amoList acc locs)
      let g := r.2.1.foldl (fun g y => g.setReg y.1 d.toNat (extLoad n (op != .fadd) y.2)) h.markStored
      let t := if o.getLsbD 0 = true then r.1.acquire h (h.active px) k.toNat (s.contents h.ctx k.toNat) else r.1
      exec e s = goes (t.retire hid { g with csr := { g.csr with xstat := g.csr.xstat ||| r.2.2 } } px)
    let n := if wc = 0 then 4 else 8
    gives (.amoadd px d a wc o k) .add n ∧ gives (.amoand px d a wc o k) .and n ∧ gives (.amoor px d a wc o k) .or n ∧
    gives (.amoxor px d a wc o k) .xor n ∧ gives (.amomin px d a wc o k) .min n ∧ gives (.amomax px d a wc o k) .max n ∧
    gives (.amominu px d a wc o k) .minu n ∧ gives (.amomaxu px d a wc o k) .maxu n ∧
    gives (.amoswap px d a wc o k) .swap n ∧ gives (.amocas px d a wc o k) .cas n ∧ gives (.amofadd px d a o k) .fadd 4) ∧
  (∀ (w v x y : Nat), (w = 4 ∨ w = 8) → v < 2 ^ (8 * w) → x < 2 ^ (8 * w) →
    let s := fun (z : Nat) => (BitVec.ofNat (8 * w) z).toInt
    (amoNew .add w v x y).1 = some ((v + x) % 2 ^ (8 * w)) ∧ (amoNew .and w v x y).1 = some (v &&& x) ∧
    (amoNew .or w v x y).1 = some (v ||| x) ∧ (amoNew .xor w v x y).1 = some (v ^^^ x) ∧
    (amoNew .min w v x y).1 = some (if s v ≤ s x then v else x) ∧
    (amoNew .max w v x y).1 = some (if s v ≤ s x then x else v) ∧
    (amoNew .minu w v x y).1 = some (min v x) ∧ (amoNew .maxu w v x y).1 = some (max v x) ∧
    (amoNew .swap w v x y).1 = some x ∧
    (amoNew .cas w v x y).1 = (if v = x then some (y % 2 ^ (8 * w)) else none)) ∧
  (∀ (v x y : Nat),
    let e := addE false (fp32.decode v) (fp32.decode x)
    let r := roundF fp32 0 false 0 e.1
    amoNew .fadd 4 v x y = (some r.1, e.2 ||| r.2)) ∧
  (∀ (s : State) (op : AmoOp) (w : Nat) (reg reg1 : Nat → Nat) (r : AmoRow) (rs : List AmoRow),
    let old := s.readRaw r.loc w
    let y := amoNew op w old (reg r.row % 2 ^ (8 * w)) (reg1 r.row)
    let t := match y.1 with
      | some z => s.storeRaw r.dpa r.loc w z
      | none => s
    let rest := amoRows t op w reg reg1 rs
    amoRows s op w reg reg1 [] = (s, [], 0) ∧
    amoRows s op w reg reg1 (r :: rs) = (rest.1, (r.row, old) :: rest.2.1, y.2 ||| rest.2.2)) ∧
  (∀ (s s' : State) (hid : Nat) (h : Hart) (px : Px) (d a : Reg) (wc : BitVec 2) (k : BitVec 5)
    (acc : List (Nat × Nat)) (locs : List (Nat × Loc)),
    Runs s px [d.toNat, a.toNat] hid h → s.defer = false → acc ≠ [] → h.wait.fenceOn k.toNat = none →
    s.scopePending h.ctx k.toNat = false → s.scopeRows h k.toNat (h.active px) = none →
    let va := rowAddr h px a.toNat 0
    let n := if wc = 0 then 4 else 8
    (s.checkRows h .r n n va (h.active px) = .ok acc → h.accessAhead n acc = false →
      s.homeRows h .sync va acc = .ok (s', locs) →
      exec (.ldaq px d a wc k) s = goes ((s'.acquire h (h.active px) k.toNat (s.contents h.ctx k.toNat)).retire hid (locs.foldl (fun g y =>
        g.setReg y.1 d.toNat (extLoad n true (s'.readRaw y.2 n))) h) px)) ∧
    (s.checkRows h .w n n va (h.active px) = .ok acc → h.releaseReady = true →
      s.homeRows h .syncWrite va acc = .ok (s', locs) →
      exec (.strl px d a wc k) s = goes ((locs.foldl (fun t y =>
        t.storeRaw (dpaOf acc y.1) y.2 n (h.reg y.1 d.toNat).toNat) s').retire hid h.markStored px)))

/-! ## CSRs, lengths, masks and die rows (R104, R105, R135 to R142, R226) -/

/-- R4, R5, R104, R135, R138: a CSR instruction that need not wait puts the old value of the CSR into d of every active
row, and then sets, clears or replaces the CSR's writable bits by the lowest active row's value of a; CSRRS and CSRRC
with a = s0 only read. A write of a CSR that only H may write raises PRIVILEGE in U, and a write that sets a bit which
reads as zero raises RESERVED_FIELD; the CSR keeps its value. -/
def Obligations.CsrResults : Prop :=
  (∀ (s : State) (hid : Nat) (h : Hart) (px : Px) (d a : Reg) (c : BitVec 12) (j : Nat) (js : List Nat),
    Runs s px [d.toNat, a.toNat] hid h → h.active px = j :: js → c ≠ 0x003 → c ≠ 0x023 → c ≠ 0x040 →
    h.csrWaits c.toNat = false → (csrHOnly c.toNat = true → h.priv = true) →
    let old := s.csrValue h c.toNat
    let x := h.reg j a.toNat
    let g := h.setRegs (h.active px) d.toNat (fun _ => old)
    let put := fun (new : Dword) => goes (s.retire hid (g.csrStore c.toNat new) px)
    (csrReject c.toNat x = none → exec (.csrrw px d a c) s = put x) ∧
    (a ≠ 0 → csrReject c.toNat (old ||| x) = none → exec (.csrrs px d a c) s = put (old ||| x)) ∧
    (a ≠ 0 → csrReject c.toNat (old &&& ~~~ x) = none → exec (.csrrc px d a c) s = put (old &&& ~~~ x)) ∧
    exec (.csrrs px d 0 c) s = goes (s.retire hid g px) ∧ exec (.csrrc px d 0 c) s = goes (s.retire hid g px)) ∧
  (∀ (s : State) (hid : Nat) (h : Hart) (px : Px) (d a : Reg) (c : BitVec 12) (j : Nat) (js : List Nat),
    Runs s px [d.toNat, a.toNat] hid h → h.active px = j :: js → c ≠ 0x003 → h.csrWaits c.toNat = false →
    (csrHOnly c.toNat = true → h.priv = false →
      exec (.csrrw px d a c) s = goes (s.takeTrap hid (scalarInfo h 1 .privilege j none))) ∧
    ((csrHOnly c.toNat = true → h.priv = true) → h.reg j a.toNat &&& csrRz c.toNat ≠ 0 →
      exec (.csrrw px d a c) s = goes (s.takeTrap hid (scalarInfo h 1 .reservedField j none))))

/-- R55, R138, R226, R231: PRTABA 0 selects the default table and another address installs the 1,024 bytes there, in the
writing hart's copy of PRTABA and as the table of its whole context (log 49, DEDUCED), whose image at PRTIMG takes the
bytes as they were read (log 34, DEDUCED); an access
of XSTAT or SRSEED goes on once every engine is idle, and one of a tape register once the MX engine is, a write of TAPEN
ending the registrations of the hart's records from the new value on. -/
def Obligations.SpecialCsrResults : Prop :=
  ∀ (s : State) (hid : Nat) (h : Hart) (px : Px) (d a : Reg) (c : BitVec 12) (j : Nat) (js : List Nat),
    Runs s px [d.toNat, a.toNat] hid h →
    let x := h.reg j a.toNat
    let old := s.csrValue h c.toNat
    (h.active px = j :: js → h.priv = true → x = 0 →
      let g := h.setRegs (h.active px) d.toNat (fun _ => s.csrValue h 0x040)
      exec (.prtabaWrite px .rw d a) s = goes ((s.modCtx h.ctx (fun y => { y with prtaba := 0, prt := none })).retire hid
        { g with csr := { g.csr with prtaba := 0 } } px)) ∧
    (h.active px = j :: js → h.priv = true → x ≠ 0 →
      let g := h.setRegs (h.active px) d.toNat (fun _ => s.csrValue h 0x040)
      ∀ s' b, s.rawStruct g j 1024 256 4 x = .ok (s', b) →
        exec (.prtabaWrite px .rw d a) s = goes ((s'.installPrt h.ctx x (bytesOfNat b 1024)).retire hid
          { g with csr := { g.csr with prtaba := x } } px)) ∧
    (h.active px = j :: js → (c = 0x008 ∨ c = 0x00B) → h.enginesIdle = true → csrReject c.toNat x = none →
      exec (.xstatSrseedAccess px .rw d a c) s =
        goes (s.retire hid ((h.setRegs (h.active px) d.toNat (fun _ => old)).csrStore c.toNat x) px)) ∧
    (h.active px = j :: js → (c = 0x020 ∨ c = 0x021 ∨ c = 0x022) → h.awaits .mx = false → csrReject c.toNat x = none →
      exec (.tapeCsrAccess px .rw d a c) s =
        goes (s.retire hid ((h.setRegs (h.active px) d.toNat (fun _ => old)).csrStore c.toNat x) px)) ∧
    (h.active px = j :: js → h.awaits .mx = false → csrReject 0x023 x = none →
      exec (.tapeCsrAccess px .rw d a 0x023) s =
        goes (({ s with keeps := s.keeps.filter (fun k => !(decide (k.hart = hid) && decide (x.toNat % 2 ^ 32 ≤ k.record))) } :
          State).retire hid ((h.setRegs (h.active px) d.toNat (fun _ => s.csrValue h 0x023)).csrStore 0x023 x) px))

/-- R137: a CSR instruction on DMASK ignores the die mask: it takes its source from row 0 and writes the old value into d
in every row of the die span, and the value written is kept in the bits of the span. -/
def Obligations.DmaskResults : Prop :=
  ∀ (s : State) (hid : Nat) (h : Hart) (px : Px) (d a : Reg) (js : List Nat), Runs s px [d.toNat, a.toNat] hid h →
    h.allRows = 0 :: js →
    let x := h.reg 0 a.toNat
    let old : Dword := h.csr.dmask.zeroExtend 64
    let g := h.setRegs h.allRows d.toNat (fun _ => old)
    let gets := fun (op : CsrOp) (c : Instr) (new : Dword) => new.toNat < 256 →
      let t := goes (s.retire hid
        { g with csr := { g.csr with dmask := new.extractLsb' 0 8 &&& BitVec.ofNat 8 (2 ^ g.span - 1) } } px)
      exec (.dmaskAccess px op d a) s = t ∧ exec c s = t
    gets .rw (.csrrw px d a 3) x ∧
    (a ≠ 0 → gets .rs (.csrrs px d a 3) (old ||| x)) ∧ (a ≠ 0 → gets .rc (.csrrc px d a 3) (old &&& ~~~ x)) ∧
    (a = 0 → ∀ op, op ≠ .rw → exec (.dmaskAccess px op d a) s = goes (s.retire hid g px))

/-- R141: DMSETC clears in DMASK the bit of each active row whose a is zero, or with z not zero, and keeps every other
bit, the mask becoming empty where it keeps none; it changes nothing else of the hart. -/
def Obligations.DieMaskChange : Prop :=
  ∀ (s : State) (hid : Nat) (h : Hart) (px : Px) (a : Reg) (z : BitVec 1), Runs s px [a.toNat] hid h →
    ∃ g, exec (.dmsetc px a z) s = goes (s.retire hid g px) ∧ { g with csr := h.csr } = h ∧
      { g.csr with dmask := h.csr.dmask } = h.csr ∧
      ∀ k, k < 8 → g.csr.dmask.getLsbD k
        = (h.csr.dmask.getLsbD k && !(decide (k ∈ h.active px) && (decide (h.reg k a.toNat = 0) == decide (z = 0))))

/-- R139, R142: VLSET sets VL to the smaller of a and the elements of a register at the container; DRED combines a over the active rows, and DBCAST
copies it from one row, into d of every active row. -/
def Obligations.DieRowResults : Prop :=
  ∀ (s : State) (hid : Nat) (h : Hart) (px : Px) (d a : Reg) (w o r : BitVec 3) (j : Nat) (js : List Nat),
    Runs s px [d.toNat, a.toNat] hid h → h.active px = j :: js → w.toNat < 5 → o ≠ 7 →
    let x := fun k => h.reg k a.toNat
    let most := if w = 0 then 512 * h.csr.xcl else 512 * h.csr.xcl / 2 ^ w.toNat
    let n := min (x j).toNat most
    exec (.vlset px d a w) s =
      goes (s.retire hid (({ h with csr := { h.csr with vl := BitVec.ofNat 16 n, vlcw := w } } : Hart).setRegs
        (h.active px) d.toNat (fun _ => BitVec.ofNat 64 n)) px) ∧
    exec (.dred px d a o) s = goes (rowsWritten s hid h px d (fun _ => js.foldl (fun y k => dredStep o y (x k)) (x j))) ∧
    (r.toNat < h.span → exec (.dbcast px d a r) s = goes (rowsWritten s hid h px d (fun _ => x r.toNat))) ∧
    (h.span ≤ r.toNat → exec (.dbcast px d a r) s = goes (s.takeTrap hid (scalarInfo h 1 .reservedField 0 none)))

/-! ## Traps (R261 to R265) -/

/-- R261: ECALL takes SERVICE_CALL with its code in the status word, EBREAK takes DEBUG_BREAK, each with the next
instruction's address in the record; an undefined word takes ILLEGAL_OPCODE at itself (R106). TRAPRET raises PRIVILEGE in
U; in H it reads the record at TRAPREC and, for a scalar trap without SKIP, goes back to U at the record's pc with the
trap ended, to the wait that the trap broke off where that pc is the held one. -/
def Obligations.CallResults : Prop :=
  (∀ (s : State) (hid : Nat) (h : Hart) (px : Px) (n : BitVec 12) (w : Word), Runs s px [] hid h →
    let next := h.pc + BitVec.ofNat 64 (pxBytes px)
    exec (.ecall px n) s =
      goes (s.takeTrap hid { scalarInfo h 1 .serviceCall 0 none with pc := next, status := n.zeroExtend 32 }) ∧
    exec (.ebreak px) s = goes (s.takeTrap hid { scalarInfo h 1 .debugBreak 0 none with pc := next }) ∧
    exec (.illegalOpcode px w) s =
      goes (s.takeTrap hid (scalarInfo h (if pxAny px then 7 else w.toNat / 2 ^ 29) .illegalOpcode 0 none))) ∧
  (∀ (s s' : State) (hid : Nat) (h : Hart) (px : Px) (y : Nat), Runs s px [] hid h →
    (h.priv = false → exec (.trapret px) s = goes (s.takeTrap hid (scalarInfo h 1 .privilege 0 none))) ∧
    (h.priv = true → s.rawStruct h 0 64 64 1 h.csr.traprec = .ok (s', y) → recordRz y = false → bits y 12 10 = 0 →
      bitOf y 17 = false →
      let pc := BitVec.ofNat 64 (bits y 127 64)
      let wait := match h.traps with
        | t :: _ => if pc = t.hold then t.wait else Wait.none
        | [] => Wait.none
      exec (.trapret px) s = goes (s'.setHart hid
        { h.retire s'.now px with traps := h.traps.drop 1, priv := false, state := .running, pc := pc, wait := wait })))

/-- R262: a trap taken in U, with a handler and a record address that can be written, writes its record there, sets
TRAPCAUSE, holds the scalar pipeline's pc with a registered BWAIT, and enters H at TRAPVEC; every queued command keeps its place, and
the hart's cores and dies keep no older copy of the record's sector. A trap raised in
H, or with no place for its record, writes it into the hart's frame and suspends the hart. -/
def Obligations.TrapEntry : Prop :=
  (∀ (s : State) (hid : Nat) (h : Hart) (i : TrapInfo) (l : Loc) (dpa : Nat), look s.harts hid = some h → h.priv = false →
    h.csr.trapvec ≠ 0 → i.cause ≠ .mcUncorrectable → s.trecLoc h = some (l, dpa) →
    let a := s.localDpa dpa
    let t := (((s.dropL1 h.cores a).recall a).writeFar h.cores l).storeRaw a l 64 (s.trapRecord h i).toNat
    s.takeTrap hid i = t.setHart hid
      { h with csr := { h.csr with trapEng := BitVec.ofNat 3 i.eng, trapCause := BitVec.ofNat 10 (causeCode i.cause) },
               wait := .none, lastProgress := s.now,
               traps := { hold := h.pc, inFrame := false, wait := h.wait.kept } :: h.traps,
               priv := true, pc := h.csr.trapvec, state := .running }) ∧
  (∀ (s : State) (hid : Nat) (h : Hart) (i : TrapInfo), look s.harts hid = some h → (h.priv = true ∨ s.trecLoc h = none) →
    s.takeTrap hid i = (s.writeFrameRecord h (s.trapRecord h i)).suspend hid
      { h with csr := { h.csr with trapEng := BitVec.ofNat 3 i.eng, trapCause := BitVec.ofNat 10 (causeCode i.cause) },
               wait := .none, lastProgress := s.now,
               traps := { hold := h.pc, inFrame := true, wait := h.wait.kept } :: h.traps })

/-- R264: the fields of the trap record, at their places in its 64 bytes: the six command indices, of which the failing
engine's is that of the failing command, and zeros in the ranges that are RZ. -/
def Obligations.TrapRecordFields : Prop :=
  ∀ (s : State) (h : Hart) (i : TrapInfo),
    let r := (s.trapRecord h i).toNat
    bits r 9 0 = causeCode i.cause % 2 ^ 10 ∧ bits r 12 10 = i.eng % 8 ∧ bitOf r 13 = i.addr.isSome ∧
    bitOf r 14 = i.progress ∧ bitOf r 15 = (i.cause == .mcUncorrectable) ∧ bitOf r 16 = h.priv ∧ bitOf r 17 = false ∧
    bits r 31 18 = 0 ∧ bits r 63 32 = i.status.toNat ∧ bits r 127 64 = i.pc.toNat ∧
    bits r 319 256 = (i.addr.getD 0).toNat ∧ bits r 327 320 = 2 ^ i.row % 256 ∧ bits r 333 328 = i.tix.toNat ∧
    bits r 336 334 = i.cls % 8 ∧ bits r 395 384 = h.ctx % 2 ^ 12 ∧ bits r 406 400 = h.coreOf i.row % 2 ^ 7 ∧
    bits r 409 408 = h.slot % 4 ∧ bits r 511 448 = s.cycle (h.coreOf i.row) % 2 ^ 64 ∧
    (∀ e, e < 6 → bits r (143 + 16 * e) (128 + 16 * e) =
      (if e = i.eng then i.idx.getD (h.curIdx e) else (h.idx[e]?).getD 0).toNat) ∧
    bits r 255 224 = 0 ∧ bits r 383 337 = 0 ∧ bits r 399 396 = 0 ∧ bitOf r 407 = false ∧ bits r 447 410 = 0

/-! ## Events, joins and fences (R149, R240 to R242) -/

/-- R149, R240, R241, R242, R300: WFE clears a set event flag and retires, and waits otherwise until 65,536 cycles set it;
LSYNC retires once the hart's accesses have completed, FENCES once its releases may take effect and its jobs are done,
with an acquire at its scope for every row, and each DRAIN once no job that it names writes, the active rows' cores losing
their copies of what their jobs wrote. -/
def Obligations.JoinResults : Prop :=
  ∀ (s : State) (hid : Nat) (h : Hart) (px : Px) (k : BitVec 5) (t : Nat), Runs s px [] hid h →
    (h.event = true → exec (.wfe px) s = goes (s.retire hid { h with event := false } px)) ∧
    (h.event = false → h.wait = .none →
      exec (.wfe px) s = goes (s.setHart hid { h with wait := .wfe (s.hartCycle h) })) ∧
    (h.wait = .wfe t → t + 65536 ≤ s.hartCycle h → exec .wfeTimeout s = goes (s.setHart hid { h with event := true })) ∧
    (h.accessesDone = true → exec (.lsync px) s = goes (retired s hid h px)) ∧
    (h.accessesDone = false → exec (.lsync px) s = goes s) ∧
    (s.defer = false → h.wait = .none → s.scopePending h.ctx k.toNat = false →
      s.scopeRows h k.toNat (h.active px) = none → h.releaseReady = true → s.jobsDone hid h = true →
      exec (.fences px k) s = goes ((s.acquire h h.allRows k.toNat (s.contents h.ctx k.toNat)).retire hid h px)) ∧
    ((h.queue .jb).any (fun c => c.fault.isNone && c.done.isNone) = false → h.wait = .none →
      let quiet := fun space => s.drains h ((h.active px).map h.coreOf) s.nextJob space = false
      let ends := goes ((((h.active px).map h.coreOf).foldl State.dropJobCopies s).retire hid h px)
      (quiet 0 → exec (.drainSpad px) s = ends) ∧ (quiet 1 → exec (.drainDev px) s = ends) ∧
      (quiet 2 → exec (.drainDom px) s = ends))

/-! ## Scopes, barriers and future cells (R246 to R254, R359 to R364) -/

/-- R246 to R249: SCOPEWR, whose rows' descriptors are all well-formed, and SCOPEINV change an entry at once, the highest
active row's contents being the last, and answer 0 where nothing is in flight on it; with .nb they answer 0x183 where
something is, and otherwise wait for SCOPE_CHANGE_INSTALL, which gives an entry with nothing in flight its oldest pending
contents, under which the operations that wait issue; that rewrites queued on one entry install one after the other, the
entry staying PENDING and admitting between them, is the model's reading (log 31, DEDUCED). A descriptor of one row is read as 64 bytes and gives its contents
where it keeps R247. -/
def Obligations.ScopeResults : Prop :=
  (∀ (s s' : State) (hid : Nat) (h : Hart) (px : Px) (d a : Reg) (n : BitVec 1) (e : BitVec 5) (j : Nat) (js : List Nat)
    (news : List (Option Scope)), Runs s px [d.toNat, a.toNat] hid h → h.active px = j :: js → h.wait = .none →
    let eo := s.scopeEntry h.ctx e.toNat
    let en := s'.scopeEntry h.ctx e.toNat
    let free := fun (s : State) => (s.scopeEntry h.ctx e.toNat).pending = [] ∧ s.flight h.ctx e.toNat = 0
    let answer := fun x => h.setRegs (h.active px) d.toNat (fun _ => x)
    let busy := fun (s : State) => goes (s.retire hid (answer 0x183) px)
    let waits := fun (s : State) (y : ScopeEntry) (xs : List (Option Scope)) =>
      goes ((s.setScope h.ctx e.toNat { y with pending := y.pending ++ xs.map (fun x => { hart := hid, new := x }) }).setHart
        hid { h with wait := .scope e.toNat false })
    (s.scopeDescs h (fun r => h.reg r a.toNat) (j :: js) = .ok (s', news) →
      (free s' → exec (.scopewr px d a n e) s =
        goes ((s'.setScope h.ctx e.toNat { en with cur := news.getLastD en.cur }).retire hid (answer 0) px)) ∧
      (¬ free s' → exec (.scopewr px d a 1 e) s = busy s' ∧ exec (.scopewr px d a 0 e) s = waits s' en news)) ∧
    (free s → exec (.scopeinv px d n e) s =
      goes ((s.setScope h.ctx e.toNat { eo with cur := none }).retire hid (answer 0) px)) ∧
    (¬ free s → exec (.scopeinv px d 1 e) s = busy s ∧
      exec (.scopeinv px d 0 e) s = waits s eo ((j :: js).map (fun _ => none)))) ∧
  (∀ (s s' : State) (h : Hart) (j y : Nat) (va : Nat → Dword), s.rawStruct h j 64 64 1 (va j) = .ok (s', y) →
    scopeIllFormed s'.pkg (BitVec.ofNat 512 y) = false →
    s.scopeDescs h va [j] = .ok (s', [some (scopeOf (BitVec.ofNat 512 y))])) ∧
  (∀ (s : State) (r : ScopeRewrite) (rest : List ScopeRewrite),
    let ctx := s.focus.unit
    let k := s.focus.sub
    (s.scopeEntry ctx k).pending = r :: rest → s.flight ctx k = 0 →
    exec .scopeChangeInstall s =
      goes ((s.setScope ctx k { cur := r.new, pending := rest, admits := !rest.isEmpty }).modHart r.hart (fun h =>
        match h.wait with
        | .scope i _ => if i = k then { h with wait := .scope k (!rest.any (fun q => q.hart == r.hart)) } else h
        | _ => h)))

/-- R250 to R252, R281, R361, R362, R409: in a hart of one active row, whose access passes its checks, meets no access ahead
and finds no later place of this cycle to have acted on the object, with an object whose RZ bits are zero: BARINIT stores the object with EXPA = n and SCOPE = k; BARARM adds its bytes and BARRIVE
its bytes and arrivals. Where the counts do not meet, the object takes them; where they meet and its SCOPE entry is not
PENDING and has the core as a member, it flips, the waits that it registers end, and the event flags of the context are
set. BWAIT returns, as an acquire at the object's scope under its contents at issue, where PHASE is not p, registers with the
object otherwise, and returns once it is released. -/
def Obligations.BarrierResults : Prop :=
  ∀ (s s' : State) (hid : Nat) (h : Hart) (px : Px) (d a : Reg) (n : BitVec 8) (k : BitVec 5) (p : BitVec 1)
    (j dpa : Nat) (l : Loc), Runs s px [d.toNat, a.toNat] hid h → h.active px = [j] →
    let va := fun r => h.reg r a.toNat
    let place := h.barrierPlaces [(j, dpa)]
    let o := s'.barrierTook place
    let x := o.readRaw l 32
    let key := objectKey (h.coreOf j) dpa
    let cur := o.contents h.ctx (barrierScope x)
    let member := o.scopeCheck h.ctx (barrierScope x) (.core (h.coreOf j)) = none
    let reaches := fun (perm : Perm) (u : Use) => s.barrierRows h perm va [j] = .ok [(j, dpa)] ∧
      h.accessAhead 32 [(j, dpa)] = false ∧ s.barrierMay place = true ∧ s.homeRows h u va [(j, dpa)] = .ok (s', [(j, l)])
    let counts := fun (e : Instr) (b : BarAct) =>
      reaches .rw .syncWrite → h.wait = .none → barrierRz x = false →
      let r := barrierNext x b
      (r.2.1 = false → exec e s = goes ((o.storeRaw dpa l 32 r.1).retire hid h.markStored px)) ∧
      (r.2.1 = true → r.2.2 = false → o.scopePending h.ctx (barrierScope x) = false → member →
        exec e s = goes ((((o.storeRaw dpa l 32 r.1).releaseBwaits key).wakeContext h.ctx).retire hid
          { h.markStored with event := true, traps := h.traps.map (fun t => { t with wait := t.wait.flipped key }) } px))
    (reaches .rw .syncWrite → s.scopePending h.ctx k.toNat = false → s.scopeRows h k.toNat [j] = none →
      exec (.barinit px a n k) s =
        goes ((o.storeRaw dpa l 32 (n.toNat * 2 ^ 64 + k.toNat * 2 ^ 104)).retire hid h.markStored px)) ∧
    ((h.reg j d.toNat).toNat < 2 ^ 32 → counts (.bararm px d a) { expb := (h.reg j d.toNat).toNat }) ∧
    (h.releaseReady = true → s.releaseDown h = none →
      counts (.barrive px d a n) { arrb := (h.reg j d.toNat).toNat % 2 ^ 32, arra := n.toNat }) ∧
    (reaches .r .sync → h.wait = .none → barrierRz x = false → member →
      (bitOf x 96 ≠ p.getLsbD 0 →
        exec (.bwait px a p) s = goes ((o.acquire h [j] (barrierScope x) cur).retire hid h px)) ∧
      (bitOf x 96 = p.getLsbD 0 → exec (.bwait px a p) s =
        goes (o.setHart hid { h with wait := .bwait [key] [(barrierScope x, cur)] }))) ∧
    (∀ sc, h.wait = .bwait [] [sc] → exec (.bwait px a p) s = goes ((s.acquire h [j] sc.1 sc.2).retire hid h px))

/-- R7, R252, R359 to R361: an object flips exactly where its arrivals and bytes, summed exactly, meet what is expected of
them, some being expected, or exceed it; a flip inverts PHASE and zeroes the counts but EXPA, and an excess sets ERR. -/
def Obligations.BarrierCounts : Prop :=
  ∀ (x : Nat) (b : BarAct), x < 2 ^ 256 →
    let expb := bits x 31 0 + b.expb
    let arrb := bits x 63 32 + b.arrb
    let expa := bits x 79 64
    let arra := bits x 95 80 + b.arra
    let excess := (expb ≠ 0 ∧ expb < arrb) ∨ expa < arra
    let meet := arrb = expb ∧ arra = expa ∧ (expa ≠ 0 ∨ expb ≠ 0)
    let r := barrierNext x b
    let y := r.1
    (r.2.1 = true ↔ excess ∨ meet) ∧ (r.2.2 = true ↔ excess) ∧ bits y 79 64 = expa ∧
    (r.2.1 = true → bits y 31 0 = 0 ∧ bits y 63 32 = 0 ∧ bits y 95 80 = 0 ∧ bitOf y 96 = !bitOf x 96) ∧
    (r.2.1 = false → bits y 31 0 = expb % 2 ^ 32 ∧ bits y 63 32 = arrb % 2 ^ 32 ∧ bits y 95 80 = arra ∧
      bitOf y 96 = bitOf x 96) ∧
    (bitOf y 97 = true ↔ bitOf x 97 = true ∨ b.err = true ∨ excess) ∧ bits y 255 98 = bits x 255 98

/-- R253, R254, R281: in a hart of one active row, FRD of a full cell reads word i of its sector into d and acquires, and
FWR of a cell writes word i, makes its class FFULL, releases the waiters of a cell that was empty, and sets the event flag
of the context's harts. -/
def Obligations.FutureResults : Prop :=
  ∀ (s s' : State) (hid : Nat) (h : Hart) (px : Px) (d a : Reg) (i : BitVec 5) (j dpa : Nat) (l : Loc),
    Runs s px [d.toNat, a.toNat] hid h → h.active px = [j] →
    let va := fun r => h.reg r a.toNat
    let row : AmoRow := { row := j, dpa := dpa, loc := l }
    (s.checkRows h .r 256 256 va [j] = .ok [(j, dpa)] → h.accessAhead 256 [(j, dpa)] = false →
      s.cellRows h .sync va [(j, dpa)] = .ok (s', [row]) → tagCls (s'.tagAt l.key) = clsFfull →
      exec (.frd px d a i) s = goes ((s'.acquire h [j] 31 none).retire hid (h.setReg j d.toNat
        (BitVec.ofNat 64 (secGet (s'.readSector l) (8 * i.toNat) 8))) px)) ∧
    (s.checkRows h .w 256 256 va [j] = .ok [(j, dpa)] → h.releaseReady = true → s.releaseDown h = none →
      s.cellRows h .syncWrite va [(j, dpa)] = .ok (s', [row]) →
      let x := s'.readSector l
      let t := (s'.setHart hid h.markStored).writeSector l (fillCell x i.toNat (h.reg j d.toNat))
      let t' := (if tagCls x.tag = clsFempty then t.releaseCell h.ctx (keepKey (h.coreOf j) dpa) else t).wakeContext h.ctx
      exec (.fwr px d a i) s = goes (t'.retire hid { h.markStored with event := true } px))

/-! ## Tasks and recording (R143 to R148, R226, R232) -/

/-- R143 to R146, R148: NODEB with no request to leave and no load in flight to a register that it clears, and YIELD with
no ready hart for the slot, are resumption points, NODEB keeping s4 to s11 alone; CURSOR with no entry left writes 0, and
with an eligible one takes it; TEXIT, after the hart's commands, loads and jobs, performs its stores and leaves the group. That CURSOR with no
entry left ends the current task and that NODEB clears the H bank too are the model's reading (log 33, DEDUCED). -/
def Obligations.TaskResults : Prop :=
  ∀ (s : State) (hid : Nat) (h : Hart) (px : Px) (d : Reg) (g : Group) (e : Nat),
    Runs s px [d.toNat] hid h → h.queuesEmpty = true →
    (h.preempt = none → h.loadsPast = false → exec (.nodeb px) s = goes (s.resumption hid { h with rows := h.rows.map RowRegs.nodeb } px)) ∧
    (s.readyFor hid h = false → exec (.yield px) s = goes (s.resumption hid h px)) ∧
    (look s.groups h.group = some g → s.exhausted h g = true →
      exec (.cursor px d) s =
        goes (s.resumption hid ({ h with task := none }.setRegs h.allRows d.toNat (fun _ => 0)) px)) ∧
    (look s.groups h.group = some g → s.exhausted h g = false → s.nextEntry h = some e → s.eligible h = true →
      exec (.cursor px d) s = goes (s.takeEntry hid h g px d e)) ∧
    (look s.groups h.group = some g → s.exhausted h g = false → s.eligible h = false →
      exec (.cursor px d) s = goes (s.setHart hid { h with state := .sleeping, wait := .cursor, lastProgress := s.now })) ∧
    (Runs s px [4, 5, 6, 7, 8, 9, 10, 11] hid h → h.loads = [] → s.jobsDone hid h = true →
      let s' := s.finishAccesses hid
      ((look s'.harts hid).map (fun g => g.stores)).getD [] = [] →
      exec (.texit px) s = goes ((((s'.writeResults h).removeHart hid).modGroup h.group
        (fun g => { g with live := g.live - 1 })).groupDone h.group))

/-- R147: PSTEP gives 0 with no task, past the last row or with VL = 0; else the panel at the task's position, TROWS rows
and VL columns at most, written as (c << 32) | r into d of every row of the span, its position into PANELPOS, and the
position moved along the columns first. -/
def Obligations.PanelSteps : Prop :=
  ∀ (s : State) (hid : Nat) (h : Hart) (px : Px) (d : Reg), Runs s px [d.toNat] hid h →
    let gives := fun (g : Hart) (x : Dword) => exec (.pstep px d) s = goes (s.retire hid (g.setRegs h.allRows d.toNat
      (fun _ => x)) px)
    ((h.task = none ∨ (∃ t, h.task = some t ∧ t.rows.toNat ≤ t.row0) ∨ h.csr.vl = 0) → gives h 0) ∧
    (∀ t, h.task = some t → t.row0 < t.rows.toNat → h.csr.vl ≠ 0 →
      let r := min (t.rows.toNat - t.row0) h.csr.trows
      let c := min (t.cols.toNat - t.col0) h.csr.vl.toNat
      let col := t.col0 + c
      let t' := if t.cols.toNat ≤ col then { t with col0 := 0, row0 := t.row0 + r } else { t with col0 := col }
      gives { h with task := some t', csr := { h.csr with panelRow := BitVec.ofNat 32 t.row0,
                                                          panelCol := BitVec.ofNat 32 t.col0 } }
        (BitVec.ofNat 64 (c * 2 ^ 32 + r)))

/-- R226, R227, R232: RECORD.off clears ON, RECORD.mark sets MARK := TAPEN, RECORD.on with a policy block that keeps
R227 sets ON, each once no MX command of the hart is left; REVERSE under a lease sets the Spatula to work on record
TAPEN − 1, and with no record above MARK it only ends. -/
def Obligations.RecordResults : Prop :=
  ∀ (s s' : State) (hid : Nat) (h : Hart) (px : Px) (a : Reg) (j : Nat) (js : List Nat) (y : Nat)
    (m : List (BitVec 256)), Runs s px [a.toNat] hid h → h.active px = j :: js → h.awaits .mx = false → h.wait = .none →
    let va := h.reg j a.toNat
    let first := if h.csr.revAct then h.csr.revNext else h.csr.tapen - 1
    let start := { h with csr := { h.csr with recording := false, revAct := true, revNext := first } }
    exec (.recordOff px) s = goes (s.retire hid { h with csr := { h.csr with recording := false } } px) ∧
    exec (.recordMark px) s = goes (s.retire hid { h with csr := { h.csr with recMark := h.csr.tapen } } px) ∧
    (h.csr.tapeb.toNat + 256 ≤ h.csr.tapel.toNat → s.rawStruct h j 256 256 1 h.csr.tapeb = .ok (s', y) →
      policyBad y = false → exec (.recordOn px) s = goes (s'.retire hid (h.recordOn y) px)) ∧
    ((s.leaseOf h (h.coreOf j)).state ≠ .none → va.toNat % 32 = 0 →
      readGMap (s.setHart hid start) start j va = .ok (s', m) →
      (h.csr.recMark.toNat < h.csr.tapen.toNat → exec (.reverse px a) s =
        goes (s'.setHart hid { start with wait := .reverse va m, lastProgress := s'.now })) ∧
      (h.csr.tapen.toNat ≤ h.csr.recMark.toNat → exec (.reverse px a) s =
        goes (s'.reverseEnd hid start px (s'.markStart start))))

/-! ## Templates and commands (R79 to R92) -/

/-- R85, R92, R140: TMLD loads its templates, all of which it has checked, into consecutive slots of the class's table;
TMPLI loads the one of its four words. R79, R80, R87, R88, R108: an engine word in U whose queue has room enters its
command, with the values it captures and with its fault where the patch gives one, at the end of the queue, and the
pipeline goes on behind it; the order of the faults of formation, and the fields that FSEL 4 and 6 amend. -/
def Obligations.FormationResults : Prop :=
  (∀ (s s' : State) (hid : Nat) (h : Hart) (px : Px) (a : Reg) (c : BitVec 3) (f n6 : BitVec 6) (n : BitVec 4)
    (w0 w1 w2 w3 : Word) (e : Eng) (j : Nat) (js : List Nat) (y : Nat),
    Runs s px [a.toNat] hid h → h.active px = j :: js → engOfEcls c.toNat = some e →
    let k := if n = 0 then 16 else n.toNat
    let ts := (List.range k).map (fun i => templateOfNat (y / 2 ^ (128 * i)))
    (s.rawStruct h j 16 16 k (h.reg j a.toNat) = .ok (s', y) → (∀ t ∈ ts, slotOk e t = true) →
      exec (.tmld px a c f n) s = goes (s'.retire hid (h.loadSlots e f.toNat ts) px)) ∧
    (h.priv = false → slotOk e (templateOfWords w0 w1 w2 w3) = true →
      exec (.tmpli c n6 w0 w1 w2 w3) s =
        goes (s.setHart hid ((h.loadSlots e n6.toNat [templateOfWords w0 w1 w2 w3]).retireTo s.now (h.pc + 20))))) ∧
  (∀ (s : State) (hid : Nat) (h : Hart) (px : Px) (e : Eng) (tix : BitVec 6) (tok : BitVec 4) (fsel : BitVec 3)
    (v : BitVec 16), s.focus.hart = hid → look s.harts hid = some h → h.priv = false → h.halted = false →
    (h.queue e).length < 64 →
    let t := h.slotTemplate e tix.toNat
    let queued := fun (u : Template) (k : Option Cause) =>
      let c := h.command px u k tix tok fsel
      goes (s.setHart hid { h.setQueue e (h.queue e ++ [c]) with
        pc := h.pc + BitVec.ofNat 64 (pxBytes px), order := h.order + 1, lastProgress := s.now, halted := k.isSome })
    (∀ u, formTemplate e t px tok fsel v = .ok u → (commandScalars e u).any h.pending = false →
      exec (.commandFormation px e tix tok fsel v) s = queued u none) ∧
    (∀ k, formTemplate e t px tok fsel v = .error k → exec (.commandFormation px e tix tok fsel v) s = queued t (some k))) ∧
  (∀ (e : Eng) (t : Template) (px : Px) (tok : BitVec 4) (v : BitVec 16),
    (t.opc = 0 → ∀ f, formTemplate e t px tok f v = .error .templateEmpty) ∧
    (t.opc ≠ 0 → px.valx = none → v ≠ 0 → formTemplate e t px tok 0 v = .error .reservedField) ∧
    (t.opc ≠ 0 → e = .jb → tok ≠ 0 → ∀ f, formTemplate e t px tok f v = .error .reservedField) ∧
    (t.opc ≠ 0 → e ≠ .jb → px.valx = none → formTemplate e t px tok 0 0 = .ok t) ∧
    (∀ u, px.valx = none → formTemplate e t px tok 4 v = .ok u → { u with imm := t.imm } = t ∧
      u.imm = t.imm.extractLsb' 16 16 ++ v) ∧
    (∀ u, formTemplate e t px tok 6 v = .ok u → { u with wait := t.wait, seten := t.seten, setsl := t.setsl } = t ∧
      u.wait = v.extractLsb' 0 8))

/-! ## Vector instructions (R151 to R185, R200 to R206) -/

/-- R56, R160 to R164, R177: an elementwise instruction opens its source registers in every row and sector in range,
computes each active element by its function, narrows it to the result format, and writes register D; it has run when
every row has, no row having a fault. -/
def Obligations.VectorElementResults : Prop :=
  ∀ (s : State) (hid : Nat) (h : Hart) (c : Command) (g : Hart) (fl : Flags), Head s .xv hid h c →
    let k := c.atIssue s h
    let el := fun (i : Instr) (e : Command → ElemSpec) =>
      runRows (elemRow e s) h k (k.rows h) h 0 = .ok (g, fl) → Ran (s.setHart hid g) hid .xv k fl (exec i s)
    let x := fun (v : List Exact) => v.getD 0 (zeroOf false)
    let y := fun (v : List Exact) => v.getD 1 (zeroOf false)
    let z := fun (v : List Exact) => v.getD 2 (zeroOf false)
    let ints := fun (named : Bool) (src : Command → List Nat) (fit : IntFit) (f : BitVec 5 → Int → Int → Int) =>
      intSpec named src fit (fun q v => f q (intOf (x v)) (intOf (y v)))
    let bitwise := fun (f : Nat → Nat → Nat) => ints true srcAB .wrap (fun q => bitwiseInt q f)
    el (.vadd c.t) (arith .any srcAB true (fun m _ v => addE (m == 2) (x v) (y v))) ∧
    el (.vsub c.t) (arith .any srcAB true (fun m _ v => addE (m == 2) (x v) (y v).negate)) ∧
    el (.vmul c.t) (arith .any srcAB true (fun _ _ v => mulE (x v) (y v))) ∧
    el (.vfma c.t) (arith .any srcABD true (fun m _ v => fmaE (m == 2) (x v) (y v) (z v))) ∧
    el (.vfms c.t) (arith .any srcABD true (fun m _ v => fmaE (m == 2) (x v) (y v) (z v).negate)) ∧
    el (.vmin c.t) (arith .any srcAB false (fun _ _ v => (pickE true (x v) (y v), 0))) ∧
    el (.vmax c.t) (arith .any srcAB false (fun _ _ v => (pickE false (x v) (y v), 0))) ∧
    el (.vabs c.t) (arith .any srcA true (fun _ _ v => ((x v).abs, 0))) ∧
    el (.vneg c.t) (arith .any srcA true (fun _ _ v => ((x v).negate, 0))) ∧
    el (.vdiv c.t) (arith .any srcAB false (fun _ f v =>
      if fmtInt f then (exactOfInt (divInt f (intOf (x v)) (intOf (y v))), 0) else divE (x v) (y v))) ∧
    el (.vsqrt c.t) (arith .floatOnly srcA false (fun _ _ v => sqrtE (x v))) ∧
    el (.vrsq c.t) (fun c => arith .floatOnly srcA false (fun _ _ v => transE c.satf .rsq (x v)) c) ∧
    el (.vexp c.t) (fun c => arith .floatOnly srcA false (fun _ _ v => transE c.satf .exp (x v)) c) ∧
    el (.vlog c.t) (fun c => arith .floatOnly srcA false (fun _ _ v => transE c.satf .log (x v)) c) ∧
    el (.vtanh c.t) (fun c => arith .floatOnly srcA false (fun _ _ v => transE c.satf .tanh (x v)) c) ∧
    el (.vsigm c.t) (fun c => arith .floatOnly srcA false (fun _ _ v => transE c.satf .sigm (x v)) c) ∧
    el (.vand c.t) (bitwise (· &&& ·)) ∧ el (.vor c.t) (bitwise (· ||| ·)) ∧ el (.vxor c.t) (bitwise (· ^^^ ·)) ∧
    el (.vnot c.t) (ints false srcA .wrap (fun q a _ => bitwiseInt q (· ^^^ ·) a (-1))) ∧
    el (.vshl c.t) (shiftSpec (fun a n => a * 2 ^ n)) ∧
    el (.vshr c.t) (shiftSpec (fun a n => a / 2 ^ n)) ∧
    el (.vshrr c.t) (shiftSpec (fun a n => if n = 0 then a else (a + 2 ^ (n - 1)) / 2 ^ n)) ∧
    el (.vsadd c.t) (ints true srcAB .sat (fun _ a b => a + b)) ∧
    el (.vssub c.t) (ints true srcAB .sat (fun _ a b => a - b)) ∧
    el (.vmulh c.t) (ints true srcAB .wrap (fun q a b => a * b / 2 ^ fmtWidth q)) ∧
    el (.vqnt c.t) (fun c => { kind := .floatOnly, srcs := srcA c, named := true, fixed := some fE2m1, mode := 0,
                               satf := false, fit := .wrap,
                               texp := if c.t.mod.getLsbD 4 then some (c.t.imm.extractLsb' 0 8).toInt else none,
                               f := fun _ v => (x v, 0) })

/-- R165 to R176, R178, R179, R185: each vector instruction that is not elementwise runs in every active row by its
function of the row, and has run when every row has, no row having a fault. What those functions give a sector whose
operands read in one format and container: VDOT adds the products to D's elements; VSEL chooses by the mask bit; VCLASS
gives class indices; the rearrangements move codes from their sources; VBCAST, VID and VSETI write one code per element;
VEXTR and VTAGR write a scalar register; VTAGW and VSEXP change a tag; the reductions combine in their order; VCVT rounds
once; VMOV copies, and zeroes what is not active. The clauses on sums and extremes leave SR out, whose draws R61 counts. -/
def Obligations.VectorRowResults : Prop :=
  (∀ (s : State) (hid : Nat) (h : Hart) (c : Command) (g : Hart) (fl : Flags), Head s .xv hid h c →
    let k := c.atIssue s h
    let runs := fun (i : Instr) (f : RowFn) =>
      runRows f h k (k.rows h) h 0 = .ok (g, fl) → Ran (s.setHart hid g) hid .xv k fl (exec i s)
    runs (.vdot2 c.t) (dotRow 2 s) ∧ runs (.vdot4 c.t) (dotRow 4 s) ∧ runs (.vcmp c.t) (cmpRow s) ∧
    runs (.vsel c.t) (selRow s) ∧ runs (.vclass c.t) classRow ∧ runs (.vslide c.t) (slideRow s) ∧
    runs (.vperm c.t) (permRow s) ∧ runs (.vzip c.t) (zipRow s) ∧ runs (.vunzip c.t) (unzipRow s) ∧
    runs (.vbcast c.t) (fun h c j a => buildRow (fun _ => (c.capt j).c.toNat) false h c j a) ∧
    runs (.vid c.t) (buildRow (fun e => e) true) ∧
    runs (.vseti c.t) (fun h c j a => buildRow (fun _ => c.t.imm.toNat) true h c j a) ∧
    runs (.vextr c.t) extrRow ∧ runs (.vtagr c.t) tagrRow ∧ runs (.vtagw c.t) tagwRow ∧
    runs (.vsexp c.t) (fun h c j a => runSectors (sexpSector c (h.row j)) (List.range h.csr.xcl) a) ∧
    runs (.vredsum c.t) (redRow .sum s) ∧ runs (.vredsumo c.t) (redRow .sumOrdered s) ∧
    runs (.vredmax c.t) (redRow .max s) ∧ runs (.vredmin c.t) (redRow .min s) ∧ runs (.vcvt c.t) cvtRow ∧
    runs (.vmov c.t) (fun h c j a => runSectors (movSector c (h.row j)) (List.range h.csr.xcl) a)) ∧
  (∀ (s : State) (h : Hart) (c : Command) (j x i m : Nat) (a b : Acc) (f g u : BitVec 5) (w v : BitVec 3)
    (oa ob od : Opened), (m = 2 ∨ m = 4) → dotRow m s h c j a = .ok b → x < h.csr.xcl →
    Opens h c j c.t.a.toNat x f w oa → Opens h c j c.t.b.toNat x f w ob → Opens h c j c.t.d.toNat x u v od →
    fmtInt f = true → fmtInt u = true → signedFmt (m * fmtWidth f) = some g → wideCw w m = some v →
    c.inRange v x = true → i < elemCount v →
    let at_ := fun (o : Opened) w n => intOf ((o.values w).getD n (zeroOf false))
    let sum := at_ od v i + ((List.range m).map (fun k => at_ oa w (m * i + k) * at_ ob w (m * i + k))).sum
    slotOf (b.row.vec c.t.d.toNat x) v i =
      if Active h c j v (x * elemCount v + i) then (fitInt (fmtWidth g) true c.satf sum).1 else 0) ∧
  (∀ (s : State) (h : Hart) (c : Command) (j x : Nat) (a b : Acc) (f : BitVec 5) (w : BitVec 3) (oa ob : Opened),
    x < h.csr.xcl → Opens h c j c.t.a.toNat x f w oa → c.inRange w x = true →
    let n := elemCount w
    let inside := fun i => inVl (vlBits c.vl c.vlcw) w (x * n + i)
    (selRow s h c j a = .ok b → Opens h c j c.t.b.toNat x f w ob →
      ∃ sr, b.row.vec c.t.d.toNat x = (encodeSector f w (if f = fE2m1 then none else some 0) .wrap 0 false sr
        ((List.range n).map (fun i => (((if Enabled h c j (x * n + i) then oa else ob).values w).getD i (zeroOf false),
          inside i)))).sector) ∧
    (classRow h c j a = .ok b → ∃ u, classFmt w = some u ∧
      ∀ i, i < n → slotOf (b.row.vec c.t.d.toNat x) w i =
        if Active h c j w (x * n + i) then classIndex f (oa.codes.getD i 0) else 0) ∧
    (runSectors (sexpSector c (h.row j)) (List.range h.csr.xcl) a = .ok b →
      b.row.vec c.t.d.toNat x = { (h.row j).vec c.t.a.toNat x with
        tag := mkTag clsTyped f w (BitVec.ofInt 8 (oa.sexp.toInt + (c.t.imm.extractLsb' 0 8).toInt)) }) ∧
    (runSectors (movSector c (h.row j)) (List.range h.csr.xcl) a = .ok b → tagCls ((h.row j).vec c.t.a.toNat x).tag = clsTyped →
      let y := b.row.vec c.t.d.toNat x
      ((∀ i, i < n → Active h c j w (x * n + i) = true) → y = (h.row j).vec c.t.a.toNat x) ∧
      ((∃ i, i < n ∧ Active h c j w (x * n + i) = false) → y.tag = ((h.row j).vec c.t.a.toNat x).tag ∧
        y.bmeta = ((h.row j).vec c.t.a.toNat x).bmeta ∧
        ∀ i, i < n → slotOf y w i = if Active h c j w (x * n + i) then oa.codes.getD i 0 else 0))) ∧
  (∀ (s : State) (h : Hart) (c : Command) (j : Nat) (a b : Acc) (m : Move) (t : BitVec 24) (x i : Nat),
    let w := tagCw t
    let n := elemCount w
    let inside := fun e => inVl (vlBits c.vl c.vlcw) w e && m.act e
    let src := fun k y => (h.row j).vec (m.regs.getD k 0) y
    rearrange m s h c (h.row j) a = .ok b → m.cw h c (h.row j) = w → m.keys h c w ≠ [] → m.regs.length ≤ 2 →
    h.csr.xcl ≤ 8 → tagOk t = true → tagCls t = clsTyped → tagFmt t ≠ fE2m1 →
    (∀ v ∈ m.regs, ∀ y, y < h.csr.xcl → ((h.row j).vec v y).tag = t) →
    (∀ e k q, inside e = true → m.source w e = .elem k q → k < m.regs.length ∧ q < n * h.csr.xcl) →
    x < h.csr.xcl → c.inRange w x = true → i < n →
    slotOf (b.row.vec c.t.d.toNat x) w i =
      if inside (x * n + i) then
        match m.source w (x * n + i) with
        | .elem k q => slotOf (src k (q / n)) w (q % n) % 2 ^ fmtWidth (tagFmt t)
        | .fill => 0
      else 0) ∧
  (∀ (s : State) (h : Hart) (c : Command) (j i : Nat) (a : Acc) (w : BitVec 3),
    let vl := vlAt c w
    let back := (i : Int) - c.t.imm.toInt
    let fill := c.t.mod.toNat % 4
    let slide := (slideMove c).source w i
    slideRow s h c j a = rearrange (slideMove c) s h c (h.row j) a ∧
    permRow s h c j a = rearrange (permMove c (h.row j)) s h c (h.row j) a ∧
    zipRow s h c j a = rearrange (zipMove c) s h c (h.row j) a ∧
    unzipRow s h c j a = rearrange (unzipMove c) s h c (h.row j) a ∧
    (slideMove c).act i = true ∧ (zipMove c).act i = true ∧ (unzipMove c).act i = true ∧
    (permMove c (h.row j)).act i = Enabled h c j i ∧
    ((0 ≤ back ∧ back < vl) → slide = .elem 0 back.toNat) ∧
    (¬(0 ≤ back ∧ back < vl) →
      (fill = 0 → slide = .fill) ∧
      (fill = 1 →
        let k := if (vl : Int) ≤ back then back - vl else vl + back
        slide = if 0 ≤ k ∧ k < vl then .elem 1 k.toNat else .fill) ∧
      (2 ≤ fill → slide = if back < 0 then .elem 0 0 else .elem 0 (vl - 1))) ∧
    (zipMove c).source w i = .elem (i % 2) (i / 2) ∧
    (unzipMove c).source w i = (if 2 * i < vl then .elem 0 (2 * i) else .elem 1 (2 * i - vl)) ∧
    (∀ u o, fmtInt u = true → Opens h c j c.t.b.toNat (i / elemCount w) u w o →
      let k := intOf ((o.values w).getD (i % elemCount w) (zeroOf false))
      (permMove c (h.row j)).source w i = if k < 0 ∨ (vl : Int) ≤ k then .fill else .elem 0 k.toNat)) ∧
  (∀ (h : Hart) (c : Command) (j x i : Nat) (a b : Acc) (code : Nat → Nat) (masked : Bool),
    let w := c.t.cw
    let e := x * elemCount w + i
    buildRow code masked h c j a = .ok b → x < h.csr.xcl → c.inRange w x = true → i < elemCount w →
    (b.row.vec c.t.d.toNat x).tag = mkTag clsTyped c.t.fmt w 0 ∧
    slotOf (b.row.vec c.t.d.toNat x) w i =
      if inVl (vlBits c.vl c.vlcw) w e && (!masked || Enabled h c j e) then writtenCode c.t.fmt (code e) else 0) ∧
  (∀ (h : Hart) (c : Command) (j : Nat) (a b : Acc),
    let d := c.t.d.toNat
    let imm := c.t.imm.toNat
    let n := elemCount c.vlcw
    let x := (h.row j).vec c.t.a.toNat (imm / n)
    let t := (c.capt j).a.extractLsb' 0 24
    let y := secRetag ((h.row j).vec d imm) t
    (extrRow h c j a = .ok b → 0 < d → d < 32 →
      b.row.get false d = BitVec.ofNat 64 (if tagCls x.tag = clsZero then 0 else slotOf x c.vlcw (imm % n))) ∧
    (tagrRow h c j a = .ok b → 0 < d → d < 32 → b.row.get false d = BitVec.ofNat 64 ((h.row j).vec c.t.a.toNat imm).tag.toNat) ∧
    (tagwRow h c j a = .ok b → y ≠ zeroSector → b.row.vec d imm = y) ∧
    y.tag = normTag t ∧
    (tagCls ((h.row j).vec d imm).tag ≠ clsZero → y.data = ((h.row j).vec d imm).data ∧ y.bmeta = ((h.row j).vec d imm).bmeta)) ∧
  (∀ (s : State) (h : Hart) (c : Command) (j : Nat) (a b : Acc) (f : BitVec 5) (w : BitVec 3) (o : Nat → Opened),
    AllOpen h c j c.t.a.toNat f w o → namesNone c f w → f ≠ fE2m1 → 0 < h.csr.xcl → h.csr.xcl ≤ 8 → c.inRange w 0 = true →
    c.mode ≠ 5 →
    let vl := min (vlAt c w) (elemCount w * h.csr.xcl)
    let all := (List.range vl).map (fun e => if Enabled h c j e then valueOf o w e else zeroOf false)
    let live := ((List.range vl).filter (Enabled h c j)).map (valueOf o w)
    let rnd := fun x => (fspec f).decode (roundF (fspec f) c.mode false 0 x).1
    let add := fun x y => rnd (addE (c.mode == 2) x y).1
    let head := fun (xs : List Exact) => xs.headD (zeroOf false)
    let gives := fun (op : RedOp) (z : Nat) => redRow op s h c j a = .ok b →
      (b.row.vec c.t.d.toNat 0).tag = mkTag clsTyped f w 0 ∧ slotOf (b.row.vec c.t.d.toNat 0) w 0 = z ∧
      ∀ i, 0 < i → i < elemCount w → slotOf (b.row.vec c.t.d.toNat 0) w i = 0
    let float := fun x => (roundF (fspec f) 0 false 0 x).1
    (fmtInt f = false →
      gives .sum (float (rnd (head ((pairRound add)^[13] all)))) ∧
      gives .sumOrdered (float (all.tail.foldl add (rnd (head all)))) ∧
      (live ≠ [] → gives .max (float (rnd (live.tail.foldl (pickE false) (head live)))) ∧
        gives .min (float (rnd (live.tail.foldl (pickE true) (head live))))) ∧
      (live = [] → gives .max 0 ∧ gives .min 0)) ∧
    (fmtInt f = true →
      let sum := (fitInt (fmtWidth f) (fmtSigned f) true (all.map intOf).sum).1
      gives .sum sum ∧ gives .sumOrdered sum)) ∧
  (∀ (h : Hart) (c : Command) (j x : Nat) (a b : Acc) (f : BitVec 5) (v : BitVec 3) (o : Nat → Opened),
    let w := c.t.cw
    let n := elemCount w
    let on := fun e => decide (e < elemCount v * h.csr.xcl) && Active h c j v e
    AllOpen h c j c.t.a.toNat f v o → cvtRow h c j a = .ok b → x < h.csr.xcl → (∃ i, i < n ∧ on (x * n + i) = true) →
    let t := if c.t.mod.getLsbD 4 then (c.t.imm.extractLsb' 0 8).toInt else 0
    ∃ sr, b.row.vec c.t.d.toNat x = (encodeEach c.t.fmt w (some t) c.mode c.satf sr
      ((List.range n).map (fun i => (valueOf o v (x * n + i), on (x * n + i), fitFrom (fmtInt f))))).sector)

/-- R181: KAND, KOR and KNOT act on all 4,096 bits of the mask registers; KPOPC writes the number of set bits among all
of them into a scalar register, and KFIRST the index of the lowest set bit, or 2^64 - 1 where none is set. None depends
on VL. VCMP clears the bit of every element that is not active; where both operands read in one format and container, it sets
exactly the bits of the active elements for which its predicate holds (R166). -/
def Obligations.MaskRegisterResults : Prop :=
  (∀ (s : State) (hid : Nat) (h : Hart) (c : Command) (g : Hart) (fl : Flags), Head s .xv hid h c →
    let k := c.atIssue s h
    let runs := fun (i : Instr) (f : RowFn) =>
      runRows f h k (k.rows h) h 0 = .ok (g, fl) → Ran (s.setHart hid g) hid .xv k fl (exec i s)
    let masks := fun (f : BitVec 4096 → BitVec 4096 → BitVec 4096) => ((fun h c j a => Except.ok { a with
      row := a.row.setMask c.t.d.toNat (f ((h.row j).mask c.t.a.toNat) ((h.row j).mask c.t.b.toNat)) }) : RowFn)
    let scalars := fun (f : BitVec 4096 → Nat) => ((fun h c j a => Except.ok { a with
      row := a.row.set false c.t.d.toNat (BitVec.ofNat 64 (f ((h.row j).mask c.t.a.toNat))) }) : RowFn)
    runs (.kand c.t) (masks (· &&& ·)) ∧ runs (.kor c.t) (masks (· ||| ·)) ∧ runs (.knot c.t) (masks (fun x _ => ~~~ x)) ∧
    runs (.kpopc c.t) (scalars (fun m => (List.range 4096).countP (fun k => m.getLsbD k))) ∧
    runs (.kfirst c.t) (scalars (fun m => ((List.range 4096).find? (fun k => m.getLsbD k)).getD (2 ^ 64 - 1)))) ∧
  (∀ (s : State) (h : Hart) (c : Command) (j e : Nat) (a b : Acc), cmpRow s h c j a = .ok b → e < 4096 →
    c.t.d.toNat ≠ 0 → (b.row.mask c.t.d.toNat).getLsbD e = true → ((h.row j).mask c.t.cmask.toNat).getLsbD e = true) ∧
  (∀ (s : State) (h : Hart) (c : Command) (j e : Nat) (a b : Acc) (f : BitVec 5) (w : BitVec 3) (o p : Nat → Opened),
    cmpRow s h c j a = .ok b → AllOpen h c j c.t.a.toNat f w o → AllOpen h c j c.t.b.toNat f w p →
    0 < c.t.d.toNat → c.t.d.toNat < 8 → e < 4096 →
    ((b.row.mask c.t.d.toNat).getLsbD e = true ↔ e < elemCount w * h.csr.xcl ∧ Active h c j w e = true ∧
      compares (c.t.mod.toNat % 8) (valueOf o w e) (valueOf p w e)))

/-- R151, R157: a vector instruction that only reads and writes registers changes, where it takes no trap, its
destination register in the command's rows, SRSEED, and what its issue changes (tokens, slots, the queue's head), and
no byte of memory, no other hart and no other register; its pc stays where it is. -/
def Obligations.VectorFrame : Prop :=
  ∀ (i : Instr) (t : Template) (w : VecDest) (s u : State) (hid : Nat) (h g : Hart) (c : Command),
    vectorOnly i = some (t, w) → c.t = t → Head s .xv hid h c → exec i s = goes u → look u.harts hid = some g →
    g.traps.length = h.traps.length →
    onlyHarts s u ∧ onlyHart s u hid ∧ sameBytes s u ∧
    (∀ j p n, (g.row j).get p n = (h.row j).get p n ∨ (w = .scalar ∧ n = t.d.toNat ∧ j ∈ c.rows h)) ∧
    (∀ j n, (g.row j).mask n = (h.row j).mask n ∨ (w = .mask ∧ n = t.d.toNat ∧ j ∈ c.rows h)) ∧
    (∀ j k, lookD (g.row j).v k zeroSector = lookD (h.row j).v k zeroSector ∨
      (w = .vector ∧ j ∈ c.rows h ∧ ∃ x, x < max 1 h.csr.xcl ∧ k = 8 * t.d.toNat + x)) ∧
    { g.csr with srseed := h.csr.srseed } = h.csr ∧
    { g with rows := h.rows, csr := h.csr, queues := h.queues, tokens := h.tokens, slots := h.slots,
             lastProgress := h.lastProgress } = h

/-- R56, R61, R151 to R185: a vector instruction that only reads and writes registers runs, in every state, on operands
that read as its rule asks: source registers of one format and one container, the one in which VL counts, which the result
keeps or the named fields repeat. An arithmetic one takes any format but, for the float functions, a float, and for integer
operations an integer; VDOT takes A and B of an integer format whose products D's format and container hold; VCLASS a
container of a byte at least; VSEXP an exponent that stays in range; VPERM integer indices; VCVT a result format that fits
its container; VBCAST, VID and VSETI such a format; VEXTR, VTAGR and VTAGW an element or a sector of the grant; the mask
instructions anything. A reduction with a named format has a named container, an element of A within VL, or a format that
fits the container in which VL counts (log 20). -/
def Obligations.VectorCompletion : Prop :=
  ∀ (s : State) (hid : Nat) (h : Hart) (c : Command) (f : BitVec 5) (w : BitVec 3), Head s .xv hid h c →
    let k := c.atIssue s h
    let is := OperandIs h k f w
    let a := is c.t.a.toNat
    let b := is c.t.b.toNat
    let d := is c.t.d.toNat
    let runs := fun (i : Instr) => ∃ g fl, Ran (s.setHart hid g) hid .xv k fl (exec i s)
    let fits := fmtFits c.t.fmt c.t.cw = true
    let imm := c.t.imm.toNat
    let counted := namedFmt c.t.fmt = none ∨ namedCw c.t.cw ≠ none ∨ fmtFits f c.vlcw = true ∨
      (0 < h.csr.xcl ∧ k.inRange w 0 = true)
    (namesNone c f w →
      (a → b → runs (.vadd c.t) ∧ runs (.vsub c.t) ∧ runs (.vmul c.t) ∧ runs (.vmin c.t) ∧ runs (.vmax c.t) ∧
        runs (.vdiv c.t)) ∧
      (a → b → d → runs (.vfma c.t) ∧ runs (.vfms c.t)) ∧
      (a → runs (.vabs c.t) ∧ runs (.vneg c.t)) ∧
      (a → fmtFloat f = true → runs (.vsqrt c.t) ∧ runs (.vrsq c.t) ∧ runs (.vexp c.t) ∧ runs (.vlog c.t) ∧
        runs (.vtanh c.t) ∧ runs (.vsigm c.t)) ∧
      (a → b → fmtInt f = true → runs (.vand c.t) ∧ runs (.vor c.t) ∧ runs (.vxor c.t) ∧ runs (.vsadd c.t) ∧
        runs (.vssub c.t) ∧ runs (.vmulh c.t)) ∧
      (a → f ≠ fE2m1 → counted → runs (.vredsum c.t) ∧ runs (.vredsumo c.t) ∧ runs (.vredmax c.t) ∧ runs (.vredmin c.t))) ∧
    (a → fmtInt f = true → runs (.vnot c.t) ∧
      (c.t.mod.getLsbD 7 = true ∨ b → runs (.vshl c.t) ∧ runs (.vshr c.t) ∧ runs (.vshrr c.t))) ∧
    (a → b → runs (.vcmp c.t) ∧ runs (.vsel c.t)) ∧
    (a → w ≠ 0 → runs (.vclass c.t)) ∧
    (a → fmtFloat f = true → fmtFits fE2m1 w = true → (namedCw c.t.cw = none ∨ c.t.cw = w) → runs (.vqnt c.t)) ∧
    (∀ g v, a → b → fmtInt f = true → OperandIs h k g v c.t.d.toNat →
      (signedFmt (2 * fmtWidth f) = some g → wideCw w 2 = some v → runs (.vdot2 c.t)) ∧
      (signedFmt (4 * fmtWidth f) = some g → wideCw w 4 = some v → runs (.vdot4 c.t))) ∧
    (c.vlcw = w → a → b → runs (.vslide c.t) ∧ runs (.vzip c.t) ∧ runs (.vunzip c.t)) ∧
    (c.vlcw = w → a → (∃ g, fmtInt g = true ∧ OperandIs h k g w c.t.b.toNat) → runs (.vperm c.t)) ∧
    (a → (∀ j ∈ c.rows h, ∀ x, x < h.csr.xcl → ∀ o, openScaled k.reader ((h.row j).vec c.t.a.toNat x) = .ok o →
        (fmtInt f = true → c.t.imm.extractLsb' 0 8 = 0) ∧ -127 ≤ o.sexp.toInt + (c.t.imm.extractLsb' 0 8).toInt ∧
        o.sexp.toInt + (c.t.imm.extractLsb' 0 8).toInt ≤ 127) → runs (.vsexp c.t)) ∧
    (a → fits → (c.t.fmt = fE2m1 → c.t.cw = w) → (fmtInt c.t.fmt = true → c.t.mod.getLsbD 4 = false) → runs (.vcvt c.t)) ∧
    (a → runs (.vmov c.t)) ∧
    (fits → runs (.vbcast c.t) ∧ runs (.vid c.t) ∧ runs (.vseti c.t)) ∧
    (c.vlcw = w → a → imm < elemCount w * h.csr.xcl → runs (.vextr c.t)) ∧
    (imm < h.csr.xcl → runs (.vtagr c.t) ∧
      ((∀ j ∈ c.rows h, (k.capt j).a.extractLsb' 24 40 = 0 ∧ tagOk ((k.capt j).a.extractLsb' 0 24) = true) →
        runs (.vtagw c.t))) ∧
    runs (.kand c.t) ∧ runs (.kor c.t) ∧ runs (.knot c.t) ∧ runs (.kpopc c.t) ∧ runs (.kfirst c.t)

/-- R184, R188, R200 to R206: VPOP, in rows whose queues it consumes and that hold XCL strips, pops and converts them, those
of an AUTO sink as they are where each can be read; VPUSH pushes the next register sector of a row; VLDR, whose accesses
pass their checks, reads at once where no access comes before it, leaves its reads in flight where the plan defers them
(log 3), or takes its Trivet entries; VSTR stores every register sector in range at once, or leaves its stores in flight; VRDA and VWRA, in one row, copy a tile row to and from a vector
register, VWRA's source being of one format and container, and of the tile's kind. -/
def Obligations.VectorTransfers : Prop :=
  ∀ (s s' : State) (hid : Nat) (h g : Hart) (c : Command) (fl : Flags) (sr : BitVec 32), Head s .xv hid h c →
    let k := c.atIssue s h
    let rows := k.rows h
    let q := fun j n => (s.core (h.coreOf j)).queue n
    let mine := fun j n (push : Bool) => (q j n).owner = some h.group ∧ (if push then (q j n).prod else (q j n).cons) = h.slot
    ((∀ j ∈ rows, mine j c.t.a.toNat false ∧ h.csr.xcl ≤ (q j c.t.a.toNat).strips.length) →
      (popRows s h k rows h 0 h.csr.srseed = .ok (g, fl, sr) →
        let t := rows.foldl (fun s j => (List.range h.csr.xcl).foldl (fun s _ => s.pop (h.coreOf j) c.t.a.toNat) s) s
        Ran (t.setHart hid { g with csr := { g.csr with srseed := sr } }) hid .xv k fl (exec (.vpop c.t) s)) ∧
      ((∀ j ∈ rows, (q j c.t.a.toNat).sfmt = 0x1F ∧
          ∀ x ∈ (q j c.t.a.toNat).strips.take h.csr.xcl, loadSectorFault x = none) →
        ∃ t, Ran t hid .xv k 0 (exec (.vpop c.t) s))) ∧
    (∀ j, (c.issued = true ∨ ∀ i ∈ rows, mine i c.t.d.toNat true) → unitOf h k (fun _ => h.csr.xcl) j →
      (q j c.t.d.toNat).strips.length < 64 →
      UnitRan (s.push (h.coreOf j) c.t.d.toNat ((h.row j).vec c.t.a.toNat (k.doneOf j))) hid .xv h k j
        (fun _ => h.csr.xcl) (exec (.vpush c.t) s)) ∧
    (∀ xs, vmRows s h k .r (fun j => (k.capt j).a) (fun _ => vmSectors h k) rows = .ok xs →
      (∀ ys, let es := vldrEntries h k none xs
        (c.t.land = 0 → s.defer = true →
          Ran (s.modHart hid (fun g => { g with loads := g.loads ++ es })) hid .xv k 0 (exec (.vldr c.t) s)) ∧
        (c.t.land = 0 → s.defer = false → (∀ e ∈ es, h.ahead e.stream e.dpas e.order = false) →
        arriveAll h es s = .ok (s', ys) →
        Ran (s'.modHart hid (fun g => ys.foldl (fun g y => g.landReg y.1 y.2.1 0) g)) hid .xv k
          (ys.foldl (fun f y => f ||| y.2.2) 0) (exec (.vldr c.t) s))) ∧
      (let es := vldrEntries h k (some (s.hartCycle h + c.t.land.toNat)) xs
       c.t.land ≠ 0 → h.trivetUsed + es.length ≤ 64 →
        Ran (s.modHart hid (fun g => { g with loads := g.loads ++ es })) hid .xv k 0 (exec (.vldr c.t) s))) ∧
    (∀ as, vmRows s h k .w (fun j => (k.capt j).b) (vstrSectors h k) rows = .ok as → vstrAll h k as s = .ok (s', fl) →
      (s.defer = false → (∀ e ∈ vstrEntries h k as, h.ahead e.stream [e.dpa] e.order = false) →
        Ran (s'.markTask hid) hid .xv k fl (exec (.vstr c.t) s)) ∧
      (s.defer = true → Ran ((s.modHart hid (fun g =>
        { g with stores := g.stores ++ vstrEntries h k as })).markTask hid) hid .xv k 0 (exec (.vstr c.t) s))) ∧
    (∀ j, rows = [j] → s.tileHeld h.ctx (h.coreOf j) c.t.a.toNat = false →
      let t := s.useTile h (h.coreOf j) c.t.a.toNat
      let tag := t.tileTag (h.coreOf j) c.t.a.toNat
      let xs := t.tileRow (h.coreOf j) c.t.a.toNat c.t.imm.toNat
      let r := (List.range (min 4 h.csr.xcl)).foldl (fun (r : RowRegs) x => r.setVec c.t.d.toNat x
        (if tagCls tag = 0 then zeroSector
         else { tag := tag, bmeta := 0, data := packSlots 32 ((xs.drop (64 * x)).take 64) })) (h.row j)
      look t.harts hid = some h → Ran (t.setHart hid (h.setRow j r)) hid .xv k 0 (exec (.vrda c.t) s)) ∧
    (∀ j f w, rows = [j] → s.tileHeld h.ctx (h.coreOf j) c.t.d.toNat = false →
      let t := s.useTile h (h.coreOf j) c.t.d.toNat
      look t.harts hid = some h →
        (vwraRow t h k j = .ok (s', fl) → Ran s' hid .xv k fl (exec (.vwra c.t) s)) ∧
        (OperandIs h k f w c.t.a.toNat →
          (tagCls (t.tileTag (h.coreOf j) c.t.d.toNat) = 0 ∨ fmtInt (tagFmt (t.tileTag (h.coreOf j) c.t.d.toNat)) = fmtInt f) →
          t.tileClobber h (h.coreOf j) c.t.d.toNat = false → ∃ u fl, Ran u hid .xv k fl (exec (.vwra c.t) s)))

/-! ## Streaming loads and stores (R186 to R199, R205 to R209) -/

/-- R186 to R194: a streaming load that has passed its checks moves, in each unit of a row, the row's next sector k
verbatim from its address, or as a turn that the plan defers has read it ahead (log 3), to the row's strip queue or
scratchpad, and has run after its last unit. The addresses are
a + imm + 256 k, a + k b, a + r b + 256 s, a + off(k), and the scratchpad offset a + 256 k, with the die stride. -/
def Obligations.StreamLoads : Prop :=
  ∀ (s s' : State) (hid : Nat) (h : Hart) (c c1 : Command), Head s .ld hid h c →
    let c0 := c.atIssue s h
    let die := fun (j : Nat) (x : Dword) => x + BitVec.ofNat 64 j * c.stride
    let n := c.t.len.toNat
    let moves := fun (i : Instr) (first : Except Stop Command) (counts : Nat → List Nat) (x : Sectors) =>
      s.defer = false → Passes h c0 c1 first (fun j =>
        (∀ n ∈ counts j, n ≤ 2 ^ 24) ∧ x.check s h .r j = .ok () ∧ destCheck s h c1 x.count j = .ok ()) →
      ((∀ j ∈ c1.rows h, x.count j ≤ c1.doneOf j) → Ran s hid .ld c1 c1.flags (exec i s)) ∧
      (∀ j y, unitOf h c1 x.count j → destRoom s h c1 j = true → c1.readUnit s h x j (c1.doneOf j) = .ok (s', y) →
        UnitRan (deliver s' h c1 j (c1.doneOf j) y) hid .ld h c1 j x.count (exec i s))
    moves (.ald c.t) (.ok c0) (fun j => [(c0.capt j).b.toNat])
      { spad := false, count := fun j => (c0.capt j).b.toNat,
        addr := fun j k => die j ((c0.capt j).a + c.t.imm.signExtend 64 + BitVec.ofNat 64 (256 * k)) } ∧
    moves (.alds c.t) (.ok c0) (fun j => [(c0.capt j).c.toNat])
      { spad := false, count := fun j => (c0.capt j).c.toNat,
        addr := fun j k => die j ((c0.capt j).a + BitVec.ofNat 64 k * (c0.capt j).b) } ∧
    moves (.ald2 c.t) (.ok c0) (fun j => [(c0.capt j).c.toNat])
      { spad := false, count := fun j => (c0.capt j).c.toNat * n,
        addr := fun j k => die j ((c0.capt j).a + BitVec.ofNat 64 (k / n) * (c0.capt j).b
          + BitVec.ofNat 64 (256 * (k % n))) } ∧
    moves (.agath c.t) (withOffsets h c0 (c0.rows h)) (fun _ => [])
      { spad := false, count := fun j => (c1.offs.getD j []).length,
        addr := fun j k => die j ((c0.capt j).a + BitVec.ofInt 64 ((c1.offs.getD j []).getD k 0)) } ∧
    moves (.aspx c.t) (.ok c0) (fun j => [(c0.capt j).b.toNat])
      { spad := true, count := fun j => (c0.capt j).b.toNat,
        addr := fun j k => (c0.capt j).a + BitVec.ofNat 64 (256 * k) }

/-- R188, R195 to R199: ALDT, all its source sectors read, delivers one output sector of a row in each unit; ARING reads
the source sectors of a row one by one and then fills the empty tail slot of the row's ring with their tile; AQCFG writes
the registers of each row's empty queue that the hart's group owns; APREF has run at once. -/
def Obligations.QueueRingLoads : Prop :=
  ∀ (s s' : State) (hid : Nat) (h : Hart) (c : Command) (fl : Flags) (sr : BitVec 32) (j : Nat), Head s .ld hid h c →
    let c0 := c.atIssue s h
    let rows := c0.rows h
    let core := fun j => s.core (h.coreOf j)
    let n := aldtTotal c0
    let xs := aringList s h c0 j
    let k := c0.doneOf j
    let parts := fun j => (aringList s h c0 j).length + 1
    (unitOf h c0 (fun _ => n) j →
      (∀ xs, Passes h c0 c0 (.ok c0) (fun j => aldtCheck s h c0 j = .ok ()) → c0.carried = [] →
        aldtRead h c0 rows s = .ok (s', xs, fl) → destRoom s' h c0 j = true →
        UnitRan (deliver s' h c0 j k (xs.getD (placeOf rows j * n + k) zeroSector)) hid .ld h
          { c0 with carried := xs, flags := fl } j (fun _ => n) (exec (.aldt c.t) s)) ∧
      (c0.issued = true → c0.carried ≠ [] → destRoom s h c0 j = true →
        UnitRan (deliver s h c0 j k (c0.carried.getD (placeOf rows j * n + k) zeroSector)) hid .ld h c0 j (fun _ => n)
          (exec (.aldt c.t) s))) ∧
    (unitOf h c0 parts j → Passes h c0 c0 (.ok c0) (fun j => aringCheck s h c0 j = .ok ()) →
      (∀ o, k < xs.length →
        openSource s h c0 j (fun o => if !o.zero && o.cw != aringCw c0 (aringRing s h c0 j) then some .containerMismatch
          else none) (xs.getD k 0) = .ok (s', o) →
        UnitRan s' hid .ld h { c0 with carried := c0.carried ++ [o.src] } j parts (exec (.aring c.t) s)) ∧
      (∀ tile, xs.length ≤ k → (aringRing s h c0 j).full.getLsbD (aringRing s h c0 j).tail = false →
        aringTile s c0 j (aringRing s h c0 j) xs (carriedMap c0 xs (c0.carried.drop (aringBase s h c0 rows j)))
          h.csr.srseed = .ok (tile, fl, sr) →
        UnitRan ((fillSlot { s with draws := s.draws + 256 } h c0 j tile).modHart hid
          (fun g => { g with csr := { g.csr with srseed := sr } })) hid .ld h { c0 with flags := c0.flags ||| fl } j parts
          (exec (.aring c.t) s))) ∧
    ((∀ j ∈ rows, let q := (core j).queue c.t.d.toNat
        q.owner = some h.group ∧ q.strips = [] ∧ s.queueBusy (h.coreOf j) c.t.d.toNat = false) →
      Ran (rows.foldl (fun s j => s.modCore (h.coreOf j) (fun k =>
          k.setQueue c.t.d.toNat { k.queue c.t.d.toNat with
            srcFmt := c.t.fmt, srcCw := c.t.cw, srcSexp := c.t.imm.extractLsb' 0 8, sfmt := c.t.imm.extractLsb' 8 5,
            smode := c.t.imm.extractLsb' 13 3, prod := (c.t.imm.extractLsb' 16 2).toNat,
            cons := (c.t.imm.extractLsb' 18 2).toNat })) s) hid .ld c0 0 (exec (.aqcfg c.t) s)) ∧
    Ran s hid .ld c0 0 (exec (.apref c.t) s)

/-- R186 to R188, R205, R207 to R209: a strip store that has passed its checks pops, in each unit of a row, the head strip
of the row's queue, converts it and stores it at the row's next address; SACC stores the next row of the tile in each
unit; what they store is stored at once, or stands in flight where the plan defers it (log 3), and none comes before a store
in flight of its order slice; STAG gives the next sector of a row the tag in a, keeping its data as R40 says; FESET makes it an empty or a full
cell. -/
def Obligations.StreamStores : Prop :=
  ∀ (s s' : State) (hid : Nat) (h : Hart) (c c1 : Command) (j : Nat) (ps : List Pending) (fl : Flags) (sr : BitVec 32),
    Head s .st hid h c →
    let c0 := c.atIssue s h
    let q := c.t.a.toNat
    let die := fun (j : Nat) (x : Dword) => x + BitVec.ofNat 64 j * c.stride
    let n := c.t.len.toNat
    let end_ := fun (s : State) (sr : BitVec 32) =>
      (s.modHart hid (fun g => { g with csr := { g.csr with srseed := sr } })).markTask hid
    let stores := fun (i : Instr) (first : Except Stop Command) (counts : Nat → List Nat) (x : Sectors) =>
      Passes h c0 c1 first (fun j =>
        (∀ n ∈ counts j, n ≤ 2 ^ 24) ∧ x.check s h .w j = .ok () ∧ queueCheck s h q j false = .ok ()) →
      ((∀ j ∈ c1.rows h, x.count j ≤ c1.doneOf j) → Ran s hid .st c1 c1.flags (exec i s)) ∧
      (∀ p e, unitOf h c1 x.count j → ((s.core (h.coreOf j)).queue q).strips ≠ [] →
        stripUnit h c1 x j (c1.doneOf j) s = .ok (s', p, e) → s'.storeBarred h c1 [p] = false →
        let y := s'.storeAll hid h c1 [p]
        UnitRan (end_ (y.1.pop (h.coreOf j) q) e.sr) hid .st h { y.2 with flags := y.2.flags ||| e.flags } j
          x.count (exec i s))
    let sst : Sectors :=
      { spad := false, count := fun _ => n, addr := fun j k => die j ((c0.capt j).d + BitVec.ofNat 64 (256 * k)) }
    stores (.sst c.t) (.ok c0) (fun _ => []) sst ∧
    stores (.ssts c.t) (.ok c0) (fun _ => [])
      { spad := false, count := fun _ => n, addr := fun j k => die j ((c0.capt j).d + BitVec.ofNat 64 k * (c0.capt j).b) } ∧
    stores (.sst2 c.t) (.ok c0) (fun j => [(c0.capt j).c.toNat])
      { spad := false, count := fun j => (c0.capt j).c.toNat * n,
        addr := fun j k => die j ((c0.capt j).d + BitVec.ofNat 64 (k / n) * (c0.capt j).b
          + BitVec.ofNat 64 (256 * (k % n))) } ∧
    stores (.sscat c.t) (withOffsets h c0 (c0.rows h)) (fun _ => [])
      { spad := false, count := fun j => (c1.offs.getD j []).length,
        addr := fun j k => die j ((c0.capt j).d + BitVec.ofInt 64 ((c1.offs.getD j []).getD k 0)) } ∧
    stores (.sspx c.t) (.ok c0) (fun _ => [])
      { spad := true, count := fun _ => n, addr := fun j k => (c0.capt j).d + BitVec.ofNat 64 (256 * k) } ∧
    ((∀ i ∈ c0.rows h, s.tileHeld h.ctx (h.coreOf i) q = false) →
      let t := (c0.rows h).foldl (fun s j => s.useTile h (h.coreOf j) q) s
      Passes h c0 c0 (.ok c0) (fun j => saccCheck t h c0 j = .ok ()) → unitOf h c0 (fun _ => n) j →
      saccUnit h c0 j (c0.doneOf j) t = .ok (s', ps, fl, sr) → s'.storeBarred h c0 ps = false →
      let y := s'.storeAll hid h c0 ps
      UnitRan (end_ y.1 sr) hid .st h { y.2 with flags := y.2.flags ||| fl } j (fun _ => n) (exec (.sacc c.t) s)) ∧
    (s.storeAll hid h c0 ps =
      if s.defer then (s.modHart hid (fun g => { g with stores := g.stores ++ ps.map (fun p => p.entry h c0) }), c0)
      else (ps.foldl (fun s p => s.putSector h p.row p.dpa p.loc p.sec) s,
        { c0 with flags := ps.foldl (fun f p => f ||| p.fl) c0.flags })) ∧
    (∀ dpa l, unitOf h c0 (fun _ => n) j → s.unitLoc h j .w (sst.addr j (c0.doneOf j)) = .ok (s', dpa, l) →
      h.engineWaits .st j dpa c0.order = false →
      let ran := fun (t : State) (i : Instr) => UnitRan (t.markTask hid) hid .st h c0 j (fun _ => n) (exec i s)
      (Passes h c0 c0 (.ok c0) (fun j => stagCheck c0 j = .ok () ∧ sst.check s h .w j = .ok ()) →
        let y := secRetag (s'.readSector l) ((c0.capt j).a.extractLsb' 0 24)
        barredOnCxl dpa l y = false → ran (s'.putSector h j dpa l y) (.stag c.t)) ∧
      (Passes h c0 c0 (.ok c0) (fun j => sst.check s h .w j = .ok ()) →
        (c.t.mod.getLsbD 0 = false →
          ran (s'.storeSector h j dpa l { tag := mkTag clsFempty 7 4 0, bmeta := 0, data := 0 }) (.feset c.t)) ∧
        (c.t.mod.getLsbD 0 = true →
          ran (s'.putSector h j dpa l { s'.readSector l with tag := mkTag clsFfull 7 4 0, bmeta := 0 })
            (.feset c.t))))

/-! ## The lease, rings and the array (R211 to R225) -/

/-- R212, R216, R332: whatever the mask, MLEASE asks for the lease on the core of every row of the span or sets the count of
one that it has; MRELEASE ends those that it holds; RINGCFG installs empty rings; RINGPUT fills the tail slot and RINGPOP empties
the head slot of each row's ring; RINGQRY reads FULL, HEAD, TAIL and SLOTS into d. -/
def Obligations.LeaseRingResults : Prop :=
  ∀ (s s' : State) (hid : Nat) (h : Hart) (c : Command), AtHead s .mx hid h c →
    let k := c.atIssue s h
    let rows := k.rows h
    let ring := fun j n => (s.core (h.coreOf j)).ring n
    let usable := fun n => ∀ j ∈ rows, (ring j n).slots ≠ 0 ∧ (ring j n).owner = h.group
    let d := c.t.d.toNat
    let a := c.t.a.toNat
    Ran (h.cores.foldl (fun s k => s.mlease hid h c.t.imm.toNat k) s) hid .mx k 0 (exec (.mlease c.t) s) ∧
    Ran (h.cores.foldl (fun s k => if (s.leaseOf h k).state = .held then s.setLease h k Lease.reset else s) s) hid .mx k 0
      (exec (.mrelease c.t) s) ∧
    (rows ≠ [] →
    (∀ ds, ringDescs h k rows s = .ok (s', ds) →
      (∀ y ∈ ds, ((s'.core (h.coreOf y.1)).ring d).full = 0 ∧ s'.ringBusy (h.coreOf y.1) d = false) →
      Ran (ds.foldl (fun s y => s.modCore (h.coreOf y.1) (fun k => k.setRing d (ringOf y.2 h.group))) s') hid .mx k 0
        (exec (.ringcfg c.t) s)) ∧
    (usable d → (∀ j ∈ rows, (ring j d).full.getLsbD (ring j d).tail = false) →
      Ran (rows.foldl (fun s j => s.modCore (h.coreOf j) (fun k =>
          let r := k.ring d
          k.setRing d { r with full := r.full ||| BitVec.ofNat 32 (2 ^ r.tail), tail := (r.tail + 1) % r.slots,
                               srcBase := del r.srcBase r.tail, srcStride := del r.srcStride r.tail })) s) hid .mx k 0
        (exec (.ringput c.t) s)) ∧
    (usable d → (∀ j ∈ rows, (ring j d).full.getLsbD (ring j d).head = true) →
      Ran (rows.foldl (fun s j => s.modCore (h.coreOf j) (fun k =>
          let r := k.ring d
          k.setRing d { r with full := r.full &&& ~~~ BitVec.ofNat 32 (2 ^ r.head), head := (r.head + 1) % r.slots })) s)
        hid .mx k 0 (exec (.ringpop c.t) s)) ∧
    (usable a →
      Ran (s.setHart hid (rows.foldl (fun (x : Hart) j => x.setUreg j d
          (BitVec.ofNat 64 ((ring j a).full.toNat + (ring j a).head % 2 ^ 8 * 2 ^ 32 + (ring j a).tail % 2 ^ 8 * 2 ^ 40
            + (ring j a).slots % 2 ^ 16 * 2 ^ 48))) h)) hid .mx k 0 (exec (.ringqry c.t) s)))

/-- R212, R218 to R225, R228, R230: an array command, all of whose rows that have not started have a lease, held or asked
for, and good rings, starts the first of them whose lease is held, whose array is free, whose rings' heads are full and
whose tiles no spill holds: it makes tile D's contents from that row's tiles and operands, takes one from the lease's
count, and where it was the last row it has run, leaving its tiles, flags, record and ring pops to its completion. A row
starts where its operands have kinds that go together and no registration holds tile D; a command that is not recorded
makes no record. -/
def Obligations.ArrayResults : Prop :=
  ∀ (s s' : State) (hid : Nat) (h : Hart) (c : Command) (j : Nat) (tape : Option TapeRecord), Head s .mx hid h c →
    let k := c.atIssue s h
    (∀ i ∈ k.rowsLeft h, (s.leaseOf h (h.coreOf i)).state ≠ .none) →
    let core := h.coreOf j
    let a := c.t.a.toNat
    let b := c.t.b.toNat
    let d := c.t.d.toNat
    let turn := fun (rings tiles : List Nat) => (∀ g ∈ rings, ∀ i ∈ k.rowsLeft h, ringCheck s h i g = none) ∧
      (k.rowsLeft h).find? (fun i => s.mayStart hid h i && s.headsFull h rings i
        && !tiles.any (s.tileHeld h.ctx (h.coreOf i))) = some j
    let starts := fun (i : Instr) (rings : List Nat) (t : State) (r : ArrayRes) =>
      t.tileCheck h k = .ok () → t.makeRecord h k (k.rows h) r.res.tag r.srcs = .ok tape →
      let k1 := k.start j r.res
      let u := t.startArray h core
      exec i s = if k1.rowsLeft h = [] then ranWith u hid .mx k1 (k1.arrayEnd h rings tape) else goes (u.issue hid .mx k1)
    let makes := fun (i : Instr) (rings tiles : List Nat) (ok : State → Prop) (f : State → ArrayRes) =>
      turn rings tiles → ok (s.useTiles h [j] tiles) → starts i rings (s.useTiles h [j] tiles) (f (s.useTiles h [j] tiles))
    let kind := fun (t : State) (n : Nat) => tileKind (t.tileTag core n)
    let two := fun (i : Instr) (f : Exact → Exact → Exact × Flags) (g : Int → Int → Int) => makes i [] [a, b, d]
      (fun t => kind t a = none ∨ kind t b = none ∨ kind t a = kind t b)
      (fun t => { srcs := [t.tileSource h core a (a == d), t.tileSource h core b (b == d)],
                  res := match (kind t a).or (kind t b) with
                    | none => TileRes.zero
                    | some int => zipTiles int f g (t.tileVals core a) (t.tileVals core b) })
    let one := fun (i : Instr) (floats keepZero : Bool) (more : TileRes → List Source)
        (f : Bool → List (List Exact) → TileRes) => makes i [] [a, d]
      (fun t => floats = true → kind t a ≠ some true)
      (fun t =>
        let r := if kind t a = none ∧ keepZero = true then TileRes.zero else f (kind t a == some true) (t.tileVals core a)
        { res := r, srcs := t.tileSource h core a (a == d) :: more r })
    let codes := fun (i : Instr) (f : BitVec 24 → List (List Nat) → TileRes) => makes i [] [a, d] (fun _ => True)
      (fun t => { srcs := [t.tileSource h core a (a == d)],
                  res := if kind t a = none then TileRes.zero else f (t.tileTag core a) (t.tileRows core a) })
    let each := fun (f : Exact → Exact × Flags) (v : List (List Exact)) =>
      joinRows tagFp32 (v.map (fun r => r.map (fun e => floatElem (f e))))
    let m := c.t.mod.toNat % 8
    (∀ x y r, turn [a, b] [d] → let t := s.useTiles h [j] [d]
      t.operandTile h k j a = .ok x → t.operandTile h k j b = .ok y →
      (t.matrixSum h k j x y = .ok r →
        starts (.tmma c.t) [a, b] t { res := r, srcs := [ringSource h a x, ringSource h b y] }) ∧
      ((x.fmt.map (·.1) = y.fmt.map (·.1) ∧ (kind t d = none ∨ x.fmt = none ∨ kind t d = x.fmt.map (fun z => fmtInt z.1))) →
        ∃ r, t.matrixSum h k j x y = .ok r)) ∧
    makes (.tzero c.t) [] [d] (fun _ => True) (fun _ => { res := { tag := 0, rows := [], fl := 0 }, srcs := [] }) ∧
    two (.tadd c.t) (addE false) (· + ·) ∧ two (.tsub c.t) (fun x y => addE false x y.negate) (· - ·) ∧
    two (.tmul c.t) mulE (· * ·) ∧
    one (.tscl c.t) true true (fun _ =>
        [{ kind := 5, loc := tsclScalar k j, ref := 0, tag := 0, mode := 3, own := false, payload := [] }])
      (fun _ v => each (fun e => mulE e (fp32.decode (tsclScalar k j))) v) ∧
    (∀ r, turn [] [a, d] → tbiasRow h k (s.useTiles h [j] [a, d]) j = .ok r →
      starts (.tbias c.t) [] (s.useTiles h [j] [a, d]) r) ∧
    (∀ f w, OperandIs h k f w b → j ∈ k.rows h → kind s' a = none ∨ kind s' a = some (fmtInt f) →
      ∃ r, tbiasRow h k s' j = .ok r) ∧
    one (.tact c.t) true (m < 4) (fun r => if 3 ≤ m then [resultSource h d r] else []) (fun _ v => each (tactE m) v) ∧
    one (.trsum c.t) false true (fun _ => []) (fun int v => inColumn int (lineSum int) v) ∧
    one (.tcsum c.t) false true (fun _ => []) (fun int v => inRow int (lineSum int) v) ∧
    one (.trmax c.t) false true (fun _ => []) (fun int v => inColumn int (lineMax int) v) ∧
    codes (.ttrans c.t) (fun tag v => { tag := tag, rows := transposeRows 0 v, fl := 0 }) ∧
    codes (.tcvt c.t) (tcvtRows c.t.fmt) ∧
    makes (.tcopy c.t) [] [a, d] (fun _ => True) (fun t =>
      { res := { tag := t.tileTag core a, rows := t.tileRows core a, fl := 0 },
        srcs := [t.tileSource h core a (a == d)] }) ∧
    (∀ r, turn [] [d] → (k.issued = true ∨ ∀ i ∈ k.rowsLeft h, tloadaCheck s h k i = .ok ()) →
      tloadaTile (s.useTiles h [j] [d]) h k j = .ok (s', r) → starts (.tloada c.t) [] s' r) ∧
    (c.recording = false → ∀ tag xs, s'.makeRecord h k (k.rows h) tag xs = .ok none) ∧
    ((∀ i ∈ k.rows h, s'.tileClobber h (h.coreOf i) d = false) → s'.tileCheck h k = .ok ())

/-- R56, R221, R222: a TMMAP row that has its lease and its heads, its operands being good, and finds its pair slot idle waits
there as its half, having arrived; one that finds its partner's half, both operands and the combined B being good and each side's record made, starts both sides:
each core's tile gets the sum of its own A with the B made of the even core's first and the odd core's second 32 columns.
A TMMAP each of whose rows has started has run, and one none of whose rows has started in the turn has not issued. -/
def Obligations.PairResults : Prop :=
  ∀ (s : State) (hid : Nat) (h : Hart) (c : Command), Head s .mx hid h c →
    let k := c.atIssue s h
    let left := k.rowsLeft h
    let t := s.useTiles h (k.rows h) [c.t.d.toNat]
    (∀ i ∈ left, (s.leaseOf h (h.coreOf i)).state ≠ .none ∧ s.tileHeld h.ctx (h.coreOf i) c.t.d.toNat = false ∧
      ∀ g, g = c.t.a.toNat ∨ g = c.t.b.toNat → ringCheck s h i g = none) →
    (c.recording = true → (k.rows h).length ≤ 1) →
    (∀ u k1, pairRows hid h left t k = .ok u k1 →
      (∀ d, k1.done = some d → exec (.tmmap c.t) s = ranWith u hid .mx k1 d) ∧
      (k1.done = none → k1.started ≠ k.started → exec (.tmmap c.t) s = goes (u.issue hid .mx k1)) ∧
      (k1.done = none → k1.started = k.started →
        exec (.tmmap c.t) s = goes (if k1 = k ∧ u.pairs = s.pairs then s else u.modHart hid (fun g => g.setHead .mx k1)))) ∧
    (∀ (j : Nat) (a b : HeadTile), left = [j] → let core := h.coreOf j
      t.mayStart hid h j = true → t.headsFull h [c.t.a.toNat, c.t.b.toNat] j = true →
      (∃ g, look t.groups h.group = some g ∧ g.hasCore j (core ^^^ 1) = true) →
      t.operandTile h k j c.t.a.toNat = .ok a → t.operandTile h k j c.t.b.toNat = .ok b →
      (t.pair h core = .idle →
        exec (.tmmap c.t) s = goes ((t.setPair h core (.half core)).modHart hid (fun g => g.setHead .mx (k.arrive j)))) ∧
      (∀ n row yid y d0 a' b' r1 r2 t1 t2, t.pair h core = .half n → n ≠ core → t.partner h j = some (yid, y) →
        t.stopped y = false → t.expired y = false → y.waitingPair n = some (d0, row) →
        d0.consumed = true ∨ y.waitsMet .mx d0 = true →
        let d := d0.atIssue t y
        let u := t.setPair h core .idle
        u.operandTile y d j d.t.a.toNat = .ok a' → u.operandTile y d j d.t.b.toNat = .ok b' →
        let e := if core % 2 = 0 then b else b'
        let o := if core % 2 = 0 then b' else b
        (∃ x, combineB e o = .ok x) → pairSide u h k j a b b' e o = .ok (r1, t1) →
        pairSide u y d j a' b' b e o = .ok (r2, t2) →
        let v := startSide u yid y d j r2 t2
        let w := startSide v.1 hid h k j r1 t1
        w.2.done = some (w.2.arrayEnd h [c.t.a.toNat, c.t.b.toNat] t1) ∧
        exec (.tmmap c.t) s = goes (w.1.issue hid .mx w.2)))

/-! ## Jobs (R255 to R260, R295 to R301) -/

/-- R255, R256, R258, R295, R296: a JB command whose jobs are checked in every row, none of which waits at a PENDING scope
entry, with room in the trackers, registers its jobs in row order and has run; JCOPY, JFILL and JPREF take theirs from
registers, the others from the card at a. JFILL raises CONTAINER_MISMATCH for a named format that its container does not
fit (log 44). -/
def Obligations.JobIssueResults : Prop :=
  ∀ (s s' : State) (hid : Nat) (h : Hart) (c : Command) (js : List Job), Head s .jb hid h c →
    let k := c.atIssue s h
    let va := fun (j : Nat) (x : Dword) => x + BitVec.ofNat 64 j * k.stride
    let spec := fun (opc j : Nat) => (
      { opc := opc, op := 0, fmt := k.t.fmt, cw := k.t.cw, scope := 0, src := va j (k.capt j).a, dst := va j (k.capt j).d,
        sstr := 0, dstr := 0, n0 := 0, aux0 := (k.capt j).b, aux1 := 0, aux2 := 0 } : JobSpec)
    let issues := fun (i : Instr) (reg : State → Job → State) (f : State → Issuer → Nat → Except Stop (State × JobSpec)) =>
      issueRows hid h k f (k.rows h) s = .ok (some (s', js)) → s'.trackerRoom js = true →
      Ran ((js.foldl reg s').modHart hid Hart.markStored) hid .jb k 0 (exec i s)
    let card := fun (i : Instr) (opc : Nat) => issues i State.register (cardSpec opc k)
    issues (.jcopy c.t) State.register (fun s i j => countAligned s i (spec 0x01 j)) ∧
    issues (.jfill c.t) State.register (fun s i j =>
      if k.t.fmt ≠ 0x1F ∧ fmtFits k.t.fmt k.t.cw = false then .error (.cause .containerMismatch i.row none)
      else countAligned s i { spec 0x05 j with src := 0, aux1 := (k.capt j).a }) ∧
    issues (.jpref c.t) State.register (fun s _ j =>
      let x := spec 0x0A j
      .ok (s, { x with dst := 0, src := BitVec.ofNat 64 (x.src.toNat / 256 * 256),
                       aux0 := if x.aux0 = 0 then 0 else x.aux0 + BitVec.ofNat 64 (x.src.toNat % 256) })) ∧
    card (.jcopy2 c.t) 0x02 ∧ card (.jgath c.t) 0x03 ∧ card (.jscat c.t) 0x04 ∧ card (.jred c.t) 0x06 ∧
    card (.jrecode c.t) 0x08 ∧ card (.jtens c.t) 0x09 ∧
    issues (.jcoll c.t) State.registerMember (cardSpec 0x07 k)

/-! ## Steps of engines, harts and jobs (R88, R93 to R99, R212 to R214, R230 to R237, R265, R285) -/

/-- R88, R93, R95, R96, R105, R230, R265, R266, R273: COMMAND_COMPLETION retires the head command that has run, pushing its
tokens and setting its slot, its flags joined to XSTAT, RETIRED and its engine's index raised, its ring heads popped and
its trace entered; one with a record writes it first, and one with accesses in flight leaves the queue and completes, before
a later one, once they have been performed and have landed. FORMATION_FAULT_RAISE raises the fault of the head command once
the engine's earlier commands have completed, ENGINE_DEADLOCK a hart's 2^20 idle cycles on the engine of its oldest head
command or on the scalar pipeline, and MC_UNCORRECTABLE an uncorrectable error, which a hart for which no trap can be raised
now takes later. -/
def Obligations.EngineEventResults : Prop :=
  ∀ (s s' : State) (hid : Nat) (h : Hart) (c : Command) (d : Completion) (k : Cause), s.focus.hart = hid →
    look s.harts hid = some h →
    let e := s.focus.eng
    let head := (h.queue e).head? = some c
    let retires := fun (now : Nat) (g : Hart) =>
      let p := g.pushWaits e c
      let i := engIdx e + 1
      { p with
        csr := { p.csr with xstat := p.csr.xstat ||| d.flags, retired := p.csr.retired + 1 },
        idx := p.idx.setIfInBounds i ((p.idx[i]?).getD 0 + 1), lastProgress := now }
    let completes := fun (s' : State) =>
      let t := d.pops.foldl (fun s p => s.modCore p.1 (fun k => k.setRing p.2 (k.ring p.2).pop)) (s'.writeTiles h c)
      let u := (if e = .mx then t.touchLeases h c else t).traceAll h e c d
      exec .commandCompletion s =
        goes (u.modHart hid (fun g => retires u.now (g.setQueue e ((g.queue e).drop 1))))
    (h.lateDone e = some c → c.done = some d →
      exec .commandCompletion s = goes ((s.traceAll h e c d).setHart hid
        (retires s.now { h with timed := h.timed.filter (fun x => x.2.order != c.order) }))) ∧
    (h.lateDone e = none → head → c.done = some d →
      (h.inFlight c = true →
        exec .commandCompletion s = goes (s.setHart hid
          { h.setQueue e ((h.queue e).filter (fun x => x.order != c.order)) with
            timed := h.timed ++ [(e, c)], lastProgress := s.now })) ∧
      (h.inFlight c = false → h.engineMay c = true → h.mayComplete e c = true →
        (∀ r ∈ c.started, s.tileHeld h.ctx (h.coreOf r.row) c.t.d.toNat = false) →
        (d.tape = none → completes s) ∧ (∀ r, d.tape = some r → s.writeTape hid h c r = .ok s' → completes s'))) ∧
    (head → h.engineMay c = true → c.fault = some k → c.done = none → (∀ x ∈ h.timed, x.1 ≠ e) →
      exec .formationFaultRaise s =
        goes (s.takeTrap hid (engineInfo e c k ((c.rows h).headD 0) none 0 false))) ∧
    (s.stopped h = false → s.mayTrap hid h = true → s.idleFlight hid h = true → 2 ^ 20 ≤ s.now - h.lastProgress →
      let u := s.modHart hid Hart.unissue
      (∀ e' c', h.oldestHead = some (e', c') →
        exec .engineDeadlock s = goes (u.takeTrap hid (engineInfo e' c' .engineDeadlock 0 none 0 false))) ∧
      (h.oldestHead = none →
        exec .engineDeadlock s = goes (u.takeTrap hid (scalarInfo h 0 .engineDeadlock 0 none)))) ∧
    (s.stopped h = false → s.mayTrap hid h = true →
      exec .mcUncorrectable s = goes ((s.modHart hid (fun g => { g with mcPending := false })).takeTrap hid
        { scalarInfo h 0 .mcUncorrectable 0 none with eng := 7 })) ∧
    (s.stopped h = true ∨ s.mayTrap hid h = false →
      exec .mcUncorrectable s = goes (s.modHart hid (fun g => { g with mcPending := true })))

/-- R97 to R99, R131, R269, R285, R292, R358, R368: LOAD_DATA_ARRIVAL reads the data of a load in flight that no access in
flight comes before, and what is due lands; LOAD_LANDING lands what is due or freezes the cores; ACCESS_PERFORMED performs a
store that no access in flight comes before and whose package can be reached, and what another agent has made of its sector
may refuse it, which raises its trap; PAGE_ABSENT_REPLY to a page whose entry is ABSENT parks the job or saves the hart;
SPATULA_RECORD, with the lease held, the array free and the core running, applies the adjoint of record NEXT, with its
flags, and ends REVERSE after record MARK; TILE_SPILL writes a tile whose spill is due to its owner's image and frees it.
R212, R214: LEASE_GRANT, with the lease of a running core free, gives it to one of the requests that were passed over three
times, the oldest request cycle first and then the lowest slot, else to one of the highest priority class, by request cycle
and then slot likewise, and counts one more passing-over of the others; LEASE_TIMEOUT takes it after 16,384 cycles,
LEASE_IDLE_EXPIRY after 512 with nothing executing, and asks for it again. -/
def Obligations.AccessEventResults : Prop :=
  (∀ (s s' : State) (hid : Nat) (h : Hart), s.focus.hart = hid → look s.harts hid = some h →
    (let part := fun (y : LoadEntry) => y.isPart s.focus.unit s.focus.sub s.focus.val.toNat
     ∀ e x, h.loads.find? (fun y => part y && y.data.isNone) = some e → h.loadWaits e = false →
      s.arrive h e = .ok (s', x) →
      let g := { h with loads := h.loads.map (fun y => if part y then { y with data := some x } else y) }
      exec .loadDataArrival s = goes (((s'.setHart hid g).landAll hid).refreeze g)) ∧
    exec .loadLanding s = goes ((s.landAll hid).refreeze h) ∧
    (∀ x, h.stores[s.focus.unit]? = some x → h.storeWaits x = false → s.unreachable h x = false →
      (∀ fl, s.madeStore h x = .ok (s', fl) →
        exec .accessPerformed s = goes (s'.modHart hid (fun g =>
          { g with stores := g.stores.filter (fun y => y != x),
                   csr := { g.csr with xstat := g.csr.xstat ||| fl }, lastProgress := s.now }))) ∧
      (∀ c row addr e k, s.madeStore h x = .error (.cause c row addr) → h.commandOf x = some (e, k) →
        s.mayTrap hid h = true → h.traps = [] →
        exec .accessPerformed s = goes ((s.setHart hid (h.failTimed e x.order)).takeTrap hid
          { cause := c, eng := engCode e, row := x.row, addr := some x.addr, status := 0, progress := false, pc := k.pc,
            cls := engEcls e, tix := k.tix }))) ∧
    (∀ a, isHbm a.dpa = true → pitState (s.pitEntry (a.dpa / 65536)) = 0 →
      (a.job = none → exec (.pageAbsentReply a) s = goes (s.pageAbsent hid a.dpa a.write)) ∧
      (∀ id j, a.job = some id → look s.jobs id = some j →
        exec (.pageAbsentReply a) s = goes (s.stopJob id j (.absent j.row a.dpa a.write)))) ∧
    (∀ va map r t fl, h.wait = .reverse va map → (h.state = .running ∨ h.state = .sleeping) → s.stopped h = false →
      s.expired h = false →
      let j := (h.active (s.prefixesAt h)).headD 0
      let n := h.csr.revNext.toNat
      let u := t.passRecord hid h j n fl
      (s.leaseOf h (h.coreOf j)).state = .held → s.arrayBusy hid (h.coreOf j) = false →
      (∃ t y, s.rawStruct h j 32 32 32 va = .ok (t, y) ∧ gMapOf y = map) → s.record h j n = .ok (s', r) →
      applyRecord s' hid h j map none r = .ok (t, fl) →
      (h.csr.recMark.toNat < n → exec .spatulaRecord s = goes u) ∧
      (n ≤ h.csr.recMark.toNat → ∀ g, look u.harts hid = some g →
        exec .spatulaRecord s = goes (u.reverseEnd hid g (s.prefixesAt h) r.va))) ∧
    (s.spillDue s.focus.unit s.focus.sub = true → s.tileHeld 4096 s.focus.unit s.focus.sub = false →
      exec .tileSpill s = goes (s.spillTile s.focus.unit s.focus.sub))) ∧
  (∀ (s : State) (slot : Nat) (l : Lease),
    let core := s.focus.unit
    let now := s.cycle core
    let rs := (s.core core).requests
    let rank := fun (x : Nat × Lease) => (look s.harts x.2.hart).elim 4 (fun h => 3 - h.prio.toNat)
    let older := fun (x : Nat × Lease) => l.reqAt < x.2.reqAt ∨ (l.reqAt = x.2.reqAt ∧ slot ≤ x.1)
    (s.coreStopped core = false → (∀ x ∈ (s.core core).leases, x.2.state ≠ .held) →
      (rs ≠ [] → (s.leaseWinner core).isSome = true) ∧
      (s.leaseWinner core = some (slot, l) →
        (slot, l) ∈ rs ∧
        ((∃ x ∈ rs, 3 ≤ x.2.bypass) → 3 ≤ l.bypass ∧ ∀ x ∈ rs, 3 ≤ x.2.bypass → older x) ∧
        ((∀ x ∈ rs, x.2.bypass < 3) → ∀ x ∈ rs, rank (slot, l) < rank x ∨ (rank (slot, l) = rank x ∧ older x)) ∧
        exec .leaseGrant s = goes (s.modCore core (fun c =>
          let d := c.requests.foldl (fun (c : Core) x => c.setLease x.1 { x.2 with bypass := x.2.bypass + 1 }) c
          d.setLease slot { l with state := .held, grantAt := now, usedAt := now, bypass := 0 })))) ∧
    (∀ hid h, s.leaseHart core s.focus.sub = some (hid, h, l) →
      (l.grantAt + 16384 ≤ now → exec .leaseTimeout s = goes (s.endLease hid h core)) ∧
      (l.usedAt + 512 ≤ now → h.onArray core = false → exec .leaseIdleExpiry s = goes (s.endLease hid h core))))

/-- R252, R258, R260, R295, R298 to R301, R361: JOB_START starts a job that no earlier job of its context overlaps;
JOB_SECTOR_WRITE writes one of its sectors, in any order but for JSCAT, where it is one of the first row with an unwritten
sector, and counts 256 bytes on its barrier object; JOB_COMPLETE makes its arrival and ends it, an abandoned one with ERR,
and an arrival that raises a cause leaves it faulted at its object's address; JOB_RESUME goes on with one parked on a page
that has come; JOB_FAULT_RAISE raises its fault on its hart's JB engine. An arrival is made where no later action on its
object has come first in the cycle. -/
def Obligations.JobEventResults : Prop :=
  ∀ (s s' t : State) (j : Job),
    let id := s.focus.unit
    look s.jobs id = some j →
    let state := fun (s : State) (x : JobState) => s.modJob id (fun j => { j with state := x })
    let unbroken := j.skip = false ∧ ∀ o, j.outcome = some o → o.1 = 0
    let arrival : BarAct := { arra := 1, err := j.skip || decide (∃ o ∈ j.outcome, o.1 ≠ 0), arrb :=
      if j.skip = false ∧ ∃ o ∈ j.outcome, o.1 ≠ 0 then 256 * (j.total - j.done - j.ahead.length) else 0 }
    (j.state = .registered → s.jobHeld id j = false →
      exec .jobStart s = goes (state s (if j.coll.isSome then .collecting else .running))) ∧
    (∀ b, j.state = .running → s.jobBarrier j = .ok b →
      (let k := j.done + s.focus.sub
       k < j.total → k ∉ j.ahead → (j.opc = 0x04 → k / max 1 j.n0 = j.done / max 1 j.n0) → unbroken →
        s.jobWrite id k j = .ok s' →
        (s'.jobArrive id j { arrb := 256 } = some (t, none) →
          exec .jobSectorWrite s = goes (t.modJob id (fun j => j.wrote k))) ∧
        (∀ c, s'.jobArrive id j { arrb := 256 } = some (t, some c) →
          exec .jobSectorWrite s =
            goes (t.modJob id (fun j => { j.wrote k with state := .faulted c (some j.barVa) })))) ∧
      (j.total ≤ j.done ∨ ¬unbroken → (if j.skip ∧ j.outcome = none then s' = s else s.writeOutcome j = .ok s') →
        (s'.jobArrive id j arrival = some (t, none) → exec .jobComplete s = goes (t.endJob id j)) ∧
        (∀ c, s'.jobArrive id j arrival = some (t, some c) → j.hart.isSome = true →
          exec .jobComplete s = goes (t.modJob id (fun j => { j with
            bar := none, state := .faulted c (some j.barVa), outcome := none, done := j.total, ahead := [] }))))) ∧
    (∀ a, (j.bar = none → s.jobArrive id j a = some (s, none)) ∧
      (∀ u dpa l, s.jobBarrier j = .ok (some (u, dpa, l)) → u.barrierMay (j.place id dpa) = true →
        s.jobArrive id j a = (u.barrierTook (j.place id dpa)).barrierAct j.ctx j.core j.agent dpa l a)) ∧
    (∀ p, j.state = .parked p → pitState (s.pitEntry p) ≠ 0 →
      exec .jobResume s = goes (state s (if j.coll.isSome ∧ j.outcome = none then .collecting else .running))) ∧
    (∀ c a hid h, j.state = .faulted c a → j.hart = some hid → look s.harts hid = some h → h.traps = [] →
      s.stopped h = false → s.mayTrap hid h = true →
      (∀ k, (h.queue .jb).head? = some k → k.issued = false ∨ k.done.isSome = true) →
      exec .jobFaultRaise s = goes ((state s .trapped).takeTrap hid
        { cause := c, eng := 5, row := j.row, addr := a, status := BitVec.ofNat 32 j.done, progress := true, pc := j.pc,
          cls := eclsOf .jb, tix := j.tix, idx := some j.idx }))

/-- R28, R317, R320, R351 to R358: CURSOR_WAKE gives an eligible sleeping hart its clusters and runs its CURSOR, which gives up what
a hart that waits for clusters needs, or takes its machine check; PREEMPTION_DEADLINE saves a hart asked to leave that has not by its deadline; HART_RESTORE brings one back
whose slot and clusters are free, and asks for them where they are held; DIE_REMAP_REQUEST puts a change of the die map
behind a gate and asks the die's harts to leave, and a die that another change drains answers busy; QUIESCE_GATE_ACK makes
a gate's change once its units are quiesced, and answers. -/
def Obligations.SchedulerEventResults : Prop :=
  ∀ (s : State) (hid : Nat) (h : Hart), s.focus.hart = hid → look s.harts hid = some h →
    (h.state = .sleeping → s.stopped h = false → s.expired h = false →
      (h.mcPending = true → s.mayTrap hid h = true → exec .cursorWake s = goes (s.mcTake hid h)) ∧
      (∀ t g gr px d n, h.mcPending = false → s.wakeHart hid h = some t → look t.harts hid = some g →
        look s.groups h.group = some gr → s.exhausted h gr = true ∨ (s.eligible h = true ∧ (s.nextEntry h).isSome = true) →
        decode (t.peekWords g g.pc 5) = .instr (.cursor px d) n →
        ∃ u, exec (.cursor px d) t = goes u ∧
          (t.clusterWaiters hid g ≠ [] → exec .cursorWake s = goes u) ∧
          (t.clusterWaiters hid g = [] → exec .cursorWake s = goes (u.modHart hid (fun k =>
            { k with csr := { k.csr with xcl := g.csr.xcl, acl := g.csr.acl } }))))) ∧
    (∀ t, h.preempt = some t → h.placed = true → t + s.deadlineOf h.ctx ≤ s.now →
      exec .preemptionDeadline s = goes (s.saveWhole hid .saved)) ∧
    (s.mayRestore hid h = true → s.coresServe h = true →
      (s.blockers hid h = [] → s.olderWaiter hid h = false →
        (h.state = .saved → h.csr.xcl + h.csr.acl ≤ s.poolFor hid h →
          exec .hartRestore s = goes (s.restoreHart hid h h.csr.xcl h.csr.acl)) ∧
        (∀ x a, h.state = .parked ∨ h.state = .ready → s.grantAgain hid h = some (x, a) →
          exec .hartRestore s = goes (s.restoreHart hid h x a))) ∧
      (s.blockers hid h ≠ [] →
        let hs := ((s.blockers hid h).filter (fun x => decide (x.2.prio.toNat ≤ h.prio.toNat))).map (·.1)
        let old := (s.requests.filter (fun r => r.by_ == .restore hid)).flatMap (·.harts)
        ((∀ x ∈ hs, x ∈ old) → exec .hartRestore s = goes s) ∧
        ((∃ x ∈ hs, x ∉ old) →
          exec .hartRestore s = goes (s.raiseRequest (.restore hid) (old ++ hs.filter (fun x => !old.contains x)))))) ∧
    (let v := s.focus.unit % 8
     let d := if s.focus.sub < 8 then some s.focus.sub else none
     (s.dieFree v = true →
      exec .dieRemapRequest s =
        goes ((pending s (.dieMap v d)).raiseRequest (.drain v) ((s.hartsOn v).map (·.1)))) ∧
     (s.dieFree v = false → exec .dieRemapRequest s = goes { s with replies := s.replies ++ [(5000, .busy)] })) ∧
    (∀ g, s.gates[s.focus.unit]? = some g → s.quiesced g = true →
      let t := ({ s with gates := s.gates.eraseIdx s.focus.unit } : State).applyGate g
      exec .quiesceGateAck s = goes { t with replies := t.replies ++ [(5000, .accepted)] })

/-! ## Queues, contexts and the graph (R310 to R313, R321 to R329, R335 to R347) -/

/-- R329: the moves of a queue's state. A queue with no live copy is DISABLED. Each command that the table lists for the
queue's state makes the move that the table gives, with the STATUS that it gives or 0, and a command that it does not list
completes with STATUS 2 and changes nothing; a DRAINING queue with no launch left becomes DISABLED, and a failed admission
sends an ACTIVE one to ERROR, HEAD unchanged. -/
def Obligations.QueueStateMoves : Prop :=
  ∀ (s : State),
    let q := s.qid
    let ends := fun (i : Instr) (t : State) (status : Nat) => exec i s = goes (t.qcmdEnd status)
    let moves := fun (i : Instr) (y : HwQueue) => ends i (s.setQueue q y) 0
    let d := s.sysRead (s.queueDesc q) 64
    (look s.wqueues q = none →
      (s.qcmdIs 1 = true → queueDescBad d = false → s.live (queueOf d).ctx = true → moves .qcmdEnable (queueOf d)) ∧
      (s.qcmdIs 1 = true → queueDescBad d = true → ends .qcmdEnable s 1) ∧
      (s.qcmdIs 1 = true → queueDescBad d = false → s.live (queueOf d).ctx = false → ends .qcmdEnable s 3) ∧
      (s.qcmdIs 2 = true → ends .qcmdPause s 2) ∧ (s.qcmdIs 3 = true → ends .qcmdResume s 2) ∧
      (s.qcmdIs 4 = true → ends .qcmdDrain s 2) ∧ (s.qcmdIs 5 = true → ends .qcmdDisable s 2) ∧
      (s.qcmdIs 6 = true → ends .qcmdSkip s 2)) ∧
    (queueOf d).state = .active ∧ (queueOf d).head = 0 ∧ (queueOf d).tail = 0 ∧
    (∀ x, look s.wqueues q = some x →
      (s.qcmdIs 1 = true → ends .qcmdEnable s 2) ∧
      (s.qcmdIs 2 = true → (x.state = .active → moves .qcmdPause { x with state := .paused }) ∧
        (x.state ≠ .active → ends .qcmdPause s 2)) ∧
      (s.qcmdIs 3 = true → (x.state = .paused → moves .qcmdResume { x with state := .active }) ∧
        (x.state = .error → moves .qcmdResume { x with state := .active, err := 0 }) ∧
        (x.state ≠ .paused → x.state ≠ .error → ends .qcmdResume s 2)) ∧
      (s.qcmdIs 4 = true →
        (x.state = .active ∨ x.state = .paused ∨ x.state = .error →
          let t := s.setQueue q { x with state := .draining }
          (t.queueRuns q = true → ends .qcmdDrain t 0) ∧
          (t.queueRuns q = false → ends .qcmdDrain (t.setQueue q { x with state := .disabled }) 0)) ∧
        (x.state = .draining ∨ x.state = .disabled → ends .qcmdDrain s 2)) ∧
      (s.qcmdIs 5 = true →
        (x.state = .paused ∨ x.state = .error →
          (s.queueRuns q = false → moves .qcmdDisable { x with state := .disabled }) ∧
          (s.queueRuns q = true → ends .qcmdDisable s 4)) ∧
        (x.state ≠ .paused → x.state ≠ .error → ends .qcmdDisable s 2)) ∧
      (s.qcmdIs 6 = true → (x.state = .error → moves .qcmdSkip { x with state := .paused, head := x.head + 1 }) ∧
        (x.state ≠ .error → ends .qcmdSkip s 2)) ∧
      (x.state = .draining → s.queueRuns q = false → s.drained q = s.setQueue q { x with state := .disabled }) ∧
      (s.setQueue q { x with state := .disabled }).wqueues = del s.wqueues q) ∧
    (∀ k x, s.pickQueue = some (k, x) → recordError (s.headRecord x) x.head.toNat ≠ 0 →
      exec .launchAdmission s = goes (s.setQueue k { x with
        state := .error, err := BitVec.ofNat 8 (recordError (s.headRecord x) x.head.toNat) }))

/-- R323, R324, R326 to R328: a QCMD write with an undefined OP completes at once with STATUS 1, one with a nonzero RZ bit
in its own step. QTBASE takes a value while every queue is DISABLED and
none otherwise, a doorbell sets TAIL, REGISTER_WRITE writes a register of the block, and LAUNCH_ADMISSION admits the head
record of the queue that it picks. R311 to R313, R321, R322: CTXALLOC makes the first FREE identifier after the last one
LIVE from its descriptor; CTXFREE of a LIVE context with no work and no page begins its purge, and PURGE_COMPLETE ends it;
CTXABORT ends all that a LIVE context runs, and completes when it has no job; HCMD resumes a suspended hart by its record, or answers STATUS 3 to one that cannot be
read or breaks its rules;
an invalid command gives its STATUS. -/
def Obligations.SchedulerCommandResults : Prop :=
  (∀ (s : State) (x : HwQueue),
    let ends := fun (i : Instr) (t : State) (status : Nat) => exec i s = goes (t.qcmdEnd status)
    (cmdBusy s.regs.qcmd = true → cmdRz s.regs.qcmd 0xFFFF 0 = true → ends .qcmdInvalid s 1) ∧
    (∀ v, cmdBusy s.regs.qcmd = false → cmdOp v = 0 ∨ 6 < cmdOp v →
      exec (.registerWrite 0xF0000000000 v) s =
        goes { s with regs := { s.regs with qcmd := (v &&& 0xFFFF) ||| 0x100000000000000 } }) ∧
    (s.wqueues = [] →
      exec .qtbaseWrite s = goes { s with regs := { s.regs with qtbase := s.focus.val &&& ~~~ 0x3FFFFF } }) ∧
    (s.wqueues ≠ [] → exec .qtbaseWrite s = goes s) ∧
    (s.focus.unit < 65536 → look s.wqueues s.focus.unit = some x → x.state = .active ∨ x.state = .paused ∨ x.state = .error →
      s.focus.val.toNat < 2 ^ 32 →
      let t := s.focus.val.extractLsb' 0 32
      t ≠ x.tail → (t - x.tail).toNat ≤ 2 ^ x.logn → (t - x.head).toNat ≤ 2 ^ x.logn →
      exec .doorbellWrite s = goes { s with wqueues := put s.wqueues s.focus.unit { x with tail := t } }) ∧
    (∀ off v, off < 4096 → exec (.registerWrite (0xF0000000000 + off) v) s = goes (s.writeReg off v)) ∧
    (∀ k, s.pickQueue = some (k, x) →
      let r := s.headRecord x
      let y := { x with head := x.head + 1, err := 0 }
      recordError r x.head.toNat = 0 →
      exec .launchAdmission s = goes (State.sysWrite
        { s with launches := put s.launches s.nextLaunch (launchOf k x r), nextLaunch := s.nextLaunch + 1, lastQueue := k,
                 wqueues := put s.wqueues k y } x.statw 8 y.status.toNat))) ∧
  (∀ (s : State) (c : Ctx),
    let id := s.ctxcmdId
    (∀ i l, s.ctxcmdIs 1 = true → s.freeCtx = some i → s.sysLoc s.regs.ctxdesc.toNat = some l →
      ctxDescBad (s.readRaw l 64) = false →
      ∃ t, exec .ctxalloc s = goes t ∧ look t.ctxs i = some (ctxOf (s.readRaw l 64)) ∧ t.lastCtx = i ∧
        (∀ k, k ≠ i → look t.ctxs k = look s.ctxs k) ∧ cmdBusy t.regs.ctxcmd = false ∧
        (i < 4096 → t.regs.ctxcmd.extractLsb' 0 12 = BitVec.ofNat 12 i) ∧ t.mem = s.mem) ∧
    (look s.ctxs id = some c →
      (s.ctxcmdIs 2 = true → c.purging = false → s.holdsWork id = false → s.holdsPages id = false →
        exec .ctxfree s = goes (s.modCtx id (fun c => { c with purging := true }))) ∧
      (s.ctxcmdIs 2 = true → c.purging = true → exec .purgeComplete s = goes ((s.purge id).ctxcmdEnd 0)) ∧
      (s.ctxcmdIs 3 = true → c.purging = false →
        let t := ((((s.abortQueues id).abortLaunches id).abortHarts id).abortJobs id).abortScopes id
        ((∃ x ∈ t.jobs, x.2.ctx = id) → exec .ctxabort s = goes t) ∧
        ((∀ x ∈ t.jobs, x.2.ctx ≠ id) → exec .ctxabort s = goes (t.ctxcmdEnd 0)))) ∧
    (cmdBusy s.regs.ctxcmd = true → cmdRz s.regs.ctxcmd 0xFFF 0 = true → exec .ctxcmdInvalid s = goes (s.ctxcmdEnd 5)) ∧
    (∀ hid h t, cmdBusy s.regs.hcmd = true → cmdOp s.regs.hcmd = 1 → cmdRz s.regs.hcmd hcmdOperand 0 = false →
      s.hcmdHart = some (hid, h) →
      (s.suspendedRecord h = (t, none) → exec .hcmdResume s = goes (t.hcmdEnd 3)) ∧
      (∀ y, s.suspendedRecord h = (t, some y) →
        (bitOf y 15 = true ∨ recordRz y = true → exec .hcmdResume s = goes (t.hcmdEnd 3)) ∧
        (bitOf y 15 = false → recordRz y = false →
          exec .hcmdResume s = goes ((t.resumeTrap hid { h with lastProgress := t.now } y
            (t.instrAfter h (BitVec.ofNat 64 (bits y 127 64))) (bitOf y 16)).hcmdEnd 0)))) ∧
    (cmdBusy s.regs.hcmd = true → cmdRz s.regs.hcmd hcmdOperand 0 = true → exec .hcmdInvalid s = goes (s.hcmdEnd 1)))

/-- R336, R337, R344, R347: a valid node that is due: SET writes P0 and goes on, WAIT goes on where the word has reached
P0 and waits otherwise, its rereads ending it, MSI sends one, COND, LOOP and SWITCH choose where the walk goes, a JOB
registers its card's job and a KERNEL whose tables are good stands in CHECKED, to be placed by KERNEL_PLACEMENT at the
first feasible place, or to fail with code 4 where its die span exceeds the dies in service. -/
def Obligations.GraphResults : Prop :=
  ∀ (s s' : State) (l : Launch) (a : Nat) (n : Node),
    let id := s.focus.unit
    let w := s.sysRead n.word 8
    (s.nodeDue id = some (l, a, n) → hbmAligned a 64 = true → n.ok = true →
      (n.type = 3 → n.mode = 0 → exec .eventSet s = goes ((s.sysWrite n.word 8 n.p0).nodeNext id n.next)) ∧
      (n.type = 3 → n.mode = 1 → n.p0 ≤ w → exec .eventWait s = goes (s.nodeNext id n.next)) ∧
      (n.type = 3 → n.mode = 1 → w < n.p0 →
        exec .eventWait s = goes (s.nodeStart id { n with async := false } (.waiting a n.word n.p0 s.now))) ∧
      (n.type = 3 → n.mode = 2 → exec .eventMsi s = goes ((s.ctxMsi l.ctx).nodeNext id n.next)) ∧
      (n.type = 4 → exec .condNode s = goes (s.nodeNext id (if w &&& n.p1 ≠ 0 then n.p0 else n.next))) ∧
      (n.type = 5 → w ≠ 0 → lookD l.counts a 0 < n.limit →
        exec .loopNode s =
          goes ((s.modLaunch id (fun m => { m with counts := put m.counts a (lookD l.counts a 0 + 1) })).nodeNext id n.p0)) ∧
      (n.type = 5 → w = 0 ∨ n.limit ≤ lookD l.counts a 0 →
        exec .loopNode s = goes ((s.modLaunch id (fun l => { l with counts := del l.counts a })).nodeNext id n.next)) ∧
      (n.type = 6 → exec .switchNode s = goes (s.nodeNext id
        (if w < n.limit then (if w = 0 then n.p0 else if w = 1 then n.p1 else if w = 2 then n.p2 else n.p3) else n.next))) ∧
      (∀ j, n.type = 2 → nodeCardOk (s.sysRead n.p0 64) = true →
        s.issueJob (s.nodeIssuer id l a ((look s.ctxs l.ctx).bind (fun c => c.prt))) (specOf (s.sysRead n.p0 64))
          (if n.p1 = 0 then none else some (BitVec.ofNat 64 n.p1)) = .ok (some (s', j)) → s'.trackerRoom [j] = true →
        exec .jobNode s = goes ((s'.registerMember j).nodeStart id n (.job a s'.nextJob))) ∧
      (∀ k, n.type = 1 → s.readKernel n.p0 = .ok k → k.d ≤ s.diesInService.length →
        exec .kernelNode s = goes ((s.modLaunch id (fun l => { l with visits := l.visits + 1 })).nodeStart id n
          (.checked a l.visits k (if n.p1 = 0 then l.args else n.p1) n.p2)))) ∧
    (look s.launches id = some l →
      (∀ b word v t, l.waiting = some (b, word, v, t) →
        let again := fun (x : Started) => if x = .waiting b word v t then .waiting b word v s.now else x
        (v ≤ s.sysRead word 8 → exec .eventWaitReread s = goes (s.nodeDone id (.waiting b word v t))) ∧
        (s.sysRead word 8 < v → exec .eventWaitReread s = goes (s.modLaunch id (fun l =>
          { l with started := l.started.map again, waitFor := l.waitFor.map again })))) ∧
      (∀ b visit k args result, l.checked[s.focus.sub]? = some (b, visit, k, args, result) →
        (∀ dies idx sl, k.d ≤ s.diesInService.length → s.findPlace l.ctx k (fun _ => true) = some (dies, idx, sl) →
          exec .kernelPlacement s = goes (s.placeGroup id l b visit k args result dies idx sl)) ∧
        (s.diesInService.length < k.d →
          exec .kernelPlacement s = goes ((s.modLaunch id (fun l =>
            { l with started := l.started.filter (fun x => x != .checked b visit k args result) })).nodeFail id 4 b))))

/-! ## Page service (R365 to R376) -/

/-- R370, R372, R374: PITCMD WRITE installs a well-formed entry, MIGRATE and RECODE make a PRESENT page MIGRATING or
RECODING with a watermark of 0 and queue its pass, each with STATUS 0, and a nonzero RZ bit gives STATUS 1. PASS_START takes
the oldest pass, BACKGROUND_PASS_START the lowest home page due where there is none, and PASS_SECTOR_STEP moves or
converts the next sector and raises the watermark past it. -/
def Obligations.PageResults : Prop :=
  ∀ (s : State),
    let p := s.pitPage
    let old := s.pitEntry p
    let f := (s.regs.pitarg0.extractLsb' 0 40).toNat
    let g := s.regs.pitarg0.extractLsb' 0 5
    let hub := s.focus.unit % 2
    (s.pitIs 1 = true → s.writeBad s.pitArg = false → pitState old ≠ 2 → pitState old ≠ 3 → s.writeCxlBad s.pitArg = false →
      s.accessOpen p = false → exec .pitcmdWrite s = goes ((s.installEntry p s.pitArg s.pitZero).pitEnd 0)) ∧
    (s.pitIs 2 = true → s.regs.pitarg0.toNat < 2 ^ 40 → s.regs.pitarg1 = 0 → p < 12582912 → pitState old = 1 →
      hbmFrame f = true → (s.hubQueue (p % 2)).length < 64 →
      let e := pitSet (pitSet (pitSet old 45 3 2) 12 8 0) 88 40 f
      exec .pitcmdMigrate s = goes ((((s.setPit p e).sealFrame f (pitKey e) p).queuePass p 1).pitEnd 0)) ∧
    (s.pitIs 3 = true → s.regs.pitarg0.toNat < 2 ^ 5 → s.regs.pitarg1 = 0 → p < 12582912 → pitState old = 1 →
      fmtFloat g = true → (s.hubQueue (p % 2)).length < 64 →
      exec .pitcmdRecode s = goes (((s.setPit p (pitSet (pitSet (pitSet old 45 3 3) 12 8 0) 7 5 g.toNat)).queuePass p 1).pitEnd
        0)) ∧
    (cmdBusy s.regs.pitcmd = true → (∀ op, 1 ≤ op → op ≤ 3 → s.pitIs op = false) →
      exec .pitcmdInvalid s = goes (s.pitEnd 1)) ∧
    (∀ x rest, s.hubPass hub = none → s.hubQueue hub = x :: rest →
      exec .passStart s = goes (({ s with passQ := s.passQ.setIfInBounds hub rest } : State).setHubPass hub (some x))) ∧
    (∀ k e, s.hubPass hub = none → s.hubQueue hub = [] →
      s.pit.find? (fun x => homeHub x.1 == hub && backgroundDue x.2) = some (k, e) →
      exec .backgroundPassStart s =
        goes ((s.setPit k (pitSet (pitSet (pitSet e 45 3 3) 12 8 0) 7 5 (pitPfmt e).toNat)).setHubPass hub
          (some { page := k, background := true, before := 1 }))) ∧
    (∀ x, s.hubPass hub = some x →
      let e := s.pitEntry x.page
      let k := pitWmark e
      let l := s.sectorLoc (pitFrame e) x.page k
      let t := s.settle l (x.page * 65536)
      (pitState e = 2 → bitOf (pitNframe e) 39 = false →
        exec .passSectorStep s = goes ((t.moveSector x.page k (pitFrame e) (pitNframe e)).raiseMark hub x k)) ∧
      (pitState e ≠ 2 → t.keeps = [] →
        let y := recodedSector (pitRfmt e) (t.readSector l)
        exec .passSectorStep s =
          goes ((if y = t.readSector l then t else t.writeSector l y).raiseMark hub x k)))

/-! ## Stacks (R377 to R390) -/

/-- R383 to R390: a request of the opcode of its name is sent with the tag it asks for where that is free and no other waits
for its port, and waits at the hub where its port has no tag free; PACKET_REPLY performs the packet, answers, and sends the
oldest request that waits for the port with the tag that it frees; REFRESH counts, SCRUB_STEP reads the next sector,
HEARTBEAT_MISSING takes refresh over and tells the management plane, and REFRESH_HANDOVER gives it back, once the core has
been restarted, at a tREFI boundary (3,666 periods, counted from package reset: the model's choice, log 30); HMASK_CHANGE
puts accepted masks behind a gate and refuses others. -/
def Obligations.StackResults : Prop :=
  ∀ (s s' : State),
    let n := s.focus.unit
    let x := s.stack n
    let v := s.focus.val
    let request := fun (i : Instr) (op : Nat) (carries : Bool) =>
      n < 12 → (v.extractLsb' 61 3).toNat = op → (if op = 3 then s.focus.sub = 64 else s.focus.sub < 64) →
      (carries = true → s.focus.data ≠ []) →
      let p : Packet :=
        { port := s.focus.sub, tag := (v.extractLsb' 58 3).toNat, op := op, pca := (v.extractLsb' 36 22).toNat,
          arg := v.extractLsb' 0 32, data := s.focus.data.headD zeroSector, req := s.focus.req, performed := false,
          reply := [], status := 0 }
      ((∀ q ∈ x.waiting, q.port ≠ p.port) → (∀ q ∈ x.packets, q.port = p.port → q.tag ≠ p.tag) →
        exec i s = goes (s.setStack n { x with packets := x.packets ++ [p] })) ∧
      ((∀ t, t < 8 → ∃ q ∈ x.packets, q.port = p.port ∧ q.tag = t) →
        exec i s = goes (s.setStack n { x with waiting := x.waiting ++ [p] }))
    request .rd 0 false ∧ request .wr 1 true ∧ request .wrm 2 true ∧ request .trd 3 false ∧ request .tagw 4 true ∧
    request .mrr 5 false ∧
    (∀ p rest reply st, x.packets = p :: rest → p.port = s.focus.sub → p.tag = v.toNat % 8 → p.performed = false →
      s.doPacket n p = some (s', reply, st) →
      let t := s'.setStack n ((s'.stack n).performed 0 reply st)
      let y := { t.stack n with packets := (t.stack n).packets.eraseIdx 0 }
      ∀ q, (t.stack n).packets[0]? = some q →
      exec .packetReply s = goes ((t.setStack n (y.sendNext s.focus.sub (v.toNat % 8))).answer
        (3000 + n * 128 + s.focus.sub) (.packet q.header q.reply))) ∧
    (∀ port tag,
      ((∀ q ∈ x.waiting, q.port ≠ port) → x.sendNext port tag = x) ∧
      (∀ q, x.waiting.find? (fun q => q.port == port) = some q →
        x.sendNext port tag = { x with waiting := x.waiting.erase q, packets := x.packets ++ [{ q with tag := tag }] })) ∧
    (n < 12 →
      exec .refresh s = goes (s.setStack n { x with refreshes := x.refreshes + 1 }) ∧
      (x.takeover = false →
        let t := (s.dieRead n (x.csel (x.scrubPos * 256)) (x.scrubPos * 256 / 2 ^ 14)).1
        exec .scrubStep s = goes (t.setStack n { t.stack n with scrubPos := (x.scrubPos + 1) % 2 ^ 28 })) ∧
      exec .heartbeatMissing s =
        goes ((s.setStack n { x with takeover := true, restarted := false, refreshes := x.refreshes + 1 }).answer 5000
          (.takeover n)) ∧
      (x.takeover = true → x.restarted = true → s.now % 3666 = 0 →
        exec .refreshHandover s = goes (s.setStack n { x with takeover := false, restarted := false })) ∧
      (∀ ms, (masksOk ms = true → exec (.hmaskChange ms) s = goes (pending s (.hmask n ms))) ∧
        (masksOk ms = false → exec (.hmaskChange ms) s = goes (refused s))))

/-- R379: the reset values of the hash masks; and under any accepted masks the map from the low six bits of the sector
number to the pseudo-channel is one-to-one for every value of the upper bits, so that every 64 KiB frame has exactly
four sectors on each of the 64 pseudo-channels. -/
def Obligations.HashMasks : Prop :=
  (∀ n, (State.reset.stack n).hmask = [0x04104100, 0x08208200, 0x10410400, 0x20820800, 0x41041000, 0x82082000]) ∧
  masksOk Stack.reset.hmask = true ∧
  ∀ x : Stack, masksOk x.hmask = true →
    (∀ up i j, i < 64 → j < 64 → x.csel (up * 2 ^ 14 + i * 2 ^ 8) = x.csel (up * 2 ^ 14 + j * 2 ^ 8) → i = j) ∧
    (∀ f p, p < 64 → ((List.range 256).filter (fun j => x.csel (f * 2 ^ 16 + j * 2 ^ 8) == p)).length = 4) ∧
    (∀ port pca, port < 64 → pca < 2 ^ 22 → x.csel (x.slaOf port pca) = port ∧ x.slaOf port pca / 2 ^ 14 = pca)

/-! ## Links, the domain, collectives and outside accesses (R280, R290 to R292, R368, R398 to R407) -/

/-- R398 to R400: the steps of a link, each where the link is in the state it asks for: training starts, completes at
MAXRATE within 1 ms, or fails; 100 µs after the last, a speed step opens a hold at the next rate, upward after 10 µs at more
than 60 % utilisation and downward after 100 µs at less than 20 % or for a gate that lowers its bound; a replay is counted,
and more than 64 within any 1 µs hold the link; a hold ends in retraining within its window, or takes the link DOWN. New
bounds, and a FAILED link's restart, go through a gate. R404, R405: a collecting member's contribution is read at its SRC
and reaches the reduction point, and one that cannot be read by class and tag aborts with REASON 5; a collective late by its
timer aborts with REASON 2; the last acknowledgement before that commits. -/
def Obligations.LinkResults : Prop :=
  (∀ (s : State),
    let n := s.focus.unit
    let l := s.link n
    let now := s.now
    let gets := fun (x : Link) => goes (s.setLink n x)
    let enter := fun (x : LinkState) => { l with state := x, since := now }
    let held := l.holdns + BitVec.ofNat 64 ((now - l.since) * 1000 / 940)
    let window := if n < 18 then 1880 else 188
    let recent := now :: l.recent.filter (fun t => decide (now - t < 940))
    let replayed := { l with flits := l.flits + 1, replays := l.replays + 1 }
    (l.state = .down → exec .linkTrainingStart s = gets (enter .training)) ∧
    (l.state = .failed → exec .linkTrainingStart s = goes (pending s (.linkRestart n))) ∧
    (l.state = .training →
      (now - l.since < 940000 →
        exec .linkTrainingComplete s = gets { enter .active with
          rate := l.maxRate, peer := if n < 18 then BitVec.ofNat 6 s.focus.sub else 0, plink := s.focus.val.setWidth 8,
          reach := if n < 18 then (s.focus.data.headD zeroSector).data.setWidth 64 else 0, recent := [],
          highSince := none, lowSince := none }) ∧
      (940000 ≤ now - l.since → exec .linkTrainingTimeout s = gets (enter .failed))) ∧
    (l.state = .active →
      ((∀ t, l.stepAt = some t → 94000 ≤ now - t) →
        (l.rate.toNat < l.maxRate.toNat → (∃ t, l.highSince = some t ∧ 9400 ≤ now - t) →
          exec .linkStepUp s = gets { enter .hold with rate := l.rate + 1, stepAt := some now }) ∧
        ((l.minRate.toNat < l.rate.toNat ∧ ∃ t, l.lowSince = some t ∧ 94000 ≤ now - t) ∨
            (∃ lo hi, Gate.rates n lo hi ∈ s.gates ∧ hi.toNat < l.rate.toNat) →
          exec .linkStepDown s = gets { enter .hold with rate := l.rate - 1, stepAt := some now })) ∧
      (recent.length ≤ 64 → exec .flitReplay s = gets { replayed with recent := recent }) ∧
      (64 < recent.length →
        exec .flitReplay s = gets { replayed with state := .hold, since := now, recent := [] })) ∧
    (l.state = .hold →
      (now - l.since < window → exec .linkRetrainComplete s = gets { enter .active with holdns := held }) ∧
      (window ≤ now - l.since →
        exec .linkHoldExpiry s = goes (s.setLink n { enter .down with holdns := held }).abortUnreachable)) ∧
    (s.focus.sub ≤ s.focus.val.toNat → s.focus.val.toNat ≤ 2 →
      exec .linkRatePolicy s =
        goes (pending s (.rates n (BitVec.ofNat 2 s.focus.sub) (BitVec.ofNat 2 s.focus.val.toNat)))) ∧
    (s.focus.val.toNat < s.focus.sub ∨ 2 < s.focus.val.toNat → exec .linkRatePolicy s = goes (refused s))) ∧
  (∀ (s s' : State) (c : Collective),
    let key := s.focus.unit
    (∀ j k rank xs, s.focus.val = 0 → look s.jobs key = some j → j.coll = some (k, rank) → look s.colls k = some c →
      j.state = .collecting → look c.got rank = none →
      s.readContribution j j.src (collSource c.kind c.members c.n0 rank c.root) = .ok (s', xs) →
      (c.kind % 2 = 1 ∨ readsAs j.reader xs = true →
        exec .collectiveContribution s =
          goes (s'.contribute k rank c (if c.kind % 2 = 0 then xs.map j.typed else xs))) ∧
      (c.kind % 2 = 0 → readsAs j.reader xs = false →
        exec .collectiveContribution s = goes (s'.abortCollective k 5 rank))) ∧
    (look s.colls key = some c → c.ended = none →
      (∀ t, c.started = some t → t + 940 * c.timeout ≤ s.now →
        exec .collectiveTimeout s = goes (s.abortCollective key 2 0)) ∧
      (c.sent = true → (∀ t, c.started = some t → s.now < t + 940 * c.timeout) → s.focus.sub < c.members →
        s.focus.sub ∉ c.acked →
        let d := { c with acked := s.focus.sub :: c.acked }
        (c.acked.length + 1 = c.members → exec .collectiveAck s = goes (s.commitCollective key d)) ∧
        (c.acked.length + 1 ≠ c.members → exec .collectiveAck s = goes { s with colls := put s.colls key d }))))

/-- R280, R287, R288, R291, R325, R368, R401, R402, R406, R407: an aligned access of an application hart to HBM data or a CXL
window is performed as a raw access and answered, a plain load of a CXL line that the LLC holds from its copy, an atomic at
the home slice after the line's recall, with LR's reservation taken; its fence clears the LLC where it is a member of an
entry that names the peer; a CXL peer takes one sector of a window, and writes it where it brings data; an access from
another package is checked against its page's owner, and a whole sector comes and goes with its tag and metadata; a device's
read and write of one run of bytes, at the DPA to which the IOMMU maps its address for that kind of access, read and write
them in a sector that takes it, and an address with no mapping or no permission is answered with a fault; a window's
configuration goes through a gate. A store leaves the descriptors of queues that are not DISABLED as they are. -/
def Obligations.OutsideAccessResults : Prop :=
  ∀ (s : State) (l : Loc) (who ctx dpa n v : Nat), n = 1 ∨ n = 2 ∨ n = 4 ∨ n = 8 → dpa % n = 0 →
    let h := who % 64
    let d := s.localDpa dpa
    let a : State := { s with asids := put s.asids h ctx }
    let answers := fun (t : State) (who : Nat) (r : Reply) => goes { t with replies := t.replies ++ [(who, r)] }
    let x := fun (k : HostAccess) => exec (.applicationHartAccess who ctx k) s
    let f := s.focus.unit % 64
    let named := ∃ k ∈ s.hostScopes f, s.scopeNamesPeer k (s.contents (s.hostCtx f) k) = true
    let stored := v % 2 ^ 64 % 2 ^ (8 * n)
    (dpa < cxlEnd → s.dpaLoc none 0 d = .ok l → rawFault ((a.settle l d).tagAt l.key) = none →
      let t := (a.settle l d).crossed l
      (isCxlKey l.key = false ∨ look t.llc (l.key / 256) = none →
        x (.load dpa n) = answers t h (.bytes (bytesOfNat (t.readRaw l n) n))) ∧
      (∀ y, isCxlKey l.key = true → look t.llc (l.key / 256) = some y →
        x (.load dpa n) = answers t h (.bytes (bytesOfNat (t.readRaw { l with xf := .copied y } n) n))) ∧
      (t.rawBarred d l = false →
        x (.store dpa n (BitVec.ofNat 64 v)) = answers (t.guardDescs (t.storeRaw d l n stored) d) h (.bytes []))) ∧
    (n = 4 ∨ n = 8 → dpa < cxlEnd → s.dpaLoc none 0 d = .ok l → a.recallFinds d = false →
      let u := (if isHbm d then a.recall d else a).settle l d
      let t := u.crossed l
      rawFault (u.tagAt l.key) = none →
      (t.rawBarred d l = false → ∀ op, x (.amo op dpa n (BitVec.ofNat 64 v) false false) =
        let old := t.readRaw l n
        match (amoNew (hostAmoOp op) n old stored 0).1 with
        | none => answers t h (.bytes (bytesOfNat old n))
        | some y => answers (t.guardDescs (t.storeRaw d l n y) d) h (.bytes (bytesOfNat old n))) ∧
      x (.lr dpa n false false) =
        answers { t with hostRes := put t.hostRes h (l.key / 256) } h (.bytes (bytesOfNat (t.readRaw l n) n))) ∧
    (named → exec .applicationHartFence s = goes { s with llc := [] }) ∧
    (¬named → exec .applicationHartFence s = goes s) ∧
    (s.dpaLoc none 0 s.focus.val.toNat = .ok l → isCxlKey l.key = true →
      (s.focus.data = [] → exec .cxlBackInvalidation s = goes { s with llc := del s.llc (l.key / 256) }) ∧
      (∀ y ys, s.focus.data = y :: ys →
        let t := s.writeSector { key := l.key / 256 * 256, xf := .plain } y
        exec .cxlBackInvalidation s = goes { t with llc := del t.llc (l.key / 256) })) ∧
    (isHbm dpa = true → pitState (s.pitEntry (dpa / 65536)) ≠ 0 → s.dpaLoc (some ctx) 0 d = .ok l →
      let t := (s.settle l d).crossed l
      rawFault ((s.settle l d).tagAt l.key) = none → isCxlKey l.key = false →
      exec (.domainAccessArrival who ctx (.raw (.load dpa n))) s =
        answers t (2000 + who) (.bytes (bytesOfNat (t.readRaw l n) n))) ∧
    (isHbm dpa = true → dpa % 256 = 0 → pitState (s.pitEntry (dpa / 65536)) ≠ 0 → s.dpaLoc (some ctx) 0 dpa = .ok l →
      exec (.domainAccessArrival who ctx (.getSector dpa)) s =
        answers (s.settle l dpa) (2000 + who) (.packet 0 [(s.settle l dpa).readSector l]) ∧
      (∀ y, barredOnCxl dpa l y = false →
        exec (.domainAccessArrival who ctx (.putSector dpa y)) s =
          answers ((((s.recall dpa).writeSector l y).noteStore dpa l).releaseCell ctx (keepKey 0 dpa)) (2000 + who)
            (.bytes []))) ∧
    (∀ va, s.focus.val.toNat = va → va % n = 0 → s.focus.sub = n →
      (s.ioAddr s.focus.unit va false = none →
        exec .deviceRead s = answers { s with iommuFaults := s.iommuFaults ++ [va] } (1000 + s.focus.unit % 1000)
          .accessFault) ∧
      (s.ioAddr s.focus.unit va true = none →
        exec .deviceWrite s = goes { s with iommuFaults := s.iommuFaults ++ [va] }) ∧
      (∀ w, s.ioAddr s.focus.unit va w = some dpa → dpa < cxlEnd → s.deviceLoc dpa = some l →
        let t := s.settle l dpa
        deviceReply (t.tagAt l.key) = none →
        (w = false →
          exec .deviceRead s = answers t (1000 + s.focus.unit % 1000) (.bytes (bytesOfNat (t.readRaw l n) n))) ∧
        (∀ y ys, w = true → s.focus.data = y :: ys →
          exec .deviceWrite s = goes (t.guardDescs (t.storeRaw dpa l n (y.data.toNat % 2 ^ (8 * n))) dpa)))) ∧
    (∀ cfg, s.focus.unit < 56 → s.windowOk cfg = true →
      exec (.domainWindowConfig cfg) s = goes (pending s (.window s.focus.unit cfg)))

/-! ## Bring-up, attestation, power and watch units (R425 to R432) -/

/-- R425 to R432: a signed record whose values are in range is taken over, the record's measurement stands under index 1 and
the 64 keys are to be loaded through a gate, which makes a new key of each; a record that is not ends the boot in a failure,
on the board's fault pin and over SPDM; DIE_RELEASE measures, by its section of the record, and releases the next die within
100 ms of the last, a base die once the keys are loaded, application hart 0 starting at the boot address with the last die,
and with all released the last one reports; DIE_READY_TIMEOUT fails after them. Which index measures the record and which
values make a die's section are the model's choices (log 29). Each SPDM request is answered at version 1.3, where it came
from, with the algorithms, the measurements or the certificate chain's digest that it asks for; a new key and a watch unit go
through a gate; once in 10 µs the power tick lowers the permits of the arrays and then of the vector lanes by one step, down
to 4/16, and raises them in the reverse order (the model's choice, log 29); a thermal trip resets the package, tensor handles
included, and leaves the cells of memory. -/
def Obligations.BringupResults : Prop :=
  ∀ (s : State) (r : BootRecord),
    let tr := s.trust
    let answers := fun (i : Instr) (q : SpdmReq) (as : List SpdmAlg) (ds : List (Nat × BitVec 384))
        (chain : Option (BitVec 384)) =>
      ∃ bytes, exec i s = goes { s with
        draws := s.draws + 1,
        trust := { tr with answers := tr.answers ++ [{
          req := q, via := if s.focus.unit = 1 then .doe else .managementBus, version := 0x13, algorithms := as,
          digests := ds, certificate := chain, failure := tr.failure, opaqueBytes := bytes }] } }
    let algs := [SpdmAlg.ecdsaP384, SpdmAlg.sha384]
    let fails := goes { s with trust := { tr with failure := true, faultPin := true } }
    let w := s.focus.val.toNat
    let a : State := { s with permitAt := some s.now }
    (tr.record = none → tr.failure = false →
      (recordOk r = true →
        exec (.tdBoot r true) s = goes (State.configure { s with
          gates := s.gates ++ [.bootKeys],
          trust := { tr with record := some r, verified := true,
                             measured := put tr.measured 1 (Config.measurement 1 (wholeRecord r)) } } r)) ∧
      exec (.tdBoot r false) s = fails ∧
      (recordOk r = false → exec (.tdBoot r true) s = fails)) ∧
    (s.applyGate .bootKeys = { s with trust := { tr with keysLoaded := true, keyGen := newKeys tr.keyGen } } ∧
      ∀ i, i < 64 → look (newKeys tr.keyGen) i = some (lookD tr.keyGen i 0 + 1)) ∧
    (tr.verified = true → tr.failure = false → tr.record = some r → tr.released = 0 ∨ s.now - tr.releasedAt < 94000000 →
      tr.released < 3 ∨ tr.keysLoaded = true →
      let k := tr.released
      let u := { tr with measured := put tr.measured (k + 2) (Config.measurement (k + 2) (recordSection r k)),
                         released := k + 1, ready := false, releasedAt := s.now }
      (k < 22 → exec .dieRelease s = goes (State.zeroPitOf { s with trust := u } k)) ∧
      (k = 22 → exec .dieRelease s = goes { s with
        ahosts := [(0, { AppHart.reset with pc := r.bootAddr, waiting := false })],
        trust := { u with appStart := some r.bootAddr } }) ∧
      (23 ≤ k → exec .dieRelease s = goes { s with trust := { tr with ready := true } })) ∧
    (tr.verified = true → 0 < tr.released → tr.ready = false → 94000000 ≤ s.now - tr.releasedAt →
      exec .dieReadyTimeout s = fails) ∧
    answers .getVersion .getVersion [] [] none ∧ answers .getCapabilities .getCapabilities [] [] none ∧
    answers .negotiateAlgorithms .negotiateAlgorithms algs [] none ∧
    answers .getDigests .getDigests [] [] (some Config.certificate) ∧
    answers .getCertificate .getCertificate [] [] none ∧
    answers .challenge .challenge algs [] (some Config.certificate) ∧
    answers .getMeasurements .getMeasurements [] tr.measured none ∧ answers .keyExchange .keyExchange algs [] none ∧
    (s.focus.unit < 64 → exec .rekeyRequest s = goes (pending s (.rekey s.focus.unit))) ∧
    (∀ cfg, s.focus.unit < 128 → s.focus.sub < 2 →
      exec (.watchSet cfg) s = goes (pending s (.watch s.focus.unit s.focus.sub cfg))) ∧
    (s.now % 9400 = 0 → s.permitAt ≠ some s.now →
      (s.powerLimit < w →
        (4 < s.permit → exec .powerTick s = goes { a with permit := s.permit - 1 }) ∧
        (s.permit ≤ 4 → exec .powerTick s = goes { a with permitLanes := max 4 (s.permitLanes - 1) })) ∧
      (100 * w < 95 * s.powerLimit → w ≤ s.powerLimit →
        (s.permitLanes < 16 → exec .powerTick s = goes { a with permitLanes := s.permitLanes + 1 }) ∧
        (16 ≤ s.permitLanes → exec .powerTick s = goes { a with permit := min 16 (s.permit + 1) })) ∧
      (w ≤ s.powerLimit → 95 * s.powerLimit ≤ 100 * w → exec .powerTick s = goes a)) ∧
    (∃ t, exec .thermalTrip s = goes t ∧
      { t with plan := [], tick := 0, draws := 0, focus := Focus.reset, mem := [], sides := [], seals := [], errors := [],
               trust := { t.trust with keyGen := [] } } =
        { State.reset with plan := [], tick := 0, draws := 0, focus := Focus.reset, mem := [], sides := [], seals := [],
                           errors := [], trust := { State.reset.trust with keyGen := [] } } ∧
      t.mem = s.mem.filter (fun c => decide (c.1 < handleBlock) || decide (handleBlock + 12 * 65536 ≤ c.1)) ∧
      (∀ n i, n < 12 → i < 256 → t.handle n i = 0) ∧
      t.sides = s.sides ∧ t.seals = s.seals ∧ t.errors = s.errors ∧ t.trust.keyGen = s.trust.keyGen)

/-! ## Steps, decoding and the whole machine -/

/-- R17, R78, R79, R88, R93, R99, R106, R273: a step of the scalar pipeline of a hart whose dies have left reset, whose
cores act, whose deadline has not passed and which has no machine check to take runs the instruction that the words at its
pc decode to, or raises the decoder's trap there; a step of one of its engines runs the completion of a command that has
left the queue and whose accesses are done, else the operation of the queue's head command, its completion, or the fault of
its formation; the plan's steps and events run as their rows say once the dies that they need have left reset. The fetch of a word reads the four bytes of a
plain location at the translated address, low byte first (R3, R128). -/
def Obligations.StepRunsDecoded : Prop :=
  (∀ (s s' : State) (hid : Nat) (h : Hart) (e : Eng) (defer : Bool) (i : Instr) (n row unit : Nat) (rest : List Act)
      (f : Focus), look s.harts hid = some h →
    let at_ := fun (f : Focus) (d : Bool) => ({ s with plan := rest, tick := s.tick + 1, focus := f, defer := d } : State)
    let g := { h with lastIssue := some s.now }
    let t := (at_ { Focus.reset with hart := hid } defer).setHart hid g
    let u := at_ { Focus.reset with hart := hid, eng := e, sub := row, unit := unit } defer
    (s.plan = .scalar hid defer :: rest → s.hartUp h = true → h.mcPending = false → s.sieveMay h = true →
      s.expired h = false →
      (t.fetch g = .ok (s', .instr i n) → step s = exec i s') ∧
      (∀ w, t.fetchWord g g.pc = .ok (s', w) → decode [w] = .instr i n → step s = exec i s') ∧
      (∀ c, t.fetch g = .ok (s', .trap c) → step s = goes (s'.takeTrap hid (scalarInfo g 0 c 0 none)))) ∧
    (s.plan = .engine hid e defer row unit :: rest → s.stopped h = false → s.hartUp h = true → s.expired h = false →
      ((h.lateDone e).isSome = true → step s = exec .commandCompletion u) ∧
      (∀ c cs, h.queue e = c :: cs → h.lateDone e = none →
        (c.fault.isSome = true → step s = exec .formationFaultRaise u) ∧
        (c.fault = none → c.done.isSome = true → step s = exec .commandCompletion u) ∧
        (c.fault = none → c.done = none → decodeTemplate e c.t = some i → step s = exec i u))) ∧
    (s.plan = .event i f :: rest → isStep i = true → s.stepUp i f = true → step s = exec i (at_ f false))) ∧
  (∀ (s s' : State) (h : Hart) (va : Dword) (dpa : Nat) (l : Loc), l.xf = .plain →
    s.issueCheck h 0 .x va 4 4 = .ok dpa → s.homeRaw h 0 dpa va .plain = .ok (s', l) →
    ∃ w, s.fetchWord h va = .ok (s', w) ∧
      (tagCls (s'.tagAt l.key) ≠ 0 → ∀ k, k < 4 → w.extractLsb' (8 * k) 8 = getByte s'.mem (l.key + k)))

/-- R345, R349, R366, R379, R398, R400, R425: the machine after reset has no context, group or hart, a PIT of zeros, the
hash masks of R379, and every link DOWN; a launched hart starts at its entry in U with registers, tokens, slots, VL and
counts of zero, an empty queue in each engine, and its whole die span active. -/
def Obligations.ResetState : Prop :=
  (∀ n, look State.reset.harts n = none ∧ look State.reset.groups n = none ∧ look State.reset.ctxs n = none ∧
    look State.reset.wqueues n = none ∧ State.reset.pitEntry n = 0 ∧
    (State.reset.stack n).hmask = [0x04104100, 0x08208200, 0x10410400, 0x20820800, 0x41041000, 0x82082000] ∧
    (State.reset.link n).state = .down ∧ (State.reset.link n).rate = 0 ∧ (State.reset.link n).minRate = 0 ∧
    (State.reset.link n).maxRate = 2 ∧ (State.reset.link n).replays = 0) ∧
  State.reset.lastCtx = 0xFFF ∧ State.reset.trust.released = 0 ∧ State.reset.trust.measured = [] ∧
  (∀ (p : Place) (entry : Dword) (xcl acl trows : Nat) (tvec trec prt : Dword) (tm : Map Template),
    let h := Hart.launch p entry (Csrs.launch p.cores.length xcl acl trows tvec trec prt) RowRegs.zero tm
    h.pc = entry ∧ h.priv = false ∧ h.state = .running ∧ rowsMatch h ∧
    (∀ j n, h.reg j n = 0 ∧ (∀ x, (h.row j).vec n x = zeroSector)) ∧ (∀ e, h.queue e = []) ∧
    (∀ n, h.token n = 0) ∧ h.slots = 0 ∧ h.csr.vl = 0 ∧ h.csr.retired = 0 ∧ h.csr.xstat = 0 ∧ h.csr.tapen = 0 ∧
    h.csr.trapvec = tvec ∧ h.csr.traprec = trec ∧ h.csr.dmask = BitVec.ofNat 8 (2 ^ p.cores.length - 1))

/-- R81 to R92, R110 to R121: every well-formed instruction whose row has words is encoded, decoding the words gives it back,
with their number, and a template's four words give back the template. A valid template of a class decodes to the operation
that its opcode names in the class's table, which it makes well-formed; an opcode that the table does not list names none and
makes no template valid. -/
def Obligations.EncodeDecode : Prop :=
  (∀ i : Instr, i.wellFormed = true → ¬ wordless i → ∃ ws, encode i = some ws) ∧
  (∀ (i : Instr) (ws : List Word), i.wellFormed = true → encode i = some ws → decode ws = .instr i ws.length) ∧
  (∀ t : Template, templateOfList (wordsOfTemplate t) = some t) ∧
  (∀ (e : Eng) (t : Template),
    (∀ x ∈ opcodes e, t.opc.toNat = x.1 → decodeTemplate e t = some (x.2 t)) ∧
    (templateOk e t = true → ∃ x ∈ opcodes e, t.opc.toNat = x.1 ∧ (x.2 t).wellFormed = true) ∧
    (t.opc.toNat ∉ (opcodes e).map (·.1) → decodeTemplate e t = none ∧ templateOk e t = false))

/-- Words of the spec's own examples, each with the instruction that it stands for. -/
def Obligations.DecodeWords : Prop :=
  let px : Px := { diep := none, valx := none }
  decode [0x10631FFF] = .instr (.addi px 24 24 0x1FFF) 1 ∧ decode [0x2360A000] = .instr (.ld px 24 5 0 0) 1 ∧
  decode [0x18633A00] = .instr (.fadd32 px 24 25 26 0 0) 1 ∧ decode [0x2CE00008] = .instr (.csrrs px 24 0 8) 1 ∧
  decode [0x386CC805] = .instr (.amoadd px 27 6 1 0 5) 1 ∧ decode [0x32000005] = .instr (.fences px 5) 1 ∧
  decode [0x2F000001] = .instr (.recordOn px) 1 ∧
  decode [0x62800000] = .instr (.commandFormation px .xv 5 0 0 0) 1 ∧
  decodeTemplate .mx (templateOfWords 0 0 0x01000000 0x18010002) =
    some (.tact (templateOfWords 0 0 0x01000000 0x18010002))

/-- Every step keeps byte memory in its one canonical form: keys strictly rising, and no entry that holds what an unlisted
byte reads as. -/
def Obligations.MemoryCanonicalKept : Prop :=
  ∀ s s' : State, Safety.memoryCanonical s → step s = .next s' → Safety.memoryCanonical s'

/-- Memory after reset is in its canonical form. -/
def Obligations.ResetMemoryCanonical : Prop := Safety.memoryCanonical State.reset
end

