-- ==== Sys2Proof/Laws/Dispatch.lean ====
section
/-! SUPPORT. One equation per constructor: what `exec` of it is. -/

namespace Sys2Proof.Laws

open Sys2Proof Sys2Proof.Machine

@[simp] theorem exec_add (px : Px) (d : Reg) (a : Reg) (b : Reg) (s : State) :
    exec (.add px d a b) s = execAdd px d a b s := rfl
@[simp] theorem exec_sub (px : Px) (d : Reg) (a : Reg) (b : Reg) (s : State) :
    exec (.sub px d a b) s = execSub px d a b s := rfl
@[simp] theorem exec_and (px : Px) (d : Reg) (a : Reg) (b : Reg) (s : State) :
    exec (.and px d a b) s = execAnd px d a b s := rfl
@[simp] theorem exec_or (px : Px) (d : Reg) (a : Reg) (b : Reg) (s : State) :
    exec (.or px d a b) s = execOr px d a b s := rfl
@[simp] theorem exec_xor (px : Px) (d : Reg) (a : Reg) (b : Reg) (s : State) :
    exec (.xor px d a b) s = execXor px d a b s := rfl
@[simp] theorem exec_sll (px : Px) (d : Reg) (a : Reg) (b : Reg) (s : State) :
    exec (.sll px d a b) s = execSll px d a b s := rfl
@[simp] theorem exec_srl (px : Px) (d : Reg) (a : Reg) (b : Reg) (s : State) :
    exec (.srl px d a b) s = execSrl px d a b s := rfl
@[simp] theorem exec_sra (px : Px) (d : Reg) (a : Reg) (b : Reg) (s : State) :
    exec (.sra px d a b) s = execSra px d a b s := rfl
@[simp] theorem exec_slt (px : Px) (d : Reg) (a : Reg) (b : Reg) (s : State) :
    exec (.slt px d a b) s = execSlt px d a b s := rfl
@[simp] theorem exec_sltu (px : Px) (d : Reg) (a : Reg) (b : Reg) (s : State) :
    exec (.sltu px d a b) s = execSltu px d a b s := rfl
@[simp] theorem exec_mul (px : Px) (d : Reg) (a : Reg) (b : Reg) (s : State) :
    exec (.mul px d a b) s = execMul px d a b s := rfl
@[simp] theorem exec_mulh (px : Px) (d : Reg) (a : Reg) (b : Reg) (s : State) :
    exec (.mulh px d a b) s = execMulh px d a b s := rfl
@[simp] theorem exec_mulhu (px : Px) (d : Reg) (a : Reg) (b : Reg) (s : State) :
    exec (.mulhu px d a b) s = execMulhu px d a b s := rfl
@[simp] theorem exec_div (px : Px) (d : Reg) (a : Reg) (b : Reg) (s : State) :
    exec (.div px d a b) s = execDiv px d a b s := rfl
@[simp] theorem exec_divu (px : Px) (d : Reg) (a : Reg) (b : Reg) (s : State) :
    exec (.divu px d a b) s = execDivu px d a b s := rfl
@[simp] theorem exec_rem (px : Px) (d : Reg) (a : Reg) (b : Reg) (s : State) :
    exec (.rem px d a b) s = execRem px d a b s := rfl
@[simp] theorem exec_remu (px : Px) (d : Reg) (a : Reg) (b : Reg) (s : State) :
    exec (.remu px d a b) s = execRemu px d a b s := rfl
@[simp] theorem exec_min (px : Px) (d : Reg) (a : Reg) (b : Reg) (s : State) :
    exec (.min px d a b) s = execMin px d a b s := rfl
@[simp] theorem exec_max (px : Px) (d : Reg) (a : Reg) (b : Reg) (s : State) :
    exec (.max px d a b) s = execMax px d a b s := rfl
@[simp] theorem exec_minu (px : Px) (d : Reg) (a : Reg) (b : Reg) (s : State) :
    exec (.minu px d a b) s = execMinu px d a b s := rfl
@[simp] theorem exec_maxu (px : Px) (d : Reg) (a : Reg) (b : Reg) (s : State) :
    exec (.maxu px d a b) s = execMaxu px d a b s := rfl
@[simp] theorem exec_addw (px : Px) (d : Reg) (a : Reg) (b : Reg) (s : State) :
    exec (.addw px d a b) s = execAddw px d a b s := rfl
@[simp] theorem exec_subw (px : Px) (d : Reg) (a : Reg) (b : Reg) (s : State) :
    exec (.subw px d a b) s = execSubw px d a b s := rfl
@[simp] theorem exec_clz (px : Px) (d : Reg) (a : Reg) (s : State) :
    exec (.clz px d a) s = execClz px d a s := rfl
@[simp] theorem exec_ctz (px : Px) (d : Reg) (a : Reg) (s : State) :
    exec (.ctz px d a) s = execCtz px d a s := rfl
@[simp] theorem exec_popc (px : Px) (d : Reg) (a : Reg) (s : State) :
    exec (.popc px d a) s = execPopc px d a s := rfl
@[simp] theorem exec_sext (px : Px) (d : Reg) (a : Reg) (w : BitVec 2) (s : State) :
    exec (.sext px d a w) s = execSext px d a w s := rfl
@[simp] theorem exec_zext (px : Px) (d : Reg) (a : Reg) (w : BitVec 2) (s : State) :
    exec (.zext px d a w) s = execZext px d a w s := rfl
@[simp] theorem exec_bfx (px : Px) (d : Reg) (a : Reg) (b : Reg) (x : BitVec 1) (s : State) :
    exec (.bfx px d a b x) s = execBfx px d a b x s := rfl
@[simp] theorem exec_cmov (px : Px) (d : Reg) (a : Reg) (b : Reg) (s : State) :
    exec (.cmov px d a b) s = execCmov px d a b s := rfl
@[simp] theorem exec_addi (px : Px) (d : Reg) (a : Reg) (i : BitVec 13) (s : State) :
    exec (.addi px d a i) s = execAddi px d a i s := rfl
@[simp] theorem exec_andi (px : Px) (d : Reg) (a : Reg) (i : BitVec 13) (s : State) :
    exec (.andi px d a i) s = execAndi px d a i s := rfl
@[simp] theorem exec_ori (px : Px) (d : Reg) (a : Reg) (i : BitVec 13) (s : State) :
    exec (.ori px d a i) s = execOri px d a i s := rfl
@[simp] theorem exec_xori (px : Px) (d : Reg) (a : Reg) (i : BitVec 13) (s : State) :
    exec (.xori px d a i) s = execXori px d a i s := rfl
@[simp] theorem exec_slli (px : Px) (d : Reg) (a : Reg) (h : BitVec 6) (s : State) :
    exec (.slli px d a h) s = execSlli px d a h s := rfl
@[simp] theorem exec_srli (px : Px) (d : Reg) (a : Reg) (h : BitVec 6) (s : State) :
    exec (.srli px d a h) s = execSrli px d a h s := rfl
@[simp] theorem exec_srai (px : Px) (d : Reg) (a : Reg) (h : BitVec 6) (s : State) :
    exec (.srai px d a h) s = execSrai px d a h s := rfl
@[simp] theorem exec_slti (px : Px) (d : Reg) (a : Reg) (i : BitVec 13) (s : State) :
    exec (.slti px d a i) s = execSlti px d a i s := rfl
@[simp] theorem exec_sltiu (px : Px) (d : Reg) (a : Reg) (i : BitVec 13) (s : State) :
    exec (.sltiu px d a i) s = execSltiu px d a i s := rfl
@[simp] theorem exec_lui (px : Px) (d : Reg) (u : BitVec 18) (s : State) :
    exec (.lui px d u) s = execLui px d u s := rfl
@[simp] theorem exec_auipc (px : Px) (d : Reg) (u : BitVec 18) (s : State) :
    exec (.auipc px d u) s = execAuipc px d u s := rfl
@[simp] theorem exec_fadd32 (px : Px) (d : Reg) (a : Reg) (b : Reg) (t : BitVec 1) (m : BitVec 3) (s : State) :
    exec (.fadd32 px d a b t m) s = execFadd32 px d a b t m s := rfl
@[simp] theorem exec_fsub32 (px : Px) (d : Reg) (a : Reg) (b : Reg) (t : BitVec 1) (m : BitVec 3) (s : State) :
    exec (.fsub32 px d a b t m) s = execFsub32 px d a b t m s := rfl
@[simp] theorem exec_fmul32 (px : Px) (d : Reg) (a : Reg) (b : Reg) (t : BitVec 1) (m : BitVec 3) (s : State) :
    exec (.fmul32 px d a b t m) s = execFmul32 px d a b t m s := rfl
@[simp] theorem exec_fma32 (px : Px) (d : Reg) (a : Reg) (b : Reg) (t : BitVec 1) (m : BitVec 3) (s : State) :
    exec (.fma32 px d a b t m) s = execFma32 px d a b t m s := rfl
@[simp] theorem exec_fdiv32 (px : Px) (d : Reg) (a : Reg) (b : Reg) (t : BitVec 1) (m : BitVec 3) (s : State) :
    exec (.fdiv32 px d a b t m) s = execFdiv32 px d a b t m s := rfl
@[simp] theorem exec_fsqrt32 (px : Px) (d : Reg) (a : Reg) (t : BitVec 1) (m : BitVec 3) (s : State) :
    exec (.fsqrt32 px d a t m) s = execFsqrt32 px d a t m s := rfl
@[simp] theorem exec_fmin32 (px : Px) (d : Reg) (a : Reg) (b : Reg) (s : State) :
    exec (.fmin32 px d a b) s = execFmin32 px d a b s := rfl
@[simp] theorem exec_fmax32 (px : Px) (d : Reg) (a : Reg) (b : Reg) (s : State) :
    exec (.fmax32 px d a b) s = execFmax32 px d a b s := rfl
@[simp] theorem exec_fcmp32 (px : Px) (d : Reg) (a : Reg) (b : Reg) (p : BitVec 3) (s : State) :
    exec (.fcmp32 px d a b p) s = execFcmp32 px d a b p s := rfl
@[simp] theorem exec_fcvtif (px : Px) (d : Reg) (a : Reg) (k : BitVec 2) (m : BitVec 3) (s : State) :
    exec (.fcvtif px d a k m) s = execFcvtif px d a k m s := rfl
@[simp] theorem exec_fcvtfi (px : Px) (d : Reg) (a : Reg) (k : BitVec 2) (m : BitVec 3) (s : State) :
    exec (.fcvtfi px d a k m) s = execFcvtfi px d a k m s := rfl
@[simp] theorem exec_fcvtffTo (px : Px) (d : Reg) (a : Reg) (t : BitVec 1) (f : BitVec 5) (m : BitVec 3) (s : State) :
    exec (.fcvtffTo px d a t f m) s = execFcvtffTo px d a t f m s := rfl
@[simp] theorem exec_fcvtffFrom (px : Px) (d : Reg) (a : Reg) (f : BitVec 5) (m : BitVec 3) (s : State) :
    exec (.fcvtffFrom px d a f m) s = execFcvtffFrom px d a f m s := rfl
@[simp] theorem exec_lb (px : Px) (d : Reg) (a : Reg) (c : BitVec 5) (o : BitVec 8) (s : State) :
    exec (.lb px d a c o) s = execLb px d a c o s := rfl
@[simp] theorem exec_lbu (px : Px) (d : Reg) (a : Reg) (c : BitVec 5) (o : BitVec 8) (s : State) :
    exec (.lbu px d a c o) s = execLbu px d a c o s := rfl
@[simp] theorem exec_lh (px : Px) (d : Reg) (a : Reg) (c : BitVec 5) (o : BitVec 8) (s : State) :
    exec (.lh px d a c o) s = execLh px d a c o s := rfl
@[simp] theorem exec_lhu (px : Px) (d : Reg) (a : Reg) (c : BitVec 5) (o : BitVec 8) (s : State) :
    exec (.lhu px d a c o) s = execLhu px d a c o s := rfl
@[simp] theorem exec_lw (px : Px) (d : Reg) (a : Reg) (c : BitVec 5) (o : BitVec 8) (s : State) :
    exec (.lw px d a c o) s = execLw px d a c o s := rfl
@[simp] theorem exec_lwu (px : Px) (d : Reg) (a : Reg) (c : BitVec 5) (o : BitVec 8) (s : State) :
    exec (.lwu px d a c o) s = execLwu px d a c o s := rfl
@[simp] theorem exec_ld (px : Px) (d : Reg) (a : Reg) (c : BitVec 5) (o : BitVec 8) (s : State) :
    exec (.ld px d a c o) s = execLd px d a c o s := rfl
@[simp] theorem exec_sb (px : Px) (d : Reg) (a : Reg) (i : BitVec 13) (s : State) :
    exec (.sb px d a i) s = execSb px d a i s := rfl
@[simp] theorem exec_sh (px : Px) (d : Reg) (a : Reg) (i : BitVec 13) (s : State) :
    exec (.sh px d a i) s = execSh px d a i s := rfl
@[simp] theorem exec_sw (px : Px) (d : Reg) (a : Reg) (i : BitVec 13) (s : State) :
    exec (.sw px d a i) s = execSw px d a i s := rfl
@[simp] theorem exec_sd (px : Px) (d : Reg) (a : Reg) (i : BitVec 13) (s : State) :
    exec (.sd px d a i) s = execSd px d a i s := rfl
@[simp] theorem exec_bwait (px : Px) (a : Reg) (p : BitVec 1) (s : State) :
    exec (.bwait px a p) s = execBwait px a p s := rfl
@[simp] theorem exec_barrive (px : Px) (d : Reg) (a : Reg) (n : BitVec 8) (s : State) :
    exec (.barrive px d a n) s = execBarrive px d a n s := rfl
@[simp] theorem exec_bararm (px : Px) (d : Reg) (a : Reg) (s : State) :
    exec (.bararm px d a) s = execBararm px d a s := rfl
@[simp] theorem exec_barinit (px : Px) (a : Reg) (n : BitVec 8) (k : BitVec 5) (s : State) :
    exec (.barinit px a n k) s = execBarinit px a n k s := rfl
@[simp] theorem exec_beq (px : Px) (x : Reg) (y : Reg) (i : BitVec 13) (s : State) :
    exec (.beq px x y i) s = execBeq px x y i s := rfl
@[simp] theorem exec_bne (px : Px) (x : Reg) (y : Reg) (i : BitVec 13) (s : State) :
    exec (.bne px x y i) s = execBne px x y i s := rfl
@[simp] theorem exec_blt (px : Px) (x : Reg) (y : Reg) (i : BitVec 13) (s : State) :
    exec (.blt px x y i) s = execBlt px x y i s := rfl
@[simp] theorem exec_bge (px : Px) (x : Reg) (y : Reg) (i : BitVec 13) (s : State) :
    exec (.bge px x y i) s = execBge px x y i s := rfl
@[simp] theorem exec_bltu (px : Px) (x : Reg) (y : Reg) (i : BitVec 13) (s : State) :
    exec (.bltu px x y i) s = execBltu px x y i s := rfl
@[simp] theorem exec_bgeu (px : Px) (x : Reg) (y : Reg) (i : BitVec 13) (s : State) :
    exec (.bgeu px x y i) s = execBgeu px x y i s := rfl
@[simp] theorem exec_jal (px : Px) (d : Reg) (j : BitVec 18) (s : State) :
    exec (.jal px d j) s = execJal px d j s := rfl
@[simp] theorem exec_jalr (px : Px) (d : Reg) (a : Reg) (i : BitVec 13) (s : State) :
    exec (.jalr px d a i) s = execJalr px d a i s := rfl
@[simp] theorem exec_csrrw (px : Px) (d : Reg) (a : Reg) (c : BitVec 12) (s : State) :
    exec (.csrrw px d a c) s = execCsrrw px d a c s := rfl
@[simp] theorem exec_csrrs (px : Px) (d : Reg) (a : Reg) (c : BitVec 12) (s : State) :
    exec (.csrrs px d a c) s = execCsrrs px d a c s := rfl
@[simp] theorem exec_csrrc (px : Px) (d : Reg) (a : Reg) (c : BitVec 12) (s : State) :
    exec (.csrrc px d a c) s = execCsrrc px d a c s := rfl
@[simp] theorem exec_prtabaWrite (px : Px) (op : CsrOp) (d : Reg) (a : Reg) (s : State) :
    exec (.prtabaWrite px op d a) s = execPrtabaWrite px op d a s := rfl
@[simp] theorem exec_dmaskAccess (px : Px) (op : CsrOp) (d : Reg) (a : Reg) (s : State) :
    exec (.dmaskAccess px op d a) s = execDmaskAccess px op d a s := rfl
@[simp] theorem exec_xstatSrseedAccess (px : Px) (op : CsrOp) (d : Reg) (a : Reg) (c : BitVec 12) (s : State) :
    exec (.xstatSrseedAccess px op d a c) s = execXstatSrseedAccess px op d a c s := rfl
@[simp] theorem exec_tapeCsrAccess (px : Px) (op : CsrOp) (d : Reg) (a : Reg) (c : BitVec 12) (s : State) :
    exec (.tapeCsrAccess px op d a c) s = execTapeCsrAccess px op d a c s := rfl
@[simp] theorem exec_vlset (px : Px) (d : Reg) (a : Reg) (w : BitVec 3) (s : State) :
    exec (.vlset px d a w) s = execVlset px d a w s := rfl
@[simp] theorem exec_scopewr (px : Px) (d : Reg) (a : Reg) (n : BitVec 1) (e : BitVec 5) (s : State) :
    exec (.scopewr px d a n e) s = execScopewr px d a n e s := rfl
@[simp] theorem exec_scopeinv (px : Px) (d : Reg) (n : BitVec 1) (e : BitVec 5) (s : State) :
    exec (.scopeinv px d n e) s = execScopeinv px d n e s := rfl
@[simp] theorem exec_recordOff (px : Px) (s : State) :
    exec (.recordOff px) s = execRecordOff px s := rfl
@[simp] theorem exec_recordOn (px : Px) (s : State) :
    exec (.recordOn px) s = execRecordOn px s := rfl
@[simp] theorem exec_recordMark (px : Px) (s : State) :
    exec (.recordMark px) s = execRecordMark px s := rfl
@[simp] theorem exec_reverse (px : Px) (a : Reg) (s : State) :
    exec (.reverse px a) s = execReverse px a s := rfl
@[simp] theorem exec_ecall (px : Px) (n : BitVec 12) (s : State) :
    exec (.ecall px n) s = execEcall px n s := rfl
@[simp] theorem exec_ebreak (px : Px) (s : State) :
    exec (.ebreak px) s = execEbreak px s := rfl
@[simp] theorem exec_trapret (px : Px) (s : State) :
    exec (.trapret px) s = execTrapret px s := rfl
@[simp] theorem exec_wfe (px : Px) (s : State) :
    exec (.wfe px) s = execWfe px s := rfl
@[simp] theorem exec_fences (px : Px) (k : BitVec 5) (s : State) :
    exec (.fences px k) s = execFences px k s := rfl
@[simp] theorem exec_lsync (px : Px) (s : State) :
    exec (.lsync px) s = execLsync px s := rfl
@[simp] theorem exec_drainSpad (px : Px) (s : State) :
    exec (.drainSpad px) s = execDrainSpad px s := rfl
@[simp] theorem exec_drainDev (px : Px) (s : State) :
    exec (.drainDev px) s = execDrainDev px s := rfl
@[simp] theorem exec_drainDom (px : Px) (s : State) :
    exec (.drainDom px) s = execDrainDom px s := rfl
@[simp] theorem exec_nodeb (px : Px) (s : State) :
    exec (.nodeb px) s = execNodeb px s := rfl
@[simp] theorem exec_yield (px : Px) (s : State) :
    exec (.yield px) s = execYield px s := rfl
@[simp] theorem exec_texit (px : Px) (s : State) :
    exec (.texit px) s = execTexit px s := rfl
@[simp] theorem exec_cursor (px : Px) (d : Reg) (s : State) :
    exec (.cursor px d) s = execCursor px d s := rfl
@[simp] theorem exec_pstep (px : Px) (d : Reg) (s : State) :
    exec (.pstep px d) s = execPstep px d s := rfl
@[simp] theorem exec_frd (px : Px) (d : Reg) (a : Reg) (i : BitVec 5) (s : State) :
    exec (.frd px d a i) s = execFrd px d a i s := rfl
@[simp] theorem exec_fwr (px : Px) (d : Reg) (a : Reg) (i : BitVec 5) (s : State) :
    exec (.fwr px d a i) s = execFwr px d a i s := rfl
@[simp] theorem exec_tmld (px : Px) (a : Reg) (c : BitVec 3) (f : BitVec 6) (n : BitVec 4) (s : State) :
    exec (.tmld px a c f n) s = execTmld px a c f n s := rfl
@[simp] theorem exec_tmpli (c : BitVec 3) (n : BitVec 6) (w0 : Word) (w1 : Word) (w2 : Word) (w3 : Word) (s : State) :
    exec (.tmpli c n w0 w1 w2 w3) s = execTmpli c n w0 w1 w2 w3 s := rfl
@[simp] theorem exec_amoadd (px : Px) (d : Reg) (a : Reg) (w : BitVec 2) (o : BitVec 2) (k : BitVec 5) (s : State) :
    exec (.amoadd px d a w o k) s = execAmoadd px d a w o k s := rfl
@[simp] theorem exec_amoand (px : Px) (d : Reg) (a : Reg) (w : BitVec 2) (o : BitVec 2) (k : BitVec 5) (s : State) :
    exec (.amoand px d a w o k) s = execAmoand px d a w o k s := rfl
@[simp] theorem exec_amoor (px : Px) (d : Reg) (a : Reg) (w : BitVec 2) (o : BitVec 2) (k : BitVec 5) (s : State) :
    exec (.amoor px d a w o k) s = execAmoor px d a w o k s := rfl
@[simp] theorem exec_amoxor (px : Px) (d : Reg) (a : Reg) (w : BitVec 2) (o : BitVec 2) (k : BitVec 5) (s : State) :
    exec (.amoxor px d a w o k) s = execAmoxor px d a w o k s := rfl
@[simp] theorem exec_amomin (px : Px) (d : Reg) (a : Reg) (w : BitVec 2) (o : BitVec 2) (k : BitVec 5) (s : State) :
    exec (.amomin px d a w o k) s = execAmomin px d a w o k s := rfl
@[simp] theorem exec_amomax (px : Px) (d : Reg) (a : Reg) (w : BitVec 2) (o : BitVec 2) (k : BitVec 5) (s : State) :
    exec (.amomax px d a w o k) s = execAmomax px d a w o k s := rfl
@[simp] theorem exec_amominu (px : Px) (d : Reg) (a : Reg) (w : BitVec 2) (o : BitVec 2) (k : BitVec 5) (s : State) :
    exec (.amominu px d a w o k) s = execAmominu px d a w o k s := rfl
@[simp] theorem exec_amomaxu (px : Px) (d : Reg) (a : Reg) (w : BitVec 2) (o : BitVec 2) (k : BitVec 5) (s : State) :
    exec (.amomaxu px d a w o k) s = execAmomaxu px d a w o k s := rfl
@[simp] theorem exec_amoswap (px : Px) (d : Reg) (a : Reg) (w : BitVec 2) (o : BitVec 2) (k : BitVec 5) (s : State) :
    exec (.amoswap px d a w o k) s = execAmoswap px d a w o k s := rfl
@[simp] theorem exec_amocas (px : Px) (d : Reg) (a : Reg) (w : BitVec 2) (o : BitVec 2) (k : BitVec 5) (s : State) :
    exec (.amocas px d a w o k) s = execAmocas px d a w o k s := rfl
@[simp] theorem exec_ldaq (px : Px) (d : Reg) (a : Reg) (w : BitVec 2) (k : BitVec 5) (s : State) :
    exec (.ldaq px d a w k) s = execLdaq px d a w k s := rfl
@[simp] theorem exec_strl (px : Px) (d : Reg) (a : Reg) (w : BitVec 2) (k : BitVec 5) (s : State) :
    exec (.strl px d a w k) s = execStrl px d a w k s := rfl
@[simp] theorem exec_amofadd (px : Px) (d : Reg) (a : Reg) (o : BitVec 2) (k : BitVec 5) (s : State) :
    exec (.amofadd px d a o k) s = execAmofadd px d a o k s := rfl
@[simp] theorem exec_dmsetc (px : Px) (a : Reg) (z : BitVec 1) (s : State) :
    exec (.dmsetc px a z) s = execDmsetc px a z s := rfl
@[simp] theorem exec_dred (px : Px) (d : Reg) (a : Reg) (o : BitVec 3) (s : State) :
    exec (.dred px d a o) s = execDred px d a o s := rfl
@[simp] theorem exec_dbcast (px : Px) (d : Reg) (a : Reg) (r : BitVec 3) (s : State) :
    exec (.dbcast px d a r) s = execDbcast px d a r s := rfl
@[simp] theorem exec_commandFormation (px : Px) (e : Eng) (tix : BitVec 6) (tok : BitVec 4) (fsel : BitVec 3) (val : BitVec 16) (s : State) :
    exec (.commandFormation px e tix tok fsel val) s = execCommandFormation px e tix tok fsel val s := rfl
@[simp] theorem exec_pageAbsentReply (a : Access) (s : State) :
    exec (.pageAbsentReply a) s = execPageAbsentReply a s := rfl
@[simp] theorem exec_ald (t : Template) (s : State) :
    exec (.ald t) s = execAld t s := rfl
@[simp] theorem exec_alds (t : Template) (s : State) :
    exec (.alds t) s = execAlds t s := rfl
@[simp] theorem exec_ald2 (t : Template) (s : State) :
    exec (.ald2 t) s = execAld2 t s := rfl
@[simp] theorem exec_agath (t : Template) (s : State) :
    exec (.agath t) s = execAgath t s := rfl
@[simp] theorem exec_aldt (t : Template) (s : State) :
    exec (.aldt t) s = execAldt t s := rfl
@[simp] theorem exec_aring (t : Template) (s : State) :
    exec (.aring t) s = execAring t s := rfl
@[simp] theorem exec_aspx (t : Template) (s : State) :
    exec (.aspx t) s = execAspx t s := rfl
@[simp] theorem exec_aqcfg (t : Template) (s : State) :
    exec (.aqcfg t) s = execAqcfg t s := rfl
@[simp] theorem exec_apref (t : Template) (s : State) :
    exec (.apref t) s = execApref t s := rfl
@[simp] theorem exec_sst (t : Template) (s : State) :
    exec (.sst t) s = execSst t s := rfl
@[simp] theorem exec_ssts (t : Template) (s : State) :
    exec (.ssts t) s = execSsts t s := rfl
@[simp] theorem exec_sst2 (t : Template) (s : State) :
    exec (.sst2 t) s = execSst2 t s := rfl
@[simp] theorem exec_sscat (t : Template) (s : State) :
    exec (.sscat t) s = execSscat t s := rfl
@[simp] theorem exec_sacc (t : Template) (s : State) :
    exec (.sacc t) s = execSacc t s := rfl
@[simp] theorem exec_sspx (t : Template) (s : State) :
    exec (.sspx t) s = execSspx t s := rfl
@[simp] theorem exec_stag (t : Template) (s : State) :
    exec (.stag t) s = execStag t s := rfl
@[simp] theorem exec_feset (t : Template) (s : State) :
    exec (.feset t) s = execFeset t s := rfl
@[simp] theorem exec_vadd (t : Template) (s : State) :
    exec (.vadd t) s = execVadd t s := rfl
@[simp] theorem exec_vsub (t : Template) (s : State) :
    exec (.vsub t) s = execVsub t s := rfl
@[simp] theorem exec_vmul (t : Template) (s : State) :
    exec (.vmul t) s = execVmul t s := rfl
@[simp] theorem exec_vfma (t : Template) (s : State) :
    exec (.vfma t) s = execVfma t s := rfl
@[simp] theorem exec_vfms (t : Template) (s : State) :
    exec (.vfms t) s = execVfms t s := rfl
@[simp] theorem exec_vmin (t : Template) (s : State) :
    exec (.vmin t) s = execVmin t s := rfl
@[simp] theorem exec_vmax (t : Template) (s : State) :
    exec (.vmax t) s = execVmax t s := rfl
@[simp] theorem exec_vabs (t : Template) (s : State) :
    exec (.vabs t) s = execVabs t s := rfl
@[simp] theorem exec_vneg (t : Template) (s : State) :
    exec (.vneg t) s = execVneg t s := rfl
@[simp] theorem exec_vdiv (t : Template) (s : State) :
    exec (.vdiv t) s = execVdiv t s := rfl
@[simp] theorem exec_vsqrt (t : Template) (s : State) :
    exec (.vsqrt t) s = execVsqrt t s := rfl
@[simp] theorem exec_vrsq (t : Template) (s : State) :
    exec (.vrsq t) s = execVrsq t s := rfl
@[simp] theorem exec_vexp (t : Template) (s : State) :
    exec (.vexp t) s = execVexp t s := rfl
@[simp] theorem exec_vlog (t : Template) (s : State) :
    exec (.vlog t) s = execVlog t s := rfl
@[simp] theorem exec_vtanh (t : Template) (s : State) :
    exec (.vtanh t) s = execVtanh t s := rfl
@[simp] theorem exec_vsigm (t : Template) (s : State) :
    exec (.vsigm t) s = execVsigm t s := rfl
@[simp] theorem exec_vand (t : Template) (s : State) :
    exec (.vand t) s = execVand t s := rfl
@[simp] theorem exec_vor (t : Template) (s : State) :
    exec (.vor t) s = execVor t s := rfl
@[simp] theorem exec_vxor (t : Template) (s : State) :
    exec (.vxor t) s = execVxor t s := rfl
@[simp] theorem exec_vnot (t : Template) (s : State) :
    exec (.vnot t) s = execVnot t s := rfl
@[simp] theorem exec_vshl (t : Template) (s : State) :
    exec (.vshl t) s = execVshl t s := rfl
@[simp] theorem exec_vshr (t : Template) (s : State) :
    exec (.vshr t) s = execVshr t s := rfl
@[simp] theorem exec_vshrr (t : Template) (s : State) :
    exec (.vshrr t) s = execVshrr t s := rfl
@[simp] theorem exec_vdot2 (t : Template) (s : State) :
    exec (.vdot2 t) s = execVdot2 t s := rfl
@[simp] theorem exec_vdot4 (t : Template) (s : State) :
    exec (.vdot4 t) s = execVdot4 t s := rfl
@[simp] theorem exec_vsadd (t : Template) (s : State) :
    exec (.vsadd t) s = execVsadd t s := rfl
@[simp] theorem exec_vssub (t : Template) (s : State) :
    exec (.vssub t) s = execVssub t s := rfl
@[simp] theorem exec_vmulh (t : Template) (s : State) :
    exec (.vmulh t) s = execVmulh t s := rfl
@[simp] theorem exec_vcmp (t : Template) (s : State) :
    exec (.vcmp t) s = execVcmp t s := rfl
@[simp] theorem exec_vsel (t : Template) (s : State) :
    exec (.vsel t) s = execVsel t s := rfl
@[simp] theorem exec_vclass (t : Template) (s : State) :
    exec (.vclass t) s = execVclass t s := rfl
@[simp] theorem exec_vslide (t : Template) (s : State) :
    exec (.vslide t) s = execVslide t s := rfl
@[simp] theorem exec_vperm (t : Template) (s : State) :
    exec (.vperm t) s = execVperm t s := rfl
@[simp] theorem exec_vzip (t : Template) (s : State) :
    exec (.vzip t) s = execVzip t s := rfl
@[simp] theorem exec_vunzip (t : Template) (s : State) :
    exec (.vunzip t) s = execVunzip t s := rfl
@[simp] theorem exec_vbcast (t : Template) (s : State) :
    exec (.vbcast t) s = execVbcast t s := rfl
@[simp] theorem exec_vextr (t : Template) (s : State) :
    exec (.vextr t) s = execVextr t s := rfl
@[simp] theorem exec_vredsum (t : Template) (s : State) :
    exec (.vredsum t) s = execVredsum t s := rfl
@[simp] theorem exec_vredsumo (t : Template) (s : State) :
    exec (.vredsumo t) s = execVredsumo t s := rfl
@[simp] theorem exec_vredmax (t : Template) (s : State) :
    exec (.vredmax t) s = execVredmax t s := rfl
@[simp] theorem exec_vredmin (t : Template) (s : State) :
    exec (.vredmin t) s = execVredmin t s := rfl
@[simp] theorem exec_vcvt (t : Template) (s : State) :
    exec (.vcvt t) s = execVcvt t s := rfl
@[simp] theorem exec_vqnt (t : Template) (s : State) :
    exec (.vqnt t) s = execVqnt t s := rfl
@[simp] theorem exec_vtagr (t : Template) (s : State) :
    exec (.vtagr t) s = execVtagr t s := rfl
@[simp] theorem exec_vtagw (t : Template) (s : State) :
    exec (.vtagw t) s = execVtagw t s := rfl
@[simp] theorem exec_vsexp (t : Template) (s : State) :
    exec (.vsexp t) s = execVsexp t s := rfl
@[simp] theorem exec_vpop (t : Template) (s : State) :
    exec (.vpop t) s = execVpop t s := rfl
@[simp] theorem exec_vpush (t : Template) (s : State) :
    exec (.vpush t) s = execVpush t s := rfl
@[simp] theorem exec_vldr (t : Template) (s : State) :
    exec (.vldr t) s = execVldr t s := rfl
@[simp] theorem exec_vstr (t : Template) (s : State) :
    exec (.vstr t) s = execVstr t s := rfl
@[simp] theorem exec_kand (t : Template) (s : State) :
    exec (.kand t) s = execKand t s := rfl
@[simp] theorem exec_kor (t : Template) (s : State) :
    exec (.kor t) s = execKor t s := rfl
@[simp] theorem exec_knot (t : Template) (s : State) :
    exec (.knot t) s = execKnot t s := rfl
@[simp] theorem exec_kpopc (t : Template) (s : State) :
    exec (.kpopc t) s = execKpopc t s := rfl
@[simp] theorem exec_kfirst (t : Template) (s : State) :
    exec (.kfirst t) s = execKfirst t s := rfl
@[simp] theorem exec_vrda (t : Template) (s : State) :
    exec (.vrda t) s = execVrda t s := rfl
@[simp] theorem exec_vwra (t : Template) (s : State) :
    exec (.vwra t) s = execVwra t s := rfl
@[simp] theorem exec_vmov (t : Template) (s : State) :
    exec (.vmov t) s = execVmov t s := rfl
@[simp] theorem exec_vid (t : Template) (s : State) :
    exec (.vid t) s = execVid t s := rfl
@[simp] theorem exec_vseti (t : Template) (s : State) :
    exec (.vseti t) s = execVseti t s := rfl
@[simp] theorem exec_mlease (t : Template) (s : State) :
    exec (.mlease t) s = execMlease t s := rfl
@[simp] theorem exec_mrelease (t : Template) (s : State) :
    exec (.mrelease t) s = execMrelease t s := rfl
@[simp] theorem exec_ringcfg (t : Template) (s : State) :
    exec (.ringcfg t) s = execRingcfg t s := rfl
@[simp] theorem exec_ringput (t : Template) (s : State) :
    exec (.ringput t) s = execRingput t s := rfl
@[simp] theorem exec_ringpop (t : Template) (s : State) :
    exec (.ringpop t) s = execRingpop t s := rfl
@[simp] theorem exec_ringqry (t : Template) (s : State) :
    exec (.ringqry t) s = execRingqry t s := rfl
@[simp] theorem exec_tmma (t : Template) (s : State) :
    exec (.tmma t) s = execTmma t s := rfl
@[simp] theorem exec_tmmap (t : Template) (s : State) :
    exec (.tmmap t) s = execTmmap t s := rfl
@[simp] theorem exec_tzero (t : Template) (s : State) :
    exec (.tzero t) s = execTzero t s := rfl
@[simp] theorem exec_tadd (t : Template) (s : State) :
    exec (.tadd t) s = execTadd t s := rfl
@[simp] theorem exec_tsub (t : Template) (s : State) :
    exec (.tsub t) s = execTsub t s := rfl
@[simp] theorem exec_tmul (t : Template) (s : State) :
    exec (.tmul t) s = execTmul t s := rfl
@[simp] theorem exec_tscl (t : Template) (s : State) :
    exec (.tscl t) s = execTscl t s := rfl
@[simp] theorem exec_tbias (t : Template) (s : State) :
    exec (.tbias t) s = execTbias t s := rfl
@[simp] theorem exec_tact (t : Template) (s : State) :
    exec (.tact t) s = execTact t s := rfl
@[simp] theorem exec_trsum (t : Template) (s : State) :
    exec (.trsum t) s = execTrsum t s := rfl
@[simp] theorem exec_tcsum (t : Template) (s : State) :
    exec (.tcsum t) s = execTcsum t s := rfl
@[simp] theorem exec_trmax (t : Template) (s : State) :
    exec (.trmax t) s = execTrmax t s := rfl
@[simp] theorem exec_ttrans (t : Template) (s : State) :
    exec (.ttrans t) s = execTtrans t s := rfl
@[simp] theorem exec_tcvt (t : Template) (s : State) :
    exec (.tcvt t) s = execTcvt t s := rfl
@[simp] theorem exec_tloada (t : Template) (s : State) :
    exec (.tloada t) s = execTloada t s := rfl
@[simp] theorem exec_tcopy (t : Template) (s : State) :
    exec (.tcopy t) s = execTcopy t s := rfl
@[simp] theorem exec_jcopy (t : Template) (s : State) :
    exec (.jcopy t) s = execJcopy t s := rfl
@[simp] theorem exec_jfill (t : Template) (s : State) :
    exec (.jfill t) s = execJfill t s := rfl
@[simp] theorem exec_jpref (t : Template) (s : State) :
    exec (.jpref t) s = execJpref t s := rfl
@[simp] theorem exec_jcopy2 (t : Template) (s : State) :
    exec (.jcopy2 t) s = execJcopy2 t s := rfl
@[simp] theorem exec_jgath (t : Template) (s : State) :
    exec (.jgath t) s = execJgath t s := rfl
@[simp] theorem exec_jscat (t : Template) (s : State) :
    exec (.jscat t) s = execJscat t s := rfl
@[simp] theorem exec_jred (t : Template) (s : State) :
    exec (.jred t) s = execJred t s := rfl
@[simp] theorem exec_jcoll (t : Template) (s : State) :
    exec (.jcoll t) s = execJcoll t s := rfl
@[simp] theorem exec_jrecode (t : Template) (s : State) :
    exec (.jrecode t) s = execJrecode t s := rfl
@[simp] theorem exec_jtens (t : Template) (s : State) :
    exec (.jtens t) s = execJtens t s := rfl
@[simp] theorem exec_hmaskChange (masks : List Dword) (s : State) :
    exec (.hmaskChange masks) s = execHmaskChange masks s := rfl
@[simp] theorem exec_domainWindowConfig (cfg : WindowCfg) (s : State) :
    exec (.domainWindowConfig cfg) s = execDomainWindowConfig cfg s := rfl
@[simp] theorem exec_tdBoot (r : BootRecord) (signed : Bool) (s : State) :
    exec (.tdBoot r signed) s = execTdBoot r signed s := rfl
@[simp] theorem exec_watchSet (cfg : WatchCfg) (s : State) :
    exec (.watchSet cfg) s = execWatchSet cfg s := rfl
@[simp] theorem exec_registerWrite (dpa : Nat) (v : Dword) (s : State) :
    exec (.registerWrite dpa v) s = execRegisterWrite dpa v s := rfl
@[simp] theorem exec_illegalOpcode (px : Px) (w : Word) (s : State) :
    exec (.illegalOpcode px w) s = execIllegalOpcode px w s := rfl
@[simp] theorem exec_applicationHartAccess (h : Nat) (ctx : Nat) (kind : HostAccess) (s : State) :
    exec (.applicationHartAccess h ctx kind) s = execApplicationHartAccess h ctx kind s := rfl
@[simp] theorem exec_domainAccessArrival (pkg : Nat) (ctx : Nat) (kind : DomainAccess) (s : State) :
    exec (.domainAccessArrival pkg ctx kind) s = execDomainAccessArrival pkg ctx kind s := rfl
@[simp] theorem exec_scopeChangeInstall (s : State) :
    exec (.scopeChangeInstall) s = execScopeChangeInstall s := rfl
@[simp] theorem exec_spatulaRecord (s : State) :
    exec (.spatulaRecord) s = execSpatulaRecord s := rfl
@[simp] theorem exec_wfeTimeout (s : State) :
    exec (.wfeTimeout) s = execWfeTimeout s := rfl
@[simp] theorem exec_formationFaultRaise (s : State) :
    exec (.formationFaultRaise) s = execFormationFaultRaise s := rfl
@[simp] theorem exec_commandCompletion (s : State) :
    exec (.commandCompletion) s = execCommandCompletion s := rfl
@[simp] theorem exec_engineDeadlock (s : State) :
    exec (.engineDeadlock) s = execEngineDeadlock s := rfl
@[simp] theorem exec_loadDataArrival (s : State) :
    exec (.loadDataArrival) s = execLoadDataArrival s := rfl
@[simp] theorem exec_loadLanding (s : State) :
    exec (.loadLanding) s = execLoadLanding s := rfl
@[simp] theorem exec_mcUncorrectable (s : State) :
    exec (.mcUncorrectable) s = execMcUncorrectable s := rfl
@[simp] theorem exec_leaseGrant (s : State) :
    exec (.leaseGrant) s = execLeaseGrant s := rfl
@[simp] theorem exec_leaseTimeout (s : State) :
    exec (.leaseTimeout) s = execLeaseTimeout s := rfl
@[simp] theorem exec_leaseIdleExpiry (s : State) :
    exec (.leaseIdleExpiry) s = execLeaseIdleExpiry s := rfl
@[simp] theorem exec_tileSpill (s : State) :
    exec (.tileSpill) s = execTileSpill s := rfl
@[simp] theorem exec_jobStart (s : State) :
    exec (.jobStart) s = execJobStart s := rfl
@[simp] theorem exec_jobSectorWrite (s : State) :
    exec (.jobSectorWrite) s = execJobSectorWrite s := rfl
@[simp] theorem exec_jobComplete (s : State) :
    exec (.jobComplete) s = execJobComplete s := rfl
@[simp] theorem exec_jobResume (s : State) :
    exec (.jobResume) s = execJobResume s := rfl
@[simp] theorem exec_jobFaultRaise (s : State) :
    exec (.jobFaultRaise) s = execJobFaultRaise s := rfl
@[simp] theorem exec_ctxalloc (s : State) :
    exec (.ctxalloc) s = execCtxalloc s := rfl
@[simp] theorem exec_ctxfree (s : State) :
    exec (.ctxfree) s = execCtxfree s := rfl
@[simp] theorem exec_ctxabort (s : State) :
    exec (.ctxabort) s = execCtxabort s := rfl
@[simp] theorem exec_ctxcmdInvalid (s : State) :
    exec (.ctxcmdInvalid) s = execCtxcmdInvalid s := rfl
@[simp] theorem exec_purgeComplete (s : State) :
    exec (.purgeComplete) s = execPurgeComplete s := rfl
@[simp] theorem exec_hcmdResume (s : State) :
    exec (.hcmdResume) s = execHcmdResume s := rfl
@[simp] theorem exec_hcmdInvalid (s : State) :
    exec (.hcmdInvalid) s = execHcmdInvalid s := rfl
@[simp] theorem exec_qcmdEnable (s : State) :
    exec (.qcmdEnable) s = execQcmdEnable s := rfl
@[simp] theorem exec_qcmdPause (s : State) :
    exec (.qcmdPause) s = execQcmdPause s := rfl
@[simp] theorem exec_qcmdResume (s : State) :
    exec (.qcmdResume) s = execQcmdResume s := rfl
@[simp] theorem exec_qcmdDrain (s : State) :
    exec (.qcmdDrain) s = execQcmdDrain s := rfl
@[simp] theorem exec_qcmdDisable (s : State) :
    exec (.qcmdDisable) s = execQcmdDisable s := rfl
@[simp] theorem exec_qcmdSkip (s : State) :
    exec (.qcmdSkip) s = execQcmdSkip s := rfl
@[simp] theorem exec_qcmdInvalid (s : State) :
    exec (.qcmdInvalid) s = execQcmdInvalid s := rfl
@[simp] theorem exec_qtbaseWrite (s : State) :
    exec (.qtbaseWrite) s = execQtbaseWrite s := rfl
@[simp] theorem exec_doorbellWrite (s : State) :
    exec (.doorbellWrite) s = execDoorbellWrite s := rfl
@[simp] theorem exec_launchAdmission (s : State) :
    exec (.launchAdmission) s = execLaunchAdmission s := rfl
@[simp] theorem exec_kernelNode (s : State) :
    exec (.kernelNode) s = execKernelNode s := rfl
@[simp] theorem exec_jobNode (s : State) :
    exec (.jobNode) s = execJobNode s := rfl
@[simp] theorem exec_eventSet (s : State) :
    exec (.eventSet) s = execEventSet s := rfl
@[simp] theorem exec_eventWait (s : State) :
    exec (.eventWait) s = execEventWait s := rfl
@[simp] theorem exec_eventWaitReread (s : State) :
    exec (.eventWaitReread) s = execEventWaitReread s := rfl
@[simp] theorem exec_eventMsi (s : State) :
    exec (.eventMsi) s = execEventMsi s := rfl
@[simp] theorem exec_condNode (s : State) :
    exec (.condNode) s = execCondNode s := rfl
@[simp] theorem exec_loopNode (s : State) :
    exec (.loopNode) s = execLoopNode s := rfl
@[simp] theorem exec_switchNode (s : State) :
    exec (.switchNode) s = execSwitchNode s := rfl
@[simp] theorem exec_kernelPlacement (s : State) :
    exec (.kernelPlacement) s = execKernelPlacement s := rfl
@[simp] theorem exec_cursorWake (s : State) :
    exec (.cursorWake) s = execCursorWake s := rfl
@[simp] theorem exec_preemptionDeadline (s : State) :
    exec (.preemptionDeadline) s = execPreemptionDeadline s := rfl
@[simp] theorem exec_hartRestore (s : State) :
    exec (.hartRestore) s = execHartRestore s := rfl
@[simp] theorem exec_dieRemapRequest (s : State) :
    exec (.dieRemapRequest) s = execDieRemapRequest s := rfl
@[simp] theorem exec_quiesceGateAck (s : State) :
    exec (.quiesceGateAck) s = execQuiesceGateAck s := rfl
@[simp] theorem exec_pitcmdWrite (s : State) :
    exec (.pitcmdWrite) s = execPitcmdWrite s := rfl
@[simp] theorem exec_pitcmdMigrate (s : State) :
    exec (.pitcmdMigrate) s = execPitcmdMigrate s := rfl
@[simp] theorem exec_pitcmdRecode (s : State) :
    exec (.pitcmdRecode) s = execPitcmdRecode s := rfl
@[simp] theorem exec_pitcmdInvalid (s : State) :
    exec (.pitcmdInvalid) s = execPitcmdInvalid s := rfl
@[simp] theorem exec_passStart (s : State) :
    exec (.passStart) s = execPassStart s := rfl
@[simp] theorem exec_backgroundPassStart (s : State) :
    exec (.backgroundPassStart) s = execBackgroundPassStart s := rfl
@[simp] theorem exec_passSectorStep (s : State) :
    exec (.passSectorStep) s = execPassSectorStep s := rfl
@[simp] theorem exec_rd (s : State) :
    exec (.rd) s = execRd s := rfl
@[simp] theorem exec_wr (s : State) :
    exec (.wr) s = execWr s := rfl
@[simp] theorem exec_wrm (s : State) :
    exec (.wrm) s = execWrm s := rfl
@[simp] theorem exec_trd (s : State) :
    exec (.trd) s = execTrd s := rfl
@[simp] theorem exec_tagw (s : State) :
    exec (.tagw) s = execTagw s := rfl
@[simp] theorem exec_mrr (s : State) :
    exec (.mrr) s = execMrr s := rfl
@[simp] theorem exec_packetReply (s : State) :
    exec (.packetReply) s = execPacketReply s := rfl
@[simp] theorem exec_refresh (s : State) :
    exec (.refresh) s = execRefresh s := rfl
@[simp] theorem exec_scrubStep (s : State) :
    exec (.scrubStep) s = execScrubStep s := rfl
@[simp] theorem exec_heartbeatMissing (s : State) :
    exec (.heartbeatMissing) s = execHeartbeatMissing s := rfl
@[simp] theorem exec_refreshHandover (s : State) :
    exec (.refreshHandover) s = execRefreshHandover s := rfl
@[simp] theorem exec_linkTrainingStart (s : State) :
    exec (.linkTrainingStart) s = execLinkTrainingStart s := rfl
@[simp] theorem exec_linkTrainingComplete (s : State) :
    exec (.linkTrainingComplete) s = execLinkTrainingComplete s := rfl
@[simp] theorem exec_linkTrainingTimeout (s : State) :
    exec (.linkTrainingTimeout) s = execLinkTrainingTimeout s := rfl
@[simp] theorem exec_linkStepUp (s : State) :
    exec (.linkStepUp) s = execLinkStepUp s := rfl
@[simp] theorem exec_linkStepDown (s : State) :
    exec (.linkStepDown) s = execLinkStepDown s := rfl
@[simp] theorem exec_linkRatePolicy (s : State) :
    exec (.linkRatePolicy) s = execLinkRatePolicy s := rfl
@[simp] theorem exec_flitReplay (s : State) :
    exec (.flitReplay) s = execFlitReplay s := rfl
@[simp] theorem exec_linkRetrainComplete (s : State) :
    exec (.linkRetrainComplete) s = execLinkRetrainComplete s := rfl
@[simp] theorem exec_linkHoldExpiry (s : State) :
    exec (.linkHoldExpiry) s = execLinkHoldExpiry s := rfl
@[simp] theorem exec_collectiveContribution (s : State) :
    exec (.collectiveContribution) s = execCollectiveContribution s := rfl
@[simp] theorem exec_collectiveTimeout (s : State) :
    exec (.collectiveTimeout) s = execCollectiveTimeout s := rfl
@[simp] theorem exec_collectiveAck (s : State) :
    exec (.collectiveAck) s = execCollectiveAck s := rfl
@[simp] theorem exec_deviceRead (s : State) :
    exec (.deviceRead) s = execDeviceRead s := rfl
@[simp] theorem exec_deviceWrite (s : State) :
    exec (.deviceWrite) s = execDeviceWrite s := rfl
@[simp] theorem exec_dieRelease (s : State) :
    exec (.dieRelease) s = execDieRelease s := rfl
@[simp] theorem exec_dieReadyTimeout (s : State) :
    exec (.dieReadyTimeout) s = execDieReadyTimeout s := rfl
@[simp] theorem exec_rekeyRequest (s : State) :
    exec (.rekeyRequest) s = execRekeyRequest s := rfl
@[simp] theorem exec_getVersion (s : State) :
    exec (.getVersion) s = execGetVersion s := rfl
@[simp] theorem exec_getCapabilities (s : State) :
    exec (.getCapabilities) s = execGetCapabilities s := rfl
@[simp] theorem exec_negotiateAlgorithms (s : State) :
    exec (.negotiateAlgorithms) s = execNegotiateAlgorithms s := rfl
@[simp] theorem exec_getDigests (s : State) :
    exec (.getDigests) s = execGetDigests s := rfl
@[simp] theorem exec_getCertificate (s : State) :
    exec (.getCertificate) s = execGetCertificate s := rfl
@[simp] theorem exec_challenge (s : State) :
    exec (.challenge) s = execChallenge s := rfl
@[simp] theorem exec_getMeasurements (s : State) :
    exec (.getMeasurements) s = execGetMeasurements s := rfl
@[simp] theorem exec_keyExchange (s : State) :
    exec (.keyExchange) s = execKeyExchange s := rfl
@[simp] theorem exec_powerTick (s : State) :
    exec (.powerTick) s = execPowerTick s := rfl
@[simp] theorem exec_thermalTrip (s : State) :
    exec (.thermalTrip) s = execThermalTrip s := rfl
@[simp] theorem exec_applicationHartFence (s : State) :
    exec (.applicationHartFence) s = execApplicationHartFence s := rfl
@[simp] theorem exec_accessPerformed (s : State) :
    exec (.accessPerformed) s = execAccessPerformed s := rfl
@[simp] theorem exec_cxlBackInvalidation (s : State) :
    exec (.cxlBackInvalidation) s = execCxlBackInvalidation s := rfl

end Sys2Proof.Laws
end

