-- ==== Sys2Proof/Laws/Maps.lean ====
section
/-! SUPPORT. The laws of tables and of byte memory: a read after a write, the keys that a write leaves alone, and the
canonical form that every write keeps. -/

namespace Sys2Proof.Laws

open Sys2Proof Sys2Proof.Machine

variable {α : Type}

/-! ## Reads after writes -/

@[simp] theorem look_put_same (m : Map α) (k : Nat) (x : α) : look (put m k x) k = some x := by
  induction m with
  | nil => simp [put, look]
  | cons c m ih =>
    obtain ⟨j, y⟩ := c
    by_cases h1 : k < j
    · simp [put, h1, look]
    · by_cases h2 : k = j
      · simp [put, h2, look]
      · simp [put, h1, h2, look, ih, Ne.symm h2]

theorem look_put_other (m : Map α) {k n : Nat} (x : α) (h : n ≠ k) : look (put m k x) n = look m n := by
  induction m with
  | nil => simp [put, look, Ne.symm h]
  | cons c m ih =>
    obtain ⟨j, y⟩ := c
    by_cases h1 : k < j
    · simp [put, h1, look, Ne.symm h]
    · by_cases h2 : k = j
      · subst h2; simp [put, look, Ne.symm h]
      · simp [put, h1, h2, look, ih]

theorem look_del_other (m : Map α) {k n : Nat} (h : n ≠ k) : look (del m k) n = look m n := by
  induction m with
  | nil => rfl
  | cons c m ih =>
    obtain ⟨j, y⟩ := c
    by_cases h1 : j = k
    · subst h1; simp [del, look, Ne.symm h]
    · simp [del, h1, look, ih]

/-- Every key of a rising table after its first is larger. -/
theorem rising_lt {j : Nat} {y : α} {m : Map α} (h : rising ((j, y) :: m) = true) : ∀ c ∈ m, j < c.1 := by
  induction m generalizing j y with
  | nil => simp
  | cons d m ih =>
    obtain ⟨k, z⟩ := d
    simp only [rising, Bool.and_eq_true, decide_eq_true_eq] at h
    intro c hc
    rcases List.mem_cons.mp hc with rfl | hc
    · exact h.1
    · exact h.1.trans (ih h.2 c hc)

theorem rising_tail {c : Nat × α} {m : Map α} (h : rising (c :: m) = true) : rising m = true := by
  cases m with
  | nil => rfl
  | cons d m => obtain ⟨k, z⟩ := d; obtain ⟨j, y⟩ := c; simp only [rising, Bool.and_eq_true] at h; exact h.2

/-- A table whose keys exceed one that is put before it. -/
theorem rising_cons {j : Nat} {y : α} {m : Map α} (hm : rising m = true) (h : ∀ c ∈ m, j < c.1) :
    rising ((j, y) :: m) = true := by
  cases m with
  | nil => rfl
  | cons d m =>
    obtain ⟨k, z⟩ := d
    simp only [rising, Bool.and_eq_true, decide_eq_true_eq]
    exact ⟨h (k, z) (by simp), hm⟩

theorem look_eq_none : ∀ {m : Map α} {k : Nat}, (∀ c ∈ m, c.1 ≠ k) → look m k = none
  | [], _, _ => rfl
  | _ :: _, _, unlisted => by
    rw [look, if_neg (unlisted _ List.mem_cons_self)]
    exact look_eq_none (fun c later => unlisted c (.tail _ later))

theorem look_del_same {m : Map α} (h : rising m = true) (k : Nat) : look (del m k) k = none := by
  induction m with
  | nil => rfl
  | cons c m ih =>
    obtain ⟨j, y⟩ := c
    by_cases h1 : j = k
    · subst h1
      simp only [del, if_true]
      exact look_eq_none (fun c hc => Nat.ne_of_gt (rising_lt h c hc))
    · simp [del, h1, look, ih (rising_tail h)]

/-! ## Rising keys -/

theorem mem_put {m : Map α} {k : Nat} {x : α} {c : Nat × α} (h : c ∈ put m k x) : c = (k, x) ∨ c ∈ m := by
  induction m with
  | nil => simpa [put] using h
  | cons d m ih =>
    obtain ⟨j, y⟩ := d
    by_cases h1 : k < j
    · simpa [put, h1] using h
    · by_cases h2 : k = j
      · subst h2
        simp only [put, if_neg h1, if_true, List.mem_cons] at h ⊢
        exact h.imp id .inr
      · simp only [put, h1, h2, if_false, List.mem_cons] at h ⊢
        rcases h with h | h
        · exact .inr (.inl h)
        · rcases ih h with h | h <;> simp [h]

theorem rising_put {m : Map α} (h : rising m = true) (k : Nat) (x : α) : rising (put m k x) = true := by
  induction m with
  | nil => rfl
  | cons d m ih =>
    obtain ⟨j, y⟩ := d
    by_cases h1 : k < j
    · simp only [put, if_pos h1]
      refine rising_cons h (fun c hc => ?_)
      rcases List.mem_cons.mp hc with rfl | hc
      · exact h1
      · exact h1.trans (rising_lt h c hc)
    · by_cases h2 : k = j
      · subst h2
        simp only [put, if_neg h1, if_true]
        exact rising_cons (rising_tail h) (rising_lt h)
      · simp only [put, if_neg h1, if_neg h2]
        refine rising_cons (ih (rising_tail h)) (fun c hc => ?_)
        rcases mem_put hc with rfl | hc
        · simp only; omega
        · exact rising_lt h c hc

theorem mem_del {m : Map α} {k : Nat} {c : Nat × α} (h : c ∈ del m k) : c ∈ m := by
  induction m with
  | nil => exact h
  | cons d m ih =>
    obtain ⟨j, y⟩ := d
    by_cases h1 : j = k
    · simp only [del, if_pos h1] at h; exact List.mem_cons_of_mem _ h
    · simp only [del, if_neg h1, List.mem_cons] at h ⊢
      exact h.imp id ih

theorem rising_del {m : Map α} (h : rising m = true) (k : Nat) : rising (del m k) = true := by
  induction m with
  | nil => rfl
  | cons d m ih =>
    obtain ⟨j, y⟩ := d
    by_cases h1 : j = k
    · simp only [del, if_pos h1]; exact rising_tail h
    · simp only [del, if_neg h1]
      exact rising_cons (ih (rising_tail h)) (fun c hc => rising_lt h c (mem_del hc))

/-- An update changes the datum at a key that the table lists, and no other. -/
@[simp] theorem look_upd_same (m : Map α) (k : Nat) (f : α → α) : look (upd m k f) k = (look m k).map f := by
  unfold upd
  split <;> simp [*]

theorem look_upd_other (m : Map α) {k n : Nat} (f : α → α) (h : n ≠ k) : look (upd m k f) n = look m n := by
  unfold upd
  split
  · exact look_put_other m _ h
  · rfl

/-! ## Memory -/

theorem wf_rising {m : Memory} (h : Memory.wf m = true) : rising m = true := by
  simp only [Memory.wf, Bool.and_eq_true] at h; exact h.1

theorem wf_listed {m : Memory} (h : Memory.wf m = true) : ∀ c ∈ m, c.2 ≠ unlistedByte := by
  simp only [Memory.wf, Bool.and_eq_true, List.all_eq_true, decide_eq_true_eq] at h; exact h.2

theorem wf_of {m : Memory} (h : rising m = true) (h' : ∀ c ∈ m, c.2 ≠ unlistedByte) : Memory.wf m = true := by
  simp only [Memory.wf, Bool.and_eq_true, List.all_eq_true, decide_eq_true_eq]; exact ⟨h, h'⟩

/-- A byte read after it is written. -/
theorem getByte_setByte_same {m : Memory} (h : Memory.wf m = true) (a : Nat) (b : Byte) :
    getByte (setByte m a b) a = b := by
  unfold getByte setByte putD lookD
  split
  · next hb => rw [look_del_same (wf_rising h), hb]; rfl
  · rw [look_put_same]; rfl

/-- A byte written leaves every other byte alone. -/
theorem getByte_setByte_other (m : Memory) {a n : Nat} (b : Byte) (h : n ≠ a) :
    getByte (setByte m a b) n = getByte m n := by
  unfold getByte setByte putD lookD
  split
  · rw [look_del_other m h]
  · rw [look_put_other m b h]

/-- A byte written keeps the canonical form. -/
theorem wf_setByte {m : Memory} (h : Memory.wf m = true) (a : Nat) (b : Byte) : Memory.wf (setByte m a b) = true := by
  unfold setByte putD
  split
  · exact wf_of (rising_del (wf_rising h) a) (fun c hc => wf_listed h c (mem_del hc))
  · next hb =>
    refine wf_of (rising_put (wf_rising h) a b) (fun c hc => ?_)
    rcases mem_put hc with rfl | hc
    · exact hb
    · exact wf_listed h c hc

theorem mem_cellsFrom {a : Nat} {bs : List Byte} {c : Nat × Byte} (h : c ∈ cellsFrom a bs) :
    a ≤ c.1 ∧ c.1 < a + bs.length ∧ c.2 ≠ unlistedByte := by
  induction bs generalizing a with
  | nil => simp [cellsFrom] at h
  | cons b bs ih =>
    have later : c ∈ cellsFrom (a + 1) bs → a ≤ c.1 ∧ c.1 < a + (bs.length + 1) ∧ c.2 ≠ unlistedByte := fun inside =>
      have found := ih inside
      ⟨by omega, by omega, found.2.2⟩
    rw [List.length_cons]
    by_cases hb : b = unlistedByte
    · rw [cellsFrom, if_pos hb] at h; exact later h
    · rw [cellsFrom, if_neg hb] at h
      exact (List.mem_cons.mp h).elim (fun first => first ▸ ⟨Nat.le_refl a, Nat.lt_add_of_pos_right (Nat.succ_pos _), hb⟩) later

theorem rising_cellsFrom (a : Nat) (bs : List Byte) : rising (cellsFrom a bs) = true := by
  induction bs generalizing a with
  | nil => rfl
  | cons b bs ih =>
    simp only [cellsFrom]
    split
    · exact ih _
    · exact rising_cons (ih _) (fun c hc => by have := (mem_cellsFrom hc).1; omega)

theorem rising_filter {m : Map α} (h : rising m = true) (p : Nat × α → Bool) : rising (m.filter p) = true := by
  induction m with
  | nil => rfl
  | cons d m ih =>
    obtain ⟨j, y⟩ := d
    simp only [List.filter_cons]
    split
    · exact rising_cons (ih (rising_tail h)) (fun c hc => rising_lt h c (List.mem_filter.mp hc).1)
    · exact ih (rising_tail h)

theorem rising_append {m n : Map α} (hm : rising m = true) (hn : rising n = true)
    (h : ∀ c ∈ m, ∀ d ∈ n, c.1 < d.1) : rising (m ++ n) = true := by
  induction m with
  | nil => exact hn
  | cons c m ih =>
    obtain ⟨j, y⟩ := c
    refine rising_cons (ih (rising_tail hm) (fun c hc d hd => h c (List.mem_cons_of_mem _ hc) d hd)) (fun c hc => ?_)
    rcases List.mem_append.mp hc with hc | hc
    · exact rising_lt hm c hc
    · exact h (j, y) (by simp) c hc

/-- Bytes written keep the canonical form. -/
theorem wf_setBytes {m : Memory} (h : Memory.wf m = true) (a : Nat) (bs : List Byte) :
    Memory.wf (setBytes m a bs) = true := by
  have low : ∀ c ∈ m.filter (fun c => decide (c.1 < a)), c.1 < a := fun c hc => by
    simpa using (List.mem_filter.mp hc).2
  have high : ∀ c ∈ m.filter (fun c => decide (a + bs.length ≤ c.1)), a + bs.length ≤ c.1 := fun c hc => by
    simpa using (List.mem_filter.mp hc).2
  refine wf_of ?_ (fun c hc => ?_)
  · refine rising_append (rising_filter (wf_rising h) _) (rising_append (rising_cellsFrom a bs)
      (rising_filter (wf_rising h) _) (fun c hc d hd => ?_)) (fun c hc d hd => ?_)
    · exact Nat.lt_of_lt_of_le (mem_cellsFrom hc).2.1 (high d hd)
    · have := low c hc
      rcases List.mem_append.mp hd with hd | hd
      · have := (mem_cellsFrom hd).1; omega
      · have := high d hd; omega
  · rcases List.mem_append.mp hc with hc | hc
    · exact wf_listed h c (List.mem_filter.mp hc).1
    · rcases List.mem_append.mp hc with hc | hc
      · exact (mem_cellsFrom hc).2.2
      · exact wf_listed h c (List.mem_filter.mp hc).1

/-- A number written keeps the canonical form. -/
theorem wf_setNat {m : Memory} (h : Memory.wf m = true) (a n x : Nat) : Memory.wf (setNat m a n x) = true :=
  wf_setBytes h a _

theorem look_append {m n : Map α} (k : Nat) : look (m ++ n) k = (look m k).or (look n k) := by
  induction m with
  | nil => rfl
  | cons c m ih =>
    obtain ⟨j, y⟩ := c
    by_cases h : j = k
    · simp [look, h]
    · simp [look, h, ih]

theorem look_filter {m : Map α} (p : Nat → Bool) (k : Nat) :
    look (m.filter (fun c => p c.1)) k = if p k then look m k else none := by
  induction m with
  | nil => simp [look]
  | cons c m ih =>
    obtain ⟨j, y⟩ := c
    by_cases h : p j = true
    · simp only [List.filter_cons, h, if_true, look, ih]
      by_cases hj : j = k
      · subst hj; simp [h]
      · simp [hj]
    · simp only [List.filter_cons, h, look, Bool.false_eq_true, if_false, ih]
      by_cases hj : j = k
      · subst hj; simp [h]
      · simp [hj]

theorem look_cellsFrom (a : Nat) (bs : List Byte) (k : Nat) (hk : k < bs.length) :
    (look (cellsFrom a bs) (a + k)).getD unlistedByte = bs[k] := by
  induction bs generalizing a k with
  | nil => simp at hk
  | cons b bs ih =>
    cases k with
    | zero =>
      have none' : look (cellsFrom (a + 1) bs) a = none :=
        look_eq_none (fun c hc => by have := (mem_cellsFrom hc).1; omega)
      simp only [cellsFrom, Nat.add_zero, List.getElem_cons_zero]
      split
      · next hb => rw [none', hb]; rfl
      · simp [look]
    | succ k =>
      have hk' : k < bs.length := by simpa using hk
      have ih := ih (a + 1) k hk'
      have e : a + (k + 1) = a + 1 + k := by omega
      simp only [cellsFrom, List.getElem_cons_succ, e]
      split
      · exact ih
      · rw [look, if_neg (by omega : ¬ a = a + 1 + k)]; exact ih

/-- A byte read after some bytes are written, within them and outside them. -/
theorem getByte_setBytes (m : Memory) (a : Nat) (bs : List Byte) (n : Nat) :
    getByte (setBytes m a bs) n = if h : a ≤ n ∧ n < a + bs.length then bs[n - a] else getByte m n := by
  unfold getByte lookD setBytes
  rw [look_append, look_append, look_filter (fun k => decide (k < a)), look_filter (fun k => decide (a + bs.length ≤ k))]
  by_cases h : a ≤ n ∧ n < a + bs.length
  · have at1 := look_cellsFrom a bs (n - a) (by omega)
    rw [show a + (n - a) = n from by omega] at at1
    have h1 : ¬ n < a := by omega
    have h2 : ¬ a + bs.length ≤ n := by omega
    simp only [dif_pos h, decide_eq_true_eq, h1, if_false, h2, Option.none_or, Option.or_none]
    exact at1
  · have none' : look (cellsFrom a bs) n = none :=
      look_eq_none (fun c hc => by have := mem_cellsFrom hc; omega)
    simp only [dif_neg h, none', decide_eq_true_eq, Option.none_or]
    by_cases h1 : n < a
    · have h2 : ¬ a + bs.length ≤ n := by omega
      simp only [h1, if_true, h2, if_false, Option.or_none]
    · have h2 : a + bs.length ≤ n := by omega
      simp only [h1, if_false, h2, if_true, Option.none_or]

/-- Memory after reset has its canonical form's shape: it lists nothing. -/
theorem wf_nil : Memory.wf [] = true := rfl

end Sys2Proof.Laws
end

