-- ==== Sys2Proof/Laws/State.lean ====
section
/-! SUPPORT. One lemma per field for each update of the package, of a hart and of a core: no later proof unfolds a record
update. -/

namespace Sys2Proof.Laws

open Sys2Proof Sys2Proof.Machine

/-! ## State.setCore -/

@[simp] theorem setCore_plan (s : State) (c : Nat) (x : Core) : (s.setCore c x).plan = s.plan := rfl
@[simp] theorem setCore_tick (s : State) (c : Nat) (x : Core) : (s.setCore c x).tick = s.tick := rfl
@[simp] theorem setCore_draws (s : State) (c : Nat) (x : Core) : (s.setCore c x).draws = s.draws := rfl
@[simp] theorem setCore_focus (s : State) (c : Nat) (x : Core) : (s.setCore c x).focus = s.focus := rfl
@[simp] theorem setCore_defer (s : State) (c : Nat) (x : Core) : (s.setCore c x).defer = s.defer := rfl
@[simp] theorem setCore_now (s : State) (c : Nat) (x : Core) : (s.setCore c x).now = s.now := rfl
@[simp] theorem setCore_harts (s : State) (c : Nat) (x : Core) : (s.setCore c x).harts = s.harts := rfl
@[simp] theorem setCore_cores (s : State) (c : Nat) (x : Core) : (s.setCore c x).cores = put s.cores c x := rfl
@[simp] theorem setCore_pairs (s : State) (c : Nat) (x : Core) : (s.setCore c x).pairs = s.pairs := rfl
@[simp] theorem setCore_ctxs (s : State) (c : Nat) (x : Core) : (s.setCore c x).ctxs = s.ctxs := rfl
@[simp] theorem setCore_lastCtx (s : State) (c : Nat) (x : Core) : (s.setCore c x).lastCtx = s.lastCtx := rfl
@[simp] theorem setCore_groups (s : State) (c : Nat) (x : Core) : (s.setCore c x).groups = s.groups := rfl
@[simp] theorem setCore_nextGroup (s : State) (c : Nat) (x : Core) : (s.setCore c x).nextGroup = s.nextGroup := rfl
@[simp] theorem setCore_launches (s : State) (c : Nat) (x : Core) : (s.setCore c x).launches = s.launches := rfl
@[simp] theorem setCore_requests (s : State) (c : Nat) (x : Core) : (s.setCore c x).requests = s.requests := rfl
@[simp] theorem setCore_nextLaunch (s : State) (c : Nat) (x : Core) : (s.setCore c x).nextLaunch = s.nextLaunch := rfl
@[simp] theorem setCore_regs (s : State) (c : Nat) (x : Core) : (s.setCore c x).regs = s.regs := rfl
@[simp] theorem setCore_wqueues (s : State) (c : Nat) (x : Core) : (s.setCore c x).wqueues = s.wqueues := rfl
@[simp] theorem setCore_lastQueue (s : State) (c : Nat) (x : Core) : (s.setCore c x).lastQueue = s.lastQueue := rfl
@[simp] theorem setCore_msis (s : State) (c : Nat) (x : Core) : (s.setCore c x).msis = s.msis := rfl
@[simp] theorem setCore_jobs (s : State) (c : Nat) (x : Core) : (s.setCore c x).jobs = s.jobs := rfl
@[simp] theorem setCore_nextJob (s : State) (c : Nat) (x : Core) : (s.setCore c x).nextJob = s.nextJob := rfl
@[simp] theorem setCore_keeps (s : State) (c : Nat) (x : Core) : (s.setCore c x).keeps = s.keeps := rfl
@[simp] theorem setCore_waiters (s : State) (c : Nat) (x : Core) : (s.setCore c x).waiters = s.waiters := rfl
@[simp] theorem setCore_barrierTurn (s : State) (c : Nat) (x : Core) : (s.setCore c x).barrierTurn = s.barrierTurn := rfl
@[simp] theorem setCore_colls (s : State) (c : Nat) (x : Core) : (s.setCore c x).colls = s.colls := rfl
@[simp] theorem setCore_pit (s : State) (c : Nat) (x : Core) : (s.setCore c x).pit = s.pit := rfl
@[simp] theorem setCore_passQ (s : State) (c : Nat) (x : Core) : (s.setCore c x).passQ = s.passQ := rfl
@[simp] theorem setCore_passCur (s : State) (c : Nat) (x : Core) : (s.setCore c x).passCur = s.passCur := rfl
@[simp] theorem setCore_psWait (s : State) (c : Nat) (x : Core) : (s.setCore c x).psWait = s.psWait := rfl
@[simp] theorem setCore_psSeq (s : State) (c : Nat) (x : Core) : (s.setCore c x).psSeq = s.psSeq := rfl
@[simp] theorem setCore_seals (s : State) (c : Nat) (x : Core) : (s.setCore c x).seals = s.seals := rfl
@[simp] theorem setCore_mem (s : State) (c : Nat) (x : Core) : (s.setCore c x).mem = s.mem := rfl
@[simp] theorem setCore_sides (s : State) (c : Nat) (x : Core) : (s.setCore c x).sides = s.sides := rfl
@[simp] theorem setCore_errors (s : State) (c : Nat) (x : Core) : (s.setCore c x).errors = s.errors := rfl
@[simp] theorem setCore_l2 (s : State) (c : Nat) (x : Core) : (s.setCore c x).l2 = s.l2 := rfl
@[simp] theorem setCore_llc (s : State) (c : Nat) (x : Core) : (s.setCore c x).llc = s.llc := rfl
@[simp] theorem setCore_dirty (s : State) (c : Nat) (x : Core) : (s.setCore c x).dirty = s.dirty := rfl
@[simp] theorem setCore_ahosts (s : State) (c : Nat) (x : Core) : (s.setCore c x).ahosts = s.ahosts := rfl
@[simp] theorem setCore_asids (s : State) (c : Nat) (x : Core) : (s.setCore c x).asids = s.asids := rfl
@[simp] theorem setCore_hostRes (s : State) (c : Nat) (x : Core) : (s.setCore c x).hostRes = s.hostRes := rfl
@[simp] theorem setCore_iommu (s : State) (c : Nat) (x : Core) : (s.setCore c x).iommu = s.iommu := rfl
@[simp] theorem setCore_hbm (s : State) (c : Nat) (x : Core) : (s.setCore c x).hbm = s.hbm := rfl
@[simp] theorem setCore_links (s : State) (c : Nat) (x : Core) : (s.setCore c x).links = s.links := rfl
@[simp] theorem setCore_windows (s : State) (c : Nat) (x : Core) : (s.setCore c x).windows = s.windows := rfl
@[simp] theorem setCore_watches (s : State) (c : Nat) (x : Core) : (s.setCore c x).watches = s.watches := rfl
@[simp] theorem setCore_gates (s : State) (c : Nat) (x : Core) : (s.setCore c x).gates = s.gates := rfl
@[simp] theorem setCore_trust (s : State) (c : Nat) (x : Core) : (s.setCore c x).trust = s.trust := rfl
@[simp] theorem setCore_dieMap (s : State) (c : Nat) (x : Core) : (s.setCore c x).dieMap = s.dieMap := rfl
@[simp] theorem setCore_pkg (s : State) (c : Nat) (x : Core) : (s.setCore c x).pkg = s.pkg := rfl
@[simp] theorem setCore_powerLimit (s : State) (c : Nat) (x : Core) : (s.setCore c x).powerLimit = s.powerLimit := rfl
@[simp] theorem setCore_permit (s : State) (c : Nat) (x : Core) : (s.setCore c x).permit = s.permit := rfl
@[simp] theorem setCore_permitLanes (s : State) (c : Nat) (x : Core) : (s.setCore c x).permitLanes = s.permitLanes := rfl
@[simp] theorem setCore_permitAt (s : State) (c : Nat) (x : Core) : (s.setCore c x).permitAt = s.permitAt := rfl
@[simp] theorem setCore_replies (s : State) (c : Nat) (x : Core) : (s.setCore c x).replies = s.replies := rfl
@[simp] theorem setCore_iommuFaults (s : State) (c : Nat) (x : Core) : (s.setCore c x).iommuFaults = s.iommuFaults := rfl

/-! ## State.modCore -/

@[simp] theorem modCore_plan (s : State) (c : Nat) (f : Core → Core) : (s.modCore c f).plan = s.plan := rfl
@[simp] theorem modCore_tick (s : State) (c : Nat) (f : Core → Core) : (s.modCore c f).tick = s.tick := rfl
@[simp] theorem modCore_draws (s : State) (c : Nat) (f : Core → Core) : (s.modCore c f).draws = s.draws := rfl
@[simp] theorem modCore_focus (s : State) (c : Nat) (f : Core → Core) : (s.modCore c f).focus = s.focus := rfl
@[simp] theorem modCore_defer (s : State) (c : Nat) (f : Core → Core) : (s.modCore c f).defer = s.defer := rfl
@[simp] theorem modCore_now (s : State) (c : Nat) (f : Core → Core) : (s.modCore c f).now = s.now := rfl
@[simp] theorem modCore_harts (s : State) (c : Nat) (f : Core → Core) : (s.modCore c f).harts = s.harts := rfl
@[simp] theorem modCore_cores (s : State) (c : Nat) (f : Core → Core) : (s.modCore c f).cores = put s.cores c (f (s.core c)) := rfl
@[simp] theorem modCore_pairs (s : State) (c : Nat) (f : Core → Core) : (s.modCore c f).pairs = s.pairs := rfl
@[simp] theorem modCore_ctxs (s : State) (c : Nat) (f : Core → Core) : (s.modCore c f).ctxs = s.ctxs := rfl
@[simp] theorem modCore_lastCtx (s : State) (c : Nat) (f : Core → Core) : (s.modCore c f).lastCtx = s.lastCtx := rfl
@[simp] theorem modCore_groups (s : State) (c : Nat) (f : Core → Core) : (s.modCore c f).groups = s.groups := rfl
@[simp] theorem modCore_nextGroup (s : State) (c : Nat) (f : Core → Core) : (s.modCore c f).nextGroup = s.nextGroup := rfl
@[simp] theorem modCore_launches (s : State) (c : Nat) (f : Core → Core) : (s.modCore c f).launches = s.launches := rfl
@[simp] theorem modCore_requests (s : State) (c : Nat) (f : Core → Core) : (s.modCore c f).requests = s.requests := rfl
@[simp] theorem modCore_nextLaunch (s : State) (c : Nat) (f : Core → Core) : (s.modCore c f).nextLaunch = s.nextLaunch := rfl
@[simp] theorem modCore_regs (s : State) (c : Nat) (f : Core → Core) : (s.modCore c f).regs = s.regs := rfl
@[simp] theorem modCore_wqueues (s : State) (c : Nat) (f : Core → Core) : (s.modCore c f).wqueues = s.wqueues := rfl
@[simp] theorem modCore_lastQueue (s : State) (c : Nat) (f : Core → Core) : (s.modCore c f).lastQueue = s.lastQueue := rfl
@[simp] theorem modCore_msis (s : State) (c : Nat) (f : Core → Core) : (s.modCore c f).msis = s.msis := rfl
@[simp] theorem modCore_jobs (s : State) (c : Nat) (f : Core → Core) : (s.modCore c f).jobs = s.jobs := rfl
@[simp] theorem modCore_nextJob (s : State) (c : Nat) (f : Core → Core) : (s.modCore c f).nextJob = s.nextJob := rfl
@[simp] theorem modCore_keeps (s : State) (c : Nat) (f : Core → Core) : (s.modCore c f).keeps = s.keeps := rfl
@[simp] theorem modCore_waiters (s : State) (c : Nat) (f : Core → Core) : (s.modCore c f).waiters = s.waiters := rfl
@[simp] theorem modCore_barrierTurn (s : State) (c : Nat) (f : Core → Core) : (s.modCore c f).barrierTurn = s.barrierTurn := rfl
@[simp] theorem modCore_colls (s : State) (c : Nat) (f : Core → Core) : (s.modCore c f).colls = s.colls := rfl
@[simp] theorem modCore_pit (s : State) (c : Nat) (f : Core → Core) : (s.modCore c f).pit = s.pit := rfl
@[simp] theorem modCore_passQ (s : State) (c : Nat) (f : Core → Core) : (s.modCore c f).passQ = s.passQ := rfl
@[simp] theorem modCore_passCur (s : State) (c : Nat) (f : Core → Core) : (s.modCore c f).passCur = s.passCur := rfl
@[simp] theorem modCore_psWait (s : State) (c : Nat) (f : Core → Core) : (s.modCore c f).psWait = s.psWait := rfl
@[simp] theorem modCore_psSeq (s : State) (c : Nat) (f : Core → Core) : (s.modCore c f).psSeq = s.psSeq := rfl
@[simp] theorem modCore_seals (s : State) (c : Nat) (f : Core → Core) : (s.modCore c f).seals = s.seals := rfl
@[simp] theorem modCore_mem (s : State) (c : Nat) (f : Core → Core) : (s.modCore c f).mem = s.mem := rfl
@[simp] theorem modCore_sides (s : State) (c : Nat) (f : Core → Core) : (s.modCore c f).sides = s.sides := rfl
@[simp] theorem modCore_errors (s : State) (c : Nat) (f : Core → Core) : (s.modCore c f).errors = s.errors := rfl
@[simp] theorem modCore_l2 (s : State) (c : Nat) (f : Core → Core) : (s.modCore c f).l2 = s.l2 := rfl
@[simp] theorem modCore_llc (s : State) (c : Nat) (f : Core → Core) : (s.modCore c f).llc = s.llc := rfl
@[simp] theorem modCore_dirty (s : State) (c : Nat) (f : Core → Core) : (s.modCore c f).dirty = s.dirty := rfl
@[simp] theorem modCore_ahosts (s : State) (c : Nat) (f : Core → Core) : (s.modCore c f).ahosts = s.ahosts := rfl
@[simp] theorem modCore_asids (s : State) (c : Nat) (f : Core → Core) : (s.modCore c f).asids = s.asids := rfl
@[simp] theorem modCore_hostRes (s : State) (c : Nat) (f : Core → Core) : (s.modCore c f).hostRes = s.hostRes := rfl
@[simp] theorem modCore_iommu (s : State) (c : Nat) (f : Core → Core) : (s.modCore c f).iommu = s.iommu := rfl
@[simp] theorem modCore_hbm (s : State) (c : Nat) (f : Core → Core) : (s.modCore c f).hbm = s.hbm := rfl
@[simp] theorem modCore_links (s : State) (c : Nat) (f : Core → Core) : (s.modCore c f).links = s.links := rfl
@[simp] theorem modCore_windows (s : State) (c : Nat) (f : Core → Core) : (s.modCore c f).windows = s.windows := rfl
@[simp] theorem modCore_watches (s : State) (c : Nat) (f : Core → Core) : (s.modCore c f).watches = s.watches := rfl
@[simp] theorem modCore_gates (s : State) (c : Nat) (f : Core → Core) : (s.modCore c f).gates = s.gates := rfl
@[simp] theorem modCore_trust (s : State) (c : Nat) (f : Core → Core) : (s.modCore c f).trust = s.trust := rfl
@[simp] theorem modCore_dieMap (s : State) (c : Nat) (f : Core → Core) : (s.modCore c f).dieMap = s.dieMap := rfl
@[simp] theorem modCore_pkg (s : State) (c : Nat) (f : Core → Core) : (s.modCore c f).pkg = s.pkg := rfl
@[simp] theorem modCore_powerLimit (s : State) (c : Nat) (f : Core → Core) : (s.modCore c f).powerLimit = s.powerLimit := rfl
@[simp] theorem modCore_permit (s : State) (c : Nat) (f : Core → Core) : (s.modCore c f).permit = s.permit := rfl
@[simp] theorem modCore_permitLanes (s : State) (c : Nat) (f : Core → Core) : (s.modCore c f).permitLanes = s.permitLanes := rfl
@[simp] theorem modCore_permitAt (s : State) (c : Nat) (f : Core → Core) : (s.modCore c f).permitAt = s.permitAt := rfl
@[simp] theorem modCore_replies (s : State) (c : Nat) (f : Core → Core) : (s.modCore c f).replies = s.replies := rfl
@[simp] theorem modCore_iommuFaults (s : State) (c : Nat) (f : Core → Core) : (s.modCore c f).iommuFaults = s.iommuFaults := rfl

/-! ## State.setHart -/

@[simp] theorem setHart_plan (s : State) (n : Nat) (x : Hart) : (s.setHart n x).plan = s.plan := rfl
@[simp] theorem setHart_tick (s : State) (n : Nat) (x : Hart) : (s.setHart n x).tick = s.tick := rfl
@[simp] theorem setHart_draws (s : State) (n : Nat) (x : Hart) : (s.setHart n x).draws = s.draws := rfl
@[simp] theorem setHart_focus (s : State) (n : Nat) (x : Hart) : (s.setHart n x).focus = s.focus := rfl
@[simp] theorem setHart_defer (s : State) (n : Nat) (x : Hart) : (s.setHart n x).defer = s.defer := rfl
@[simp] theorem setHart_now (s : State) (n : Nat) (x : Hart) : (s.setHart n x).now = s.now := rfl
@[simp] theorem setHart_harts (s : State) (n : Nat) (x : Hart) : (s.setHart n x).harts = put s.harts n x := rfl
@[simp] theorem setHart_cores (s : State) (n : Nat) (x : Hart) : (s.setHart n x).cores = s.cores := rfl
@[simp] theorem setHart_pairs (s : State) (n : Nat) (x : Hart) : (s.setHart n x).pairs = s.pairs := rfl
@[simp] theorem setHart_ctxs (s : State) (n : Nat) (x : Hart) : (s.setHart n x).ctxs = s.ctxs := rfl
@[simp] theorem setHart_lastCtx (s : State) (n : Nat) (x : Hart) : (s.setHart n x).lastCtx = s.lastCtx := rfl
@[simp] theorem setHart_groups (s : State) (n : Nat) (x : Hart) : (s.setHart n x).groups = s.groups := rfl
@[simp] theorem setHart_nextGroup (s : State) (n : Nat) (x : Hart) : (s.setHart n x).nextGroup = s.nextGroup := rfl
@[simp] theorem setHart_launches (s : State) (n : Nat) (x : Hart) : (s.setHart n x).launches = s.launches := rfl
@[simp] theorem setHart_requests (s : State) (n : Nat) (x : Hart) : (s.setHart n x).requests = s.requests := rfl
@[simp] theorem setHart_nextLaunch (s : State) (n : Nat) (x : Hart) : (s.setHart n x).nextLaunch = s.nextLaunch := rfl
@[simp] theorem setHart_regs (s : State) (n : Nat) (x : Hart) : (s.setHart n x).regs = s.regs := rfl
@[simp] theorem setHart_wqueues (s : State) (n : Nat) (x : Hart) : (s.setHart n x).wqueues = s.wqueues := rfl
@[simp] theorem setHart_lastQueue (s : State) (n : Nat) (x : Hart) : (s.setHart n x).lastQueue = s.lastQueue := rfl
@[simp] theorem setHart_msis (s : State) (n : Nat) (x : Hart) : (s.setHart n x).msis = s.msis := rfl
@[simp] theorem setHart_jobs (s : State) (n : Nat) (x : Hart) : (s.setHart n x).jobs = s.jobs := rfl
@[simp] theorem setHart_nextJob (s : State) (n : Nat) (x : Hart) : (s.setHart n x).nextJob = s.nextJob := rfl
@[simp] theorem setHart_keeps (s : State) (n : Nat) (x : Hart) : (s.setHart n x).keeps = s.keeps := rfl
@[simp] theorem setHart_waiters (s : State) (n : Nat) (x : Hart) : (s.setHart n x).waiters = s.waiters := rfl
@[simp] theorem setHart_barrierTurn (s : State) (n : Nat) (x : Hart) : (s.setHart n x).barrierTurn = s.barrierTurn := rfl
@[simp] theorem setHart_colls (s : State) (n : Nat) (x : Hart) : (s.setHart n x).colls = s.colls := rfl
@[simp] theorem setHart_pit (s : State) (n : Nat) (x : Hart) : (s.setHart n x).pit = s.pit := rfl
@[simp] theorem setHart_passQ (s : State) (n : Nat) (x : Hart) : (s.setHart n x).passQ = s.passQ := rfl
@[simp] theorem setHart_passCur (s : State) (n : Nat) (x : Hart) : (s.setHart n x).passCur = s.passCur := rfl
@[simp] theorem setHart_psWait (s : State) (n : Nat) (x : Hart) : (s.setHart n x).psWait = s.psWait := rfl
@[simp] theorem setHart_psSeq (s : State) (n : Nat) (x : Hart) : (s.setHart n x).psSeq = s.psSeq := rfl
@[simp] theorem setHart_seals (s : State) (n : Nat) (x : Hart) : (s.setHart n x).seals = s.seals := rfl
@[simp] theorem setHart_mem (s : State) (n : Nat) (x : Hart) : (s.setHart n x).mem = s.mem := rfl
@[simp] theorem setHart_sides (s : State) (n : Nat) (x : Hart) : (s.setHart n x).sides = s.sides := rfl
@[simp] theorem setHart_errors (s : State) (n : Nat) (x : Hart) : (s.setHart n x).errors = s.errors := rfl
@[simp] theorem setHart_l2 (s : State) (n : Nat) (x : Hart) : (s.setHart n x).l2 = s.l2 := rfl
@[simp] theorem setHart_llc (s : State) (n : Nat) (x : Hart) : (s.setHart n x).llc = s.llc := rfl
@[simp] theorem setHart_dirty (s : State) (n : Nat) (x : Hart) : (s.setHart n x).dirty = s.dirty := rfl
@[simp] theorem setHart_ahosts (s : State) (n : Nat) (x : Hart) : (s.setHart n x).ahosts = s.ahosts := rfl
@[simp] theorem setHart_asids (s : State) (n : Nat) (x : Hart) : (s.setHart n x).asids = s.asids := rfl
@[simp] theorem setHart_hostRes (s : State) (n : Nat) (x : Hart) : (s.setHart n x).hostRes = s.hostRes := rfl
@[simp] theorem setHart_iommu (s : State) (n : Nat) (x : Hart) : (s.setHart n x).iommu = s.iommu := rfl
@[simp] theorem setHart_hbm (s : State) (n : Nat) (x : Hart) : (s.setHart n x).hbm = s.hbm := rfl
@[simp] theorem setHart_links (s : State) (n : Nat) (x : Hart) : (s.setHart n x).links = s.links := rfl
@[simp] theorem setHart_windows (s : State) (n : Nat) (x : Hart) : (s.setHart n x).windows = s.windows := rfl
@[simp] theorem setHart_watches (s : State) (n : Nat) (x : Hart) : (s.setHart n x).watches = s.watches := rfl
@[simp] theorem setHart_gates (s : State) (n : Nat) (x : Hart) : (s.setHart n x).gates = s.gates := rfl
@[simp] theorem setHart_trust (s : State) (n : Nat) (x : Hart) : (s.setHart n x).trust = s.trust := rfl
@[simp] theorem setHart_dieMap (s : State) (n : Nat) (x : Hart) : (s.setHart n x).dieMap = s.dieMap := rfl
@[simp] theorem setHart_pkg (s : State) (n : Nat) (x : Hart) : (s.setHart n x).pkg = s.pkg := rfl
@[simp] theorem setHart_powerLimit (s : State) (n : Nat) (x : Hart) : (s.setHart n x).powerLimit = s.powerLimit := rfl
@[simp] theorem setHart_permit (s : State) (n : Nat) (x : Hart) : (s.setHart n x).permit = s.permit := rfl
@[simp] theorem setHart_permitLanes (s : State) (n : Nat) (x : Hart) : (s.setHart n x).permitLanes = s.permitLanes := rfl
@[simp] theorem setHart_permitAt (s : State) (n : Nat) (x : Hart) : (s.setHart n x).permitAt = s.permitAt := rfl
@[simp] theorem setHart_replies (s : State) (n : Nat) (x : Hart) : (s.setHart n x).replies = s.replies := rfl
@[simp] theorem setHart_iommuFaults (s : State) (n : Nat) (x : Hart) : (s.setHart n x).iommuFaults = s.iommuFaults := rfl

/-! ## State.modHart -/

@[simp] theorem modHart_plan (s : State) (n : Nat) (f : Hart → Hart) : (s.modHart n f).plan = s.plan := rfl
@[simp] theorem modHart_tick (s : State) (n : Nat) (f : Hart → Hart) : (s.modHart n f).tick = s.tick := rfl
@[simp] theorem modHart_draws (s : State) (n : Nat) (f : Hart → Hart) : (s.modHart n f).draws = s.draws := rfl
@[simp] theorem modHart_focus (s : State) (n : Nat) (f : Hart → Hart) : (s.modHart n f).focus = s.focus := rfl
@[simp] theorem modHart_defer (s : State) (n : Nat) (f : Hart → Hart) : (s.modHart n f).defer = s.defer := rfl
@[simp] theorem modHart_now (s : State) (n : Nat) (f : Hart → Hart) : (s.modHart n f).now = s.now := rfl
@[simp] theorem modHart_harts (s : State) (n : Nat) (f : Hart → Hart) : (s.modHart n f).harts = upd s.harts n f := rfl
@[simp] theorem modHart_cores (s : State) (n : Nat) (f : Hart → Hart) : (s.modHart n f).cores = s.cores := rfl
@[simp] theorem modHart_pairs (s : State) (n : Nat) (f : Hart → Hart) : (s.modHart n f).pairs = s.pairs := rfl
@[simp] theorem modHart_ctxs (s : State) (n : Nat) (f : Hart → Hart) : (s.modHart n f).ctxs = s.ctxs := rfl
@[simp] theorem modHart_lastCtx (s : State) (n : Nat) (f : Hart → Hart) : (s.modHart n f).lastCtx = s.lastCtx := rfl
@[simp] theorem modHart_groups (s : State) (n : Nat) (f : Hart → Hart) : (s.modHart n f).groups = s.groups := rfl
@[simp] theorem modHart_nextGroup (s : State) (n : Nat) (f : Hart → Hart) : (s.modHart n f).nextGroup = s.nextGroup := rfl
@[simp] theorem modHart_launches (s : State) (n : Nat) (f : Hart → Hart) : (s.modHart n f).launches = s.launches := rfl
@[simp] theorem modHart_requests (s : State) (n : Nat) (f : Hart → Hart) : (s.modHart n f).requests = s.requests := rfl
@[simp] theorem modHart_nextLaunch (s : State) (n : Nat) (f : Hart → Hart) : (s.modHart n f).nextLaunch = s.nextLaunch := rfl
@[simp] theorem modHart_regs (s : State) (n : Nat) (f : Hart → Hart) : (s.modHart n f).regs = s.regs := rfl
@[simp] theorem modHart_wqueues (s : State) (n : Nat) (f : Hart → Hart) : (s.modHart n f).wqueues = s.wqueues := rfl
@[simp] theorem modHart_lastQueue (s : State) (n : Nat) (f : Hart → Hart) : (s.modHart n f).lastQueue = s.lastQueue := rfl
@[simp] theorem modHart_msis (s : State) (n : Nat) (f : Hart → Hart) : (s.modHart n f).msis = s.msis := rfl
@[simp] theorem modHart_jobs (s : State) (n : Nat) (f : Hart → Hart) : (s.modHart n f).jobs = s.jobs := rfl
@[simp] theorem modHart_nextJob (s : State) (n : Nat) (f : Hart → Hart) : (s.modHart n f).nextJob = s.nextJob := rfl
@[simp] theorem modHart_keeps (s : State) (n : Nat) (f : Hart → Hart) : (s.modHart n f).keeps = s.keeps := rfl
@[simp] theorem modHart_waiters (s : State) (n : Nat) (f : Hart → Hart) : (s.modHart n f).waiters = s.waiters := rfl
@[simp] theorem modHart_barrierTurn (s : State) (n : Nat) (f : Hart → Hart) : (s.modHart n f).barrierTurn = s.barrierTurn := rfl
@[simp] theorem modHart_colls (s : State) (n : Nat) (f : Hart → Hart) : (s.modHart n f).colls = s.colls := rfl
@[simp] theorem modHart_pit (s : State) (n : Nat) (f : Hart → Hart) : (s.modHart n f).pit = s.pit := rfl
@[simp] theorem modHart_passQ (s : State) (n : Nat) (f : Hart → Hart) : (s.modHart n f).passQ = s.passQ := rfl
@[simp] theorem modHart_passCur (s : State) (n : Nat) (f : Hart → Hart) : (s.modHart n f).passCur = s.passCur := rfl
@[simp] theorem modHart_psWait (s : State) (n : Nat) (f : Hart → Hart) : (s.modHart n f).psWait = s.psWait := rfl
@[simp] theorem modHart_psSeq (s : State) (n : Nat) (f : Hart → Hart) : (s.modHart n f).psSeq = s.psSeq := rfl
@[simp] theorem modHart_seals (s : State) (n : Nat) (f : Hart → Hart) : (s.modHart n f).seals = s.seals := rfl
@[simp] theorem modHart_mem (s : State) (n : Nat) (f : Hart → Hart) : (s.modHart n f).mem = s.mem := rfl
@[simp] theorem modHart_sides (s : State) (n : Nat) (f : Hart → Hart) : (s.modHart n f).sides = s.sides := rfl
@[simp] theorem modHart_errors (s : State) (n : Nat) (f : Hart → Hart) : (s.modHart n f).errors = s.errors := rfl
@[simp] theorem modHart_l2 (s : State) (n : Nat) (f : Hart → Hart) : (s.modHart n f).l2 = s.l2 := rfl
@[simp] theorem modHart_llc (s : State) (n : Nat) (f : Hart → Hart) : (s.modHart n f).llc = s.llc := rfl
@[simp] theorem modHart_dirty (s : State) (n : Nat) (f : Hart → Hart) : (s.modHart n f).dirty = s.dirty := rfl
@[simp] theorem modHart_ahosts (s : State) (n : Nat) (f : Hart → Hart) : (s.modHart n f).ahosts = s.ahosts := rfl
@[simp] theorem modHart_asids (s : State) (n : Nat) (f : Hart → Hart) : (s.modHart n f).asids = s.asids := rfl
@[simp] theorem modHart_hostRes (s : State) (n : Nat) (f : Hart → Hart) : (s.modHart n f).hostRes = s.hostRes := rfl
@[simp] theorem modHart_iommu (s : State) (n : Nat) (f : Hart → Hart) : (s.modHart n f).iommu = s.iommu := rfl
@[simp] theorem modHart_hbm (s : State) (n : Nat) (f : Hart → Hart) : (s.modHart n f).hbm = s.hbm := rfl
@[simp] theorem modHart_links (s : State) (n : Nat) (f : Hart → Hart) : (s.modHart n f).links = s.links := rfl
@[simp] theorem modHart_windows (s : State) (n : Nat) (f : Hart → Hart) : (s.modHart n f).windows = s.windows := rfl
@[simp] theorem modHart_watches (s : State) (n : Nat) (f : Hart → Hart) : (s.modHart n f).watches = s.watches := rfl
@[simp] theorem modHart_gates (s : State) (n : Nat) (f : Hart → Hart) : (s.modHart n f).gates = s.gates := rfl
@[simp] theorem modHart_trust (s : State) (n : Nat) (f : Hart → Hart) : (s.modHart n f).trust = s.trust := rfl
@[simp] theorem modHart_dieMap (s : State) (n : Nat) (f : Hart → Hart) : (s.modHart n f).dieMap = s.dieMap := rfl
@[simp] theorem modHart_pkg (s : State) (n : Nat) (f : Hart → Hart) : (s.modHart n f).pkg = s.pkg := rfl
@[simp] theorem modHart_powerLimit (s : State) (n : Nat) (f : Hart → Hart) : (s.modHart n f).powerLimit = s.powerLimit := rfl
@[simp] theorem modHart_permit (s : State) (n : Nat) (f : Hart → Hart) : (s.modHart n f).permit = s.permit := rfl
@[simp] theorem modHart_permitLanes (s : State) (n : Nat) (f : Hart → Hart) : (s.modHart n f).permitLanes = s.permitLanes := rfl
@[simp] theorem modHart_permitAt (s : State) (n : Nat) (f : Hart → Hart) : (s.modHart n f).permitAt = s.permitAt := rfl
@[simp] theorem modHart_replies (s : State) (n : Nat) (f : Hart → Hart) : (s.modHart n f).replies = s.replies := rfl
@[simp] theorem modHart_iommuFaults (s : State) (n : Nat) (f : Hart → Hart) : (s.modHart n f).iommuFaults = s.iommuFaults := rfl

/-! ## State.modCtx -/

@[simp] theorem modCtx_plan (s : State) (c : Nat) (f : Ctx → Ctx) : (s.modCtx c f).plan = s.plan := rfl
@[simp] theorem modCtx_tick (s : State) (c : Nat) (f : Ctx → Ctx) : (s.modCtx c f).tick = s.tick := rfl
@[simp] theorem modCtx_draws (s : State) (c : Nat) (f : Ctx → Ctx) : (s.modCtx c f).draws = s.draws := rfl
@[simp] theorem modCtx_focus (s : State) (c : Nat) (f : Ctx → Ctx) : (s.modCtx c f).focus = s.focus := rfl
@[simp] theorem modCtx_defer (s : State) (c : Nat) (f : Ctx → Ctx) : (s.modCtx c f).defer = s.defer := rfl
@[simp] theorem modCtx_now (s : State) (c : Nat) (f : Ctx → Ctx) : (s.modCtx c f).now = s.now := rfl
@[simp] theorem modCtx_harts (s : State) (c : Nat) (f : Ctx → Ctx) : (s.modCtx c f).harts = s.harts := rfl
@[simp] theorem modCtx_cores (s : State) (c : Nat) (f : Ctx → Ctx) : (s.modCtx c f).cores = s.cores := rfl
@[simp] theorem modCtx_pairs (s : State) (c : Nat) (f : Ctx → Ctx) : (s.modCtx c f).pairs = s.pairs := rfl
@[simp] theorem modCtx_ctxs (s : State) (c : Nat) (f : Ctx → Ctx) : (s.modCtx c f).ctxs = upd s.ctxs c f := rfl
@[simp] theorem modCtx_lastCtx (s : State) (c : Nat) (f : Ctx → Ctx) : (s.modCtx c f).lastCtx = s.lastCtx := rfl
@[simp] theorem modCtx_groups (s : State) (c : Nat) (f : Ctx → Ctx) : (s.modCtx c f).groups = s.groups := rfl
@[simp] theorem modCtx_nextGroup (s : State) (c : Nat) (f : Ctx → Ctx) : (s.modCtx c f).nextGroup = s.nextGroup := rfl
@[simp] theorem modCtx_launches (s : State) (c : Nat) (f : Ctx → Ctx) : (s.modCtx c f).launches = s.launches := rfl
@[simp] theorem modCtx_requests (s : State) (c : Nat) (f : Ctx → Ctx) : (s.modCtx c f).requests = s.requests := rfl
@[simp] theorem modCtx_nextLaunch (s : State) (c : Nat) (f : Ctx → Ctx) : (s.modCtx c f).nextLaunch = s.nextLaunch := rfl
@[simp] theorem modCtx_regs (s : State) (c : Nat) (f : Ctx → Ctx) : (s.modCtx c f).regs = s.regs := rfl
@[simp] theorem modCtx_wqueues (s : State) (c : Nat) (f : Ctx → Ctx) : (s.modCtx c f).wqueues = s.wqueues := rfl
@[simp] theorem modCtx_lastQueue (s : State) (c : Nat) (f : Ctx → Ctx) : (s.modCtx c f).lastQueue = s.lastQueue := rfl
@[simp] theorem modCtx_msis (s : State) (c : Nat) (f : Ctx → Ctx) : (s.modCtx c f).msis = s.msis := rfl
@[simp] theorem modCtx_jobs (s : State) (c : Nat) (f : Ctx → Ctx) : (s.modCtx c f).jobs = s.jobs := rfl
@[simp] theorem modCtx_nextJob (s : State) (c : Nat) (f : Ctx → Ctx) : (s.modCtx c f).nextJob = s.nextJob := rfl
@[simp] theorem modCtx_keeps (s : State) (c : Nat) (f : Ctx → Ctx) : (s.modCtx c f).keeps = s.keeps := rfl
@[simp] theorem modCtx_waiters (s : State) (c : Nat) (f : Ctx → Ctx) : (s.modCtx c f).waiters = s.waiters := rfl
@[simp] theorem modCtx_barrierTurn (s : State) (c : Nat) (f : Ctx → Ctx) : (s.modCtx c f).barrierTurn = s.barrierTurn := rfl
@[simp] theorem modCtx_colls (s : State) (c : Nat) (f : Ctx → Ctx) : (s.modCtx c f).colls = s.colls := rfl
@[simp] theorem modCtx_pit (s : State) (c : Nat) (f : Ctx → Ctx) : (s.modCtx c f).pit = s.pit := rfl
@[simp] theorem modCtx_passQ (s : State) (c : Nat) (f : Ctx → Ctx) : (s.modCtx c f).passQ = s.passQ := rfl
@[simp] theorem modCtx_passCur (s : State) (c : Nat) (f : Ctx → Ctx) : (s.modCtx c f).passCur = s.passCur := rfl
@[simp] theorem modCtx_psWait (s : State) (c : Nat) (f : Ctx → Ctx) : (s.modCtx c f).psWait = s.psWait := rfl
@[simp] theorem modCtx_psSeq (s : State) (c : Nat) (f : Ctx → Ctx) : (s.modCtx c f).psSeq = s.psSeq := rfl
@[simp] theorem modCtx_seals (s : State) (c : Nat) (f : Ctx → Ctx) : (s.modCtx c f).seals = s.seals := rfl
@[simp] theorem modCtx_mem (s : State) (c : Nat) (f : Ctx → Ctx) : (s.modCtx c f).mem = s.mem := rfl
@[simp] theorem modCtx_sides (s : State) (c : Nat) (f : Ctx → Ctx) : (s.modCtx c f).sides = s.sides := rfl
@[simp] theorem modCtx_errors (s : State) (c : Nat) (f : Ctx → Ctx) : (s.modCtx c f).errors = s.errors := rfl
@[simp] theorem modCtx_l2 (s : State) (c : Nat) (f : Ctx → Ctx) : (s.modCtx c f).l2 = s.l2 := rfl
@[simp] theorem modCtx_llc (s : State) (c : Nat) (f : Ctx → Ctx) : (s.modCtx c f).llc = s.llc := rfl
@[simp] theorem modCtx_dirty (s : State) (c : Nat) (f : Ctx → Ctx) : (s.modCtx c f).dirty = s.dirty := rfl
@[simp] theorem modCtx_ahosts (s : State) (c : Nat) (f : Ctx → Ctx) : (s.modCtx c f).ahosts = s.ahosts := rfl
@[simp] theorem modCtx_asids (s : State) (c : Nat) (f : Ctx → Ctx) : (s.modCtx c f).asids = s.asids := rfl
@[simp] theorem modCtx_hostRes (s : State) (c : Nat) (f : Ctx → Ctx) : (s.modCtx c f).hostRes = s.hostRes := rfl
@[simp] theorem modCtx_iommu (s : State) (c : Nat) (f : Ctx → Ctx) : (s.modCtx c f).iommu = s.iommu := rfl
@[simp] theorem modCtx_hbm (s : State) (c : Nat) (f : Ctx → Ctx) : (s.modCtx c f).hbm = s.hbm := rfl
@[simp] theorem modCtx_links (s : State) (c : Nat) (f : Ctx → Ctx) : (s.modCtx c f).links = s.links := rfl
@[simp] theorem modCtx_windows (s : State) (c : Nat) (f : Ctx → Ctx) : (s.modCtx c f).windows = s.windows := rfl
@[simp] theorem modCtx_watches (s : State) (c : Nat) (f : Ctx → Ctx) : (s.modCtx c f).watches = s.watches := rfl
@[simp] theorem modCtx_gates (s : State) (c : Nat) (f : Ctx → Ctx) : (s.modCtx c f).gates = s.gates := rfl
@[simp] theorem modCtx_trust (s : State) (c : Nat) (f : Ctx → Ctx) : (s.modCtx c f).trust = s.trust := rfl
@[simp] theorem modCtx_dieMap (s : State) (c : Nat) (f : Ctx → Ctx) : (s.modCtx c f).dieMap = s.dieMap := rfl
@[simp] theorem modCtx_pkg (s : State) (c : Nat) (f : Ctx → Ctx) : (s.modCtx c f).pkg = s.pkg := rfl
@[simp] theorem modCtx_powerLimit (s : State) (c : Nat) (f : Ctx → Ctx) : (s.modCtx c f).powerLimit = s.powerLimit := rfl
@[simp] theorem modCtx_permit (s : State) (c : Nat) (f : Ctx → Ctx) : (s.modCtx c f).permit = s.permit := rfl
@[simp] theorem modCtx_permitLanes (s : State) (c : Nat) (f : Ctx → Ctx) : (s.modCtx c f).permitLanes = s.permitLanes := rfl
@[simp] theorem modCtx_permitAt (s : State) (c : Nat) (f : Ctx → Ctx) : (s.modCtx c f).permitAt = s.permitAt := rfl
@[simp] theorem modCtx_replies (s : State) (c : Nat) (f : Ctx → Ctx) : (s.modCtx c f).replies = s.replies := rfl
@[simp] theorem modCtx_iommuFaults (s : State) (c : Nat) (f : Ctx → Ctx) : (s.modCtx c f).iommuFaults = s.iommuFaults := rfl

/-! ## State.modGroup -/

@[simp] theorem modGroup_plan (s : State) (g : Nat) (f : Group → Group) : (s.modGroup g f).plan = s.plan := rfl
@[simp] theorem modGroup_tick (s : State) (g : Nat) (f : Group → Group) : (s.modGroup g f).tick = s.tick := rfl
@[simp] theorem modGroup_draws (s : State) (g : Nat) (f : Group → Group) : (s.modGroup g f).draws = s.draws := rfl
@[simp] theorem modGroup_focus (s : State) (g : Nat) (f : Group → Group) : (s.modGroup g f).focus = s.focus := rfl
@[simp] theorem modGroup_defer (s : State) (g : Nat) (f : Group → Group) : (s.modGroup g f).defer = s.defer := rfl
@[simp] theorem modGroup_now (s : State) (g : Nat) (f : Group → Group) : (s.modGroup g f).now = s.now := rfl
@[simp] theorem modGroup_harts (s : State) (g : Nat) (f : Group → Group) : (s.modGroup g f).harts = s.harts := rfl
@[simp] theorem modGroup_cores (s : State) (g : Nat) (f : Group → Group) : (s.modGroup g f).cores = s.cores := rfl
@[simp] theorem modGroup_pairs (s : State) (g : Nat) (f : Group → Group) : (s.modGroup g f).pairs = s.pairs := rfl
@[simp] theorem modGroup_ctxs (s : State) (g : Nat) (f : Group → Group) : (s.modGroup g f).ctxs = s.ctxs := rfl
@[simp] theorem modGroup_lastCtx (s : State) (g : Nat) (f : Group → Group) : (s.modGroup g f).lastCtx = s.lastCtx := rfl
@[simp] theorem modGroup_groups (s : State) (g : Nat) (f : Group → Group) : (s.modGroup g f).groups = upd s.groups g f := rfl
@[simp] theorem modGroup_nextGroup (s : State) (g : Nat) (f : Group → Group) : (s.modGroup g f).nextGroup = s.nextGroup := rfl
@[simp] theorem modGroup_launches (s : State) (g : Nat) (f : Group → Group) : (s.modGroup g f).launches = s.launches := rfl
@[simp] theorem modGroup_requests (s : State) (g : Nat) (f : Group → Group) : (s.modGroup g f).requests = s.requests := rfl
@[simp] theorem modGroup_nextLaunch (s : State) (g : Nat) (f : Group → Group) : (s.modGroup g f).nextLaunch = s.nextLaunch := rfl
@[simp] theorem modGroup_regs (s : State) (g : Nat) (f : Group → Group) : (s.modGroup g f).regs = s.regs := rfl
@[simp] theorem modGroup_wqueues (s : State) (g : Nat) (f : Group → Group) : (s.modGroup g f).wqueues = s.wqueues := rfl
@[simp] theorem modGroup_lastQueue (s : State) (g : Nat) (f : Group → Group) : (s.modGroup g f).lastQueue = s.lastQueue := rfl
@[simp] theorem modGroup_msis (s : State) (g : Nat) (f : Group → Group) : (s.modGroup g f).msis = s.msis := rfl
@[simp] theorem modGroup_jobs (s : State) (g : Nat) (f : Group → Group) : (s.modGroup g f).jobs = s.jobs := rfl
@[simp] theorem modGroup_nextJob (s : State) (g : Nat) (f : Group → Group) : (s.modGroup g f).nextJob = s.nextJob := rfl
@[simp] theorem modGroup_keeps (s : State) (g : Nat) (f : Group → Group) : (s.modGroup g f).keeps = s.keeps := rfl
@[simp] theorem modGroup_waiters (s : State) (g : Nat) (f : Group → Group) : (s.modGroup g f).waiters = s.waiters := rfl
@[simp] theorem modGroup_barrierTurn (s : State) (g : Nat) (f : Group → Group) : (s.modGroup g f).barrierTurn = s.barrierTurn := rfl
@[simp] theorem modGroup_colls (s : State) (g : Nat) (f : Group → Group) : (s.modGroup g f).colls = s.colls := rfl
@[simp] theorem modGroup_pit (s : State) (g : Nat) (f : Group → Group) : (s.modGroup g f).pit = s.pit := rfl
@[simp] theorem modGroup_passQ (s : State) (g : Nat) (f : Group → Group) : (s.modGroup g f).passQ = s.passQ := rfl
@[simp] theorem modGroup_passCur (s : State) (g : Nat) (f : Group → Group) : (s.modGroup g f).passCur = s.passCur := rfl
@[simp] theorem modGroup_psWait (s : State) (g : Nat) (f : Group → Group) : (s.modGroup g f).psWait = s.psWait := rfl
@[simp] theorem modGroup_psSeq (s : State) (g : Nat) (f : Group → Group) : (s.modGroup g f).psSeq = s.psSeq := rfl
@[simp] theorem modGroup_seals (s : State) (g : Nat) (f : Group → Group) : (s.modGroup g f).seals = s.seals := rfl
@[simp] theorem modGroup_mem (s : State) (g : Nat) (f : Group → Group) : (s.modGroup g f).mem = s.mem := rfl
@[simp] theorem modGroup_sides (s : State) (g : Nat) (f : Group → Group) : (s.modGroup g f).sides = s.sides := rfl
@[simp] theorem modGroup_errors (s : State) (g : Nat) (f : Group → Group) : (s.modGroup g f).errors = s.errors := rfl
@[simp] theorem modGroup_l2 (s : State) (g : Nat) (f : Group → Group) : (s.modGroup g f).l2 = s.l2 := rfl
@[simp] theorem modGroup_llc (s : State) (g : Nat) (f : Group → Group) : (s.modGroup g f).llc = s.llc := rfl
@[simp] theorem modGroup_dirty (s : State) (g : Nat) (f : Group → Group) : (s.modGroup g f).dirty = s.dirty := rfl
@[simp] theorem modGroup_ahosts (s : State) (g : Nat) (f : Group → Group) : (s.modGroup g f).ahosts = s.ahosts := rfl
@[simp] theorem modGroup_asids (s : State) (g : Nat) (f : Group → Group) : (s.modGroup g f).asids = s.asids := rfl
@[simp] theorem modGroup_hostRes (s : State) (g : Nat) (f : Group → Group) : (s.modGroup g f).hostRes = s.hostRes := rfl
@[simp] theorem modGroup_iommu (s : State) (g : Nat) (f : Group → Group) : (s.modGroup g f).iommu = s.iommu := rfl
@[simp] theorem modGroup_hbm (s : State) (g : Nat) (f : Group → Group) : (s.modGroup g f).hbm = s.hbm := rfl
@[simp] theorem modGroup_links (s : State) (g : Nat) (f : Group → Group) : (s.modGroup g f).links = s.links := rfl
@[simp] theorem modGroup_windows (s : State) (g : Nat) (f : Group → Group) : (s.modGroup g f).windows = s.windows := rfl
@[simp] theorem modGroup_watches (s : State) (g : Nat) (f : Group → Group) : (s.modGroup g f).watches = s.watches := rfl
@[simp] theorem modGroup_gates (s : State) (g : Nat) (f : Group → Group) : (s.modGroup g f).gates = s.gates := rfl
@[simp] theorem modGroup_trust (s : State) (g : Nat) (f : Group → Group) : (s.modGroup g f).trust = s.trust := rfl
@[simp] theorem modGroup_dieMap (s : State) (g : Nat) (f : Group → Group) : (s.modGroup g f).dieMap = s.dieMap := rfl
@[simp] theorem modGroup_pkg (s : State) (g : Nat) (f : Group → Group) : (s.modGroup g f).pkg = s.pkg := rfl
@[simp] theorem modGroup_powerLimit (s : State) (g : Nat) (f : Group → Group) : (s.modGroup g f).powerLimit = s.powerLimit := rfl
@[simp] theorem modGroup_permit (s : State) (g : Nat) (f : Group → Group) : (s.modGroup g f).permit = s.permit := rfl
@[simp] theorem modGroup_permitLanes (s : State) (g : Nat) (f : Group → Group) : (s.modGroup g f).permitLanes = s.permitLanes := rfl
@[simp] theorem modGroup_permitAt (s : State) (g : Nat) (f : Group → Group) : (s.modGroup g f).permitAt = s.permitAt := rfl
@[simp] theorem modGroup_replies (s : State) (g : Nat) (f : Group → Group) : (s.modGroup g f).replies = s.replies := rfl
@[simp] theorem modGroup_iommuFaults (s : State) (g : Nat) (f : Group → Group) : (s.modGroup g f).iommuFaults = s.iommuFaults := rfl

/-! ## State.setPit -/

@[simp] theorem setPit_plan (s : State) (p : Nat) (e : BitVec 128) : (s.setPit p e).plan = s.plan := rfl
@[simp] theorem setPit_tick (s : State) (p : Nat) (e : BitVec 128) : (s.setPit p e).tick = s.tick := rfl
@[simp] theorem setPit_draws (s : State) (p : Nat) (e : BitVec 128) : (s.setPit p e).draws = s.draws := rfl
@[simp] theorem setPit_focus (s : State) (p : Nat) (e : BitVec 128) : (s.setPit p e).focus = s.focus := rfl
@[simp] theorem setPit_defer (s : State) (p : Nat) (e : BitVec 128) : (s.setPit p e).defer = s.defer := rfl
@[simp] theorem setPit_now (s : State) (p : Nat) (e : BitVec 128) : (s.setPit p e).now = s.now := rfl
@[simp] theorem setPit_harts (s : State) (p : Nat) (e : BitVec 128) : (s.setPit p e).harts = s.harts := rfl
@[simp] theorem setPit_cores (s : State) (p : Nat) (e : BitVec 128) : (s.setPit p e).cores = s.cores := rfl
@[simp] theorem setPit_pairs (s : State) (p : Nat) (e : BitVec 128) : (s.setPit p e).pairs = s.pairs := rfl
@[simp] theorem setPit_ctxs (s : State) (p : Nat) (e : BitVec 128) : (s.setPit p e).ctxs = s.ctxs := rfl
@[simp] theorem setPit_lastCtx (s : State) (p : Nat) (e : BitVec 128) : (s.setPit p e).lastCtx = s.lastCtx := rfl
@[simp] theorem setPit_groups (s : State) (p : Nat) (e : BitVec 128) : (s.setPit p e).groups = s.groups := rfl
@[simp] theorem setPit_nextGroup (s : State) (p : Nat) (e : BitVec 128) : (s.setPit p e).nextGroup = s.nextGroup := rfl
@[simp] theorem setPit_launches (s : State) (p : Nat) (e : BitVec 128) : (s.setPit p e).launches = s.launches := rfl
@[simp] theorem setPit_requests (s : State) (p : Nat) (e : BitVec 128) : (s.setPit p e).requests = s.requests := rfl
@[simp] theorem setPit_nextLaunch (s : State) (p : Nat) (e : BitVec 128) : (s.setPit p e).nextLaunch = s.nextLaunch := rfl
@[simp] theorem setPit_regs (s : State) (p : Nat) (e : BitVec 128) : (s.setPit p e).regs = s.regs := rfl
@[simp] theorem setPit_wqueues (s : State) (p : Nat) (e : BitVec 128) : (s.setPit p e).wqueues = s.wqueues := rfl
@[simp] theorem setPit_lastQueue (s : State) (p : Nat) (e : BitVec 128) : (s.setPit p e).lastQueue = s.lastQueue := rfl
@[simp] theorem setPit_msis (s : State) (p : Nat) (e : BitVec 128) : (s.setPit p e).msis = s.msis := rfl
@[simp] theorem setPit_jobs (s : State) (p : Nat) (e : BitVec 128) : (s.setPit p e).jobs = s.jobs := rfl
@[simp] theorem setPit_nextJob (s : State) (p : Nat) (e : BitVec 128) : (s.setPit p e).nextJob = s.nextJob := rfl
@[simp] theorem setPit_keeps (s : State) (p : Nat) (e : BitVec 128) : (s.setPit p e).keeps = s.keeps := rfl
@[simp] theorem setPit_waiters (s : State) (p : Nat) (e : BitVec 128) : (s.setPit p e).waiters = s.waiters := rfl
@[simp] theorem setPit_barrierTurn (s : State) (p : Nat) (e : BitVec 128) : (s.setPit p e).barrierTurn = s.barrierTurn := rfl
@[simp] theorem setPit_colls (s : State) (p : Nat) (e : BitVec 128) : (s.setPit p e).colls = s.colls := rfl
@[simp] theorem setPit_pit (s : State) (p : Nat) (e : BitVec 128) : (s.setPit p e).pit = putD s.pit p 0 e := rfl
@[simp] theorem setPit_passQ (s : State) (p : Nat) (e : BitVec 128) : (s.setPit p e).passQ = s.passQ := rfl
@[simp] theorem setPit_passCur (s : State) (p : Nat) (e : BitVec 128) : (s.setPit p e).passCur = s.passCur := rfl
@[simp] theorem setPit_psWait (s : State) (p : Nat) (e : BitVec 128) : (s.setPit p e).psWait = s.psWait := rfl
@[simp] theorem setPit_psSeq (s : State) (p : Nat) (e : BitVec 128) : (s.setPit p e).psSeq = s.psSeq := rfl
@[simp] theorem setPit_seals (s : State) (p : Nat) (e : BitVec 128) : (s.setPit p e).seals = s.seals := rfl
@[simp] theorem setPit_mem (s : State) (p : Nat) (e : BitVec 128) : (s.setPit p e).mem = s.mem := rfl
@[simp] theorem setPit_sides (s : State) (p : Nat) (e : BitVec 128) : (s.setPit p e).sides = s.sides := rfl
@[simp] theorem setPit_errors (s : State) (p : Nat) (e : BitVec 128) : (s.setPit p e).errors = s.errors := rfl
@[simp] theorem setPit_l2 (s : State) (p : Nat) (e : BitVec 128) : (s.setPit p e).l2 = s.l2 := rfl
@[simp] theorem setPit_llc (s : State) (p : Nat) (e : BitVec 128) : (s.setPit p e).llc = s.llc := rfl
@[simp] theorem setPit_dirty (s : State) (p : Nat) (e : BitVec 128) : (s.setPit p e).dirty = s.dirty := rfl
@[simp] theorem setPit_ahosts (s : State) (p : Nat) (e : BitVec 128) : (s.setPit p e).ahosts = s.ahosts := rfl
@[simp] theorem setPit_asids (s : State) (p : Nat) (e : BitVec 128) : (s.setPit p e).asids = s.asids := rfl
@[simp] theorem setPit_hostRes (s : State) (p : Nat) (e : BitVec 128) : (s.setPit p e).hostRes = s.hostRes := rfl
@[simp] theorem setPit_iommu (s : State) (p : Nat) (e : BitVec 128) : (s.setPit p e).iommu = s.iommu := rfl
@[simp] theorem setPit_hbm (s : State) (p : Nat) (e : BitVec 128) : (s.setPit p e).hbm = s.hbm := rfl
@[simp] theorem setPit_links (s : State) (p : Nat) (e : BitVec 128) : (s.setPit p e).links = s.links := rfl
@[simp] theorem setPit_windows (s : State) (p : Nat) (e : BitVec 128) : (s.setPit p e).windows = s.windows := rfl
@[simp] theorem setPit_watches (s : State) (p : Nat) (e : BitVec 128) : (s.setPit p e).watches = s.watches := rfl
@[simp] theorem setPit_gates (s : State) (p : Nat) (e : BitVec 128) : (s.setPit p e).gates = s.gates := rfl
@[simp] theorem setPit_trust (s : State) (p : Nat) (e : BitVec 128) : (s.setPit p e).trust = s.trust := rfl
@[simp] theorem setPit_dieMap (s : State) (p : Nat) (e : BitVec 128) : (s.setPit p e).dieMap = s.dieMap := rfl
@[simp] theorem setPit_pkg (s : State) (p : Nat) (e : BitVec 128) : (s.setPit p e).pkg = s.pkg := rfl
@[simp] theorem setPit_powerLimit (s : State) (p : Nat) (e : BitVec 128) : (s.setPit p e).powerLimit = s.powerLimit := rfl
@[simp] theorem setPit_permit (s : State) (p : Nat) (e : BitVec 128) : (s.setPit p e).permit = s.permit := rfl
@[simp] theorem setPit_permitLanes (s : State) (p : Nat) (e : BitVec 128) : (s.setPit p e).permitLanes = s.permitLanes := rfl
@[simp] theorem setPit_permitAt (s : State) (p : Nat) (e : BitVec 128) : (s.setPit p e).permitAt = s.permitAt := rfl
@[simp] theorem setPit_replies (s : State) (p : Nat) (e : BitVec 128) : (s.setPit p e).replies = s.replies := rfl
@[simp] theorem setPit_iommuFaults (s : State) (p : Nat) (e : BitVec 128) : (s.setPit p e).iommuFaults = s.iommuFaults := rfl

/-! ## State.modLaunch -/

@[simp] theorem modLaunch_plan (s : State) (i : Nat) (f : Launch → Launch) : (s.modLaunch i f).plan = s.plan := rfl
@[simp] theorem modLaunch_tick (s : State) (i : Nat) (f : Launch → Launch) : (s.modLaunch i f).tick = s.tick := rfl
@[simp] theorem modLaunch_draws (s : State) (i : Nat) (f : Launch → Launch) : (s.modLaunch i f).draws = s.draws := rfl
@[simp] theorem modLaunch_focus (s : State) (i : Nat) (f : Launch → Launch) : (s.modLaunch i f).focus = s.focus := rfl
@[simp] theorem modLaunch_defer (s : State) (i : Nat) (f : Launch → Launch) : (s.modLaunch i f).defer = s.defer := rfl
@[simp] theorem modLaunch_now (s : State) (i : Nat) (f : Launch → Launch) : (s.modLaunch i f).now = s.now := rfl
@[simp] theorem modLaunch_harts (s : State) (i : Nat) (f : Launch → Launch) : (s.modLaunch i f).harts = s.harts := rfl
@[simp] theorem modLaunch_cores (s : State) (i : Nat) (f : Launch → Launch) : (s.modLaunch i f).cores = s.cores := rfl
@[simp] theorem modLaunch_pairs (s : State) (i : Nat) (f : Launch → Launch) : (s.modLaunch i f).pairs = s.pairs := rfl
@[simp] theorem modLaunch_ctxs (s : State) (i : Nat) (f : Launch → Launch) : (s.modLaunch i f).ctxs = s.ctxs := rfl
@[simp] theorem modLaunch_lastCtx (s : State) (i : Nat) (f : Launch → Launch) : (s.modLaunch i f).lastCtx = s.lastCtx := rfl
@[simp] theorem modLaunch_groups (s : State) (i : Nat) (f : Launch → Launch) : (s.modLaunch i f).groups = s.groups := rfl
@[simp] theorem modLaunch_nextGroup (s : State) (i : Nat) (f : Launch → Launch) : (s.modLaunch i f).nextGroup = s.nextGroup := rfl
@[simp] theorem modLaunch_launches (s : State) (i : Nat) (f : Launch → Launch) : (s.modLaunch i f).launches = upd s.launches i f := rfl
@[simp] theorem modLaunch_requests (s : State) (i : Nat) (f : Launch → Launch) : (s.modLaunch i f).requests = s.requests := rfl
@[simp] theorem modLaunch_nextLaunch (s : State) (i : Nat) (f : Launch → Launch) : (s.modLaunch i f).nextLaunch = s.nextLaunch := rfl
@[simp] theorem modLaunch_regs (s : State) (i : Nat) (f : Launch → Launch) : (s.modLaunch i f).regs = s.regs := rfl
@[simp] theorem modLaunch_wqueues (s : State) (i : Nat) (f : Launch → Launch) : (s.modLaunch i f).wqueues = s.wqueues := rfl
@[simp] theorem modLaunch_lastQueue (s : State) (i : Nat) (f : Launch → Launch) : (s.modLaunch i f).lastQueue = s.lastQueue := rfl
@[simp] theorem modLaunch_msis (s : State) (i : Nat) (f : Launch → Launch) : (s.modLaunch i f).msis = s.msis := rfl
@[simp] theorem modLaunch_jobs (s : State) (i : Nat) (f : Launch → Launch) : (s.modLaunch i f).jobs = s.jobs := rfl
@[simp] theorem modLaunch_nextJob (s : State) (i : Nat) (f : Launch → Launch) : (s.modLaunch i f).nextJob = s.nextJob := rfl
@[simp] theorem modLaunch_keeps (s : State) (i : Nat) (f : Launch → Launch) : (s.modLaunch i f).keeps = s.keeps := rfl
@[simp] theorem modLaunch_waiters (s : State) (i : Nat) (f : Launch → Launch) : (s.modLaunch i f).waiters = s.waiters := rfl
@[simp] theorem modLaunch_barrierTurn (s : State) (i : Nat) (f : Launch → Launch) : (s.modLaunch i f).barrierTurn = s.barrierTurn := rfl
@[simp] theorem modLaunch_colls (s : State) (i : Nat) (f : Launch → Launch) : (s.modLaunch i f).colls = s.colls := rfl
@[simp] theorem modLaunch_pit (s : State) (i : Nat) (f : Launch → Launch) : (s.modLaunch i f).pit = s.pit := rfl
@[simp] theorem modLaunch_passQ (s : State) (i : Nat) (f : Launch → Launch) : (s.modLaunch i f).passQ = s.passQ := rfl
@[simp] theorem modLaunch_passCur (s : State) (i : Nat) (f : Launch → Launch) : (s.modLaunch i f).passCur = s.passCur := rfl
@[simp] theorem modLaunch_psWait (s : State) (i : Nat) (f : Launch → Launch) : (s.modLaunch i f).psWait = s.psWait := rfl
@[simp] theorem modLaunch_psSeq (s : State) (i : Nat) (f : Launch → Launch) : (s.modLaunch i f).psSeq = s.psSeq := rfl
@[simp] theorem modLaunch_seals (s : State) (i : Nat) (f : Launch → Launch) : (s.modLaunch i f).seals = s.seals := rfl
@[simp] theorem modLaunch_mem (s : State) (i : Nat) (f : Launch → Launch) : (s.modLaunch i f).mem = s.mem := rfl
@[simp] theorem modLaunch_sides (s : State) (i : Nat) (f : Launch → Launch) : (s.modLaunch i f).sides = s.sides := rfl
@[simp] theorem modLaunch_errors (s : State) (i : Nat) (f : Launch → Launch) : (s.modLaunch i f).errors = s.errors := rfl
@[simp] theorem modLaunch_l2 (s : State) (i : Nat) (f : Launch → Launch) : (s.modLaunch i f).l2 = s.l2 := rfl
@[simp] theorem modLaunch_llc (s : State) (i : Nat) (f : Launch → Launch) : (s.modLaunch i f).llc = s.llc := rfl
@[simp] theorem modLaunch_dirty (s : State) (i : Nat) (f : Launch → Launch) : (s.modLaunch i f).dirty = s.dirty := rfl
@[simp] theorem modLaunch_ahosts (s : State) (i : Nat) (f : Launch → Launch) : (s.modLaunch i f).ahosts = s.ahosts := rfl
@[simp] theorem modLaunch_asids (s : State) (i : Nat) (f : Launch → Launch) : (s.modLaunch i f).asids = s.asids := rfl
@[simp] theorem modLaunch_hostRes (s : State) (i : Nat) (f : Launch → Launch) : (s.modLaunch i f).hostRes = s.hostRes := rfl
@[simp] theorem modLaunch_iommu (s : State) (i : Nat) (f : Launch → Launch) : (s.modLaunch i f).iommu = s.iommu := rfl
@[simp] theorem modLaunch_hbm (s : State) (i : Nat) (f : Launch → Launch) : (s.modLaunch i f).hbm = s.hbm := rfl
@[simp] theorem modLaunch_links (s : State) (i : Nat) (f : Launch → Launch) : (s.modLaunch i f).links = s.links := rfl
@[simp] theorem modLaunch_windows (s : State) (i : Nat) (f : Launch → Launch) : (s.modLaunch i f).windows = s.windows := rfl
@[simp] theorem modLaunch_watches (s : State) (i : Nat) (f : Launch → Launch) : (s.modLaunch i f).watches = s.watches := rfl
@[simp] theorem modLaunch_gates (s : State) (i : Nat) (f : Launch → Launch) : (s.modLaunch i f).gates = s.gates := rfl
@[simp] theorem modLaunch_trust (s : State) (i : Nat) (f : Launch → Launch) : (s.modLaunch i f).trust = s.trust := rfl
@[simp] theorem modLaunch_dieMap (s : State) (i : Nat) (f : Launch → Launch) : (s.modLaunch i f).dieMap = s.dieMap := rfl
@[simp] theorem modLaunch_pkg (s : State) (i : Nat) (f : Launch → Launch) : (s.modLaunch i f).pkg = s.pkg := rfl
@[simp] theorem modLaunch_powerLimit (s : State) (i : Nat) (f : Launch → Launch) : (s.modLaunch i f).powerLimit = s.powerLimit := rfl
@[simp] theorem modLaunch_permit (s : State) (i : Nat) (f : Launch → Launch) : (s.modLaunch i f).permit = s.permit := rfl
@[simp] theorem modLaunch_permitLanes (s : State) (i : Nat) (f : Launch → Launch) : (s.modLaunch i f).permitLanes = s.permitLanes := rfl
@[simp] theorem modLaunch_permitAt (s : State) (i : Nat) (f : Launch → Launch) : (s.modLaunch i f).permitAt = s.permitAt := rfl
@[simp] theorem modLaunch_replies (s : State) (i : Nat) (f : Launch → Launch) : (s.modLaunch i f).replies = s.replies := rfl
@[simp] theorem modLaunch_iommuFaults (s : State) (i : Nat) (f : Launch → Launch) : (s.modLaunch i f).iommuFaults = s.iommuFaults := rfl

/-! ## State.modJob -/

@[simp] theorem modJob_plan (s : State) (i : Nat) (f : Job → Job) : (s.modJob i f).plan = s.plan := rfl
@[simp] theorem modJob_tick (s : State) (i : Nat) (f : Job → Job) : (s.modJob i f).tick = s.tick := rfl
@[simp] theorem modJob_draws (s : State) (i : Nat) (f : Job → Job) : (s.modJob i f).draws = s.draws := rfl
@[simp] theorem modJob_focus (s : State) (i : Nat) (f : Job → Job) : (s.modJob i f).focus = s.focus := rfl
@[simp] theorem modJob_defer (s : State) (i : Nat) (f : Job → Job) : (s.modJob i f).defer = s.defer := rfl
@[simp] theorem modJob_now (s : State) (i : Nat) (f : Job → Job) : (s.modJob i f).now = s.now := rfl
@[simp] theorem modJob_harts (s : State) (i : Nat) (f : Job → Job) : (s.modJob i f).harts = s.harts := rfl
@[simp] theorem modJob_cores (s : State) (i : Nat) (f : Job → Job) : (s.modJob i f).cores = s.cores := rfl
@[simp] theorem modJob_pairs (s : State) (i : Nat) (f : Job → Job) : (s.modJob i f).pairs = s.pairs := rfl
@[simp] theorem modJob_ctxs (s : State) (i : Nat) (f : Job → Job) : (s.modJob i f).ctxs = s.ctxs := rfl
@[simp] theorem modJob_lastCtx (s : State) (i : Nat) (f : Job → Job) : (s.modJob i f).lastCtx = s.lastCtx := rfl
@[simp] theorem modJob_groups (s : State) (i : Nat) (f : Job → Job) : (s.modJob i f).groups = s.groups := rfl
@[simp] theorem modJob_nextGroup (s : State) (i : Nat) (f : Job → Job) : (s.modJob i f).nextGroup = s.nextGroup := rfl
@[simp] theorem modJob_launches (s : State) (i : Nat) (f : Job → Job) : (s.modJob i f).launches = s.launches := rfl
@[simp] theorem modJob_requests (s : State) (i : Nat) (f : Job → Job) : (s.modJob i f).requests = s.requests := rfl
@[simp] theorem modJob_nextLaunch (s : State) (i : Nat) (f : Job → Job) : (s.modJob i f).nextLaunch = s.nextLaunch := rfl
@[simp] theorem modJob_regs (s : State) (i : Nat) (f : Job → Job) : (s.modJob i f).regs = s.regs := rfl
@[simp] theorem modJob_wqueues (s : State) (i : Nat) (f : Job → Job) : (s.modJob i f).wqueues = s.wqueues := rfl
@[simp] theorem modJob_lastQueue (s : State) (i : Nat) (f : Job → Job) : (s.modJob i f).lastQueue = s.lastQueue := rfl
@[simp] theorem modJob_msis (s : State) (i : Nat) (f : Job → Job) : (s.modJob i f).msis = s.msis := rfl
@[simp] theorem modJob_jobs (s : State) (i : Nat) (f : Job → Job) : (s.modJob i f).jobs = upd s.jobs i f := rfl
@[simp] theorem modJob_nextJob (s : State) (i : Nat) (f : Job → Job) : (s.modJob i f).nextJob = s.nextJob := rfl
@[simp] theorem modJob_keeps (s : State) (i : Nat) (f : Job → Job) : (s.modJob i f).keeps = s.keeps := rfl
@[simp] theorem modJob_waiters (s : State) (i : Nat) (f : Job → Job) : (s.modJob i f).waiters = s.waiters := rfl
@[simp] theorem modJob_barrierTurn (s : State) (i : Nat) (f : Job → Job) : (s.modJob i f).barrierTurn = s.barrierTurn := rfl
@[simp] theorem modJob_colls (s : State) (i : Nat) (f : Job → Job) : (s.modJob i f).colls = s.colls := rfl
@[simp] theorem modJob_pit (s : State) (i : Nat) (f : Job → Job) : (s.modJob i f).pit = s.pit := rfl
@[simp] theorem modJob_passQ (s : State) (i : Nat) (f : Job → Job) : (s.modJob i f).passQ = s.passQ := rfl
@[simp] theorem modJob_passCur (s : State) (i : Nat) (f : Job → Job) : (s.modJob i f).passCur = s.passCur := rfl
@[simp] theorem modJob_psWait (s : State) (i : Nat) (f : Job → Job) : (s.modJob i f).psWait = s.psWait := rfl
@[simp] theorem modJob_psSeq (s : State) (i : Nat) (f : Job → Job) : (s.modJob i f).psSeq = s.psSeq := rfl
@[simp] theorem modJob_seals (s : State) (i : Nat) (f : Job → Job) : (s.modJob i f).seals = s.seals := rfl
@[simp] theorem modJob_mem (s : State) (i : Nat) (f : Job → Job) : (s.modJob i f).mem = s.mem := rfl
@[simp] theorem modJob_sides (s : State) (i : Nat) (f : Job → Job) : (s.modJob i f).sides = s.sides := rfl
@[simp] theorem modJob_errors (s : State) (i : Nat) (f : Job → Job) : (s.modJob i f).errors = s.errors := rfl
@[simp] theorem modJob_l2 (s : State) (i : Nat) (f : Job → Job) : (s.modJob i f).l2 = s.l2 := rfl
@[simp] theorem modJob_llc (s : State) (i : Nat) (f : Job → Job) : (s.modJob i f).llc = s.llc := rfl
@[simp] theorem modJob_dirty (s : State) (i : Nat) (f : Job → Job) : (s.modJob i f).dirty = s.dirty := rfl
@[simp] theorem modJob_ahosts (s : State) (i : Nat) (f : Job → Job) : (s.modJob i f).ahosts = s.ahosts := rfl
@[simp] theorem modJob_asids (s : State) (i : Nat) (f : Job → Job) : (s.modJob i f).asids = s.asids := rfl
@[simp] theorem modJob_hostRes (s : State) (i : Nat) (f : Job → Job) : (s.modJob i f).hostRes = s.hostRes := rfl
@[simp] theorem modJob_iommu (s : State) (i : Nat) (f : Job → Job) : (s.modJob i f).iommu = s.iommu := rfl
@[simp] theorem modJob_hbm (s : State) (i : Nat) (f : Job → Job) : (s.modJob i f).hbm = s.hbm := rfl
@[simp] theorem modJob_links (s : State) (i : Nat) (f : Job → Job) : (s.modJob i f).links = s.links := rfl
@[simp] theorem modJob_windows (s : State) (i : Nat) (f : Job → Job) : (s.modJob i f).windows = s.windows := rfl
@[simp] theorem modJob_watches (s : State) (i : Nat) (f : Job → Job) : (s.modJob i f).watches = s.watches := rfl
@[simp] theorem modJob_gates (s : State) (i : Nat) (f : Job → Job) : (s.modJob i f).gates = s.gates := rfl
@[simp] theorem modJob_trust (s : State) (i : Nat) (f : Job → Job) : (s.modJob i f).trust = s.trust := rfl
@[simp] theorem modJob_dieMap (s : State) (i : Nat) (f : Job → Job) : (s.modJob i f).dieMap = s.dieMap := rfl
@[simp] theorem modJob_pkg (s : State) (i : Nat) (f : Job → Job) : (s.modJob i f).pkg = s.pkg := rfl
@[simp] theorem modJob_powerLimit (s : State) (i : Nat) (f : Job → Job) : (s.modJob i f).powerLimit = s.powerLimit := rfl
@[simp] theorem modJob_permit (s : State) (i : Nat) (f : Job → Job) : (s.modJob i f).permit = s.permit := rfl
@[simp] theorem modJob_permitLanes (s : State) (i : Nat) (f : Job → Job) : (s.modJob i f).permitLanes = s.permitLanes := rfl
@[simp] theorem modJob_permitAt (s : State) (i : Nat) (f : Job → Job) : (s.modJob i f).permitAt = s.permitAt := rfl
@[simp] theorem modJob_replies (s : State) (i : Nat) (f : Job → Job) : (s.modJob i f).replies = s.replies := rfl
@[simp] theorem modJob_iommuFaults (s : State) (i : Nat) (f : Job → Job) : (s.modJob i f).iommuFaults = s.iommuFaults := rfl

/-! ## State.setLink -/

@[simp] theorem setLink_plan (s : State) (n : Nat) (l : Link) : (s.setLink n l).plan = s.plan := rfl
@[simp] theorem setLink_tick (s : State) (n : Nat) (l : Link) : (s.setLink n l).tick = s.tick := rfl
@[simp] theorem setLink_draws (s : State) (n : Nat) (l : Link) : (s.setLink n l).draws = s.draws := rfl
@[simp] theorem setLink_focus (s : State) (n : Nat) (l : Link) : (s.setLink n l).focus = s.focus := rfl
@[simp] theorem setLink_defer (s : State) (n : Nat) (l : Link) : (s.setLink n l).defer = s.defer := rfl
@[simp] theorem setLink_now (s : State) (n : Nat) (l : Link) : (s.setLink n l).now = s.now := rfl
@[simp] theorem setLink_harts (s : State) (n : Nat) (l : Link) : (s.setLink n l).harts = s.harts := rfl
@[simp] theorem setLink_cores (s : State) (n : Nat) (l : Link) : (s.setLink n l).cores = s.cores := rfl
@[simp] theorem setLink_pairs (s : State) (n : Nat) (l : Link) : (s.setLink n l).pairs = s.pairs := rfl
@[simp] theorem setLink_ctxs (s : State) (n : Nat) (l : Link) : (s.setLink n l).ctxs = s.ctxs := rfl
@[simp] theorem setLink_lastCtx (s : State) (n : Nat) (l : Link) : (s.setLink n l).lastCtx = s.lastCtx := rfl
@[simp] theorem setLink_groups (s : State) (n : Nat) (l : Link) : (s.setLink n l).groups = s.groups := rfl
@[simp] theorem setLink_nextGroup (s : State) (n : Nat) (l : Link) : (s.setLink n l).nextGroup = s.nextGroup := rfl
@[simp] theorem setLink_launches (s : State) (n : Nat) (l : Link) : (s.setLink n l).launches = s.launches := rfl
@[simp] theorem setLink_requests (s : State) (n : Nat) (l : Link) : (s.setLink n l).requests = s.requests := rfl
@[simp] theorem setLink_nextLaunch (s : State) (n : Nat) (l : Link) : (s.setLink n l).nextLaunch = s.nextLaunch := rfl
@[simp] theorem setLink_regs (s : State) (n : Nat) (l : Link) : (s.setLink n l).regs = s.regs := rfl
@[simp] theorem setLink_wqueues (s : State) (n : Nat) (l : Link) : (s.setLink n l).wqueues = s.wqueues := rfl
@[simp] theorem setLink_lastQueue (s : State) (n : Nat) (l : Link) : (s.setLink n l).lastQueue = s.lastQueue := rfl
@[simp] theorem setLink_msis (s : State) (n : Nat) (l : Link) : (s.setLink n l).msis = s.msis := rfl
@[simp] theorem setLink_jobs (s : State) (n : Nat) (l : Link) : (s.setLink n l).jobs = s.jobs := rfl
@[simp] theorem setLink_nextJob (s : State) (n : Nat) (l : Link) : (s.setLink n l).nextJob = s.nextJob := rfl
@[simp] theorem setLink_keeps (s : State) (n : Nat) (l : Link) : (s.setLink n l).keeps = s.keeps := rfl
@[simp] theorem setLink_waiters (s : State) (n : Nat) (l : Link) : (s.setLink n l).waiters = s.waiters := rfl
@[simp] theorem setLink_barrierTurn (s : State) (n : Nat) (l : Link) : (s.setLink n l).barrierTurn = s.barrierTurn := rfl
@[simp] theorem setLink_colls (s : State) (n : Nat) (l : Link) : (s.setLink n l).colls = s.colls := rfl
@[simp] theorem setLink_pit (s : State) (n : Nat) (l : Link) : (s.setLink n l).pit = s.pit := rfl
@[simp] theorem setLink_passQ (s : State) (n : Nat) (l : Link) : (s.setLink n l).passQ = s.passQ := rfl
@[simp] theorem setLink_passCur (s : State) (n : Nat) (l : Link) : (s.setLink n l).passCur = s.passCur := rfl
@[simp] theorem setLink_psWait (s : State) (n : Nat) (l : Link) : (s.setLink n l).psWait = s.psWait := rfl
@[simp] theorem setLink_psSeq (s : State) (n : Nat) (l : Link) : (s.setLink n l).psSeq = s.psSeq := rfl
@[simp] theorem setLink_seals (s : State) (n : Nat) (l : Link) : (s.setLink n l).seals = s.seals := rfl
@[simp] theorem setLink_mem (s : State) (n : Nat) (l : Link) : (s.setLink n l).mem = s.mem := rfl
@[simp] theorem setLink_sides (s : State) (n : Nat) (l : Link) : (s.setLink n l).sides = s.sides := rfl
@[simp] theorem setLink_errors (s : State) (n : Nat) (l : Link) : (s.setLink n l).errors = s.errors := rfl
@[simp] theorem setLink_l2 (s : State) (n : Nat) (l : Link) : (s.setLink n l).l2 = s.l2 := rfl
@[simp] theorem setLink_llc (s : State) (n : Nat) (l : Link) : (s.setLink n l).llc = s.llc := rfl
@[simp] theorem setLink_dirty (s : State) (n : Nat) (l : Link) : (s.setLink n l).dirty = s.dirty := rfl
@[simp] theorem setLink_ahosts (s : State) (n : Nat) (l : Link) : (s.setLink n l).ahosts = s.ahosts := rfl
@[simp] theorem setLink_asids (s : State) (n : Nat) (l : Link) : (s.setLink n l).asids = s.asids := rfl
@[simp] theorem setLink_hostRes (s : State) (n : Nat) (l : Link) : (s.setLink n l).hostRes = s.hostRes := rfl
@[simp] theorem setLink_iommu (s : State) (n : Nat) (l : Link) : (s.setLink n l).iommu = s.iommu := rfl
@[simp] theorem setLink_hbm (s : State) (n : Nat) (l : Link) : (s.setLink n l).hbm = s.hbm := rfl
@[simp] theorem setLink_links (s : State) (n : Nat) (l : Link) : (s.setLink n l).links = put s.links n l := rfl
@[simp] theorem setLink_windows (s : State) (n : Nat) (l : Link) : (s.setLink n l).windows = s.windows := rfl
@[simp] theorem setLink_watches (s : State) (n : Nat) (l : Link) : (s.setLink n l).watches = s.watches := rfl
@[simp] theorem setLink_gates (s : State) (n : Nat) (l : Link) : (s.setLink n l).gates = s.gates := rfl
@[simp] theorem setLink_trust (s : State) (n : Nat) (l : Link) : (s.setLink n l).trust = s.trust := rfl
@[simp] theorem setLink_dieMap (s : State) (n : Nat) (l : Link) : (s.setLink n l).dieMap = s.dieMap := rfl
@[simp] theorem setLink_pkg (s : State) (n : Nat) (l : Link) : (s.setLink n l).pkg = s.pkg := rfl
@[simp] theorem setLink_powerLimit (s : State) (n : Nat) (l : Link) : (s.setLink n l).powerLimit = s.powerLimit := rfl
@[simp] theorem setLink_permit (s : State) (n : Nat) (l : Link) : (s.setLink n l).permit = s.permit := rfl
@[simp] theorem setLink_permitLanes (s : State) (n : Nat) (l : Link) : (s.setLink n l).permitLanes = s.permitLanes := rfl
@[simp] theorem setLink_permitAt (s : State) (n : Nat) (l : Link) : (s.setLink n l).permitAt = s.permitAt := rfl
@[simp] theorem setLink_replies (s : State) (n : Nat) (l : Link) : (s.setLink n l).replies = s.replies := rfl
@[simp] theorem setLink_iommuFaults (s : State) (n : Nat) (l : Link) : (s.setLink n l).iommuFaults = s.iommuFaults := rfl

/-! ## State.setStack -/

@[simp] theorem setStack_plan (s : State) (n : Nat) (x : Stack) : (s.setStack n x).plan = s.plan := rfl
@[simp] theorem setStack_tick (s : State) (n : Nat) (x : Stack) : (s.setStack n x).tick = s.tick := rfl
@[simp] theorem setStack_draws (s : State) (n : Nat) (x : Stack) : (s.setStack n x).draws = s.draws := rfl
@[simp] theorem setStack_focus (s : State) (n : Nat) (x : Stack) : (s.setStack n x).focus = s.focus := rfl
@[simp] theorem setStack_defer (s : State) (n : Nat) (x : Stack) : (s.setStack n x).defer = s.defer := rfl
@[simp] theorem setStack_now (s : State) (n : Nat) (x : Stack) : (s.setStack n x).now = s.now := rfl
@[simp] theorem setStack_harts (s : State) (n : Nat) (x : Stack) : (s.setStack n x).harts = s.harts := rfl
@[simp] theorem setStack_cores (s : State) (n : Nat) (x : Stack) : (s.setStack n x).cores = s.cores := rfl
@[simp] theorem setStack_pairs (s : State) (n : Nat) (x : Stack) : (s.setStack n x).pairs = s.pairs := rfl
@[simp] theorem setStack_ctxs (s : State) (n : Nat) (x : Stack) : (s.setStack n x).ctxs = s.ctxs := rfl
@[simp] theorem setStack_lastCtx (s : State) (n : Nat) (x : Stack) : (s.setStack n x).lastCtx = s.lastCtx := rfl
@[simp] theorem setStack_groups (s : State) (n : Nat) (x : Stack) : (s.setStack n x).groups = s.groups := rfl
@[simp] theorem setStack_nextGroup (s : State) (n : Nat) (x : Stack) : (s.setStack n x).nextGroup = s.nextGroup := rfl
@[simp] theorem setStack_launches (s : State) (n : Nat) (x : Stack) : (s.setStack n x).launches = s.launches := rfl
@[simp] theorem setStack_requests (s : State) (n : Nat) (x : Stack) : (s.setStack n x).requests = s.requests := rfl
@[simp] theorem setStack_nextLaunch (s : State) (n : Nat) (x : Stack) : (s.setStack n x).nextLaunch = s.nextLaunch := rfl
@[simp] theorem setStack_regs (s : State) (n : Nat) (x : Stack) : (s.setStack n x).regs = s.regs := rfl
@[simp] theorem setStack_wqueues (s : State) (n : Nat) (x : Stack) : (s.setStack n x).wqueues = s.wqueues := rfl
@[simp] theorem setStack_lastQueue (s : State) (n : Nat) (x : Stack) : (s.setStack n x).lastQueue = s.lastQueue := rfl
@[simp] theorem setStack_msis (s : State) (n : Nat) (x : Stack) : (s.setStack n x).msis = s.msis := rfl
@[simp] theorem setStack_jobs (s : State) (n : Nat) (x : Stack) : (s.setStack n x).jobs = s.jobs := rfl
@[simp] theorem setStack_nextJob (s : State) (n : Nat) (x : Stack) : (s.setStack n x).nextJob = s.nextJob := rfl
@[simp] theorem setStack_keeps (s : State) (n : Nat) (x : Stack) : (s.setStack n x).keeps = s.keeps := rfl
@[simp] theorem setStack_waiters (s : State) (n : Nat) (x : Stack) : (s.setStack n x).waiters = s.waiters := rfl
@[simp] theorem setStack_barrierTurn (s : State) (n : Nat) (x : Stack) : (s.setStack n x).barrierTurn = s.barrierTurn := rfl
@[simp] theorem setStack_colls (s : State) (n : Nat) (x : Stack) : (s.setStack n x).colls = s.colls := rfl
@[simp] theorem setStack_pit (s : State) (n : Nat) (x : Stack) : (s.setStack n x).pit = s.pit := rfl
@[simp] theorem setStack_passQ (s : State) (n : Nat) (x : Stack) : (s.setStack n x).passQ = s.passQ := rfl
@[simp] theorem setStack_passCur (s : State) (n : Nat) (x : Stack) : (s.setStack n x).passCur = s.passCur := rfl
@[simp] theorem setStack_psWait (s : State) (n : Nat) (x : Stack) : (s.setStack n x).psWait = s.psWait := rfl
@[simp] theorem setStack_psSeq (s : State) (n : Nat) (x : Stack) : (s.setStack n x).psSeq = s.psSeq := rfl
@[simp] theorem setStack_seals (s : State) (n : Nat) (x : Stack) : (s.setStack n x).seals = s.seals := rfl
@[simp] theorem setStack_mem (s : State) (n : Nat) (x : Stack) : (s.setStack n x).mem = s.mem := rfl
@[simp] theorem setStack_sides (s : State) (n : Nat) (x : Stack) : (s.setStack n x).sides = s.sides := rfl
@[simp] theorem setStack_errors (s : State) (n : Nat) (x : Stack) : (s.setStack n x).errors = s.errors := rfl
@[simp] theorem setStack_l2 (s : State) (n : Nat) (x : Stack) : (s.setStack n x).l2 = s.l2 := rfl
@[simp] theorem setStack_llc (s : State) (n : Nat) (x : Stack) : (s.setStack n x).llc = s.llc := rfl
@[simp] theorem setStack_dirty (s : State) (n : Nat) (x : Stack) : (s.setStack n x).dirty = s.dirty := rfl
@[simp] theorem setStack_ahosts (s : State) (n : Nat) (x : Stack) : (s.setStack n x).ahosts = s.ahosts := rfl
@[simp] theorem setStack_asids (s : State) (n : Nat) (x : Stack) : (s.setStack n x).asids = s.asids := rfl
@[simp] theorem setStack_hostRes (s : State) (n : Nat) (x : Stack) : (s.setStack n x).hostRes = s.hostRes := rfl
@[simp] theorem setStack_iommu (s : State) (n : Nat) (x : Stack) : (s.setStack n x).iommu = s.iommu := rfl
@[simp] theorem setStack_hbm (s : State) (n : Nat) (x : Stack) : (s.setStack n x).hbm = put s.hbm n x := rfl
@[simp] theorem setStack_links (s : State) (n : Nat) (x : Stack) : (s.setStack n x).links = s.links := rfl
@[simp] theorem setStack_windows (s : State) (n : Nat) (x : Stack) : (s.setStack n x).windows = s.windows := rfl
@[simp] theorem setStack_watches (s : State) (n : Nat) (x : Stack) : (s.setStack n x).watches = s.watches := rfl
@[simp] theorem setStack_gates (s : State) (n : Nat) (x : Stack) : (s.setStack n x).gates = s.gates := rfl
@[simp] theorem setStack_trust (s : State) (n : Nat) (x : Stack) : (s.setStack n x).trust = s.trust := rfl
@[simp] theorem setStack_dieMap (s : State) (n : Nat) (x : Stack) : (s.setStack n x).dieMap = s.dieMap := rfl
@[simp] theorem setStack_pkg (s : State) (n : Nat) (x : Stack) : (s.setStack n x).pkg = s.pkg := rfl
@[simp] theorem setStack_powerLimit (s : State) (n : Nat) (x : Stack) : (s.setStack n x).powerLimit = s.powerLimit := rfl
@[simp] theorem setStack_permit (s : State) (n : Nat) (x : Stack) : (s.setStack n x).permit = s.permit := rfl
@[simp] theorem setStack_permitLanes (s : State) (n : Nat) (x : Stack) : (s.setStack n x).permitLanes = s.permitLanes := rfl
@[simp] theorem setStack_permitAt (s : State) (n : Nat) (x : Stack) : (s.setStack n x).permitAt = s.permitAt := rfl
@[simp] theorem setStack_replies (s : State) (n : Nat) (x : Stack) : (s.setStack n x).replies = s.replies := rfl
@[simp] theorem setStack_iommuFaults (s : State) (n : Nat) (x : Stack) : (s.setStack n x).iommuFaults = s.iommuFaults := rfl

/-! ## Hart.setQueue -/

@[simp] theorem hart_setQueue_ctx (h : Hart) (e : Eng) (q : List Command) : (h.setQueue e q).ctx = h.ctx := rfl
@[simp] theorem hart_setQueue_group (h : Hart) (e : Eng) (q : List Command) : (h.setQueue e q).group = h.group := rfl
@[simp] theorem hart_setQueue_coord (h : Hart) (e : Eng) (q : List Command) : (h.setQueue e q).coord = h.coord := rfl
@[simp] theorem hart_setQueue_stage (h : Hart) (e : Eng) (q : List Command) : (h.setQueue e q).stage = h.stage := rfl
@[simp] theorem hart_setQueue_cores (h : Hart) (e : Eng) (q : List Command) : (h.setQueue e q).cores = h.cores := rfl
@[simp] theorem hart_setQueue_slot (h : Hart) (e : Eng) (q : List Command) : (h.setQueue e q).slot = h.slot := rfl
@[simp] theorem hart_setQueue_frame (h : Hart) (e : Eng) (q : List Command) : (h.setQueue e q).frame = h.frame := rfl
@[simp] theorem hart_setQueue_prio (h : Hart) (e : Eng) (q : List Command) : (h.setQueue e q).prio = h.prio := rfl
@[simp] theorem hart_setQueue_state (h : Hart) (e : Eng) (q : List Command) : (h.setQueue e q).state = h.state := rfl
@[simp] theorem hart_setQueue_wasSuspended (h : Hart) (e : Eng) (q : List Command) : (h.setQueue e q).wasSuspended = h.wasSuspended := rfl
@[simp] theorem hart_setQueue_pc (h : Hart) (e : Eng) (q : List Command) : (h.setQueue e q).pc = h.pc := rfl
@[simp] theorem hart_setQueue_priv (h : Hart) (e : Eng) (q : List Command) : (h.setQueue e q).priv = h.priv := rfl
@[simp] theorem hart_setQueue_rows (h : Hart) (e : Eng) (q : List Command) : (h.setQueue e q).rows = h.rows := rfl
@[simp] theorem hart_setQueue_csr (h : Hart) (e : Eng) (q : List Command) : (h.setQueue e q).csr = h.csr := rfl
@[simp] theorem hart_setQueue_tmpl (h : Hart) (e : Eng) (q : List Command) : (h.setQueue e q).tmpl = h.tmpl := rfl
@[simp] theorem hart_setQueue_queues (h : Hart) (e : Eng) (q : List Command) : (h.setQueue e q).queues = h.queues.setIfInBounds (engIdx e) q := rfl
@[simp] theorem hart_setQueue_timed (h : Hart) (e : Eng) (q : List Command) : (h.setQueue e q).timed = h.timed := rfl
@[simp] theorem hart_setQueue_idx (h : Hart) (e : Eng) (q : List Command) : (h.setQueue e q).idx = h.idx := rfl
@[simp] theorem hart_setQueue_tokens (h : Hart) (e : Eng) (q : List Command) : (h.setQueue e q).tokens = h.tokens := rfl
@[simp] theorem hart_setQueue_slots (h : Hart) (e : Eng) (q : List Command) : (h.setQueue e q).slots = h.slots := rfl
@[simp] theorem hart_setQueue_loads (h : Hart) (e : Eng) (q : List Command) : (h.setQueue e q).loads = h.loads := rfl
@[simp] theorem hart_setQueue_stores (h : Hart) (e : Eng) (q : List Command) : (h.setQueue e q).stores = h.stores := rfl
@[simp] theorem hart_setQueue_event (h : Hart) (e : Eng) (q : List Command) : (h.setQueue e q).event = h.event := rfl
@[simp] theorem hart_setQueue_wait (h : Hart) (e : Eng) (q : List Command) : (h.setQueue e q).wait = h.wait := rfl
@[simp] theorem hart_setQueue_halted (h : Hart) (e : Eng) (q : List Command) : (h.setQueue e q).halted = h.halted := rfl
@[simp] theorem hart_setQueue_traps (h : Hart) (e : Eng) (q : List Command) : (h.setQueue e q).traps = h.traps := rfl
@[simp] theorem hart_setQueue_lastProgress (h : Hart) (e : Eng) (q : List Command) : (h.setQueue e q).lastProgress = h.lastProgress := rfl
@[simp] theorem hart_setQueue_lastIssue (h : Hart) (e : Eng) (q : List Command) : (h.setQueue e q).lastIssue = h.lastIssue := rfl
@[simp] theorem hart_setQueue_order (h : Hart) (e : Eng) (q : List Command) : (h.setQueue e q).order = h.order := rfl
@[simp] theorem hart_setQueue_task (h : Hart) (e : Eng) (q : List Command) : (h.setQueue e q).task = h.task := rfl
@[simp] theorem hart_setQueue_preempt (h : Hart) (e : Eng) (q : List Command) : (h.setQueue e q).preempt = h.preempt := rfl
@[simp] theorem hart_setQueue_reissue (h : Hart) (e : Eng) (q : List Command) : (h.setQueue e q).reissue = h.reissue := rfl
@[simp] theorem hart_setQueue_leaseKept (h : Hart) (e : Eng) (q : List Command) : (h.setQueue e q).leaseKept = h.leaseKept := rfl
@[simp] theorem hart_setQueue_waitSince (h : Hart) (e : Eng) (q : List Command) : (h.setQueue e q).waitSince = h.waitSince := rfl
@[simp] theorem hart_setQueue_mcPending (h : Hart) (e : Eng) (q : List Command) : (h.setQueue e q).mcPending = h.mcPending := rfl
@[simp] theorem hart_setQueue_launchX (h : Hart) (e : Eng) (q : List Command) : (h.setQueue e q).launchX = h.launchX := rfl
@[simp] theorem hart_setQueue_launchA (h : Hart) (e : Eng) (q : List Command) : (h.setQueue e q).launchA = h.launchA := rfl

/-! ## Hart.setRow -/

@[simp] theorem hart_setRow_ctx (h : Hart) (j : Nat) (r : RowRegs) : (h.setRow j r).ctx = h.ctx := rfl
@[simp] theorem hart_setRow_group (h : Hart) (j : Nat) (r : RowRegs) : (h.setRow j r).group = h.group := rfl
@[simp] theorem hart_setRow_coord (h : Hart) (j : Nat) (r : RowRegs) : (h.setRow j r).coord = h.coord := rfl
@[simp] theorem hart_setRow_stage (h : Hart) (j : Nat) (r : RowRegs) : (h.setRow j r).stage = h.stage := rfl
@[simp] theorem hart_setRow_cores (h : Hart) (j : Nat) (r : RowRegs) : (h.setRow j r).cores = h.cores := rfl
@[simp] theorem hart_setRow_slot (h : Hart) (j : Nat) (r : RowRegs) : (h.setRow j r).slot = h.slot := rfl
@[simp] theorem hart_setRow_frame (h : Hart) (j : Nat) (r : RowRegs) : (h.setRow j r).frame = h.frame := rfl
@[simp] theorem hart_setRow_prio (h : Hart) (j : Nat) (r : RowRegs) : (h.setRow j r).prio = h.prio := rfl
@[simp] theorem hart_setRow_state (h : Hart) (j : Nat) (r : RowRegs) : (h.setRow j r).state = h.state := rfl
@[simp] theorem hart_setRow_wasSuspended (h : Hart) (j : Nat) (r : RowRegs) : (h.setRow j r).wasSuspended = h.wasSuspended := rfl
@[simp] theorem hart_setRow_pc (h : Hart) (j : Nat) (r : RowRegs) : (h.setRow j r).pc = h.pc := rfl
@[simp] theorem hart_setRow_priv (h : Hart) (j : Nat) (r : RowRegs) : (h.setRow j r).priv = h.priv := rfl
@[simp] theorem hart_setRow_rows (h : Hart) (j : Nat) (r : RowRegs) : (h.setRow j r).rows = h.rows.set j r := rfl
@[simp] theorem hart_setRow_csr (h : Hart) (j : Nat) (r : RowRegs) : (h.setRow j r).csr = h.csr := rfl
@[simp] theorem hart_setRow_tmpl (h : Hart) (j : Nat) (r : RowRegs) : (h.setRow j r).tmpl = h.tmpl := rfl
@[simp] theorem hart_setRow_queues (h : Hart) (j : Nat) (r : RowRegs) : (h.setRow j r).queues = h.queues := rfl
@[simp] theorem hart_setRow_timed (h : Hart) (j : Nat) (r : RowRegs) : (h.setRow j r).timed = h.timed := rfl
@[simp] theorem hart_setRow_idx (h : Hart) (j : Nat) (r : RowRegs) : (h.setRow j r).idx = h.idx := rfl
@[simp] theorem hart_setRow_tokens (h : Hart) (j : Nat) (r : RowRegs) : (h.setRow j r).tokens = h.tokens := rfl
@[simp] theorem hart_setRow_slots (h : Hart) (j : Nat) (r : RowRegs) : (h.setRow j r).slots = h.slots := rfl
@[simp] theorem hart_setRow_loads (h : Hart) (j : Nat) (r : RowRegs) : (h.setRow j r).loads = h.loads := rfl
@[simp] theorem hart_setRow_stores (h : Hart) (j : Nat) (r : RowRegs) : (h.setRow j r).stores = h.stores := rfl
@[simp] theorem hart_setRow_event (h : Hart) (j : Nat) (r : RowRegs) : (h.setRow j r).event = h.event := rfl
@[simp] theorem hart_setRow_wait (h : Hart) (j : Nat) (r : RowRegs) : (h.setRow j r).wait = h.wait := rfl
@[simp] theorem hart_setRow_halted (h : Hart) (j : Nat) (r : RowRegs) : (h.setRow j r).halted = h.halted := rfl
@[simp] theorem hart_setRow_traps (h : Hart) (j : Nat) (r : RowRegs) : (h.setRow j r).traps = h.traps := rfl
@[simp] theorem hart_setRow_lastProgress (h : Hart) (j : Nat) (r : RowRegs) : (h.setRow j r).lastProgress = h.lastProgress := rfl
@[simp] theorem hart_setRow_lastIssue (h : Hart) (j : Nat) (r : RowRegs) : (h.setRow j r).lastIssue = h.lastIssue := rfl
@[simp] theorem hart_setRow_order (h : Hart) (j : Nat) (r : RowRegs) : (h.setRow j r).order = h.order := rfl
@[simp] theorem hart_setRow_task (h : Hart) (j : Nat) (r : RowRegs) : (h.setRow j r).task = h.task := rfl
@[simp] theorem hart_setRow_preempt (h : Hart) (j : Nat) (r : RowRegs) : (h.setRow j r).preempt = h.preempt := rfl
@[simp] theorem hart_setRow_reissue (h : Hart) (j : Nat) (r : RowRegs) : (h.setRow j r).reissue = h.reissue := rfl
@[simp] theorem hart_setRow_leaseKept (h : Hart) (j : Nat) (r : RowRegs) : (h.setRow j r).leaseKept = h.leaseKept := rfl
@[simp] theorem hart_setRow_waitSince (h : Hart) (j : Nat) (r : RowRegs) : (h.setRow j r).waitSince = h.waitSince := rfl
@[simp] theorem hart_setRow_mcPending (h : Hart) (j : Nat) (r : RowRegs) : (h.setRow j r).mcPending = h.mcPending := rfl
@[simp] theorem hart_setRow_launchX (h : Hart) (j : Nat) (r : RowRegs) : (h.setRow j r).launchX = h.launchX := rfl
@[simp] theorem hart_setRow_launchA (h : Hart) (j : Nat) (r : RowRegs) : (h.setRow j r).launchA = h.launchA := rfl

/-! ## Hart.setReg -/

@[simp] theorem hart_setReg_ctx (h : Hart) (j n : Nat) (x : Dword) : (h.setReg j n x).ctx = h.ctx := rfl
@[simp] theorem hart_setReg_group (h : Hart) (j n : Nat) (x : Dword) : (h.setReg j n x).group = h.group := rfl
@[simp] theorem hart_setReg_coord (h : Hart) (j n : Nat) (x : Dword) : (h.setReg j n x).coord = h.coord := rfl
@[simp] theorem hart_setReg_stage (h : Hart) (j n : Nat) (x : Dword) : (h.setReg j n x).stage = h.stage := rfl
@[simp] theorem hart_setReg_cores (h : Hart) (j n : Nat) (x : Dword) : (h.setReg j n x).cores = h.cores := rfl
@[simp] theorem hart_setReg_slot (h : Hart) (j n : Nat) (x : Dword) : (h.setReg j n x).slot = h.slot := rfl
@[simp] theorem hart_setReg_frame (h : Hart) (j n : Nat) (x : Dword) : (h.setReg j n x).frame = h.frame := rfl
@[simp] theorem hart_setReg_prio (h : Hart) (j n : Nat) (x : Dword) : (h.setReg j n x).prio = h.prio := rfl
@[simp] theorem hart_setReg_state (h : Hart) (j n : Nat) (x : Dword) : (h.setReg j n x).state = h.state := rfl
@[simp] theorem hart_setReg_wasSuspended (h : Hart) (j n : Nat) (x : Dword) : (h.setReg j n x).wasSuspended = h.wasSuspended := rfl
@[simp] theorem hart_setReg_pc (h : Hart) (j n : Nat) (x : Dword) : (h.setReg j n x).pc = h.pc := rfl
@[simp] theorem hart_setReg_priv (h : Hart) (j n : Nat) (x : Dword) : (h.setReg j n x).priv = h.priv := rfl
@[simp] theorem hart_setReg_rows (h : Hart) (j n : Nat) (x : Dword) : (h.setReg j n x).rows = h.rows.set j ((h.row j).set h.priv n x) := rfl
@[simp] theorem hart_setReg_csr (h : Hart) (j n : Nat) (x : Dword) : (h.setReg j n x).csr = h.csr := rfl
@[simp] theorem hart_setReg_tmpl (h : Hart) (j n : Nat) (x : Dword) : (h.setReg j n x).tmpl = h.tmpl := rfl
@[simp] theorem hart_setReg_queues (h : Hart) (j n : Nat) (x : Dword) : (h.setReg j n x).queues = h.queues := rfl
@[simp] theorem hart_setReg_timed (h : Hart) (j n : Nat) (x : Dword) : (h.setReg j n x).timed = h.timed := rfl
@[simp] theorem hart_setReg_idx (h : Hart) (j n : Nat) (x : Dword) : (h.setReg j n x).idx = h.idx := rfl
@[simp] theorem hart_setReg_tokens (h : Hart) (j n : Nat) (x : Dword) : (h.setReg j n x).tokens = h.tokens := rfl
@[simp] theorem hart_setReg_slots (h : Hart) (j n : Nat) (x : Dword) : (h.setReg j n x).slots = h.slots := rfl
@[simp] theorem hart_setReg_loads (h : Hart) (j n : Nat) (x : Dword) : (h.setReg j n x).loads = h.loads := rfl
@[simp] theorem hart_setReg_stores (h : Hart) (j n : Nat) (x : Dword) : (h.setReg j n x).stores = h.stores := rfl
@[simp] theorem hart_setReg_event (h : Hart) (j n : Nat) (x : Dword) : (h.setReg j n x).event = h.event := rfl
@[simp] theorem hart_setReg_wait (h : Hart) (j n : Nat) (x : Dword) : (h.setReg j n x).wait = h.wait := rfl
@[simp] theorem hart_setReg_halted (h : Hart) (j n : Nat) (x : Dword) : (h.setReg j n x).halted = h.halted := rfl
@[simp] theorem hart_setReg_traps (h : Hart) (j n : Nat) (x : Dword) : (h.setReg j n x).traps = h.traps := rfl
@[simp] theorem hart_setReg_lastProgress (h : Hart) (j n : Nat) (x : Dword) : (h.setReg j n x).lastProgress = h.lastProgress := rfl
@[simp] theorem hart_setReg_lastIssue (h : Hart) (j n : Nat) (x : Dword) : (h.setReg j n x).lastIssue = h.lastIssue := rfl
@[simp] theorem hart_setReg_order (h : Hart) (j n : Nat) (x : Dword) : (h.setReg j n x).order = h.order := rfl
@[simp] theorem hart_setReg_task (h : Hart) (j n : Nat) (x : Dword) : (h.setReg j n x).task = h.task := rfl
@[simp] theorem hart_setReg_preempt (h : Hart) (j n : Nat) (x : Dword) : (h.setReg j n x).preempt = h.preempt := rfl
@[simp] theorem hart_setReg_reissue (h : Hart) (j n : Nat) (x : Dword) : (h.setReg j n x).reissue = h.reissue := rfl
@[simp] theorem hart_setReg_leaseKept (h : Hart) (j n : Nat) (x : Dword) : (h.setReg j n x).leaseKept = h.leaseKept := rfl
@[simp] theorem hart_setReg_waitSince (h : Hart) (j n : Nat) (x : Dword) : (h.setReg j n x).waitSince = h.waitSince := rfl
@[simp] theorem hart_setReg_mcPending (h : Hart) (j n : Nat) (x : Dword) : (h.setReg j n x).mcPending = h.mcPending := rfl
@[simp] theorem hart_setReg_launchX (h : Hart) (j n : Nat) (x : Dword) : (h.setReg j n x).launchX = h.launchX := rfl
@[simp] theorem hart_setReg_launchA (h : Hart) (j n : Nat) (x : Dword) : (h.setReg j n x).launchA = h.launchA := rfl

/-! ## Hart.setUreg -/

@[simp] theorem hart_setUreg_ctx (h : Hart) (j n : Nat) (x : Dword) : (h.setUreg j n x).ctx = h.ctx := rfl
@[simp] theorem hart_setUreg_group (h : Hart) (j n : Nat) (x : Dword) : (h.setUreg j n x).group = h.group := rfl
@[simp] theorem hart_setUreg_coord (h : Hart) (j n : Nat) (x : Dword) : (h.setUreg j n x).coord = h.coord := rfl
@[simp] theorem hart_setUreg_stage (h : Hart) (j n : Nat) (x : Dword) : (h.setUreg j n x).stage = h.stage := rfl
@[simp] theorem hart_setUreg_cores (h : Hart) (j n : Nat) (x : Dword) : (h.setUreg j n x).cores = h.cores := rfl
@[simp] theorem hart_setUreg_slot (h : Hart) (j n : Nat) (x : Dword) : (h.setUreg j n x).slot = h.slot := rfl
@[simp] theorem hart_setUreg_frame (h : Hart) (j n : Nat) (x : Dword) : (h.setUreg j n x).frame = h.frame := rfl
@[simp] theorem hart_setUreg_prio (h : Hart) (j n : Nat) (x : Dword) : (h.setUreg j n x).prio = h.prio := rfl
@[simp] theorem hart_setUreg_state (h : Hart) (j n : Nat) (x : Dword) : (h.setUreg j n x).state = h.state := rfl
@[simp] theorem hart_setUreg_wasSuspended (h : Hart) (j n : Nat) (x : Dword) : (h.setUreg j n x).wasSuspended = h.wasSuspended := rfl
@[simp] theorem hart_setUreg_pc (h : Hart) (j n : Nat) (x : Dword) : (h.setUreg j n x).pc = h.pc := rfl
@[simp] theorem hart_setUreg_priv (h : Hart) (j n : Nat) (x : Dword) : (h.setUreg j n x).priv = h.priv := rfl
@[simp] theorem hart_setUreg_rows (h : Hart) (j n : Nat) (x : Dword) : (h.setUreg j n x).rows = h.rows.set j ((h.row j).set false n x) := rfl
@[simp] theorem hart_setUreg_csr (h : Hart) (j n : Nat) (x : Dword) : (h.setUreg j n x).csr = h.csr := rfl
@[simp] theorem hart_setUreg_tmpl (h : Hart) (j n : Nat) (x : Dword) : (h.setUreg j n x).tmpl = h.tmpl := rfl
@[simp] theorem hart_setUreg_queues (h : Hart) (j n : Nat) (x : Dword) : (h.setUreg j n x).queues = h.queues := rfl
@[simp] theorem hart_setUreg_timed (h : Hart) (j n : Nat) (x : Dword) : (h.setUreg j n x).timed = h.timed := rfl
@[simp] theorem hart_setUreg_idx (h : Hart) (j n : Nat) (x : Dword) : (h.setUreg j n x).idx = h.idx := rfl
@[simp] theorem hart_setUreg_tokens (h : Hart) (j n : Nat) (x : Dword) : (h.setUreg j n x).tokens = h.tokens := rfl
@[simp] theorem hart_setUreg_slots (h : Hart) (j n : Nat) (x : Dword) : (h.setUreg j n x).slots = h.slots := rfl
@[simp] theorem hart_setUreg_loads (h : Hart) (j n : Nat) (x : Dword) : (h.setUreg j n x).loads = h.loads := rfl
@[simp] theorem hart_setUreg_stores (h : Hart) (j n : Nat) (x : Dword) : (h.setUreg j n x).stores = h.stores := rfl
@[simp] theorem hart_setUreg_event (h : Hart) (j n : Nat) (x : Dword) : (h.setUreg j n x).event = h.event := rfl
@[simp] theorem hart_setUreg_wait (h : Hart) (j n : Nat) (x : Dword) : (h.setUreg j n x).wait = h.wait := rfl
@[simp] theorem hart_setUreg_halted (h : Hart) (j n : Nat) (x : Dword) : (h.setUreg j n x).halted = h.halted := rfl
@[simp] theorem hart_setUreg_traps (h : Hart) (j n : Nat) (x : Dword) : (h.setUreg j n x).traps = h.traps := rfl
@[simp] theorem hart_setUreg_lastProgress (h : Hart) (j n : Nat) (x : Dword) : (h.setUreg j n x).lastProgress = h.lastProgress := rfl
@[simp] theorem hart_setUreg_lastIssue (h : Hart) (j n : Nat) (x : Dword) : (h.setUreg j n x).lastIssue = h.lastIssue := rfl
@[simp] theorem hart_setUreg_order (h : Hart) (j n : Nat) (x : Dword) : (h.setUreg j n x).order = h.order := rfl
@[simp] theorem hart_setUreg_task (h : Hart) (j n : Nat) (x : Dword) : (h.setUreg j n x).task = h.task := rfl
@[simp] theorem hart_setUreg_preempt (h : Hart) (j n : Nat) (x : Dword) : (h.setUreg j n x).preempt = h.preempt := rfl
@[simp] theorem hart_setUreg_reissue (h : Hart) (j n : Nat) (x : Dword) : (h.setUreg j n x).reissue = h.reissue := rfl
@[simp] theorem hart_setUreg_leaseKept (h : Hart) (j n : Nat) (x : Dword) : (h.setUreg j n x).leaseKept = h.leaseKept := rfl
@[simp] theorem hart_setUreg_waitSince (h : Hart) (j n : Nat) (x : Dword) : (h.setUreg j n x).waitSince = h.waitSince := rfl
@[simp] theorem hart_setUreg_mcPending (h : Hart) (j n : Nat) (x : Dword) : (h.setUreg j n x).mcPending = h.mcPending := rfl
@[simp] theorem hart_setUreg_launchX (h : Hart) (j n : Nat) (x : Dword) : (h.setUreg j n x).launchX = h.launchX := rfl
@[simp] theorem hart_setUreg_launchA (h : Hart) (j n : Nat) (x : Dword) : (h.setUreg j n x).launchA = h.launchA := rfl

/-! ## Core.setRing -/

@[simp] theorem core_setRing_lost (c : Core) (n : Nat) (x : Ring) : (c.setRing n x).lost = c.lost := rfl
@[simp] theorem core_setRing_frozen (c : Core) (n : Nat) (x : Ring) : (c.setRing n x).frozen = c.frozen := rfl
@[simp] theorem core_setRing_thaw (c : Core) (n : Nat) (x : Ring) : (c.setRing n x).thaw = c.thaw := rfl
@[simp] theorem core_setRing_l1 (c : Core) (n : Nat) (x : Ring) : (c.setRing n x).l1 = c.l1 := rfl
@[simp] theorem core_setRing_fused (c : Core) (n : Nat) (x : Ring) : (c.setRing n x).fused = c.fused := rfl
@[simp] theorem core_setRing_owner (c : Core) (n : Nat) (x : Ring) : (c.setRing n x).owner = c.owner := rfl
@[simp] theorem core_setRing_tileTag (c : Core) (n : Nat) (x : Ring) : (c.setRing n x).tileTag = c.tileTag := rfl
@[simp] theorem core_setRing_tileOwner (c : Core) (n : Nat) (x : Ring) : (c.setRing n x).tileOwner = c.tileOwner := rfl
@[simp] theorem core_setRing_rings (c : Core) (n : Nat) (x : Ring) : (c.setRing n x).rings = put c.rings n x := rfl
@[simp] theorem core_setRing_queues (c : Core) (n : Nat) (x : Ring) : (c.setRing n x).queues = c.queues := rfl
@[simp] theorem core_setRing_leases (c : Core) (n : Nat) (x : Ring) : (c.setRing n x).leases = c.leases := rfl
@[simp] theorem core_setRing_trace (c : Core) (n : Nat) (x : Ring) : (c.setRing n x).trace = c.trace := rfl

/-! ## Core.setQueue -/

@[simp] theorem core_setQueue_lost (c : Core) (n : Nat) (x : StripQueue) : (c.setQueue n x).lost = c.lost := rfl
@[simp] theorem core_setQueue_frozen (c : Core) (n : Nat) (x : StripQueue) : (c.setQueue n x).frozen = c.frozen := rfl
@[simp] theorem core_setQueue_thaw (c : Core) (n : Nat) (x : StripQueue) : (c.setQueue n x).thaw = c.thaw := rfl
@[simp] theorem core_setQueue_l1 (c : Core) (n : Nat) (x : StripQueue) : (c.setQueue n x).l1 = c.l1 := rfl
@[simp] theorem core_setQueue_fused (c : Core) (n : Nat) (x : StripQueue) : (c.setQueue n x).fused = c.fused := rfl
@[simp] theorem core_setQueue_owner (c : Core) (n : Nat) (x : StripQueue) : (c.setQueue n x).owner = c.owner := rfl
@[simp] theorem core_setQueue_tileTag (c : Core) (n : Nat) (x : StripQueue) : (c.setQueue n x).tileTag = c.tileTag := rfl
@[simp] theorem core_setQueue_tileOwner (c : Core) (n : Nat) (x : StripQueue) : (c.setQueue n x).tileOwner = c.tileOwner := rfl
@[simp] theorem core_setQueue_rings (c : Core) (n : Nat) (x : StripQueue) : (c.setQueue n x).rings = c.rings := rfl
@[simp] theorem core_setQueue_queues (c : Core) (n : Nat) (x : StripQueue) : (c.setQueue n x).queues = put c.queues n x := rfl
@[simp] theorem core_setQueue_leases (c : Core) (n : Nat) (x : StripQueue) : (c.setQueue n x).leases = c.leases := rfl
@[simp] theorem core_setQueue_trace (c : Core) (n : Nat) (x : StripQueue) : (c.setQueue n x).trace = c.trace := rfl

/-! ## Core.setLease -/

@[simp] theorem core_setLease_lost (c : Core) (n : Nat) (x : Lease) : (c.setLease n x).lost = c.lost := rfl
@[simp] theorem core_setLease_frozen (c : Core) (n : Nat) (x : Lease) : (c.setLease n x).frozen = c.frozen := rfl
@[simp] theorem core_setLease_thaw (c : Core) (n : Nat) (x : Lease) : (c.setLease n x).thaw = c.thaw := rfl
@[simp] theorem core_setLease_l1 (c : Core) (n : Nat) (x : Lease) : (c.setLease n x).l1 = c.l1 := rfl
@[simp] theorem core_setLease_fused (c : Core) (n : Nat) (x : Lease) : (c.setLease n x).fused = c.fused := rfl
@[simp] theorem core_setLease_owner (c : Core) (n : Nat) (x : Lease) : (c.setLease n x).owner = c.owner := rfl
@[simp] theorem core_setLease_tileTag (c : Core) (n : Nat) (x : Lease) : (c.setLease n x).tileTag = c.tileTag := rfl
@[simp] theorem core_setLease_tileOwner (c : Core) (n : Nat) (x : Lease) : (c.setLease n x).tileOwner = c.tileOwner := rfl
@[simp] theorem core_setLease_rings (c : Core) (n : Nat) (x : Lease) : (c.setLease n x).rings = c.rings := rfl
@[simp] theorem core_setLease_queues (c : Core) (n : Nat) (x : Lease) : (c.setLease n x).queues = c.queues := rfl
@[simp] theorem core_setLease_leases (c : Core) (n : Nat) (x : Lease) : (c.setLease n x).leases = put c.leases n x := rfl
@[simp] theorem core_setLease_trace (c : Core) (n : Nat) (x : Lease) : (c.setLease n x).trace = c.trace := rfl

/-! ## Reads after writes -/

@[simp] theorem look_setHart (s : State) (n : Nat) (x : Hart) : look (s.setHart n x).harts n = some x :=
  look_put_same _ _ _

theorem look_setHart_other (s : State) {n k : Nat} (x : Hart) (h : k ≠ n) : look (s.setHart n x).harts k = look s.harts k :=
  look_put_other _ _ h

@[simp] theorem look_modHart (s : State) (n : Nat) (f : Hart → Hart) :
    look (s.modHart n f).harts n = (look s.harts n).map f := look_upd_same _ _ _

theorem look_modHart_other (s : State) {n k : Nat} (f : Hart → Hart) (h : k ≠ n) :
    look (s.modHart n f).harts k = look s.harts k := look_upd_other _ _ h

@[simp] theorem core_setCore (s : State) (n : Nat) (x : Core) : (s.setCore n x).core n = x := by
  simp [State.core, lookD]

theorem core_setCore_other (s : State) {n k : Nat} (x : Core) (h : k ≠ n) : (s.setCore n x).core k = s.core k := by
  simp [State.core, lookD, look_put_other _ _ h]

@[simp] theorem stack_setStack (s : State) (n : Nat) (x : Stack) : (s.setStack n x).stack n = x := by
  simp [State.stack, lookD]

@[simp] theorem link_setLink (s : State) (n : Nat) (x : Link) : (s.setLink n x).link n = x := by
  simp [State.link, lookD]

end Sys2Proof.Laws
end

