-- ==== Sys2Proof/Laws/Ops.lean ====
section
/-! SUPPORT. What each shared operation can do, said once: the scalar frame, an engine's turn, a queue command, the
evaluation of a node. -/

namespace Sys2Proof.Laws

open Sys2Proof Sys2Proof.Machine

/-! ## The acting hart -/

theorem withHart_some {s : State} {h : Hart} (e : look s.harts s.focus.hart = some h) (f : Nat → Hart → Out) :
    withHart s f = f s.focus.hart h := by
  simp [withHart, e]

/-- A step of a hart goes on only where the hart exists. -/
theorem withHart_next {s t : State} {f : Nat → Hart → Out} (e : withHart s f = .next t) :
    ∃ h, look s.harts s.focus.hart = some h ∧ f s.focus.hart h = .next t := by
  unfold withHart at e
  split at e
  · exact ⟨_, ‹_›, e⟩
  · simp at e

/-- A scalar instruction runs: its hart exists, it carries no prefix in H, and no register that it names waits. -/
theorem withRegs_runs {s : State} {px : Px} {regs : List Nat} {h : Hart} (e : look s.harts s.focus.hart = some h)
    (p : (h.priv && pxAny px) = false) (r : regs.any h.pending = false) (f : Nat → Hart → Out) :
    withRegs s px regs f = f s.focus.hart h := by
  rw [withRegs, withHart_some e]; simp only [p, r, Bool.false_eq_true, if_false]

/-- A prefix in H raises PRIVILEGE (R263). -/
theorem withRegs_privilege {s : State} {px : Px} {h : Hart} (e : look s.harts s.focus.hart = some h)
    (p : (h.priv && pxAny px) = true) (regs : List Nat) (f : Nat → Hart → Out) :
    withRegs s px regs f = .next (s.takeTrap s.focus.hart (privilegeInfo h 7)) := by
  rw [withRegs, withHart_some e]; simp only [p, if_true]

/-- A register with a result pending holds the instruction (R80). -/
theorem withRegs_waits {s : State} {px : Px} {regs : List Nat} {h : Hart} (e : look s.harts s.focus.hart = some h)
    (p : (h.priv && pxAny px) = false) (r : regs.any h.pending = true) (f : Nat → Hart → Out) :
    withRegs s px regs f = .next s := by
  rw [withRegs, withHart_some e]; simp only [p, r, Bool.false_eq_true, if_false, if_true]

/-- Everything that a scalar instruction's frame can do. -/
theorem withRegs_next {s t : State} {px : Px} {regs : List Nat} {f : Nat → Hart → Out} (e : withRegs s px regs f = .next t) :
    ∃ h, look s.harts s.focus.hart = some h ∧
      (((h.priv && pxAny px) = true ∧ t = s.takeTrap s.focus.hart (privilegeInfo h 7)) ∨
       ((h.priv && pxAny px) = false ∧ regs.any h.pending = true ∧ t = s) ∨
       ((h.priv && pxAny px) = false ∧ regs.any h.pending = false ∧ f s.focus.hart h = .next t)) := by
  obtain ⟨h, hl, e⟩ := withHart_next e
  refine ⟨h, hl, ?_⟩
  by_cases p : (h.priv && pxAny px) = true
  · rw [if_pos p] at e; exact .inl ⟨p, (Host.Outcome.next.inj e).symm⟩
  · rw [if_neg p] at e
    by_cases r : regs.any h.pending = true
    · rw [if_pos r] at e; exact .inr (.inl ⟨by simpa using p, r, (Host.Outcome.next.inj e).symm⟩)
    · rw [if_neg r] at e; exact .inr (.inr ⟨by simpa using p, by simpa using r, e⟩)

/-! ## An engine's turn (R88, R93, R96) -/

/-- A turn whose command may run now. -/
theorem engineRun_runs {s : State} {b : Bool} {e : Eng} {h : Hart} {c : Command} {cs : List Command}
    (hl : look s.harts s.focus.hart = some h) (hq : h.queue e = c :: cs) (hf : c.fault = none) (hd : c.done = none)
    (hm : h.engineMay c = true) (hw : c.consumed = true ∨ (h.waitsMet e c = true ∧ h.slotTaken e c = false))
    (hv : e = .xv → h.vecPending c = false) (hr : b = true → c.rows h ≠ []) (f : State → Nat → Hart → Command → Turn) :
    engineRun b e c.t s f = turnOut s.focus.hart e s (f s s.focus.hart h (c.atIssue s h)) := by
  have h9 : (b && (c.rows h).isEmpty) = false := by
    cases b with
    | false => rfl
    | true =>
      cases hh : c.rows h with
      | nil => exact absurd hh (hr rfl)
      | cons => rfl
  have h10 : (!c.consumed && (!h.waitsMet e c || h.slotTaken e c)) = false := by
    rcases hw with hw | ⟨hw, hw'⟩ <;> simp [*]
  have h11 : (decide (e = .xv) && h.vecPending c) = false := by
    by_cases he : e = .xv
    · rw [hv he, Bool.and_false]
    · rw [decide_eq_false he, Bool.false_and]
  rw [engineRun, withHart_some hl]
  simp only [hq, hf, hd, hm, h9, h10, h11, bne_self_eq_false, Option.isSome_none, Bool.or_self, Bool.not_true, if_false,
    Bool.false_eq_true]

/-- A turn, by die rows, whose command may run now. -/
theorem engineOp_runs {s : State} {e : Eng} {h : Hart} {c : Command} {cs : List Command}
    (hl : look s.harts s.focus.hart = some h) (hq : h.queue e = c :: cs) (hf : c.fault = none) (hd : c.done = none)
    (hm : h.engineMay c = true) (hw : c.consumed = true ∨ (h.waitsMet e c = true ∧ h.slotTaken e c = false))
    (hv : e = .xv → h.vecPending c = false) (hr : c.rows h ≠ []) (f : State → Nat → Hart → Command → Turn) :
    engineOp e c.t s f = turnOut s.focus.hart e s (f s s.focus.hart h (c.atIssue s h)) :=
  engineRun_runs hl hq hf hd hm hw hv (fun _ => hr) f

/-- Everything that an engine operation can do, where it answers a next state. -/
theorem engineRun_next {s t : State} {b : Bool} {e : Eng} {x : Template} {f : State → Nat → Hart → Command → Turn}
    (hn : engineRun b e x s f = .next t) :
    ∃ h c cs, look s.harts s.focus.hart = some h ∧ h.queue e = c :: cs ∧ c.t = x ∧ c.fault = none ∧ c.done = none ∧
      (t = s ∨ t = s.issue s.focus.hart e { c with done := some (Completion.plain 0) } ∨
       turnOut s.focus.hart e s (f s s.focus.hart h (c.atIssue s h)) = .next t) := by
  obtain ⟨h, hl, hn⟩ := withHart_next hn
  split at hn
  · simp at hn
  · next c cs hq =>
    split at hn
    · simp at hn
    · next hg =>
      simp only [Bool.or_eq_true, bne_iff_ne, ne_eq, not_or, Decidable.not_not, Bool.not_eq_true,
        Option.isSome_eq_false_iff, Option.isNone_iff_eq_none] at hg
      refine ⟨h, c, cs, hl, hq, hg.1.1, hg.1.2, hg.2, ?_⟩
      split at hn
      · exact .inl (Host.Outcome.next.inj hn).symm
      · split at hn
        · exact .inl (Host.Outcome.next.inj hn).symm
        · split at hn
          · exact .inl (Host.Outcome.next.inj hn).symm
          · split at hn
            · exact .inr (.inl (Host.Outcome.next.inj hn).symm)
            · exact .inr (.inr hn)

/-! ## Queue commands and nodes -/

/-- Everything that a command which moves a queue can do (R329): it stutters, it ends with status 2, or it leaves what its
own part gives for the queue named. -/
theorem queueCommand_eq (s : State) (op : Nat) (f : HwQueue → Option (State × Nat)) :
    queueCommand s op f = .next s ∨ queueCommand s op f = .next (s.qcmdEnd 2) ∨
      ∃ x y, look s.wqueues s.qid = some x ∧ f x = some y ∧ queueCommand s op f = .next (y.1.qcmdEnd y.2) := by
  rw [queueCommand]
  by_cases g : s.qcmdIs op
  · rw [if_neg (by simp [g])]
    rcases hx : s.queueNow.bind f with - | y
    · exact .inr (.inl rfl)
    · obtain ⟨x, hl, hf⟩ := Option.bind_eq_some_iff.mp hx
      exact .inr (.inr ⟨x, y, hl, hf, rfl⟩)
  · exact .inl (if_pos (by simp [g]))

/-- Everything that the evaluation of a node can do (R338): it stutters, or the node due is one that the step handles,
and a node out of place ends its launch with code 1. -/
theorem nodeStep_eq (s : State) (mine : Node → Bool) (f : Nat → Launch → Nat → Node → Out) :
    nodeStep s mine f = .next s ∨
      ∃ x, s.nodeDue s.focus.unit = some x ∧ mine x.2.2 = true ∧
        nodeStep s mine f = (if hbmAligned x.2.1 64 && x.2.2.ok then f s.focus.unit x.1 x.2.1 x.2.2
                             else .next (s.nodeFail s.focus.unit 1 x.2.1)) := by
  rw [nodeStep]
  rcases s.nodeDue s.focus.unit with - | x
  · exact .inl rfl
  · by_cases m : mine x.2.2
    · exact .inr ⟨x, rfl, m, by simp [m]⟩
    · exact .inl (by simp [m])

/-! ## Registers and retirement (R80, R105) -/

/-- A retired instruction changes the harts only. -/
theorem retire_eq (s : State) (hid : Nat) (h : Hart) (px : Px) : s.retire hid h px = s.setHart hid (h.retire s.now px) := rfl

theorem retire_pc (h : Hart) (now : Nat) (px : Px) : (h.retire now px).pc = h.pc + BitVec.ofNat 64 (pxBytes px) := rfl

theorem retire_rows (h : Hart) (now : Nat) (px : Px) : (h.retire now px).rows = h.rows := rfl

theorem retire_retired (h : Hart) (now : Nat) (px : Px) : (h.retire now px).csr.retired = h.csr.retired + 1 := rfl

/-! ## Memory of the package -/

/-- A sector written keeps the canonical form of memory. -/
theorem wf_writeSector {s : State} (h : Memory.wf s.mem = true) (l : Loc) (x : Sector) :
    Memory.wf (s.writeSector l x).mem = true := wf_setNat h _ _ _

/-- A raw write keeps the canonical form of memory. -/
theorem wf_writeRaw {s : State} (h : Memory.wf s.mem = true) (l : Loc) (n x : Nat) :
    Memory.wf (s.writeRaw l n x).mem = true := by
  unfold State.writeRaw
  split
  · exact wf_writeSector h _ _
  · split
    · exact wf_setNat h _ _ _
    · exact wf_writeSector h _ _

/-- A raw write of the package, which a missing frame drops, keeps the canonical form of memory. -/
theorem wf_sysWrite {s : State} (h : Memory.wf s.mem = true) (dpa n x : Nat) : Memory.wf (s.sysWrite dpa n x).mem = true := by
  unfold State.sysWrite
  split
  · exact wf_writeRaw h _ _ _
  · exact h

/-- A noted write breaks host reservations and drops the LLC's copy, and touches nothing else. -/
theorem noteWrite_eq (s : State) (k : Nat) :
    s.noteWrite k = { s with hostRes := (s.noteWrite k).hostRes, llc := (s.noteWrite k).llc } := by
  unfold State.noteWrite
  split <;> rfl

/-- A sector written leaves everything but memory, its side-band and error marks, host reservations and the LLC's copy alone. -/
theorem writeSector_eq (s : State) (l : Loc) (x : Sector) :
    s.writeSector l x = { s with
      mem := (s.writeSector l x).mem, sides := (s.writeSector l x).sides, errors := (s.writeSector l x).errors,
      hostRes := (s.writeSector l x).hostRes, llc := (s.writeSector l x).llc } := by
  unfold State.writeSector
  simp only []
  rw [noteWrite_eq]

/-- A raw write leaves everything but memory, its side-band and error marks, host reservations and the LLC's copy alone. -/
theorem writeRaw_eq (s : State) (l : Loc) (n x : Nat) :
    s.writeRaw l n x = { s with
      mem := (s.writeRaw l n x).mem, sides := (s.writeRaw l n x).sides, errors := (s.writeRaw l n x).errors,
      hostRes := (s.writeRaw l n x).hostRes, llc := (s.writeRaw l n x).llc } := by
  unfold State.writeRaw
  split
  · exact writeSector_eq s l _
  · split
    · rw [noteWrite_eq]
    · exact writeSector_eq s l _

/-- A trap that the hart can take in its own code (R262): H at TRAPVEC, the record at TRAPREC, the pc held. -/
theorem takeTrap_vectored {s : State} {hid : Nat} {h : Hart} {l : Loc × Nat} (t : TrapInfo)
    (hl : look s.harts hid = some h) (hp : h.priv = false) (ht : s.trecLoc h = some l) (hv : h.csr.trapvec ≠ 0)
    (hc : t.cause ≠ .mcUncorrectable) :
    ∃ g, s.takeTrap hid t = (s.writeRecord h l (s.trapRecord h t)).setHart hid g ∧ g.priv = true ∧
      g.pc = h.csr.trapvec ∧ g.traps = { hold := h.pc, inFrame := false, wait := h.wait.kept } :: h.traps ∧
      g.rows = h.rows ∧ g.queues = h.queues ∧ g.state = .running ∧
      g.csr.trapCause = BitVec.ofNat 10 (causeCode t.cause) := by
  have hg : (h.csr.trapvec != 0 && t.cause != .mcUncorrectable) = true := by
    rw [Bool.and_eq_true, bne_iff_ne, bne_iff_ne]; exact ⟨hv, hc⟩
  rw [State.takeTrap]
  simp only [hl, hp, ht, hg, Bool.false_eq_true, if_false, if_true]
  exact ⟨_, rfl, rfl, rfl, rfl, rfl, rfl, rfl, rfl⟩

end Sys2Proof.Laws
end

