-- ==== Sys2Proof/Laws/PerInstr.lean ====
section
/-! SUPPORT. For every constructor: the words of its encoding are one to five (R78, R92). -/

namespace Sys2Proof.Laws

open Sys2Proof Sys2Proof.Machine

/-- The prefix words are at most two. -/
theorem pxWords_length (px : Px) : (pxWords px).length ≤ 2 := by
  unfold pxWords; split <;> split <;> simp

/-- A word after its prefixes takes one to three words. -/
theorem asm_length (px : Px) (base : Nat) (fs : List (Nat × Nat)) (ws : List Word) (h : asm px base fs = some ws) :
    1 ≤ ws.length ∧ ws.length ≤ 5 := by
  have hp := pxWords_length px
  simp only [asm, Option.some.injEq] at h
  subst h
  simp only [List.length_append, List.length_cons, List.length_nil]
  omega

end Sys2Proof.Laws

namespace Sys2Proof.Laws.EncodedForm

open Sys2Proof Sys2Proof.Machine

/-- The encoding of an instruction, where it has one, takes one to five words. -/
def Statement (i : Instr) : Prop := ∀ ws, encode i = some ws → 1 ≤ ws.length ∧ ws.length ≤ 5

theorem add (px : Px) (d : Reg) (a : Reg) (b : Reg) : Statement (.add px d a b) := fun ws h => asm_length _ _ _ ws h
theorem sub (px : Px) (d : Reg) (a : Reg) (b : Reg) : Statement (.sub px d a b) := fun ws h => asm_length _ _ _ ws h
theorem and (px : Px) (d : Reg) (a : Reg) (b : Reg) : Statement (.and px d a b) := fun ws h => asm_length _ _ _ ws h
theorem or (px : Px) (d : Reg) (a : Reg) (b : Reg) : Statement (.or px d a b) := fun ws h => asm_length _ _ _ ws h
theorem xor (px : Px) (d : Reg) (a : Reg) (b : Reg) : Statement (.xor px d a b) := fun ws h => asm_length _ _ _ ws h
theorem sll (px : Px) (d : Reg) (a : Reg) (b : Reg) : Statement (.sll px d a b) := fun ws h => asm_length _ _ _ ws h
theorem srl (px : Px) (d : Reg) (a : Reg) (b : Reg) : Statement (.srl px d a b) := fun ws h => asm_length _ _ _ ws h
theorem sra (px : Px) (d : Reg) (a : Reg) (b : Reg) : Statement (.sra px d a b) := fun ws h => asm_length _ _ _ ws h
theorem slt (px : Px) (d : Reg) (a : Reg) (b : Reg) : Statement (.slt px d a b) := fun ws h => asm_length _ _ _ ws h
theorem sltu (px : Px) (d : Reg) (a : Reg) (b : Reg) : Statement (.sltu px d a b) := fun ws h => asm_length _ _ _ ws h
theorem mul (px : Px) (d : Reg) (a : Reg) (b : Reg) : Statement (.mul px d a b) := fun ws h => asm_length _ _ _ ws h
theorem mulh (px : Px) (d : Reg) (a : Reg) (b : Reg) : Statement (.mulh px d a b) := fun ws h => asm_length _ _ _ ws h
theorem mulhu (px : Px) (d : Reg) (a : Reg) (b : Reg) : Statement (.mulhu px d a b) := fun ws h => asm_length _ _ _ ws h
theorem div (px : Px) (d : Reg) (a : Reg) (b : Reg) : Statement (.div px d a b) := fun ws h => asm_length _ _ _ ws h
theorem divu (px : Px) (d : Reg) (a : Reg) (b : Reg) : Statement (.divu px d a b) := fun ws h => asm_length _ _ _ ws h
theorem rem (px : Px) (d : Reg) (a : Reg) (b : Reg) : Statement (.rem px d a b) := fun ws h => asm_length _ _ _ ws h
theorem remu (px : Px) (d : Reg) (a : Reg) (b : Reg) : Statement (.remu px d a b) := fun ws h => asm_length _ _ _ ws h
theorem min (px : Px) (d : Reg) (a : Reg) (b : Reg) : Statement (.min px d a b) := fun ws h => asm_length _ _ _ ws h
theorem max (px : Px) (d : Reg) (a : Reg) (b : Reg) : Statement (.max px d a b) := fun ws h => asm_length _ _ _ ws h
theorem minu (px : Px) (d : Reg) (a : Reg) (b : Reg) : Statement (.minu px d a b) := fun ws h => asm_length _ _ _ ws h
theorem maxu (px : Px) (d : Reg) (a : Reg) (b : Reg) : Statement (.maxu px d a b) := fun ws h => asm_length _ _ _ ws h
theorem addw (px : Px) (d : Reg) (a : Reg) (b : Reg) : Statement (.addw px d a b) := fun ws h => asm_length _ _ _ ws h
theorem subw (px : Px) (d : Reg) (a : Reg) (b : Reg) : Statement (.subw px d a b) := fun ws h => asm_length _ _ _ ws h
theorem clz (px : Px) (d : Reg) (a : Reg) : Statement (.clz px d a) := fun ws h => asm_length _ _ _ ws h
theorem ctz (px : Px) (d : Reg) (a : Reg) : Statement (.ctz px d a) := fun ws h => asm_length _ _ _ ws h
theorem popc (px : Px) (d : Reg) (a : Reg) : Statement (.popc px d a) := fun ws h => asm_length _ _ _ ws h
theorem sext (px : Px) (d : Reg) (a : Reg) (w : BitVec 2) : Statement (.sext px d a w) := fun ws h => asm_length _ _ _ ws h
theorem zext (px : Px) (d : Reg) (a : Reg) (w : BitVec 2) : Statement (.zext px d a w) := fun ws h => asm_length _ _ _ ws h
theorem bfx (px : Px) (d : Reg) (a : Reg) (b : Reg) (x : BitVec 1) : Statement (.bfx px d a b x) := fun ws h => asm_length _ _ _ ws h
theorem cmov (px : Px) (d : Reg) (a : Reg) (b : Reg) : Statement (.cmov px d a b) := fun ws h => asm_length _ _ _ ws h
theorem addi (px : Px) (d : Reg) (a : Reg) (i : BitVec 13) : Statement (.addi px d a i) := fun ws h => asm_length _ _ _ ws h
theorem andi (px : Px) (d : Reg) (a : Reg) (i : BitVec 13) : Statement (.andi px d a i) := fun ws h => asm_length _ _ _ ws h
theorem ori (px : Px) (d : Reg) (a : Reg) (i : BitVec 13) : Statement (.ori px d a i) := fun ws h => asm_length _ _ _ ws h
theorem xori (px : Px) (d : Reg) (a : Reg) (i : BitVec 13) : Statement (.xori px d a i) := fun ws h => asm_length _ _ _ ws h
theorem slli (px : Px) (d : Reg) (a : Reg) (h : BitVec 6) : Statement (.slli px d a h) := fun ws h => asm_length _ _ _ ws h
theorem srli (px : Px) (d : Reg) (a : Reg) (h : BitVec 6) : Statement (.srli px d a h) := fun ws h => asm_length _ _ _ ws h
theorem srai (px : Px) (d : Reg) (a : Reg) (h : BitVec 6) : Statement (.srai px d a h) := fun ws h => asm_length _ _ _ ws h
theorem slti (px : Px) (d : Reg) (a : Reg) (i : BitVec 13) : Statement (.slti px d a i) := fun ws h => asm_length _ _ _ ws h
theorem sltiu (px : Px) (d : Reg) (a : Reg) (i : BitVec 13) : Statement (.sltiu px d a i) := fun ws h => asm_length _ _ _ ws h
theorem lui (px : Px) (d : Reg) (u : BitVec 18) : Statement (.lui px d u) := fun ws h => asm_length _ _ _ ws h
theorem auipc (px : Px) (d : Reg) (u : BitVec 18) : Statement (.auipc px d u) := fun ws h => asm_length _ _ _ ws h
theorem fadd32 (px : Px) (d : Reg) (a : Reg) (b : Reg) (t : BitVec 1) (m : BitVec 3) : Statement (.fadd32 px d a b t m) := fun ws h => asm_length _ _ _ ws h
theorem fsub32 (px : Px) (d : Reg) (a : Reg) (b : Reg) (t : BitVec 1) (m : BitVec 3) : Statement (.fsub32 px d a b t m) := fun ws h => asm_length _ _ _ ws h
theorem fmul32 (px : Px) (d : Reg) (a : Reg) (b : Reg) (t : BitVec 1) (m : BitVec 3) : Statement (.fmul32 px d a b t m) := fun ws h => asm_length _ _ _ ws h
theorem fma32 (px : Px) (d : Reg) (a : Reg) (b : Reg) (t : BitVec 1) (m : BitVec 3) : Statement (.fma32 px d a b t m) := fun ws h => asm_length _ _ _ ws h
theorem fdiv32 (px : Px) (d : Reg) (a : Reg) (b : Reg) (t : BitVec 1) (m : BitVec 3) : Statement (.fdiv32 px d a b t m) := fun ws h => asm_length _ _ _ ws h
theorem fsqrt32 (px : Px) (d : Reg) (a : Reg) (t : BitVec 1) (m : BitVec 3) : Statement (.fsqrt32 px d a t m) := fun ws h => asm_length _ _ _ ws h
theorem fmin32 (px : Px) (d : Reg) (a : Reg) (b : Reg) : Statement (.fmin32 px d a b) := fun ws h => asm_length _ _ _ ws h
theorem fmax32 (px : Px) (d : Reg) (a : Reg) (b : Reg) : Statement (.fmax32 px d a b) := fun ws h => asm_length _ _ _ ws h
theorem fcmp32 (px : Px) (d : Reg) (a : Reg) (b : Reg) (p : BitVec 3) : Statement (.fcmp32 px d a b p) := fun ws h => asm_length _ _ _ ws h
theorem fcvtif (px : Px) (d : Reg) (a : Reg) (k : BitVec 2) (m : BitVec 3) : Statement (.fcvtif px d a k m) := fun ws h => asm_length _ _ _ ws h
theorem fcvtfi (px : Px) (d : Reg) (a : Reg) (k : BitVec 2) (m : BitVec 3) : Statement (.fcvtfi px d a k m) := fun ws h => asm_length _ _ _ ws h
theorem fcvtffTo (px : Px) (d : Reg) (a : Reg) (t : BitVec 1) (f : BitVec 5) (m : BitVec 3) : Statement (.fcvtffTo px d a t f m) := fun ws h => asm_length _ _ _ ws h
theorem fcvtffFrom (px : Px) (d : Reg) (a : Reg) (f : BitVec 5) (m : BitVec 3) : Statement (.fcvtffFrom px d a f m) := fun ws h => asm_length _ _ _ ws h
theorem lb (px : Px) (d : Reg) (a : Reg) (c : BitVec 5) (o : BitVec 8) : Statement (.lb px d a c o) := fun ws h => asm_length _ _ _ ws h
theorem lbu (px : Px) (d : Reg) (a : Reg) (c : BitVec 5) (o : BitVec 8) : Statement (.lbu px d a c o) := fun ws h => asm_length _ _ _ ws h
theorem lh (px : Px) (d : Reg) (a : Reg) (c : BitVec 5) (o : BitVec 8) : Statement (.lh px d a c o) := fun ws h => asm_length _ _ _ ws h
theorem lhu (px : Px) (d : Reg) (a : Reg) (c : BitVec 5) (o : BitVec 8) : Statement (.lhu px d a c o) := fun ws h => asm_length _ _ _ ws h
theorem lw (px : Px) (d : Reg) (a : Reg) (c : BitVec 5) (o : BitVec 8) : Statement (.lw px d a c o) := fun ws h => asm_length _ _ _ ws h
theorem lwu (px : Px) (d : Reg) (a : Reg) (c : BitVec 5) (o : BitVec 8) : Statement (.lwu px d a c o) := fun ws h => asm_length _ _ _ ws h
theorem ld (px : Px) (d : Reg) (a : Reg) (c : BitVec 5) (o : BitVec 8) : Statement (.ld px d a c o) := fun ws h => asm_length _ _ _ ws h
theorem sb (px : Px) (d : Reg) (a : Reg) (i : BitVec 13) : Statement (.sb px d a i) := fun ws h => asm_length _ _ _ ws h
theorem sh (px : Px) (d : Reg) (a : Reg) (i : BitVec 13) : Statement (.sh px d a i) := fun ws h => asm_length _ _ _ ws h
theorem sw (px : Px) (d : Reg) (a : Reg) (i : BitVec 13) : Statement (.sw px d a i) := fun ws h => asm_length _ _ _ ws h
theorem sd (px : Px) (d : Reg) (a : Reg) (i : BitVec 13) : Statement (.sd px d a i) := fun ws h => asm_length _ _ _ ws h
theorem bwait (px : Px) (a : Reg) (p : BitVec 1) : Statement (.bwait px a p) := fun ws h => asm_length _ _ _ ws h
theorem barrive (px : Px) (d : Reg) (a : Reg) (n : BitVec 8) : Statement (.barrive px d a n) := fun ws h => asm_length _ _ _ ws h
theorem bararm (px : Px) (d : Reg) (a : Reg) : Statement (.bararm px d a) := fun ws h => asm_length _ _ _ ws h
theorem barinit (px : Px) (a : Reg) (n : BitVec 8) (k : BitVec 5) : Statement (.barinit px a n k) := fun ws h => asm_length _ _ _ ws h
theorem beq (px : Px) (x : Reg) (y : Reg) (i : BitVec 13) : Statement (.beq px x y i) := fun ws h => asm_length _ _ _ ws h
theorem bne (px : Px) (x : Reg) (y : Reg) (i : BitVec 13) : Statement (.bne px x y i) := fun ws h => asm_length _ _ _ ws h
theorem blt (px : Px) (x : Reg) (y : Reg) (i : BitVec 13) : Statement (.blt px x y i) := fun ws h => asm_length _ _ _ ws h
theorem bge (px : Px) (x : Reg) (y : Reg) (i : BitVec 13) : Statement (.bge px x y i) := fun ws h => asm_length _ _ _ ws h
theorem bltu (px : Px) (x : Reg) (y : Reg) (i : BitVec 13) : Statement (.bltu px x y i) := fun ws h => asm_length _ _ _ ws h
theorem bgeu (px : Px) (x : Reg) (y : Reg) (i : BitVec 13) : Statement (.bgeu px x y i) := fun ws h => asm_length _ _ _ ws h
theorem jal (px : Px) (d : Reg) (j : BitVec 18) : Statement (.jal px d j) := fun ws h => asm_length _ _ _ ws h
theorem jalr (px : Px) (d : Reg) (a : Reg) (i : BitVec 13) : Statement (.jalr px d a i) := fun ws h => asm_length _ _ _ ws h
theorem csrrw (px : Px) (d : Reg) (a : Reg) (c : BitVec 12) : Statement (.csrrw px d a c) := fun ws h => asm_length _ _ _ ws h
theorem csrrs (px : Px) (d : Reg) (a : Reg) (c : BitVec 12) : Statement (.csrrs px d a c) := fun ws h => asm_length _ _ _ ws h
theorem csrrc (px : Px) (d : Reg) (a : Reg) (c : BitVec 12) : Statement (.csrrc px d a c) := fun ws h => asm_length _ _ _ ws h
theorem prtabaWrite (px : Px) (op : CsrOp) (d : Reg) (a : Reg) : Statement (.prtabaWrite px op d a) := fun ws h => by cases h
theorem dmaskAccess (px : Px) (op : CsrOp) (d : Reg) (a : Reg) : Statement (.dmaskAccess px op d a) := fun ws h => by cases h
theorem xstatSrseedAccess (px : Px) (op : CsrOp) (d : Reg) (a : Reg) (c : BitVec 12) : Statement (.xstatSrseedAccess px op d a c) := fun ws h => by cases h
theorem tapeCsrAccess (px : Px) (op : CsrOp) (d : Reg) (a : Reg) (c : BitVec 12) : Statement (.tapeCsrAccess px op d a c) := fun ws h => by cases h
theorem vlset (px : Px) (d : Reg) (a : Reg) (w : BitVec 3) : Statement (.vlset px d a w) := fun ws h => asm_length _ _ _ ws h
theorem scopewr (px : Px) (d : Reg) (a : Reg) (n : BitVec 1) (e : BitVec 5) : Statement (.scopewr px d a n e) := fun ws h => asm_length _ _ _ ws h
theorem scopeinv (px : Px) (d : Reg) (n : BitVec 1) (e : BitVec 5) : Statement (.scopeinv px d n e) := fun ws h => asm_length _ _ _ ws h
theorem recordOff (px : Px) : Statement (.recordOff px) := fun ws h => asm_length _ _ _ ws h
theorem recordOn (px : Px) : Statement (.recordOn px) := fun ws h => asm_length _ _ _ ws h
theorem recordMark (px : Px) : Statement (.recordMark px) := fun ws h => asm_length _ _ _ ws h
theorem reverse (px : Px) (a : Reg) : Statement (.reverse px a) := fun ws h => asm_length _ _ _ ws h
theorem ecall (px : Px) (n : BitVec 12) : Statement (.ecall px n) := fun ws h => asm_length _ _ _ ws h
theorem ebreak (px : Px) : Statement (.ebreak px) := fun ws h => asm_length _ _ _ ws h
theorem trapret (px : Px) : Statement (.trapret px) := fun ws h => asm_length _ _ _ ws h
theorem wfe (px : Px) : Statement (.wfe px) := fun ws h => asm_length _ _ _ ws h
theorem fences (px : Px) (k : BitVec 5) : Statement (.fences px k) := fun ws h => asm_length _ _ _ ws h
theorem lsync (px : Px) : Statement (.lsync px) := fun ws h => asm_length _ _ _ ws h
theorem drainSpad (px : Px) : Statement (.drainSpad px) := fun ws h => asm_length _ _ _ ws h
theorem drainDev (px : Px) : Statement (.drainDev px) := fun ws h => asm_length _ _ _ ws h
theorem drainDom (px : Px) : Statement (.drainDom px) := fun ws h => asm_length _ _ _ ws h
theorem nodeb (px : Px) : Statement (.nodeb px) := fun ws h => asm_length _ _ _ ws h
theorem yield (px : Px) : Statement (.yield px) := fun ws h => asm_length _ _ _ ws h
theorem texit (px : Px) : Statement (.texit px) := fun ws h => asm_length _ _ _ ws h
theorem cursor (px : Px) (d : Reg) : Statement (.cursor px d) := fun ws h => asm_length _ _ _ ws h
theorem pstep (px : Px) (d : Reg) : Statement (.pstep px d) := fun ws h => asm_length _ _ _ ws h
theorem frd (px : Px) (d : Reg) (a : Reg) (i : BitVec 5) : Statement (.frd px d a i) := fun ws h => asm_length _ _ _ ws h
theorem fwr (px : Px) (d : Reg) (a : Reg) (i : BitVec 5) : Statement (.fwr px d a i) := fun ws h => asm_length _ _ _ ws h
theorem tmld (px : Px) (a : Reg) (c : BitVec 3) (f : BitVec 6) (n : BitVec 4) : Statement (.tmld px a c f n) := fun ws h => asm_length _ _ _ ws h
theorem tmpli (c : BitVec 3) (n : BitVec 6) (w0 : Word) (w1 : Word) (w2 : Word) (w3 : Word) : Statement (.tmpli c n w0 w1 w2 w3) := fun ws h => by cases h; exact ⟨by simp, by simp⟩
theorem amoadd (px : Px) (d : Reg) (a : Reg) (w : BitVec 2) (o : BitVec 2) (k : BitVec 5) : Statement (.amoadd px d a w o k) := fun ws h => asm_length _ _ _ ws h
theorem amoand (px : Px) (d : Reg) (a : Reg) (w : BitVec 2) (o : BitVec 2) (k : BitVec 5) : Statement (.amoand px d a w o k) := fun ws h => asm_length _ _ _ ws h
theorem amoor (px : Px) (d : Reg) (a : Reg) (w : BitVec 2) (o : BitVec 2) (k : BitVec 5) : Statement (.amoor px d a w o k) := fun ws h => asm_length _ _ _ ws h
theorem amoxor (px : Px) (d : Reg) (a : Reg) (w : BitVec 2) (o : BitVec 2) (k : BitVec 5) : Statement (.amoxor px d a w o k) := fun ws h => asm_length _ _ _ ws h
theorem amomin (px : Px) (d : Reg) (a : Reg) (w : BitVec 2) (o : BitVec 2) (k : BitVec 5) : Statement (.amomin px d a w o k) := fun ws h => asm_length _ _ _ ws h
theorem amomax (px : Px) (d : Reg) (a : Reg) (w : BitVec 2) (o : BitVec 2) (k : BitVec 5) : Statement (.amomax px d a w o k) := fun ws h => asm_length _ _ _ ws h
theorem amominu (px : Px) (d : Reg) (a : Reg) (w : BitVec 2) (o : BitVec 2) (k : BitVec 5) : Statement (.amominu px d a w o k) := fun ws h => asm_length _ _ _ ws h
theorem amomaxu (px : Px) (d : Reg) (a : Reg) (w : BitVec 2) (o : BitVec 2) (k : BitVec 5) : Statement (.amomaxu px d a w o k) := fun ws h => asm_length _ _ _ ws h
theorem amoswap (px : Px) (d : Reg) (a : Reg) (w : BitVec 2) (o : BitVec 2) (k : BitVec 5) : Statement (.amoswap px d a w o k) := fun ws h => asm_length _ _ _ ws h
theorem amocas (px : Px) (d : Reg) (a : Reg) (w : BitVec 2) (o : BitVec 2) (k : BitVec 5) : Statement (.amocas px d a w o k) := fun ws h => asm_length _ _ _ ws h
theorem ldaq (px : Px) (d : Reg) (a : Reg) (w : BitVec 2) (k : BitVec 5) : Statement (.ldaq px d a w k) := fun ws h => asm_length _ _ _ ws h
theorem strl (px : Px) (d : Reg) (a : Reg) (w : BitVec 2) (k : BitVec 5) : Statement (.strl px d a w k) := fun ws h => asm_length _ _ _ ws h
theorem amofadd (px : Px) (d : Reg) (a : Reg) (o : BitVec 2) (k : BitVec 5) : Statement (.amofadd px d a o k) := fun ws h => asm_length _ _ _ ws h
theorem dmsetc (px : Px) (a : Reg) (z : BitVec 1) : Statement (.dmsetc px a z) := fun ws h => asm_length _ _ _ ws h
theorem dred (px : Px) (d : Reg) (a : Reg) (o : BitVec 3) : Statement (.dred px d a o) := fun ws h => asm_length _ _ _ ws h
theorem dbcast (px : Px) (d : Reg) (a : Reg) (r : BitVec 3) : Statement (.dbcast px d a r) := fun ws h => asm_length _ _ _ ws h
theorem commandFormation (px : Px) (e : Eng) (tix : BitVec 6) (tok : BitVec 4) (fsel : BitVec 3) (val : BitVec 16) : Statement (.commandFormation px e tix tok fsel val) := fun ws h => asm_length _ _ _ ws h
theorem pageAbsentReply (a : Access) : Statement (.pageAbsentReply a) := fun ws h => by cases h
theorem ald (t : Template) : Statement (.ald t) := fun ws h => by cases h
theorem alds (t : Template) : Statement (.alds t) := fun ws h => by cases h
theorem ald2 (t : Template) : Statement (.ald2 t) := fun ws h => by cases h
theorem agath (t : Template) : Statement (.agath t) := fun ws h => by cases h
theorem aldt (t : Template) : Statement (.aldt t) := fun ws h => by cases h
theorem aring (t : Template) : Statement (.aring t) := fun ws h => by cases h
theorem aspx (t : Template) : Statement (.aspx t) := fun ws h => by cases h
theorem aqcfg (t : Template) : Statement (.aqcfg t) := fun ws h => by cases h
theorem apref (t : Template) : Statement (.apref t) := fun ws h => by cases h
theorem sst (t : Template) : Statement (.sst t) := fun ws h => by cases h
theorem ssts (t : Template) : Statement (.ssts t) := fun ws h => by cases h
theorem sst2 (t : Template) : Statement (.sst2 t) := fun ws h => by cases h
theorem sscat (t : Template) : Statement (.sscat t) := fun ws h => by cases h
theorem sacc (t : Template) : Statement (.sacc t) := fun ws h => by cases h
theorem sspx (t : Template) : Statement (.sspx t) := fun ws h => by cases h
theorem stag (t : Template) : Statement (.stag t) := fun ws h => by cases h
theorem feset (t : Template) : Statement (.feset t) := fun ws h => by cases h
theorem vadd (t : Template) : Statement (.vadd t) := fun ws h => by cases h
theorem vsub (t : Template) : Statement (.vsub t) := fun ws h => by cases h
theorem vmul (t : Template) : Statement (.vmul t) := fun ws h => by cases h
theorem vfma (t : Template) : Statement (.vfma t) := fun ws h => by cases h
theorem vfms (t : Template) : Statement (.vfms t) := fun ws h => by cases h
theorem vmin (t : Template) : Statement (.vmin t) := fun ws h => by cases h
theorem vmax (t : Template) : Statement (.vmax t) := fun ws h => by cases h
theorem vabs (t : Template) : Statement (.vabs t) := fun ws h => by cases h
theorem vneg (t : Template) : Statement (.vneg t) := fun ws h => by cases h
theorem vdiv (t : Template) : Statement (.vdiv t) := fun ws h => by cases h
theorem vsqrt (t : Template) : Statement (.vsqrt t) := fun ws h => by cases h
theorem vrsq (t : Template) : Statement (.vrsq t) := fun ws h => by cases h
theorem vexp (t : Template) : Statement (.vexp t) := fun ws h => by cases h
theorem vlog (t : Template) : Statement (.vlog t) := fun ws h => by cases h
theorem vtanh (t : Template) : Statement (.vtanh t) := fun ws h => by cases h
theorem vsigm (t : Template) : Statement (.vsigm t) := fun ws h => by cases h
theorem vand (t : Template) : Statement (.vand t) := fun ws h => by cases h
theorem vor (t : Template) : Statement (.vor t) := fun ws h => by cases h
theorem vxor (t : Template) : Statement (.vxor t) := fun ws h => by cases h
theorem vnot (t : Template) : Statement (.vnot t) := fun ws h => by cases h
theorem vshl (t : Template) : Statement (.vshl t) := fun ws h => by cases h
theorem vshr (t : Template) : Statement (.vshr t) := fun ws h => by cases h
theorem vshrr (t : Template) : Statement (.vshrr t) := fun ws h => by cases h
theorem vdot2 (t : Template) : Statement (.vdot2 t) := fun ws h => by cases h
theorem vdot4 (t : Template) : Statement (.vdot4 t) := fun ws h => by cases h
theorem vsadd (t : Template) : Statement (.vsadd t) := fun ws h => by cases h
theorem vssub (t : Template) : Statement (.vssub t) := fun ws h => by cases h
theorem vmulh (t : Template) : Statement (.vmulh t) := fun ws h => by cases h
theorem vcmp (t : Template) : Statement (.vcmp t) := fun ws h => by cases h
theorem vsel (t : Template) : Statement (.vsel t) := fun ws h => by cases h
theorem vclass (t : Template) : Statement (.vclass t) := fun ws h => by cases h
theorem vslide (t : Template) : Statement (.vslide t) := fun ws h => by cases h
theorem vperm (t : Template) : Statement (.vperm t) := fun ws h => by cases h
theorem vzip (t : Template) : Statement (.vzip t) := fun ws h => by cases h
theorem vunzip (t : Template) : Statement (.vunzip t) := fun ws h => by cases h
theorem vbcast (t : Template) : Statement (.vbcast t) := fun ws h => by cases h
theorem vextr (t : Template) : Statement (.vextr t) := fun ws h => by cases h
theorem vredsum (t : Template) : Statement (.vredsum t) := fun ws h => by cases h
theorem vredsumo (t : Template) : Statement (.vredsumo t) := fun ws h => by cases h
theorem vredmax (t : Template) : Statement (.vredmax t) := fun ws h => by cases h
theorem vredmin (t : Template) : Statement (.vredmin t) := fun ws h => by cases h
theorem vcvt (t : Template) : Statement (.vcvt t) := fun ws h => by cases h
theorem vqnt (t : Template) : Statement (.vqnt t) := fun ws h => by cases h
theorem vtagr (t : Template) : Statement (.vtagr t) := fun ws h => by cases h
theorem vtagw (t : Template) : Statement (.vtagw t) := fun ws h => by cases h
theorem vsexp (t : Template) : Statement (.vsexp t) := fun ws h => by cases h
theorem vpop (t : Template) : Statement (.vpop t) := fun ws h => by cases h
theorem vpush (t : Template) : Statement (.vpush t) := fun ws h => by cases h
theorem vldr (t : Template) : Statement (.vldr t) := fun ws h => by cases h
theorem vstr (t : Template) : Statement (.vstr t) := fun ws h => by cases h
theorem kand (t : Template) : Statement (.kand t) := fun ws h => by cases h
theorem kor (t : Template) : Statement (.kor t) := fun ws h => by cases h
theorem knot (t : Template) : Statement (.knot t) := fun ws h => by cases h
theorem kpopc (t : Template) : Statement (.kpopc t) := fun ws h => by cases h
theorem kfirst (t : Template) : Statement (.kfirst t) := fun ws h => by cases h
theorem vrda (t : Template) : Statement (.vrda t) := fun ws h => by cases h
theorem vwra (t : Template) : Statement (.vwra t) := fun ws h => by cases h
theorem vmov (t : Template) : Statement (.vmov t) := fun ws h => by cases h
theorem vid (t : Template) : Statement (.vid t) := fun ws h => by cases h
theorem vseti (t : Template) : Statement (.vseti t) := fun ws h => by cases h
theorem mlease (t : Template) : Statement (.mlease t) := fun ws h => by cases h
theorem mrelease (t : Template) : Statement (.mrelease t) := fun ws h => by cases h
theorem ringcfg (t : Template) : Statement (.ringcfg t) := fun ws h => by cases h
theorem ringput (t : Template) : Statement (.ringput t) := fun ws h => by cases h
theorem ringpop (t : Template) : Statement (.ringpop t) := fun ws h => by cases h
theorem ringqry (t : Template) : Statement (.ringqry t) := fun ws h => by cases h
theorem tmma (t : Template) : Statement (.tmma t) := fun ws h => by cases h
theorem tmmap (t : Template) : Statement (.tmmap t) := fun ws h => by cases h
theorem tzero (t : Template) : Statement (.tzero t) := fun ws h => by cases h
theorem tadd (t : Template) : Statement (.tadd t) := fun ws h => by cases h
theorem tsub (t : Template) : Statement (.tsub t) := fun ws h => by cases h
theorem tmul (t : Template) : Statement (.tmul t) := fun ws h => by cases h
theorem tscl (t : Template) : Statement (.tscl t) := fun ws h => by cases h
theorem tbias (t : Template) : Statement (.tbias t) := fun ws h => by cases h
theorem tact (t : Template) : Statement (.tact t) := fun ws h => by cases h
theorem trsum (t : Template) : Statement (.trsum t) := fun ws h => by cases h
theorem tcsum (t : Template) : Statement (.tcsum t) := fun ws h => by cases h
theorem trmax (t : Template) : Statement (.trmax t) := fun ws h => by cases h
theorem ttrans (t : Template) : Statement (.ttrans t) := fun ws h => by cases h
theorem tcvt (t : Template) : Statement (.tcvt t) := fun ws h => by cases h
theorem tloada (t : Template) : Statement (.tloada t) := fun ws h => by cases h
theorem tcopy (t : Template) : Statement (.tcopy t) := fun ws h => by cases h
theorem jcopy (t : Template) : Statement (.jcopy t) := fun ws h => by cases h
theorem jfill (t : Template) : Statement (.jfill t) := fun ws h => by cases h
theorem jpref (t : Template) : Statement (.jpref t) := fun ws h => by cases h
theorem jcopy2 (t : Template) : Statement (.jcopy2 t) := fun ws h => by cases h
theorem jgath (t : Template) : Statement (.jgath t) := fun ws h => by cases h
theorem jscat (t : Template) : Statement (.jscat t) := fun ws h => by cases h
theorem jred (t : Template) : Statement (.jred t) := fun ws h => by cases h
theorem jcoll (t : Template) : Statement (.jcoll t) := fun ws h => by cases h
theorem jrecode (t : Template) : Statement (.jrecode t) := fun ws h => by cases h
theorem jtens (t : Template) : Statement (.jtens t) := fun ws h => by cases h
theorem hmaskChange (masks : List Dword) : Statement (.hmaskChange masks) := fun ws h => by cases h
theorem domainWindowConfig (cfg : WindowCfg) : Statement (.domainWindowConfig cfg) := fun ws h => by cases h
theorem tdBoot (r : BootRecord) (signed : Bool) : Statement (.tdBoot r signed) := fun ws h => by cases h
theorem watchSet (cfg : WatchCfg) : Statement (.watchSet cfg) := fun ws h => by cases h
theorem registerWrite (dpa : Nat) (v : Dword) : Statement (.registerWrite dpa v) := fun ws h => by cases h
theorem illegalOpcode (px : Px) (w : Word) : Statement (.illegalOpcode px w) := fun ws h => by
  have hp := pxWords_length px
  cases h
  simp only [List.length_append, List.length_cons, List.length_nil]
  omega
theorem applicationHartAccess (h : Nat) (ctx : Nat) (kind : HostAccess) : Statement (.applicationHartAccess h ctx kind) := fun ws h => by cases h
theorem domainAccessArrival (pkg : Nat) (ctx : Nat) (kind : DomainAccess) : Statement (.domainAccessArrival pkg ctx kind) := fun ws h => by cases h
theorem scopeChangeInstall : Statement (.scopeChangeInstall) := fun ws h => by cases h
theorem spatulaRecord : Statement (.spatulaRecord) := fun ws h => by cases h
theorem wfeTimeout : Statement (.wfeTimeout) := fun ws h => by cases h
theorem formationFaultRaise : Statement (.formationFaultRaise) := fun ws h => by cases h
theorem commandCompletion : Statement (.commandCompletion) := fun ws h => by cases h
theorem engineDeadlock : Statement (.engineDeadlock) := fun ws h => by cases h
theorem loadDataArrival : Statement (.loadDataArrival) := fun ws h => by cases h
theorem loadLanding : Statement (.loadLanding) := fun ws h => by cases h
theorem mcUncorrectable : Statement (.mcUncorrectable) := fun ws h => by cases h
theorem leaseGrant : Statement (.leaseGrant) := fun ws h => by cases h
theorem leaseTimeout : Statement (.leaseTimeout) := fun ws h => by cases h
theorem leaseIdleExpiry : Statement (.leaseIdleExpiry) := fun ws h => by cases h
theorem tileSpill : Statement (.tileSpill) := fun ws h => by cases h
theorem jobStart : Statement (.jobStart) := fun ws h => by cases h
theorem jobSectorWrite : Statement (.jobSectorWrite) := fun ws h => by cases h
theorem jobComplete : Statement (.jobComplete) := fun ws h => by cases h
theorem jobResume : Statement (.jobResume) := fun ws h => by cases h
theorem jobFaultRaise : Statement (.jobFaultRaise) := fun ws h => by cases h
theorem ctxalloc : Statement (.ctxalloc) := fun ws h => by cases h
theorem ctxfree : Statement (.ctxfree) := fun ws h => by cases h
theorem ctxabort : Statement (.ctxabort) := fun ws h => by cases h
theorem ctxcmdInvalid : Statement (.ctxcmdInvalid) := fun ws h => by cases h
theorem purgeComplete : Statement (.purgeComplete) := fun ws h => by cases h
theorem hcmdResume : Statement (.hcmdResume) := fun ws h => by cases h
theorem hcmdInvalid : Statement (.hcmdInvalid) := fun ws h => by cases h
theorem qcmdEnable : Statement (.qcmdEnable) := fun ws h => by cases h
theorem qcmdPause : Statement (.qcmdPause) := fun ws h => by cases h
theorem qcmdResume : Statement (.qcmdResume) := fun ws h => by cases h
theorem qcmdDrain : Statement (.qcmdDrain) := fun ws h => by cases h
theorem qcmdDisable : Statement (.qcmdDisable) := fun ws h => by cases h
theorem qcmdSkip : Statement (.qcmdSkip) := fun ws h => by cases h
theorem qcmdInvalid : Statement (.qcmdInvalid) := fun ws h => by cases h
theorem qtbaseWrite : Statement (.qtbaseWrite) := fun ws h => by cases h
theorem doorbellWrite : Statement (.doorbellWrite) := fun ws h => by cases h
theorem launchAdmission : Statement (.launchAdmission) := fun ws h => by cases h
theorem kernelNode : Statement (.kernelNode) := fun ws h => by cases h
theorem jobNode : Statement (.jobNode) := fun ws h => by cases h
theorem eventSet : Statement (.eventSet) := fun ws h => by cases h
theorem eventWait : Statement (.eventWait) := fun ws h => by cases h
theorem eventWaitReread : Statement (.eventWaitReread) := fun ws h => by cases h
theorem eventMsi : Statement (.eventMsi) := fun ws h => by cases h
theorem condNode : Statement (.condNode) := fun ws h => by cases h
theorem loopNode : Statement (.loopNode) := fun ws h => by cases h
theorem switchNode : Statement (.switchNode) := fun ws h => by cases h
theorem kernelPlacement : Statement (.kernelPlacement) := fun ws h => by cases h
theorem cursorWake : Statement (.cursorWake) := fun ws h => by cases h
theorem preemptionDeadline : Statement (.preemptionDeadline) := fun ws h => by cases h
theorem hartRestore : Statement (.hartRestore) := fun ws h => by cases h
theorem dieRemapRequest : Statement (.dieRemapRequest) := fun ws h => by cases h
theorem quiesceGateAck : Statement (.quiesceGateAck) := fun ws h => by cases h
theorem pitcmdWrite : Statement (.pitcmdWrite) := fun ws h => by cases h
theorem pitcmdMigrate : Statement (.pitcmdMigrate) := fun ws h => by cases h
theorem pitcmdRecode : Statement (.pitcmdRecode) := fun ws h => by cases h
theorem pitcmdInvalid : Statement (.pitcmdInvalid) := fun ws h => by cases h
theorem passStart : Statement (.passStart) := fun ws h => by cases h
theorem backgroundPassStart : Statement (.backgroundPassStart) := fun ws h => by cases h
theorem passSectorStep : Statement (.passSectorStep) := fun ws h => by cases h
theorem rd : Statement (.rd) := fun ws h => by cases h
theorem wr : Statement (.wr) := fun ws h => by cases h
theorem wrm : Statement (.wrm) := fun ws h => by cases h
theorem trd : Statement (.trd) := fun ws h => by cases h
theorem tagw : Statement (.tagw) := fun ws h => by cases h
theorem mrr : Statement (.mrr) := fun ws h => by cases h
theorem packetReply : Statement (.packetReply) := fun ws h => by cases h
theorem refresh : Statement (.refresh) := fun ws h => by cases h
theorem scrubStep : Statement (.scrubStep) := fun ws h => by cases h
theorem heartbeatMissing : Statement (.heartbeatMissing) := fun ws h => by cases h
theorem refreshHandover : Statement (.refreshHandover) := fun ws h => by cases h
theorem linkTrainingStart : Statement (.linkTrainingStart) := fun ws h => by cases h
theorem linkTrainingComplete : Statement (.linkTrainingComplete) := fun ws h => by cases h
theorem linkTrainingTimeout : Statement (.linkTrainingTimeout) := fun ws h => by cases h
theorem linkStepUp : Statement (.linkStepUp) := fun ws h => by cases h
theorem linkStepDown : Statement (.linkStepDown) := fun ws h => by cases h
theorem linkRatePolicy : Statement (.linkRatePolicy) := fun ws h => by cases h
theorem flitReplay : Statement (.flitReplay) := fun ws h => by cases h
theorem linkRetrainComplete : Statement (.linkRetrainComplete) := fun ws h => by cases h
theorem linkHoldExpiry : Statement (.linkHoldExpiry) := fun ws h => by cases h
theorem collectiveContribution : Statement (.collectiveContribution) := fun ws h => by cases h
theorem collectiveTimeout : Statement (.collectiveTimeout) := fun ws h => by cases h
theorem collectiveAck : Statement (.collectiveAck) := fun ws h => by cases h
theorem deviceRead : Statement (.deviceRead) := fun ws h => by cases h
theorem deviceWrite : Statement (.deviceWrite) := fun ws h => by cases h
theorem dieRelease : Statement (.dieRelease) := fun ws h => by cases h
theorem dieReadyTimeout : Statement (.dieReadyTimeout) := fun ws h => by cases h
theorem rekeyRequest : Statement (.rekeyRequest) := fun ws h => by cases h
theorem getVersion : Statement (.getVersion) := fun ws h => by cases h
theorem getCapabilities : Statement (.getCapabilities) := fun ws h => by cases h
theorem negotiateAlgorithms : Statement (.negotiateAlgorithms) := fun ws h => by cases h
theorem getDigests : Statement (.getDigests) := fun ws h => by cases h
theorem getCertificate : Statement (.getCertificate) := fun ws h => by cases h
theorem challenge : Statement (.challenge) := fun ws h => by cases h
theorem getMeasurements : Statement (.getMeasurements) := fun ws h => by cases h
theorem keyExchange : Statement (.keyExchange) := fun ws h => by cases h
theorem powerTick : Statement (.powerTick) := fun ws h => by cases h
theorem thermalTrip : Statement (.thermalTrip) := fun ws h => by cases h
theorem applicationHartFence : Statement (.applicationHartFence) := fun ws h => by cases h
theorem accessPerformed : Statement (.accessPerformed) := fun ws h => by cases h
theorem cxlBackInvalidation : Statement (.cxlBackInvalidation) := fun ws h => by cases h

end Sys2Proof.Laws.EncodedForm
end

