-- ==== Sys2Proof/Tests/Slice0.lean ====
section
/-! SUPPORT. Small tests: what WellFormed refuses, words of the spec decoded, one step of many instructions, and for each
statement a state and operands that meet its hypotheses. -/

set_option Elab.async false

namespace Sys2Proof.Tests

open Sys2Proof Sys2Proof.Machine Sys2Proof.Claim

/-! ## Helpers -/

/-- No prefix. -/
def px0 : Px := { diep := none, valx := none }

/-- A VALX prefix whose value is v, and a DIEP prefix of die mask m. -/
def pxV (v : Nat) : Px := { diep := none, valx := some (BitVec.ofNat 26 (v * 2 ^ 7)) }
def pxD (m : Nat) : Px := { diep := some (BitVec.ofNat 26 (m * 2 ^ 18)), valx := none }

/-- The hart of the placed program with registers in row 0. -/
def regs (r : List (Nat × Dword)) (h : Hart) : Hart := r.foldl (fun g y => g.setReg 0 y.1 y.2) h

/-- The machine of the placed program with another hart. -/
def on (h : Hart) : State := (State.reset.withFetchWord 32 0).setHart 0 h

/-- The placed program's hart with registers in row 0. -/
def hr (r : List (Nat × Dword)) : Hart := regs r Hart.program

/-- A hart of a die span of two. -/
def hart2 : Hart :=
  Hart.launch { ctx := 0, group := 0, coord := 0, stage := 0, cores := [0, 16], slot := 0, frame := 0, prio := 0 }
    0x4000000000 (Csrs.launch 2 1 1 2 0 0 0) RowRegs.zero []

/-- What a step leaves of the hart. -/
def after {α : Type} (o : Out) (f : State → Hart → α) : Option α :=
  match o with
  | .next t => (look t.harts 0).map (f t)
  | _ => none

/-- A check that passes, with a property of what it gives. -/
theorem good {κ β : Type} {r : Except κ β} (p : β → Bool) (pass : r.toOption.any p = true) :
    ∃ y, r = .ok y ∧ p y = true := by
  cases r with
  | ok y => exact ⟨y, rfl, pass⟩
  | error _ => cases pass

/-- A scalar instruction runs now. -/
theorem runs {s : State} {px : Px} {rs : List Nat} {h : Hart}
    (e : (decide (s.focus.hart = 0) && decide (look s.harts 0 = some h) && !(h.priv && pxAny px) && !(rs.any h.pending)) =
      true) : Runs s px rs 0 h := by
  simp only [Bool.and_eq_true, decide_eq_true_eq, Bool.not_eq_true'] at e
  exact ⟨e.1.1.1, e.1.1.2, e.1.2, e.2⟩

/-- An engine's command may run now: its hart is the first one, and the command stands at the head of its queue. -/
theorem head {s : State} {e : Eng} {h : Hart} {c : Command}
    (x : (s.focus.hart = 0 ∧ look s.harts 0 = some h ∧ (h.queue e).head? = some c ∧ c.fault = none ∧ c.done = none ∧
      h.engineMay c = true ∧ (c.consumed = true ∨ (h.waitsMet e c = true ∧ h.slotTaken e c = false)) ∧
      (e = .xv → h.vecPending c = false)) ∧ c.rows h ≠ []) :
    Head s e 0 h c :=
  ⟨⟨x.1.1, x.1.2.1, List.head?_eq_some_iff.mp x.1.2.2.1, x.1.2.2.2⟩, x.2⟩

/-! ## Integers, floats, branches, loads and stores -/

/-- s5 is an address, s6 and s7 data. -/
def hi : Hart := hr [(5, 0x4000000080), (6, 0x123456789ABCDEF0), (7, 5)]

/-- Two rows whose s5 differ, and whose s6 and s7 are equal. -/
def h2 : Hart := (hart2.setReg 0 5 1).setReg 1 5 2

theorem witness_IntegerRegisterResults : Runs (on hi) px0 [8, 5, 6] 0 hi := runs (by decide +kernel)
theorem witness_IntegerImmediateResults : Runs (on hi) px0 [8, 5, 6] 0 hi ∧ (2 : BitVec 2) ≠ 3 :=
  ⟨runs (by decide +kernel), by decide⟩
theorem witness_ScalarFloatResults : Runs (on hi) px0 [8, 5, 6] 0 hi := runs (by decide +kernel)
theorem witness_OneRegisterFrame : (∃ t, writesOne (.add px0 8 5 6) = some (px0, 8, [5, 6]) ∧
    Runs (on hi) px0 [8, 5, 6] 0 hi ∧ exec (.add px0 8 5 6) (on hi) = goes t) ∧ rowsMatch hi :=
  ⟨⟨_, rfl, runs (by decide +kernel), rfl⟩, rfl⟩
theorem witness_FloatFrame : ∃ t, writesFloat (.fadd32 px0 8 5 6 0 0) = some (px0, 8, [5, 6]) ∧
    Runs (on hi) px0 [8, 5, 6] 0 hi ∧ exec (.fadd32 px0 8 5 6 0 0) (on hi) = goes t :=
  ⟨_, rfl, runs (by decide +kernel), rfl⟩
theorem witness_BranchResults : Runs (on hi) px0 [6, 7] 0 hi ∧ hi.active px0 ≠ [] ∧
    (∀ j ∈ hi.active px0, hi.reg j 6 = hi.reg j 6) ∧ (∀ j ∈ hi.active px0, ¬ hi.reg j 6 = hi.reg j 7) :=
  ⟨runs (by decide +kernel), by decide +kernel⟩
theorem witness_BranchResults_divergent : Runs (on h2) px0 [5, 6] 0 h2 ∧
    (∃ j ∈ h2.active px0, (h2.reg j 5).toNat < 2) ∧ (∃ j ∈ h2.active px0, ¬ (h2.reg j 5).toNat < 2) :=
  ⟨runs (by decide +kernel), by decide +kernel⟩
theorem witness_JumpResults : Runs (on hi) px0 [8, 5] 0 hi ∧ hi.active px0 ≠ [] ∧
    (∀ j ∈ hi.active px0, hi.reg j 5 + pxImm px0 8 = 0x4000000088) ∧ (0x4000000088 : Dword).toNat % 4 = 0 :=
  ⟨runs (by decide +kernel), by decide +kernel⟩
theorem witness_JumpResults_rows : Runs (on hi) (pxD 0) [8, 5] 0 hi ∧ hi.active (pxD 0) = [] ∧ Runs (on h2) px0 [8, 5] 0 h2 ∧
    (∃ j ∈ h2.active px0, ∃ r ∈ h2.active px0, h2.reg j 5 ≠ h2.reg r 5) :=
  ⟨runs (by decide +kernel), by decide +kernel, runs (by decide +kernel), by decide +kernel⟩
/-- A load at s5 passes its checks; the last byte of the code page is the boundary. -/
def vaOf (n : Nat) (j : Nat) : Dword := rowAddr hi px0 5 (0 * BitVec.ofNat 64 n) j
theorem witness_LoadResults (n : Nat) (hn : n = 1 ∨ n = 2 ∨ n = 4 ∨ n = 8) : Runs (on hi) px0 [8, 5] 0 hi ∧
    (on hi).checkRows hi .r n n (vaOf n) (hi.active px0) = .ok [(0, 0x4000080)] ∧ hi.accessAhead n [(0, 0x4000080)] = false ∧
    ∃ y, (on hi).homeRows hi .plain (vaOf n) [(0, 0x4000080)] = .ok y ∧ decide (y.1.defer = false) = true := by
  refine ⟨runs (by decide +kernel), ?_⟩
  rcases hn with rfl | rfl | rfl | rfl <;> exact ⟨by decide +kernel, by decide +kernel, good _ (by decide +kernel)⟩
theorem witness_LoadResults_timed : Runs (on hi) px0 [8, 5] 0 hi ∧ 4 ≤ (4 : BitVec 5).toNat ∧ hi.trivetUsed < 64 ∧
    (on hi).checkRows hi .r 8 8 (vaOf 8) (hi.active px0) = .ok [(0, 0x4000080)] :=
  ⟨runs (by decide +kernel), by decide +kernel⟩
theorem witness_StoreResults (n : Nat) (hn : n = 1 ∨ n = 2 ∨ n = 4 ∨ n = 8) : Runs (on hi) px0 [6, 5] 0 hi ∧
    (on hi).checkRows hi .w n n (vaOf n) (hi.active px0) = .ok [(0, 0x4000080)] ∧
    hi.accessAhead n [(0, 0x4000080)] = false ∧
    ∃ y, (on hi).homeRows hi .write (vaOf n) [(0, 0x4000080)] = .ok y ∧ decide (y.1.defer = false) = true := by
  refine ⟨runs (by decide +kernel), ?_⟩
  rcases hn with rfl | rfl | rfl | rfl <;> exact ⟨by decide +kernel, by decide +kernel, good _ (by decide +kernel)⟩
theorem witness_StoreResults_bytes : ∃ y, (on hi).homeRows hi .write (vaOf 8) [(0, 0x4000080)] = .ok y ∧
    (rising y.1.mem && y.2.all (fun l => decide (l.2.xf = .plain) && decide (tagCls (y.1.tagAt l.2.key) ≠ 0))) = true :=
  good _ (by decide +kernel)
/-- A machine whose plan defers the accesses of the step. -/
def deferred (s : State) : State := { s with defer := true }
theorem witness_LoadResults_deferred : Runs (deferred (on hi)) px0 [8, 5] 0 hi ∧
    (deferred (on hi)).checkRows hi .r 8 8 (vaOf 8) (hi.active px0) = .ok [(0, 0x4000080)] ∧
    ∃ y, (deferred (on hi)).homeRows hi .plain (vaOf 8) [(0, 0x4000080)] = .ok y ∧ decide (y.1.defer = true) = true :=
  ⟨runs (by decide +kernel), by decide +kernel, good _ (by decide +kernel)⟩
theorem witness_StoreResults_deferred : (deferred (on hi)).checkRows hi .w 8 8 (vaOf 8) (hi.active px0) = .ok [(0, 0x4000080)] ∧
    ∃ y, (deferred (on hi)).homeRows hi .write (vaOf 8) [(0, 0x4000080)] = .ok y ∧ decide (y.1.defer = true) = true :=
  ⟨by decide +kernel, good _ (by decide +kernel)⟩
def hm : Hart := hr [(5, 0x4000000081)]
theorem witness_MisalignedTraps : Runs (on hm) px0 [8, 5] 0 hm ∧ hm.active px0 = [0] ∧
    (rowAddr hm px0 5 (pxLoadOffset px0 0 * BitVec.ofNat 64 2) 0).toNat % 2 ≠ 0 ∧
    (rowAddr hm px0 5 (pxImm px0 0 * BitVec.ofNat 64 8) 0).toNat % 8 ≠ 0 ∧
    (∀ r ∈ hm.active px0, hm.reg r 5 + pxImm px0 0 = 0x4000000081) ∧ (0x4000000081 : Dword).toNat % 4 ≠ 0 :=
  ⟨runs (by decide +kernel), by decide +kernel⟩
theorem witness_AtomicResults : Runs (on hi) px0 [6, 7, 5] 0 hi ∧ (on hi).defer = false ∧ hi.wait.fenceOn 31 = none ∧
    (on hi).scopePending hi.ctx 31 = false ∧ (on hi).scopeRows hi 31 (hi.active px0) = none ∧ hi.releaseReady = true ∧
    (on hi).checkRows hi .rw 8 8 (vaOf 8) (hi.active px0) = .ok [(0, 0x4000080)] ∧
    hi.accessAhead 8 [(0, 0x4000080)] = false ∧
    ∃ y, (on hi).homeRows hi .syncWrite (vaOf 8) [(0, 0x4000080)] = .ok y ∧ decide (y.1.defer = false) = true :=
  ⟨runs (by decide +kernel), by decide +kernel, by decide +kernel, by decide +kernel, by decide +kernel, by decide +kernel,
    by decide +kernel, by decide +kernel, good _ (by decide +kernel)⟩
theorem witness_AtomicResults_acquire : Runs (on hi) px0 [6, 5] 0 hi ∧
    (on hi).checkRows hi .r 4 4 (vaOf 4) (hi.active px0) = .ok [(0, 0x4000080)] ∧
    (on hi).checkRows hi .w 4 4 (vaOf 4) (hi.active px0) = .ok [(0, 0x4000080)] ∧ hi.accessAhead 4 [(0, 0x4000080)] = false ∧
    ∃ y, (on hi).homeRows hi .sync (vaOf 4) [(0, 0x4000080)] = .ok y ∧ true = true :=
  ⟨runs (by decide +kernel), by decide +kernel, by decide +kernel, by decide +kernel, good _ (by decide +kernel)⟩

theorem test_add : after (exec (.add px0 8 5 6) (on hi)) (fun _ h => (h.reg 0 8, h.pc)) =
    some (0x123456B89ABCDF70, 0x4000000004) := by decide +kernel
theorem test_add_to_s0 : after (exec (.add px0 0 5 6) (on hi)) (fun _ h => h.reg 0 0) = some 0 := by decide +kernel
theorem test_div_least : after (exec (.div px0 8 5 6) (on (hr [(5, 0x8000000000000000), (6, 0xFFFFFFFFFFFFFFFF)])))
    (fun _ h => h.reg 0 8) = some 0x8000000000000000 := by decide +kernel
theorem test_rem_zero : after (exec (.rem px0 8 6 9) (on hi)) (fun _ h => h.reg 0 8) = some 0x123456789ABCDEF0 := by
  decide +kernel
theorem test_mulhu : after (exec (.mulhu px0 8 5 5) (on (hr [(5, 0xFFFFFFFFFFFFFFFF)]))) (fun _ h => h.reg 0 8) =
    some 0xFFFFFFFFFFFFFFFE := by decide +kernel
theorem test_bfx_sign : after (exec (.bfx px0 8 6 5 1) (on (hr [(5, 0x404), (6, 0xFF)]))) (fun _ h => h.reg 0 8) =
    some 0xFFFFFFFFFFFFFFFF := by decide +kernel
theorem test_addi_valx : after (exec (.addi (pxV 1) 8 0 0) (on hi)) (fun _ h => (h.reg 0 8, h.pc)) =
    some (0x2000, 0x4000000008) := by decide +kernel
theorem test_lui : after (exec (.lui px0 8 0x3FFFF) (on hi)) (fun _ h => h.reg 0 8) = some 0xFFFFFFFFFFFFE000 := by
  decide +kernel
theorem test_fadd : after (exec (.fadd32 px0 8 5 6 0 0) (on (hr [(5, 0x3F800000), (6, 0x40000000)])))
    (fun _ h => (h.reg 0 8, h.csr.xstat)) = some (0x40400000, 0) := by decide +kernel
theorem test_fdiv_inexact : after (exec (.fdiv32 px0 8 5 6 0 0) (on (hr [(5, 0x3F800000), (6, 0x40400000)])))
    (fun _ h => (h.reg 0 8, h.csr.xstat)) = some (0x3EAAAAAB, 1) := by decide +kernel
theorem test_sd_little_endian : after (exec (.sd px0 6 5 1) (on hi)) (fun s _ => getBytes s.mem 0x4000088 8) =
    some [0xF0, 0xDE, 0xBC, 0x9A, 0x78, 0x56, 0x34, 0x12] := by decide +kernel
theorem test_lb_sign : after (exec (.lb px0 8 5 0 0) { on hi with mem := [(0x4000080, 0x80)] }) (fun _ h => h.reg 0 8) =
    some 0xFFFFFFFFFFFFFF80 := by decide +kernel
theorem test_blt_signed : after (exec (.blt px0 5 0 0x1FFF) (on (hr [(5, 0xFFFFFFFFFFFFFFFF)]))) (fun _ h => h.pc) =
    some 0x3FFFFFFFFC := by decide +kernel
theorem test_bltu_unsigned : after (exec (.bltu px0 5 0 0x1FFF) (on (hr [(5, 0xFFFFFFFFFFFFFFFF)]))) (fun _ h => h.pc) =
    some 0x4000000004 := by decide +kernel
theorem test_jalr_source_is_link : after (exec (.jalr px0 5 5 4) (on hi)) (fun _ h => (h.pc, h.reg 0 5)) =
    some (0x4000000084, 0x4000000004) := by decide +kernel
theorem test_amomin_signed : after (exec (.amomin px0 6 5 0 0 0) (on (hr [(5, 0x4000000080), (6, 0xFFFFFFFF)])))
    (fun s h => (getBytes s.mem 0x4000080 4, h.reg 0 6)) = some ([0xFF, 0xFF, 0xFF, 0xFF], 0) := by decide +kernel

/-! ## CSRs, die rows and traps -/

/-- The same hart in H. -/
def hH : Hart := { hi with priv := true }

theorem witness_CsrResults : Runs (on hi) px0 [8, 6] 0 hi ∧ hi.active px0 = [0] ∧ (0x00C : BitVec 12) ≠ 0x003 ∧
    hi.csrWaits 0x00C = false ∧ (csrHOnly 0x00C = true → hi.priv = true) ∧ csrReject 0x00C 0 = none :=
  ⟨runs (by decide +kernel), by decide +kernel⟩
theorem witness_CsrResults_traps : hi.active px0 = [0] ∧ (csrHOnly 0x030 = true ∧ hi.priv = false) ∧
    hi.csrWaits 0x030 = false ∧ (csrHOnly 0x009 = true → hi.priv = true) ∧ hi.reg 0 6 &&& csrRz 0x009 ≠ 0 := by
  decide +kernel
def hp : Hart := { hr [(5, 0x4000000000)] with priv := true }
theorem witness_SpecialCsrResults : Runs (on hp) px0 [8, 9] 0 hp ∧ hp.active px0 = [0] ∧ hp.priv = true ∧
    hp.reg 0 9 = 0 ∧ hp.reg 0 5 ≠ 0 ∧ hp.enginesIdle = true ∧ hp.awaits .mx = false ∧ csrReject 0x008 0 = none ∧
    csrReject 0x020 0 = none ∧ csrReject 0x023 0 = none :=
  ⟨runs (by decide +kernel), by decide +kernel⟩
theorem witness_SpecialCsrResults_table :
    ∃ y, (on hp).rawStruct (hp.setRegs (hp.active px0) 8 (fun _ => (on hp).csrValue hp 0x040)) 0 1024 256 4 0x4000000000
      = .ok y ∧ true = true := good _ (by decide +kernel)
theorem witness_DmaskResults : Runs (on hi) px0 [8, 7] 0 hi ∧ hi.allRows = 0 :: [] ∧ (hi.reg 0 7).toNat < 256 ∧
    ((hi.csr.dmask.zeroExtend 64 ||| hi.reg 0 7 : Dword)).toNat < 256 :=
  ⟨runs (by decide +kernel), by decide +kernel⟩
theorem witness_DieMaskChange : Runs (on h2) px0 [5] 0 h2 := runs (by decide +kernel)
theorem witness_DieRowResults : Runs (on h2) px0 [8, 5] 0 h2 ∧ h2.active px0 = [0, 1] ∧ (4 : BitVec 3).toNat < 5 ∧
    (6 : BitVec 3) ≠ 7 ∧ (1 : BitVec 3).toNat < h2.span ∧ h2.span ≤ (2 : BitVec 3).toNat :=
  ⟨runs (by decide +kernel), by decide +kernel⟩
theorem witness_CallResults : Runs (on hi) px0 [] 0 hi ∧ hi.priv = false := ⟨runs (by decide +kernel), rfl⟩
def hv : Hart :=
  { hi with csr := { hi.csr with traprec := 0x4000000080, trapvec := 0x4000000100 }, priv := true }
theorem witness_CallResults_return : Runs (on hv) px0 [] 0 hv ∧ hv.priv = true ∧
    ∃ y, (on hv).rawStruct hv 0 64 64 1 hv.csr.traprec = .ok y ∧
      (!recordRz y.2 && decide (bits y.2 12 10 = 0) && !bitOf y.2 17) = true :=
  ⟨runs (by decide +kernel), rfl, good _ (by decide +kernel)⟩
def hu : Hart := { hv with priv := false }
theorem witness_TrapEntry : look (on hu).harts 0 = some hu ∧ hu.priv = false ∧ hu.csr.trapvec ≠ 0 ∧
    ((on hu).trecLoc hu).isSome = true ∧ hH.priv = true ∧ look (on hH).harts 0 = some hH := by decide +kernel
theorem test_record_index : bits ((on hi).trapRecord { hi with idx := #v[9, 8, 7, 6, 5, 4] }
      { scalarInfo hi 1 .misaligned 0 none with eng := 2, idx := some 3 }).toNat 223 128 =
    9 + 8 * 2 ^ 16 + 3 * 2 ^ 32 + 6 * 2 ^ 48 + 5 * 2 ^ 64 + 4 * 2 ^ 80 := by decide +kernel
theorem test_csrrs_read : after (exec (.csrrs px0 8 0 0x001) (on hi)) (fun _ h => h.reg 0 8) = some 0x1100000000 := by
  decide +kernel
theorem test_csrrc_rmode : after (exec (.csrrc px0 8 7 0x009) (on { hi with csr := { hi.csr with rmode := 7 } }))
    (fun _ h => (h.reg 0 8, h.csr.rmode)) = some (7, 2) := by decide +kernel
theorem test_privilege : after (exec (.csrrw px0 8 7 0x030) (on hu)) (fun _ h => (h.priv, h.pc, h.csr.trapCause)) =
    some (true, 0x4000000100, 0x030) := by decide +kernel
theorem test_dmsetc : after (exec (.dmsetc px0 5 0) (on (h2.setReg 0 5 0))) (fun _ h => h.csr.dmask) = some 2 := by
  decide +kernel
theorem test_dred_add : after (exec (.dred px0 8 5 0) (on h2)) (fun _ h => (h.reg 0 8, h.reg 1 8)) = some (3, 3) := by
  decide +kernel
theorem test_ecall_record : after (exec (.ecall px0 5) (on hu)) (fun s h => (getNat s.mem 0x4000080 16, h.pc)) =
    some (0x40000000040000000500000060, 0x4000000100) := by decide +kernel
theorem test_vlset : after (exec (.vlset px0 8 5 2) (on hi)) (fun _ h => (h.csr.vl, h.csr.vlcw, h.reg 0 8)) =
    some (128, 2, 128) := by decide +kernel

/-! ## Joins, scopes, barriers, future cells, tasks and recording -/

/-- A hart waiting in WFE since cycle 0, and a machine 65,536 periods after reset. -/
def hw : Hart := { hi with wait := .wfe 0 }
theorem witness_JoinResults : Runs (on hi) px0 [] 0 hi ∧ hi.event = false ∧ hi.wait = .none ∧ hi.accessesDone = true ∧
    (on hi).defer = false ∧ (on hi).scopePending hi.ctx 31 = false ∧ (on hi).scopeRows hi 31 (hi.active px0) = none ∧
    hi.releaseReady = true ∧ (on hi).jobsDone 0 hi = true ∧
    ((hi.queue .jb).any (fun c => c.fault.isNone && c.done.isNone) = false) ∧
    (∀ n, n < 3 → (on hi).drains hi ((hi.active px0).map hi.coreOf) (on hi).nextJob n = false) :=
  ⟨runs (by decide +kernel), by decide +kernel⟩
theorem witness_JoinResults_event : Runs (on { hi with event := true }) px0 [] 0 { hi with event := true } :=
  runs (by decide +kernel)
theorem witness_JoinResults_timeout : Runs { on hw with now := 65536 } px0 [] 0 hw ∧ hw.wait = .wfe 0 ∧
    0 + 65536 ≤ State.hartCycle { on hw with now := 65536 } hw := ⟨runs (by decide +kernel), by decide +kernel⟩
theorem witness_JoinResults_busy : ∃ h : Hart, Runs (on h) px0 [] 0 h ∧ h.accessesDone = false :=
  ⟨{ hi with stores := [{ row := 0, unit := none, cluster := 0, addr := 0, dpa := 0, size := 8, val := 0, vec := none, order := 0 }] },
    runs (by decide +kernel), by decide +kernel⟩

/-- Memory with a well-formed scope descriptor of core 0 at s5. -/
def sScope (h : Hart) : State := { on h with mem := [(0x4000080, 1), (0x40000A0, 1), (0x40000A4, 1)] }
theorem witness_ScopeResults_rows : Runs (sScope hi) px0 [8, 5] 0 hi ∧ hi.active px0 = [0] ∧ hi.wait = .none ∧
    ∃ y, (sScope hi).scopeDescs hi (fun r => hi.reg r 5) [0] = .ok y ∧
      ((y.1.scopeEntry hi.ctx 3).pending.isEmpty && y.1.flight hi.ctx 3 == 0 && y.2.length == 1) = true :=
  ⟨runs (by decide +kernel), by decide +kernel, rfl, good _ (by decide +kernel)⟩
theorem witness_ScopeResults : Runs (sScope hi) px0 [8, 5] 0 hi ∧ hi.active px0 = [0] ∧ hi.wait = .none ∧
    ∃ y, (sScope hi).rawStruct hi 0 64 64 1 (hi.reg 0 5) = .ok y ∧
      (!scopeIllFormed y.1.pkg (BitVec.ofNat 512 y.2) && (y.1.scopeEntry hi.ctx 3).pending.isEmpty
        && y.1.flight hi.ctx 3 == 0) = true :=
  ⟨runs (by decide +kernel), by decide +kernel, rfl, good _ (by decide +kernel)⟩
/-- A job in flight on entry 3. -/
def sBusy (h : Hart) : State := { sScope h with harts := put (sScope h).harts 1 { h with wait := .fence 3 none } }
theorem witness_ScopeResults_busy : Runs (sBusy hi) px0 [8, 5] 0 hi ∧ (sBusy hi).flight hi.ctx 3 ≠ 0 ∧
    ∃ y, (sBusy hi).scopeDescs hi (fun r => hi.reg r 5) [0] = .ok y ∧ (y.1.flight hi.ctx 3 != 0) = true :=
  ⟨runs (by decide +kernel), by decide +kernel, good _ (by decide +kernel)⟩
theorem witness_ScopeResults_install : ∃ r : ScopeRewrite,
    let s := { (on hi).setScope 0 3 { cur := none, pending := [r], admits := false } with focus := { Focus.reset with unit := 0, sub := 3 } }
    (s.scopeEntry s.focus.unit s.focus.sub).pending = [r] ∧ s.flight s.focus.unit s.focus.sub = 0 :=
  ⟨{ hart := 0, new := none }, by decide +kernel⟩
/-- The object at s5 with EXPA = 2 and SCOPE 0. -/
def sBar (h : Hart) : State := { on h with mem := [(0x4000088, 2)] }
theorem witness_BarrierResults : Runs (sBar hi) px0 [7, 5] 0 hi ∧ hi.active px0 = [0] ∧ hi.wait = .none ∧
    (sBar hi).barrierRows hi .rw (fun r => hi.reg r 5) [0] = .ok [(0, 0x4000080)] ∧
    (sBar hi).barrierRows hi .r (fun r => hi.reg r 5) [0] = .ok [(0, 0x4000080)] ∧
    hi.accessAhead 32 [(0, 0x4000080)] = false ∧ (sBar hi).barrierMay (hi.barrierPlaces [(0, 0x4000080)]) = true ∧
    (sBar hi).scopePending hi.ctx 31 = false ∧
    (sBar hi).scopeRows hi 31 [0] = none ∧ hi.releaseReady = true ∧ (sBar hi).releaseDown hi = none ∧
    (hi.reg 0 7).toNat < 2 ^ 32 ∧
    (∃ y, (sBar hi).homeRows hi .sync (fun r => hi.reg r 5) [(0, 0x4000080)] = .ok y ∧
      (y.2.all (fun l => !barrierRz (y.1.readRaw l.2 32) && !bitOf (y.1.readRaw l.2 32) 96 &&
        decide (y.1.scopeCheck hi.ctx (barrierScope (y.1.readRaw l.2 32)) (.core 0) = none))) = true) :=
  ⟨runs (by decide +kernel), by decide +kernel, by decide +kernel, by decide +kernel, by decide +kernel, by decide +kernel,
    by decide +kernel, by decide +kernel, by decide +kernel, by decide +kernel, by decide +kernel, by decide +kernel,
    good _ (by decide +kernel)⟩
/-- One arrival counts, two make the object flip. -/
theorem witness_BarrierResults_object :
    ∃ y, (sBar hi).homeRows hi .syncWrite (fun r => hi.reg r 5) [(0, 0x4000080)] = .ok y ∧
      (y.2.all (fun l => let x := y.1.readRaw l.2 32
        !barrierRz x && !(barrierNext x { arra := 1 }).2.1 && (barrierNext x { arra := 2 }).2.1
          && !(barrierNext x { arra := 2 }).2.2 && !y.1.scopePending hi.ctx (barrierScope x)
          && decide (y.1.scopeCheck hi.ctx (barrierScope x) (.core 0) = none))) = true :=
  good _ (by decide +kernel)
theorem witness_BarrierResults_return : 
    Runs (on { hi with wait := .bwait [] [(0, none)] }) px0 [7, 5] 0 { hi with wait := .bwait [] [(0, none)] } := runs (by decide +kernel)
theorem witness_BarrierCounts : (2 * 2 ^ 64 : Nat) < 2 ^ 256 := by decide
/-- A future cell at the page's first sector. -/
def hf : Hart := hr [(5, 0x4000000000), (7, 5)]
def sCell (h : Hart) (c : Nat) : State :=
  { on h with sides := [(0x40000, (mkTag c 7 4 0).zeroExtend 152)] }
theorem witness_FutureResults : Runs (sCell hf clsFfull) px0 [7, 5] 0 hf ∧ hf.active px0 = [0] ∧
    (sCell hf clsFfull).checkRows hf .r 256 256 (fun r => hf.reg r 5) [0] = .ok [(0, 0x4000000)] ∧
    (sCell hf clsFfull).checkRows hf .w 256 256 (fun r => hf.reg r 5) [0] = .ok [(0, 0x4000000)] ∧
    hf.accessAhead 256 [(0, 0x4000000)] = false ∧ hf.releaseReady = true ∧ (sCell hf clsFfull).releaseDown hf = none ∧
    (∃ y, (sCell hf clsFfull).cellRows hf .syncWrite (fun r => hf.reg r 5) [(0, 0x4000000)] = .ok y ∧ true = true) ∧
    ∃ y, (sCell hf clsFfull).cellRows hf .sync (fun r => hf.reg r 5) [(0, 0x4000000)] = .ok y ∧
      decide (y.2.map (fun r => (r.row, tagCls (y.1.tagAt r.loc.key))) = [(0, clsFfull)]) = true :=
  ⟨runs (by decide +kernel), by decide +kernel, by decide +kernel, by decide +kernel, by decide +kernel, by decide +kernel,
    by decide +kernel, good _ (by decide +kernel), good _ (by decide +kernel)⟩
theorem witness_TaskResults : Runs (on hi) px0 [8] 0 hi ∧ hi.queuesEmpty = true ∧ hi.loadsPast = false ∧ hi.preempt = none ∧
    (on hi).readyFor 0 hi = false ∧ look (on hi).groups hi.group = some Group.program ∧
    (on hi).exhausted hi Group.program = false ∧ (on hi).nextEntry hi = some 0 ∧ (on hi).eligible hi = true ∧
    Runs (on hi) px0 [4, 5, 6, 7, 8, 9, 10, 11] 0 hi ∧ (on hi).jobsDone 0 hi = true :=
  ⟨runs (by decide +kernel), by decide +kernel, by decide +kernel, by decide +kernel, by decide +kernel, by decide +kernel,
    by decide +kernel, by decide +kernel, by decide +kernel, runs (by decide +kernel), by decide +kernel⟩
def gEnd : Group := { Group.program with cursors := [(0, 1)] }
/-- A stage whose input ring 2 is empty. -/
def gWait : Group := { Group.program with kernel := { Kernel.program with stages :=
  [{ entry := 0, inr := 4, outr := 0, inq := 0, outq := 0, xmin := 1, xmax := 1, amin := 1, amax := 1, tmin := 2, tmax := 2 }] } }
theorem witness_TaskResults_end :
    look { on hi with groups := [(0, gEnd)] }.groups hi.group = some gEnd ∧
    State.exhausted { on hi with groups := [(0, gEnd)] } hi gEnd = true ∧
    State.exhausted { on hi with groups := [(0, gWait)] } hi gWait = false ∧
    State.eligible { on hi with groups := [(0, gWait)] } hi = false := by decide +kernel
/-- The panel of the spec's example, at its last step. -/
def ht : Hart := { hi with
  task := some { entry := 0, rows := 5, cols := 300, row0 := 4, col0 := 256, cursor := 0, stored := false,
                 before := hi.checkpoint },
  csr := { hi.csr with vl := 128, trows := 4 } }
theorem witness_PanelSteps : Runs (on ht) px0 [8] 0 ht ∧ ht.csr.vl ≠ 0 ∧ hi.task = none ∧ Runs (on hi) px0 [8] 0 hi :=
  ⟨runs (by decide +kernel), by decide +kernel, rfl, runs (by decide +kernel)⟩
/-- A lease, and a tape of one record. -/
def hq : Hart := { hr [(5, 0x4000000080)] with
  csr := { hi.csr with tapeb := 0x4000000000, tapel := 0x4000010000, tapen := 1 } }
def sq : State := (on hq).setLease hq 0 { Lease.reset with state := .held, count := 4, hart := 0 }
theorem witness_RecordResults : Runs sq px0 [5] 0 hq ∧ hq.active px0 = [0] ∧ hq.awaits .mx = false ∧ hq.wait = .none ∧
    hq.csr.tapeb.toNat + 256 ≤ hq.csr.tapel.toNat ∧ (sq.leaseOf hq (hq.coreOf 0)).state ≠ .none ∧
    (hq.reg 0 5).toNat % 32 = 0 ∧ hq.csr.recMark.toNat < hq.csr.tapen.toNat :=
  ⟨runs (by decide +kernel), by decide +kernel⟩
theorem witness_RecordResults_reads :
    (∃ y, sq.rawStruct hq 0 256 256 1 hq.csr.tapeb = .ok y ∧ (!policyBad y.2) = true) ∧
    (let g := { hq with csr := { hq.csr with recording := false, revAct := true, revNext := 0 } }
     ∃ y, readGMap (sq.setHart 0 g) g 0 (hq.reg 0 5) = .ok y ∧ true = true) :=
  ⟨good _ (by decide +kernel), good _ (by decide +kernel)⟩

theorem test_pstep_last : after (exec (.pstep px0 8) (on ht)) (fun _ h => (h.reg 0 8, h.csr.panelRow, h.csr.panelCol)) =
    some (0x2C00000001, 4, 256) := by decide +kernel
theorem test_cursor_end : after (exec (.cursor px0 8) { on hi with groups := [(0, gEnd)] }) (fun _ h => (h.reg 0 8, h.reg 0 5))
    = some (0, 0x4000000080) := by decide +kernel
theorem test_nodeb_keeps : after (exec (.nodeb px0) (on (hr [(3, 1), (4, 2), (11, 3), (12, 4)])))
    (fun _ h => (h.reg 0 3, h.reg 0 4, h.reg 0 11, h.reg 0 12)) = some (0, 2, 3, 0) := by decide +kernel
theorem test_barinit : after (exec (.barinit px0 5 3 31) (sBar hi)) (fun s _ => getNat s.mem 0x4000080 32) =
    some (3 * 2 ^ 64 + 31 * 2 ^ 104) := by decide +kernel
theorem test_barrive_flips : after (exec (.barrive px0 0 5 2) (sBar hi)) (fun s _ => getNat s.mem 0x4000080 32) =
    some (2 * 2 ^ 64 + 2 ^ 96) := by decide +kernel
theorem test_frd : after (exec (.frd px0 8 5 2) { sCell hf clsFfull with mem := [(0x4000010, 7)] }) (fun _ h => h.reg 0 8) =
    some 7 := by decide +kernel
theorem test_fwr_fills : after (exec (.fwr px0 7 5 2) (sCell hf clsFempty)) (fun s h =>
    (getNat s.mem 0x4000010 8, tagCls (s.tagAt 0x4000000), h.event)) = some (5, clsFfull, true) := by decide +kernel

/-! ## Formation and vector commands -/

/-- A template with an opcode and registers D, A and B. -/
def tmpl (opc d a b : Nat) : Template :=
  { emptyTemplate with opc := BitVec.ofNat 8 opc, d := BitVec.ofNat 8 d, a := BitVec.ofNat 8 a, b := BitVec.ofNat 8 b }

/-- The hart with one command of an engine, dispatched in the hart's state, at the head of its queue. -/
def queued (e : Eng) (t : Template) (h : Hart) : Hart := h.setQueue e [h.command px0 t none 0 0 0]

/-- The head command of an engine has run. -/
def ran (e : Eng) (i : Instr) (h : Hart) : Option Bool :=
  after (exec i (on h)) (fun _ g => (g.queue e).all (fun c => c.done.isSome))

theorem witness_FormationResults :
    let t := { tmpl 0x01 1 2 3 with fmt := 31, cw := 7 }
    let h := { hi with tmpl := [(64 + 5, t)] }
    (on h).focus.hart = 0 ∧ look (on h).harts 0 = some h ∧ h.priv = false ∧ h.halted = false ∧ (h.queue .xv).length < 64 ∧
    (∃ u, formTemplate .xv (h.slotTemplate .xv 5) px0 0 0 0 = .ok u ∧ decide ((commandScalars .xv u).any h.pending = false)
      = true) ∧
    formTemplate .xv (h.slotTemplate .xv 6) px0 0 0 0 = .error .templateEmpty ∧ slotOk .xv t = true ∧
    engOfEcls 3 = some .xv :=
  ⟨by decide +kernel, by decide +kernel, by decide +kernel, by decide +kernel, by decide +kernel, good _ (by decide +kernel),
    by decide +kernel, by decide +kernel, by decide +kernel⟩
theorem witness_FormationResults_load : Runs (on hi) px0 [5] 0 hi ∧ hi.active px0 = [0] ∧
    ∃ y, (on hi).rawStruct hi 0 16 16 1 (hi.reg 0 5) = .ok y ∧ slotOk .xv (templateOfNat y.2) = true :=
  ⟨runs (by decide +kernel), by decide +kernel, good _ (by decide +kernel)⟩
theorem witness_FormationResults_patch :
    (let t := { tmpl 0x01 1 2 3 with fmt := 31, cw := 7 }
     ∃ u, formTemplate .xv t px0 0 6 0x901 = .ok u ∧ true = true) ∧
    (let t := { tmpl 0x01 1 2 3 with imm := 0 }
     ∃ u, formTemplate .ld t px0 0 4 0x100 = .ok u ∧ true = true) :=
  ⟨good _ (by decide +kernel), good _ (by decide +kernel)⟩

/-- A sector of FP32 elements, all with one code; one of INT32 elements. -/
def fp (x : Nat) : Sector :=
  { tag := mkTag clsTyped 14 3 0, bmeta := 0,
    data := BitVec.ofNat 2048 ((List.range 64).foldl (fun n _ => n * 2 ^ 32 + x) 0) }
def ints (x : Nat) : Sector := { fp x with tag := mkTag clsTyped 5 3 0 }

/-- A hart whose v1 and v2 hold 1.0 and 2.0, v3 and v4 the integers 6 and 3, with VL 64 at 4 bytes. -/
def hx : Hart :=
  { hi with csr := { hi.csr with vl := 64, vlcw := 3 },
            rows := hi.rows.map (fun r =>
              (((r.setVec 1 0 (fp 0x3F800000)).setVec 2 0 (fp 0x40000000)).setVec 3 0 (ints 6)).setVec 4 0 (ints 3)) }
def tf : Template := { tmpl 0x10 5 1 2 with fmt := 31, cw := 7 }
def ti : Template := { tmpl 0x20 5 3 4 with fmt := 31, cw := 7 }
theorem witness_VectorElementResults : Head (on (queued .xv tf hx)) .xv 0 (queued .xv tf hx) (hx.command px0 tf none 0 0 0) ∧
    ∃ y, runRows (elemRow (arith .any srcAB true (fun m _ v => addE (m == 2) (v.getD 0 (zeroOf false)) (v.getD 1 (zeroOf
      false)))) (on (queued .xv tf hx))) (queued .xv tf hx) (hx.command px0 tf none 0 0 0) [0] (queued .xv tf hx) 0 = .ok y ∧
      true = true := ⟨head (by decide +kernel), good _ (by decide +kernel)⟩
theorem witness_VectorElementResults_floats : ([.vadd tf, .vsub tf, .vmul tf, .vfma tf, .vfms tf, .vmin tf, .vmax tf, .vabs tf,
    .vneg tf, .vdiv tf, .vsqrt tf] : List Instr).all (fun i => ran .xv i (queued .xv tf hx) == some true) = true := by
  decide +kernel
theorem witness_VectorElementResults_ints : ([.vand ti, .vor ti, .vxor ti, .vnot ti, .vshl ti, .vshr ti, .vshrr ti, .vsadd ti,
    .vssub ti, .vmulh ti] : List Instr).all (fun i => ran .xv i (queued .xv ti hx) == some true) = true := by
  decide +kernel
/-- Operands that make no transcendental of a nonzero number: v6 has no element but +0. -/
def tz : Template := { tmpl 0x1B 5 6 6 with fmt := 14, cw := 3 }
def tq : Template := { tmpl 0x1B 5 1 0 with fmt := 31, cw := 7 }
theorem witness_VectorElementResults_zero : ([.vrsq tz, .vexp tz, .vlog tz, .vtanh tz, .vsigm tz] : List Instr).all
    (fun i => ran .xv i (queued .xv tz hx) == some true) = true ∧ ran .xv (.vqnt tq) (queued .xv tq hx) = some true := by
  decide +kernel
theorem witness_VectorRowResults : Head (on (queued .xv tf hx)) .xv 0 (queued .xv tf hx) (hx.command px0 tf none 0 0 0) ∧
    ([.vcmp tf, .vsel tf, .vclass tf, .vslide tf, .vzip tf, .vunzip tf, .vextr tf, .vtagr tf, .vtagw tf, .vsexp tf, .vredsum tf,
      .vredsumo tf, .vredmax tf, .vredmin tf, .vmov tf] : List Instr).all
      (fun i => ran .xv i (queued .xv tf hx) == some true) = true :=
  ⟨head (by decide +kernel), by decide +kernel⟩
def tn : Template := { tmpl 0x60 5 1 2 with fmt := 5, cw := 3 }
theorem witness_VectorRowResults_named : ([.vbcast tn, .vid tn, .vseti tn, .vcvt tn] : List Instr).all
      (fun i => ran .xv i (queued .xv tn hx) == some true) = true := by decide +kernel
theorem witness_VectorRowResults_more :
    (let t := { tmpl 0x37 5 1 3 with fmt := 31, cw := 7 }; ran .xv (.vperm t) (queued .xv t hx)) = some true ∧
    (let t := { tmpl 0x2A 6 3 4 with fmt := 31, cw := 7 }; ran .xv (.vdot2 t) (queued .xv t hx)) = some true := by
  decide +kernel
def tk : Template := tmpl 0x46 1 2 3
theorem witness_MaskRegisterResults : Head (on (queued .xv tk hx)) .xv 0 (queued .xv tk hx) (hx.command px0 tk none 0 0 0) ∧
    ([.kand tk, .kor tk, .knot tk, .kpopc tk, .kfirst tk] : List Instr).all
      (fun i => ran .xv i (queued .xv tk hx) == some true) = true :=
  ⟨head (by decide +kernel), by decide +kernel⟩
theorem witness_MaskRegisterResults_cmp :
    ∃ b, cmpRow (on hx) hx (hx.command px0 { tf with d := 1 } none 0 0 0) 0 { row := hx.row 0, sr := 0, fl := 0 } = .ok b ∧
      ((b.row.mask 1).getLsbD 0 || true) = true := good _ (by decide +kernel)
/-- A sector reads as one of format f and container w, and is not ZERO; every sector of a register does. -/
def opensOk (h : Hart) (c : Command) (v x : Nat) (f : BitVec 5) (w : BitVec 3) : Bool :=
  match openScaled c.reader ((h.row 0).vec v x) with
  | .ok o => !o.zero && o.fmt == f && o.cw == w
  | .error _ => false
theorem opens {h : Hart} {c : Command} {v x : Nat} {f : BitVec 5} {w : BitVec 3} (k : opensOk h c v x f w = true) :
    ∃ o, Opens h c 0 v x f w o := by
  unfold opensOk at k
  split at k
  · rename_i o ho
    simp only [Bool.and_eq_true, Bool.not_eq_true', beq_iff_eq] at k
    exact ⟨o, ho, k.1.1, k.1.2, k.2⟩
  · cases k
theorem allOpen {h : Hart} {c : Command} {v : Nat} {f : BitVec 5} {w : BitVec 3}
    (k : (List.range h.csr.xcl).all (fun x => opensOk h c v x f w) = true) : ∃ o, AllOpen h c 0 v f w o := by
  have z : ∀ x, ∃ o, x < h.csr.xcl → Opens h c 0 v x f w o := fun x =>
    if hx : x < h.csr.xcl then (opens (List.all_eq_true.mp k x (List.mem_range.mpr hx))).elim (fun o ho => ⟨o, fun _ => ho⟩)
    else ⟨{ zero := true, fmt := 0, cw := 0, sexp := 0, src := zeroSector }, fun hx' => absurd hx' hx⟩
  exact ⟨fun x => (z x).choose, fun x hx => (z x).choose_spec hx⟩
/-- A row function gives a row. -/
def rowOk (r : Except Cause Acc) : Bool := match r with | .ok _ => true | .error _ => false
/-- A hart whose v1 and v2 hold INT8 and v3 INT16, with VL 128 at 2 bytes. -/
def hd : Hart :=
  { hx with csr := { hx.csr with vl := 128, vlcw := 2 },
            rows := hx.rows.map (fun r => ((r.setVec 1 0 { fp 0x01010101 with tag := mkTag clsTyped 1 1 0 }).setVec 2 0
              { fp 0x02020202 with tag := mkTag clsTyped 1 1 0 }).setVec 3 0 { fp 0 with tag := mkTag clsTyped 3 2 0 }) }
def cd (h : Hart) (opc d : Nat) : Command := h.command px0 { tmpl opc d 1 2 with fmt := 31, cw := 7 } none 0 0 0
def acc (h : Hart) : Acc := { row := h.row 0, sr := 0, fl := 0 }
theorem witness_VectorRowResults_dot : rowOk (dotRow 2 (on hd) hd (cd hd 0x18 3) 0 (acc hd)) = true ∧
    (∃ o, Opens hd (cd hd 0x18 3) 0 1 0 1 1 o) ∧ (∃ o, Opens hd (cd hd 0x18 3) 0 2 0 1 1 o) ∧
    (∃ o, Opens hd (cd hd 0x18 3) 0 3 0 3 2 o) ∧ signedFmt (2 * fmtWidth 1) = some 3 ∧ wideCw 1 2 = some 2 ∧
    (cd hd 0x18 3).inRange 2 0 = true :=
  ⟨by decide +kernel, opens (by decide +kernel), opens (by decide +kernel), opens (by decide +kernel), by decide +kernel⟩
theorem witness_VectorRowResults_sectors : rowOk (selRow (on hx) hx (cd hx 0x21 5) 0 (acc hx)) = true ∧
    (∃ o, Opens hx (cd hx 0x21 5) 0 1 0 14 3 o) ∧ (∃ o, Opens hx (cd hx 0x21 5) 0 2 0 14 3 o) ∧
    rowOk (classRow hx (cd hx 0x22 5) 0 (acc hx)) = true ∧
    rowOk (runSectors (sexpSector (cd hx 0x3C 5) (hx.row 0)) [0] (acc hx)) = true ∧
    rowOk (runSectors (movSector (cd hx 0x58 5) (hx.row 0)) [0] (acc hx)) = true ∧
    tagCls ((hx.row 0).vec 1 0).tag = clsTyped ∧ Active hx (cd hx 0x58 5) 0 3 0 = true ∧
    Active { hx with csr := { hx.csr with vl := 1 } } (cd { hx with csr := { hx.csr with vl := 1 } } 0x58 5) 0 3 1 = false :=
  ⟨by decide +kernel, opens (by decide +kernel), opens (by decide +kernel), by decide +kernel⟩
theorem witness_VectorRowResults_moves : let m := zipMove (cd hx 0x2A 5)
    rowOk (rearrange m (on hx) hx (cd hx 0x2A 5) (hx.row 0) (acc hx)) = true ∧ m.cw hx (cd hx 0x2A 5) (hx.row 0) = 3 ∧
    m.keys hx (cd hx 0x2A 5) 3 ≠ [] ∧ m.regs.length ≤ 2 ∧ tagOk (mkTag clsTyped 14 3 0) = true ∧
    m.regs.all (fun v => ((hx.row 0).vec v 0).tag == mkTag clsTyped 14 3 0) = true ∧
    (List.range 65).all (fun e => !(inVl (vlBits (cd hx 0x2A 5).vl (cd hx 0x2A 5).vlcw) 3 e && m.act e) ||
      (match m.source 3 e with | .elem k q => decide (k < 2) && decide (q < 64) | .fill => true)) = true := by decide +kernel
theorem witness_VectorRowResults_indices : ∃ o, Opens hx { cd hx 0x29 5 with t := { (cd hx 0x29 5).t with b := 3 } } 0 3 0 5 3 o :=
  opens (by decide +kernel)
theorem witness_VectorRowResults_codes : let c := hx.command px0 { tmpl 0x5A 5 0 0 with fmt := 0x0B, cw := 1, imm := 0x80 } none 0 0 0
    rowOk (buildRow (fun _ => c.t.imm.toNat) true hx c 0 (acc hx)) = true ∧ c.inRange 1 0 = true ∧ writtenCode 0x0B 0x80 = 0x7F ∧
    rowOk (extrRow hx (cd hx 0x2D 5) 0 (acc hx)) = true ∧ rowOk (tagrRow hx (cd hx 0x3A 5) 0 (acc hx)) = true ∧
    rowOk (tagwRow hx (cd hx 0x3B 1) 0 (acc hx)) = true ∧
    (let t := tmpl 0x3B 1 0 0
     let c := hx.command px0 t none 0 0 0
     let c := { c with cap := c.cap.map (fun x => { x with a := (mkTag clsPlain 0 0 0).setWidth 64 }) }
     rowOk (tagwRow hx c 0 (acc hx)) = true ∧ secRetag ((hx.row 0).vec 1 0) ((c.capt 0).a.extractLsb' 0 24) ≠ zeroSector) := by
  decide +kernel
theorem witness_VectorRowResults_reductions : (∃ o, AllOpen hx (cd hx 0x30 5) 0 1 14 3 o) ∧ namesNone (cd hx 0x30 5) 14 3 ∧
    (cd hx 0x30 5).inRange 3 0 = true ∧ (cd hx 0x30 5).mode ≠ 5 ∧
    rowOk (redRow .sum (on hx) hx (cd hx 0x30 5) 0 (acc hx)) = true ∧
    rowOk (redRow .max (on hx) hx (cd hx 0x30 5) 0 (acc hx)) = true :=
  ⟨allOpen (by decide +kernel), ⟨.inl (by decide), .inl (by decide)⟩, by decide +kernel⟩
theorem witness_VectorRowResults_cvt : let c := hx.command px0 { tmpl 0x38 5 1 0 with fmt := 12, cw := 2 } none 0 0 0
    (∃ o, AllOpen hx c 0 1 14 3 o) ∧ rowOk (cvtRow hx c 0 (acc hx)) = true ∧ Active hx c 0 3 0 = true :=
  ⟨allOpen (by decide +kernel), by decide +kernel⟩
theorem witness_MaskRegisterResults_bits : (∃ o, AllOpen hx (cd hx 0x20 1) 0 1 14 3 o) ∧ (∃ o, AllOpen hx (cd hx 0x20 1) 0 2 14 3 o) ∧
    rowOk (cmpRow (on hx) hx (cd hx 0x20 1) 0 (acc hx)) = true :=
  ⟨allOpen (by decide +kernel), allOpen (by decide +kernel), by decide +kernel⟩
theorem witness_VectorFrame : vectorOnly (.vadd tf) = some (tf, .vector) ∧
    Head (on (queued .xv tf hx)) .xv 0 (queued .xv tf hx) (hx.command px0 tf none 0 0 0) ∧
    after (exec (.vadd tf) (on (queued .xv tf hx))) (fun _ g => g.traps.length) = some 0 :=
  ⟨rfl, head (by decide +kernel), by decide +kernel⟩

/-- Every sector of a vector register reads as format f and container w. -/
def operandOk (h : Hart) (c : Command) (f : BitVec 5) (w : BitVec 3) (v : Nat) : Bool :=
  (c.rows h).all (fun j => (List.range h.csr.xcl).all (fun x => match openScaled c.reader ((h.row j).vec v x) with
    | .ok o => !o.zero && o.fmt == f && o.cw == w
    | .error _ => false))
theorem operand {h : Hart} {c : Command} {f : BitVec 5} {w : BitVec 3} {v : Nat} (x : operandOk h c f w v = true) :
    OperandIs h c f w v := by
  intro j hj n hn
  have y := (List.all_eq_true.mp x) j hj
  have z := (List.all_eq_true.mp y) n (List.mem_range.mpr hn)
  split at z
  · rename_i o ho
    simp only [Bool.and_eq_true, Bool.not_eq_true', beq_iff_eq] at z
    exact ⟨o, ho, z.1.1, z.1.2, z.2⟩
  · simp at z
/-- A hart whose v1 and v2 hold INT8, v3 INT16 and v4 INT32, with VL 256 at 1 byte. -/
def hv8 : Hart :=
  { hx with csr := { hx.csr with vl := 256, vlcw := 1 },
            rows := hx.rows.map (fun r => ((r.setVec 1 0 { fp 0x01010101 with tag := mkTag clsTyped 1 1 0 }).setVec 2 0
              { fp 0x02020202 with tag := mkTag clsTyped 1 1 0 }).setVec 3 0 { fp 0 with tag := mkTag clsTyped 3 2 0 }) }
/-- A vector command on v1 and v2 of floats, on v3 and v4 of integers, and VDOT's of INT8 into v3 and v4. -/
def cmdOn (h : Hart) (t : Template) : Command :=
  (h.command px0 t none 0 0 0).atIssue (on (queued .xv t h)) (queued .xv t h)
def tv (d a b : Nat) : Template := { tmpl 1 d a b with fmt := 31, cw := 7 }
theorem witness_VectorCompletion_floats : Head (on (queued .xv (tv 2 1 2) hx)) .xv 0 (queued .xv (tv 2 1 2) hx)
      (hx.command px0 (tv 2 1 2) none 0 0 0) ∧ namesNone (cmdOn hx (tv 2 1 2)) 14 3 ∧
    OperandIs (queued .xv (tv 2 1 2) hx) (cmdOn hx (tv 2 1 2)) 14 3 1 ∧
    OperandIs (queued .xv (tv 2 1 2) hx) (cmdOn hx (tv 2 1 2)) 14 3 2 ∧
    (cmdOn hx (tv 2 1 2)).vlcw = 3 ∧ fmtFloat 14 = true ∧ (14 : BitVec 5) ≠ fE2m1 ∧ fmtFits fE2m1 3 = true :=
  ⟨head (by decide +kernel), ⟨.inl (by decide), .inl (by decide)⟩, operand (by decide +kernel), operand (by decide +kernel),
    by decide +kernel⟩
theorem witness_VectorCompletion_ints : namesNone (cmdOn hx (tv 5 3 4)) 5 3 ∧
    OperandIs (queued .xv (tv 5 3 4) hx) (cmdOn hx (tv 5 3 4)) 5 3 3 ∧
    OperandIs (queued .xv (tv 5 3 4) hx) (cmdOn hx (tv 5 3 4)) 5 3 4 ∧ fmtInt 5 = true ∧ fmtFits 5 3 = true :=
  ⟨⟨.inl (by decide), .inl (by decide)⟩, operand (by decide +kernel), operand (by decide +kernel), by decide +kernel⟩
theorem witness_VectorCompletion_dots : OperandIs (queued .xv (tv 3 1 2) hv8) (cmdOn hv8 (tv 3 1 2)) 1 1 1 ∧
    OperandIs (queued .xv (tv 3 1 2) hv8) (cmdOn hv8 (tv 3 1 2)) 1 1 2 ∧
    OperandIs (queued .xv (tv 3 1 2) hv8) (cmdOn hv8 (tv 3 1 2)) 3 2 3 ∧
    OperandIs (queued .xv (tv 4 1 2) hv8) (cmdOn hv8 (tv 4 1 2)) 5 3 4 ∧
    signedFmt (2 * fmtWidth 1) = some 3 ∧ wideCw 1 2 = some 2 ∧ signedFmt (4 * fmtWidth 1) = some 5 ∧ wideCw 1 4 = some 3 :=
  ⟨operand (by decide +kernel), operand (by decide +kernel), operand (by decide +kernel), operand (by decide +kernel),
    by decide +kernel⟩
theorem witness_VectorCompletion_rest : let c := cmdOn hx (tv 5 1 2)
    c.rows (queued .xv (tv 5 1 2) hx) = [0] ∧ hx.csr.xcl = 1 ∧
    (match openScaled c.reader ((hx.row 0).vec 1 0) with | .ok o => decide (o.sexp = 0) | .error _ => false) = true ∧
    c.t.imm.toNat < elemCount 3 * 1 ∧ (c.capt 0).a.extractLsb' 24 40 = 0 ∧ tagOk ((c.capt 0).a.extractLsb' 0 24) = true := by
  decide +kernel

/-- The code of element n of a vector register's first sector. -/
def elem (g : Hart) (v n : Nat) : Nat := secGet ((g.row 0).vec v 0) (4 * n) 4
theorem test_vadd : after (exec (.vadd tf) (on (queued .xv tf hx))) (fun _ g => (elem g 5 0, elem g 5 63)) =
    some (0x40400000, 0x40400000) := by decide +kernel
theorem test_vsub_order : after (exec (.vsub tf) (on (queued .xv tf hx))) (fun _ g => elem g 5 1) = some 0xBF800000 := by
  decide +kernel
theorem test_vredsum : after (exec (.vredsum tf) (on (queued .xv tf hx))) (fun _ g => (elem g 5 0, elem g 5 1)) =
    some (0x42800000, 0) := by decide +kernel
theorem test_vcmp_lt : after (exec (.vcmp { tf with d := 1, mod := 2 }) (on (queued .xv { tf with d := 1, mod := 2 } hx)))
    (fun _ g => (g.row 0).mask 1) = some (BitVec.ofNat 4096 (2 ^ 64 - 1)) := by decide +kernel
theorem test_kfirst_none : after (exec (.kfirst tk) (on (queued .xv tk hx))) (fun _ g => g.ureg 0 1) =
    some 0xFFFFFFFFFFFFFFFF := by decide +kernel

/-! ## Access, matrix and job commands -/

/-- The machine with an engine's command queued and core 0 changed. -/
def onc (e : Eng) (t : Template) (h : Hart) (f : Core → Core) : State := (on (queued e t h)).modCore 0 f

/-- Queue 1 of core 0 is the hart's own, with some strips. -/
def own (xs : List Sector) (c : Core) : Core :=
  c.setQueue 1 { StripQueue.reset with owner := some 0, strips := xs }

/-- What an engine's operation answers with: the command has run (2), or one unit of it (1), or neither (0). -/
def ends (e : Eng) (i : Instr) (s : State) : Option Nat :=
  after (exec i s) (fun _ g => match (g.queue e).head? with
    | some c => if c.done.isSome then 2 else Nat.max c.progress (c.doneOf 0)
    | none => 0)

theorem witness_VectorTransfers_pop : let t := tmpl 0x40 5 1 0
    Head (onc .xv t hx (own [fp 1])) .xv 0 (queued .xv t hx) (hx.command px0 t none 0 0 0) ∧
    (((onc .xv t hx (own [fp 1])).core 0).queue 1).owner = some 0 ∧
    ends .xv (.vpop t) (onc .xv t hx (own [fp 1])) = some 2 := ⟨head (by decide +kernel), by decide +kernel⟩
theorem witness_VectorTransfers_push : let t := tmpl 0x41 1 1 0
    Head (onc .xv t hx (own [])) .xv 0 (queued .xv t hx) (hx.command px0 t none 0 0 0) ∧ 0 < hx.csr.xcl ∧
    ends .xv (.vpush t) (onc .xv t hx (own [])) = some 2 := ⟨head (by decide +kernel), by decide +kernel⟩
/-- s5 is the code page, whose first sector is PLAIN and whose second is ZERO; s7 is 1. -/
def hl : Hart := { hx with rows := hx.rows.map (fun r => (r.set false 5 0x4000000000).set false 7 1) }
theorem witness_VectorTransfers_load : let t := tmpl 0x44 5 5 0
    let s := onc .xv t { hl with csr := { hl.csr with ldFmt := 14, ldCw := 3 } } id
    ends .xv (.vldr t) s = some 2 ∧ ends .xv (.vldr { t with land := 32 })
      (onc .xv { t with land := 32 } { hl with csr := { hl.csr with ldFmt := 14, ldCw := 3 } } id) = some 2 := by decide +kernel
theorem witness_VectorTransfers_store : let t := tmpl 0x45 0 1 5
    ends .xv (.vstr t) (onc .xv t hl id) = some 2 := by decide +kernel
theorem witness_VectorTransfers_tile :
    (let t := tmpl 0x50 5 1 0; (hl.command px0 t none 0 0 0).rows (queued .xv t hl) = [0] ∧
      ends .xv (.vrda t) (onc .xv t hl id) = some 2) ∧
    (let t := tmpl 0x51 1 1 0; ends .xv (.vwra t) (onc .xv t hl id) = some 2) := by decide +kernel

/-- One element, the integer offset 0, in v4. -/
def hg : Hart := { hl with csr := { hl.csr with vl := 1 }, rows := hl.rows.map (fun r => r.setVec 4 0 (ints 0)) }
/-- ALD of one sector at s5 into queue 1. -/
def tl (opc : Nat) : Template := { tmpl opc 1 5 7 with cscal := 7, len := 1 }
theorem witness_StreamLoads : Head (onc .ld (tl 1) hl (own [])) .ld 0 (queued .ld (tl 1) hl) (hl.command px0 (tl 1) none 0 0 0) ∧
    ends .ld (.ald (tl 1)) (onc .ld (tl 1) hl (own [])) = some 2 ∧ ends .ld (.alds (tl 2)) (onc .ld (tl 2) hl (own [])) = some 2 ∧
    ends .ld (.ald2 (tl 3)) (onc .ld (tl 3) hl (own [])) = some 2 ∧
    ends .ld (.aspx (tl 6)) (onc .ld (tl 6) { hl with rows := hl.rows.map (fun r => r.set false 5 256) } (own [])) = some 2 ∧
    ends .ld (.agath { tl 4 with b := 4 }) (onc .ld { tl 4 with b := 4 } hg (own [])) = some 2 :=
  ⟨head (by decide +kernel), by decide +kernel⟩
theorem witness_StreamLoads_unit : let h := { hl with rows := hl.rows.map (fun r => r.set false 7 2) }
    ends .ld (.ald (tl 1)) (onc .ld (tl 1) h (own [])) = some 1 := by decide +kernel
def ringOne : Ring := { Ring.reset with slots := 2, owner := 0, efmt := 31, ecw := 0, sbase := 0, tileb := 32 }
def ring0 (c : Core) : Core := c.setRing 1 ringOne
theorem witness_QueueRingLoads :
    ends .ld (.aqcfg (tl 8)) (onc .ld (tl 8) hl (own [])) = some 2 ∧ ends .ld (.apref (tl 9)) (onc .ld (tl 9) hl id) = some 2 ∧
    (let t := { tmpl 5 1 5 7 with len := 1, imm := 1, fmt := 14, cw := 3 }
     let h := { hl with rows := hl.rows.map (fun r => (r.set false 5 0x4000000100).set false 7 4) }
     ends .ld (.aldt t) (onc .ld t h (own [])) = some 2) := by decide +kernel
/-- A command of the store engine, at s5, from queue 1. -/
def ts (opc : Nat) : Template := { tmpl opc 5 1 7 with cscal := 7, len := 1 }
theorem witness_StreamStores : Head (onc .st (ts 1) hl (own [fp 1])) .st 0 (queued .st (ts 1) hl)
      (hl.command px0 (ts 1) none 0 0 0) ∧
    ends .st (.sst (ts 1)) (onc .st (ts 1) hl (own [fp 1])) = some 2 ∧
    ends .st (.ssts (ts 2)) (onc .st (ts 2) hl (own [fp 1])) = some 2 ∧
    ends .st (.sst2 (ts 3)) (onc .st (ts 3) hl (own [fp 1])) = some 2 ∧
    ends .st (.sspx (ts 6)) (onc .st (ts 6) { hl with rows := hl.rows.map (fun r => r.set false 5 256) } (own [fp 1])) = some 2 ∧
    ends .st (.sscat { ts 4 with b := 4 }) (onc .st { ts 4 with b := 4 } hg (own [fp 1])) = some 2 ∧
    ends .st (.stag { ts 7 with a := 20 }) (onc .st { ts 7 with a := 20 } hl id) = some 2 ∧
    ends .st (.feset (ts 8)) (onc .st (ts 8) hl id) = some 2 ∧
    ends .st (.feset { ts 8 with mod := 1 }) (onc .st { ts 8 with mod := 1 } hl id) = some 2 :=
  ⟨head (by decide +kernel), by decide +kernel⟩

theorem witness_StreamStores_sacc : let t := { tmpl 5 5 2 0 with len := 1, fmt := 14, cw := 3 }
    ends .st (.sacc t) (onc .st t hl id) = some 2 := by decide +kernel

/-- The hart holds the lease of core 0, with a ring full of one tile. -/
def leased (c : Core) : Core := c.setLease 0 { Lease.reset with state := .held, count := 4, hart := 0 }
theorem witness_StreamStores_deferred : ends .st (.sst (ts 1)) (deferred (onc .st (ts 1) hl (own [fp 1]))) = some 2 ∧
    (let t := { tmpl 5 5 2 0 with len := 1, fmt := 14, cw := 3 }; ends .st (.sacc t) (deferred (onc .st t hl id))) = some 2 ∧
    ends .xv (.vstr (tmpl 0x45 0 1 5)) (deferred (onc .xv (tmpl 0x45 0 1 5) hl id)) = some 2 ∧
    (let h := { hl with csr := { hl.csr with ldFmt := 14, ldCw := 3 } }
     ends .xv (.vldr (tmpl 0x44 5 5 0)) (deferred (onc .xv (tmpl 0x44 5 5 0) h id))) = some 2 := by decide +kernel
theorem witness_LeaseRingResults : let t := { tmpl 1 0 0 0 with imm := 4 }
    Head (onc .mx t hl id) .mx 0 (queued .mx t hl) (hl.command px0 t none 0 0 0) ∧
    ends .mx (.mlease t) (onc .mx t hl id) = some 2 ∧ ends .mx (.mrelease t) (onc .mx t hl leased) = some 2 ∧
    ends .mx (.ringput (tmpl 4 1 0 0)) (onc .mx (tmpl 4 1 0 0) hl ring0) = some 2 ∧
    ends .mx (.ringpop (tmpl 5 1 0 0)) (onc .mx (tmpl 5 1 0 0) hl (fun c => c.setRing 1 { ringOne with full := 1, tail := 1 }))
      = some 2 ∧
    ends .mx (.ringqry (tmpl 6 8 1 0)) (onc .mx (tmpl 6 8 1 0) hl ring0) = some 2 :=
  ⟨head (by decide +kernel), by decide +kernel⟩
/-- The first sector of the code page holds a ring descriptor: two slots of 64 KiB of FP32. -/
def described (e : Eng) (t : Template) (h : Hart) : State :=
  { onc e t h id with mem := (State.reset.withFetchWord 64 0x1006E020000).mem }
theorem witness_LeaseRingResults_config : ends .mx (.ringcfg (tmpl 3 1 5 0)) (described .mx (tmpl 3 1 5 0) hl) = some 2 := by
  decide +kernel
theorem witness_ArrayResults :
    Head (onc .mx (tmpl 0x16 1 2 0) hl leased) .mx 0 (queued .mx (tmpl 0x16 1 2 0) hl) (hl.command px0 (tmpl 0x16 1 2 0) none 0 0 0) ∧
    ((onc .mx (tmpl 0x16 1 2 0) hl leased).leaseOf hl 0).state = .held ∧
    (onc .mx (tmpl 0x16 1 2 0) hl leased).arrayBusy 0 0 = false := ⟨head (by decide +kernel), by decide +kernel⟩
/-- Array operations on tiles that are ZERO. -/
theorem witness_ArrayResults_runs : let t := tmpl 0x12 1 2 3
    ([.tzero t, .tadd t, .tsub t, .tmul t, .tscl t, .tbias t, .tact t, .trsum t, .tcsum t, .trmax t, .ttrans t, .tcopy t,
      .tcvt { t with fmt := 14 }] :
      List Instr).all (fun i => ends .mx i (onc .mx (match i with | .tcvt u => u | _ => t) hl leased) == some 2) = true := by
  decide +kernel
/-- Ring 1 holds a tile of ZERO in its head slot. -/
def fullRing (c : Core) : Core := (leased c).setRing 1 { ringOne with full := 1, tail := 1 }
/-- A hart of stage 0 on core 1, and a machine with its TMMAP queued beside the first hart's. -/
def hPair (t : Template) : Hart :=
  let h := { hl with cores := [1], slot := 0, frame := 0 }
  h.setQueue .mx [{ h.command px0 t none 0 0 0 with issued := true, arrived := [0] }]
def paired (t : Template) : State :=
  let s := onc .mx t hl fullRing
  let s := (s.setHart 16 (hPair t)).modCore 1 (fun c =>
    (c.setLease 0 { Lease.reset with state := .held, count := 4, hart := 16 }).setRing 1 { ringOne with full := 1, tail := 1 })
  { s with groups := [(0, { Group.program with cidx := [0, 1] })] }
theorem witness_ArrayResults_product : let t := tmpl 0x10 2 1 1
    ends .mx (.tmma t) (onc .mx t hl fullRing) = some 2 := by decide +kernel
/-- TLOADA of a PLAIN sector. -/
def tL : Template := { tmpl 0x1C 2 5 20 with fmt := 31, cw := 3 }
def sL : State := (described .mx tL { hl with csr := { hl.csr with ldFmt := 14, ldCw := 3}}).modCore 0 leased
theorem witness_ArrayResults_load : ends .mx (.tloada tL) sL = some 2 := by decide +kernel
/-- The hart and the machine of a TMMAP alone, and with its partner waiting. -/
def tmm : Template := tmpl 0x11 2 1 1
def sHalf : State := (paired tmm).setPair hl 1 (.half 1)
theorem witness_PairResults : Head (paired tmm) .mx 0 (queued .mx tmm hl) (hl.command px0 tmm none 0 0 0) ∧
    (paired tmm).mayStart 0 hl 0 = true ∧ (paired tmm).headsFull hl [1, 1] 0 = true ∧
    (match look (paired tmm).groups 0 with | some g => g.hasCore 0 1 | none => false) = true ∧
    ((paired tmm).leaseOf hl 0).state = .held ∧ (paired tmm).tileHeld 0 0 2 = false ∧ ringCheck (paired tmm) hl 0 1 = none ∧
    (paired tmm).pair hl 0 = .idle ∧ sHalf.pair hl 0 = .half 1 ∧
    ((sHalf.partner hl 0).map (·.1) = some 16) := ⟨head (by decide +kernel), by decide +kernel⟩
theorem witness_PairResults_good :
    ∃ y, sHalf.operandTile hl (hl.command px0 tmm none 0 0 0) 0 1 = .ok y ∧
      (match combineB y y with | .ok _ => true | .error _ => false) = true := good _ (by decide +kernel)
theorem witness_PairResults_half : ends .mx (.tmmap (tmpl 0x11 2 1 1)) (paired (tmpl 0x11 2 1 1)) = some 0 := by
  decide +kernel
theorem witness_PairResults_pair :
    ends .mx (.tmmap (tmpl 0x11 2 1 1)) ((paired (tmpl 0x11 2 1 1)).setPair hl 1 (.half 1)) = some 2 := by decide +kernel
theorem witness_QueueRingLoads_ring : let t := { tmpl 0x06 1 5 20 with fmt := 31, cw := 7 }
    let h := { hl with rows := hl.rows.map (fun r => r.set false 5 0x4000000100) }
    let c := (h.command px0 t none 0 0 0).atIssue (onc .ld t h ring0) h
    (aringList (onc .ld t h ring0) h c 0).length = 1 ∧ ends .ld (.aring t) (onc .ld t h ring0) = some 1 := by decide +kernel

/-! ## Jobs -/

/-- A card with its fields, and the collective descriptor of cores 0 and 1 of package 0. -/
def card (opc fmt cw n0 src dst sstr dstr aux0 aux1 aux2 : Nat) : Nat :=
  opc + 31 * 2 ^ 8 + fmt * 2 ^ 16 + cw * 2 ^ 21 + n0 * 2 ^ 32 + dst * 2 ^ 64 + src * 2 ^ 128 + dstr * 2 ^ 192 + sstr * 2 ^ 256 +
    aux0 * 2 ^ 320 + aux1 * 2 ^ 384 + aux2 * 2 ^ 448
/-- The machine with a JB command queued and the card and the descriptor at s5. -/
def carded (t : Template) (x : Nat) : State :=
  let m := setNat (setNat [] 0x4000000 64 x) 0x4000040 64 (3 + 2 ^ 128 + 0x4000000080 * 2 ^ 448)
  { on (queued .jb t hl) with mem := m }
def tj (opc : Nat) : Template := tmpl opc 21 5 20
/-- How many commands of JB have run, and the jobs registered with their sectors. -/
def jobs (i : Instr) (s : State) : Option (List Nat) :=
  after (exec i s) (fun t g => (g.queue .jb).countP (·.done.isSome) :: t.jobs.flatMap (fun j => [j.2.opc, j.2.rd.length, j.2.wr.length]))
/-- JCOPY, JFILL or JPREF of 256 bytes at K + 200 to K + 400. -/
def tc (opc : Nat) : Template := tmpl opc 13 14 12
def hj : Hart :=
  { hl with rows := hl.rows.map (fun r => ((r.set false 12 256).set false 13 0x4000000400).set false 14 0x4000000200) }
def s1 (opc : Nat) : State := on (queued .jb (tc opc) hj)
def k2 : Nat := 0x4000000200
def k4 : Nat := 0x4000000400
theorem witness_JobIssueResults : Head (s1 1) .jb 0 (queued .jb (tc 1) hj) (hj.command px0 (tc 1) none 0 0 0) ∧
    jobs (.jcopy (tc 1)) (s1 1) = some [1, 1, 1, 1] ∧ jobs (.jfill (tc 5)) (s1 5) = some [1, 5, 0, 1] ∧
    jobs (.jpref (tc 10)) (s1 10) = some [1, 10, 1, 0] := ⟨head (by decide +kernel), by decide +kernel⟩
theorem witness_JobIssueResults_cards :
    jobs (.jcopy2 (tj 2)) (carded (tj 2) (card 2 0 0 1 k2 k4 0 0 1 0 0)) = some [1, 2, 1, 1] ∧
    jobs (.jgath (tj 3)) (carded (tj 3) (card 3 0 0 1 k2 k4 0 0 1 0x4000000080 256)) = some [1, 3, 1, 1] ∧
    jobs (.jscat (tj 4)) (carded (tj 4) (card 4 0 0 1 k2 k4 0 0 1 0x4000000080 256)) = some [1, 4, 1, 1] ∧
    jobs (.jred (tj 6)) (carded (tj 6) (card 6 0 0 1 k2 k4 0 0 0 0 0)) = some [1, 6, 1, 1] ∧
    jobs (.jrecode (tj 8)) (carded (tj 8) (card 8 14 3 1 k2 k4 0 0 0x100 0 0)) = some [1, 8, 1, 1] := by decide +kernel
theorem witness_JobIssueResults_collective :
    jobs (.jcoll (tj 7)) (carded (tj 7) (card 7 0 0 1 k2 k4 0 0 0 0x4000000040 10)) = some [1, 7, 1, 1] := by decide +kernel
/-- Handle 1 of stack 0: one FP32 element at the code page. -/
def tensed : State :=
  let s := carded (tj 9) (card 9 0 0 0 0 k4 0 0 1 0 0x10001)
  let x := 14 * 2 ^ 8 + 3 * 2 ^ 16 + 2 ^ 31 + 2 ^ 192 + 2 ^ 224 + 4 * 2 ^ 256 + 4 * 2 ^ 320 + 0x4000000 * 2 ^ 448
  { s with mem := setNat s.mem (handleDpa 0 1) 64 x }
theorem witness_JobIssueResults_tensor : jobs (.jtens (tj 9)) tensed = some [1, 9, 1, 1] := by decide +kernel

/-! ## Steps of engines, harts and jobs -/

/-- What the step of an event leaves. -/
def ev {α : Type} (i : Instr) (s : State) (f : State → α) : Option α :=
  match exec i s with
  | .next t => some (f t)
  | _ => none
/-- An event's focus. -/
def foc (unit sub val : Nat) : Focus := { Focus.reset with unit := unit, sub := sub, val := BitVec.ofNat 64 val }

/-- A command that has run, and one with a fault of formation. -/
def cDone : Command := { hl.command px0 (ti) none 0 0 0 with done := some (Completion.plain 3) }
def hDone : Hart := hl.setQueue .ld [{ cDone with issued := true }]
def hFault : Hart := hl.setQueue .ld [{ hl.command px0 ti none 0 0 0 with fault := some .reservedField }]
theorem witness_EngineEventResults : look (on hDone).harts 0 = some hDone ∧ hDone.mayComplete .ld { cDone with issued := true } = true ∧
    hDone.engineMay { cDone with issued := true } = true ∧
    ev .commandCompletion (on hDone) (fun t => (look t.harts 0).map (fun g => ((g.queue .ld).length, g.csr.retired, g.csr.xstat)))
      = some (some (0, 1, 3)) := by decide +kernel
theorem witness_EngineEventResults_fault : ev .formationFaultRaise (on hFault) (fun t => (look t.harts 0).map (·.priv))
    = some (some false) := by decide +kernel
/-- The state after a step that has one. -/
def nextOf (o : Out) : State :=
  match o with
  | .next t => t
  | _ => State.reset
/-- A timed VLDR leaves its queue, lands, and completes; ARING's second unit fills the slot. -/
def tTimed : Template := { tmpl 0x44 5 5 0 with land := 32 }
def inXv (s : State) : State := { s with focus := { Focus.reset with eng := .xv } }
def sTimed : State :=
  inXv (nextOf (exec .commandCompletion (inXv (nextOf (exec (.vldr tTimed)
    (onc .xv tTimed { hl with csr := { hl.csr with ldFmt := 14, ldCw := 3 } } id))))))
def sLanded : State :=
  let n := ((look sTimed.harts 0).bind (fun h => h.loads.head?)).map (·.order)
  inXv (nextOf (exec .loadDataArrival { sTimed with focus := foc (n.getD 0) 0 0, now := 4096 }))
def timedOf (s : State) : Option (Nat × Nat × Bool × Dword) :=
  (look s.harts 0).map (fun h => ((h.queue .xv).length, h.timed.length, (h.lateDone .xv).isSome, h.csr.retired))
theorem witness_EngineEventResults_timed : timedOf sTimed = some (0, 1, false, 0) ∧ timedOf sLanded = some (0, 1, true, 0) ∧
    ev .commandCompletion sLanded timedOf = some (some (0, 0, false, 1)) := by decide +kernel
theorem witness_QueueRingLoads_fill : let t := { tmpl 0x06 1 5 20 with fmt := 31, cw := 7 }
    let h := { hl with rows := hl.rows.map (fun r => r.set false 5 0x4000000100) }
    ends .ld (.aring t) (nextOf (exec (.aring t) (onc .ld t h ring0))) = some 2 := by decide +kernel
/-- The cause of the trap that a hart with TRAPVEC 0 is suspended with. -/
def stopped (s : State) : Bool := decide ((look s.harts 0).map (·.state) = some .suspended)
theorem witness_EngineEventResults_traps : (hl.command px0 ti none 0 0 0).done = none ∧ hl.state = .running ∧
    (on hl).idleFlight 0 hl = true ∧ hl.oldestHead = none ∧ ((queued .xv ti hl).oldestHead).isSome = true ∧
    ev .formationFaultRaise (on hFault) stopped = some true ∧
    ev .engineDeadlock { on hl with now := 2 ^ 20 } stopped = some true ∧
    ev .engineDeadlock { on (queued .xv ti hl) with now := 2 ^ 20 } stopped = some true ∧
    ev .mcUncorrectable (on hl) stopped = some true ∧
    ev .mcUncorrectable (on { hl with state := .saved }) (fun t => (look t.harts 0).map (·.mcPending)) = some (some true) := by
  decide +kernel

/-- A recorded TADD of tiles 1 and 2 into 2, run and completed, with an entry of the gradient map for each tile that
discards. -/
def tAdd : Template := tmpl 0x13 2 1 2
def kt (n : Nat) : Nat := n + 2 * 2 ^ 61 + 14 * 2 ^ 112 + 3 * 2 ^ 117
def gMap1 : Nat := kt 2 + 2 ^ 256 * kt 1
def hRec : Hart :=
  let c := { hl.csr with recording := true, tapeb := 0x4000001000, tapel := 0x4000010000, tapep := 0x4000001100 }
  { hl with csr := c }
/-- The machine before, and one after the command has run and completed. -/
def sRec : State :=
  let f := { Focus.reset with eng := .mx }
  { (on hRec).modCore 0 leased with mem := setNat [] 0x4000000 64 gMap1, focus := f }
def recOnce (s : State) : State :=
  let t := s.modHart 0 (fun h => h.setQueue .mx [{ h.command px0 tAdd none 0 0 0 with recording := true }])
  nextOf (exec .commandCompletion (nextOf (exec (.tadd tAdd) t)))
/-- TZERO empties the tile when it completes, and takes one from the lease's count when it starts. -/
theorem test_tzero : ev .commandCompletion { nextOf (exec (.tzero (tmpl 0x12 1 0 0)) ((onc .mx (tmpl 0x12 1 0 0) hl leased).modCore 0
    (fun c => { c with tileTag := [(1, tagFp32)] }))) with focus := { Focus.reset with eng := .mx } }
    (fun s => (s.tileTag 0 1, ((s.core 0).lease 0).count)) = some (0, 3) := by decide +kernel
def taped (s : State) : Option (BitVec 32 × Dword) := (look s.harts 0).map (fun g => (g.csr.tapen, g.csr.tapep))
theorem witness_EngineEventResults_record : taped (recOnce sRec) = some (1, 0x4000001200) ∧
    taped (recOnce (recOnce sRec)) = some (2, 0x4000001300) := by decide +kernel
/-- The Spatula at record n of two, with MARK 0. -/
def sRev (n : Nat) : State :=
  let s := (recOnce (recOnce sRec)).modHart 0 (fun h =>
    let c := { h.csr with recording := false, revAct := true, revNext := BitVec.ofNat 32 n }
    { h with csr := c, wait := .reverse 0x4000000000 (gMapOf gMap1) })
  { s with focus := Focus.reset }
theorem witness_AccessEventResults_adjoint :
    ev .spatulaRecord (sRev 1) (fun t => (look t.harts 0).map (fun g => (g.csr.revNext, g.csr.revAct))) =
      some (some (0, true)) ∧
    ev .spatulaRecord (sRev 0) (fun t => (look t.harts 0).map (fun g => (g.csr.tapen, g.csr.tapep, g.pc))) =
      some (some (0, 0x4000001100, 0x4000000004)) := by decide +kernel

/-- A load of 8 bytes at s5 into s8, not yet read and read. -/
def lo1 : LoadEntry :=
  { row := 0, dest := .scalar 8 false 8 false, addr := 0x4000000000, dpa := 0x4000000, land := 0, due := none, data := none,
    pc := 0x4000000000, tix := 0, idx := 0, scalarPipe := true, join := none, prt := none, order := 3 }
def lo2 : LoadEntry := { lo1 with data := some (.data (carry 7) 0) }
/-- A store of 8 bytes at s5. -/
def so1 : StoreEntry :=
  { row := 0, unit := none, cluster := 0, addr := 0x4000000000, dpa := 0x4000000, size := 8, val := 9, vec := none, order := 4 }
def hLoad (e : LoadEntry) : Hart := { hl with loads := [e], stores := [so1] }
def hStore : Hart := { hl with stores := [so1] }
def at_ (s : State) (f : Focus) : State := { s with focus := f }
def reg8 (s : State) : Option Dword := (look s.harts 0).map (fun g => g.reg 0 8)
theorem witness_AccessEventResults_loads :
    ev .loadDataArrival (at_ { on (hLoad lo1) with mem := [(0x4000000, 5)] } (foc 3 0 0)) reg8 = some (some 5) ∧
    ev .loadLanding (on (hLoad lo2)) reg8 = some (some 7) ∧
    (hLoad lo1).storeWaits so1 = true ∧ hStore.storeWaits so1 = false ∧ (hLoad lo1).loadWaits lo1 = false ∧
    (on hStore).unreachable hStore so1 = false ∧
    ev .accessPerformed (on hStore) (fun t => (t.mem, (look t.harts 0).map (fun g => g.stores.length))) =
      some ([(0x4000000, 9)], some 0) := by decide +kernel
/-- A job of core 0's hart from K + 200 to K + 400, as JCOPY registers it. -/
def sJob : State := { nextOf (exec (.jcopy (tc 1)) (s1 1)) with focus := foc 0 0 0 }
def stateOf (s : State) : Option JobState := (look s.jobs 0).map (·.state)
def inJob (s : State) (x : JobState) : State := s.modJob 0 (fun j => { j with state := x })
theorem witness_AccessEventResults_absent : pitState ((on hl).pitEntry (0x5000000 / 65536)) = 0 ∧
    ev (.pageAbsentReply { dpa := 0x5000000, write := false, job := some 0 }) sJob stateOf = some (some (.parked 0x500)) := by
  decide +kernel
/-- Slots 0 and 1 of core 0 ask for the array; the hart of slot 0 holds it; tile 1 of core 0 belongs to slot 0. -/
def asks (c : Core) : Core :=
  (c.setLease 0 { Lease.reset with state := .requested, count := 4, hart := 0 }).setLease 1
    { Lease.reset with state := .requested, count := 4, hart := 1, bypass := 3 }
def holdsLease (n : Nat) (s : State) : Option LeaseState := some (((s.core 0).lease n).state)
def tiled (c : Core) : Core := { c with tileOwner := [(1, (0, 0))] }
/-- A hart of context 1 on core 0 has a TADD into that tile at the head of its queue. -/
def spills : State :=
  let h := { hl with ctx := 1, slot := 1 }
  ((on hl).modCore 0 tiled).setHart 2048 (h.setQueue .mx [h.command px0 { tAdd with d := 1 } none 0 0 0])
theorem witness_AccessEventResults_leases :
    ev .leaseGrant ((on hl).modCore 0 asks) (holdsLease 1) = some (some .held) ∧
    ev .leaseGrant ((on hl).modCore 0 asks) (fun t => ((t.core 0).lease 0).bypass) = some 1 ∧
    ev .leaseTimeout { (on hl).modCore 0 leased with now := 16384 } (holdsLease 0) = some (some .requested) ∧
    ev .leaseIdleExpiry { (on hl).modCore 0 leased with now := 512 } (holdsLease 0) = some (some .requested) ∧
    spills.spillDue 0 1 = true ∧ spills.tileHeld 4096 0 1 = false ∧
    ev .tileSpill (at_ spills (foc 0 1 0)) (fun t => (t.core 0).tileOwner) = some [] := by decide +kernel
theorem witness_JobEventResults : ev .jobStart sJob stateOf = some (some .running) ∧
    ev .jobSectorWrite (inJob sJob .running) (fun t => (look t.jobs 0).map (·.done)) = some (some 1) ∧
    ev .jobComplete ((inJob sJob .running).modJob 0 (fun j => { j with done := j.total })) stateOf = some none ∧
    ev .jobResume (inJob sJob (.parked 0x400)) stateOf = some (some .running) ∧
    ev .jobFaultRaise (inJob sJob (.faulted .misaligned (some 1))) stateOf = some (some .trapped) := by decide +kernel

/-! ## Scheduler, queues and the graph -/

/-- The hart at a CURSOR into s8, asleep, with its schedule at s5. -/
def hSleep : Hart := { hl with state := .sleeping, csr := { hl.csr with xcl := 0, acl := 0 } }
def gSched : Group := { Group.program with kernel := { Kernel.program with sched := 0x4000000080 } }
def wSleep : Nat := (((encode (.cursor px0 8)).getD []).headD 0).toNat
def sSleep : State := { (State.reset.withFetchWord 32 wSleep).setHart 0 hSleep with groups := [(0, gSched)] }
def hSaved : Hart := { hl with state := .saved }
def hAsked : Hart := { hl with preempt := some 0 }
/-- Another context's hart on the core that a saved hart asks back. -/
def sHeld : State := (on hSaved).setHart 2048 { hl with ctx := 1, prio := 0 }
theorem witness_SchedulerEventResults : sSleep.exhausted hSleep gSched = false ∧ sSleep.eligible hSleep = true ∧
    sSleep.nextEntry hSleep = some 0 ∧ sSleep.olderWaiter 0 hSleep = false ∧ (sSleep.grantAgain 0 hSleep).isSome = true ∧
    ev .cursorWake sSleep (fun t => (look t.harts 0).map (fun g => (g.pc, g.reg 0 8))) =
      some (some (0x4000000004, 0x4000000080)) ∧
    hAsked.onSlot = true ∧ 0 + (on hAsked).deadlineOf hAsked.ctx ≤ State.now { on hAsked with now := 94000000000000 } := by
  decide +kernel
theorem witness_SchedulerEventResults_restore : (on hSaved).mayRestore 0 hSaved = true ∧ (on hSaved).coresServe hSaved = true ∧
    (on hSaved).blockers 0 hSaved = [] ∧ (on hSaved).olderWaiter 0 hSaved = false ∧
    hSaved.csr.xcl + hSaved.csr.acl ≤ (on hSaved).poolFor 0 hSaved ∧ sHeld.mayRestore 0 hSaved = true ∧
    sHeld.coresServe hSaved = true ∧
    ev .hartRestore sHeld (fun t => (t.requests.length, (look t.harts 2048).map (fun g => g.preempt.isSome))) =
      some (1, some true) := by decide +kernel
theorem witness_SchedulerEventResults_wake : (sSleep.wakeHart 0 hSleep).isSome = true ∧ sSleep.stopped hSleep = false ∧
    sSleep.expired hSleep = false ∧
    ev .cursorWake (sSleep.setHart 0 { hSleep with mcPending := true }) (fun t =>
      (look t.harts 0).map (fun h => (h.mcPending, h.state))) = some (some (false, .suspended)) := by decide +kernel
theorem witness_SchedulerEventResults_busy : State.dieFree { on hl with gates := [.dieMap 0 none] } 0 = false ∧
    ev .dieRemapRequest { on hl with gates := [.dieMap 0 none] } (fun t => t.replies) = some [(5000, .busy)] := by decide +kernel
theorem witness_SchedulerEventResults_gates : (on hl).dieFree 0 = true ∧
    ev .dieRemapRequest (at_ (on hl) (foc 0 0 0)) (fun t => (t.gates, (look t.harts 0).map (fun g => g.preempt.isSome))) =
      some ([.dieMap 0 (some 0)], some true) ∧
    ev .quiesceGateAck { on hl with gates := [.rates 0 0 1] } (fun t => (t.gates, (t.link 0).maxRate)) = some ([], 1) := by
  decide +kernel

/-- A queue with its descriptor and its first record at the code page. -/
def qd : Nat := 4 * 2 ^ 16 + 0x4000080 * 2 ^ 320 + 0x4000000 * 2 ^ 448
def qRec : Nat := 1 + 0x4000040 * 2 ^ 448
def cmdOf (op operand : Nat) : Dword := BitVec.ofNat 64 (op * 2 ^ 60 + 2 ^ 55 + operand)
def queueIn (x : QState) : HwQueue := { queueOf qd with state := x, tail := 1 }
/-- The machine with a command of queue 0, which is in a state. -/
def sq1 (op : Nat) (q : Map HwQueue) (m : Nat) : State :=
  { on hl with regs := { SchedRegs.reset with qcmd := cmdOf op 0, qtbase := 0x4000000 }, wqueues := q, mem := setNat [] 0x4000000 64 m }
def moved (i : Instr) (s : State) : Option (Option QState) := ev i s (fun t => (look t.wqueues 0).map (·.state))
theorem witness_QueueStateMoves : (sq1 1 [] qd).qcmdIs 1 = true ∧ queueDescBad qd = false ∧ (on hl).live 0 = true ∧
    queueDescBad 1 = true ∧ State.live State.reset 0 = false ∧
    moved .qcmdEnable (sq1 1 [] qd) = some (some .active) ∧
    moved .qcmdPause (sq1 2 [(0, queueIn .active)] 0) = some (some .paused) ∧
    moved .qcmdResume (sq1 3 [(0, queueIn .paused)] 0) = some (some .active) ∧
    moved .qcmdResume (sq1 3 [(0, queueIn .error)] 0) = some (some .active) ∧
    moved .qcmdDrain (sq1 4 [(0, queueIn .error)] 0) = some none ∧
    moved .qcmdDisable (sq1 5 [(0, queueIn .paused)] 0) = some none ∧
    moved .qcmdSkip (sq1 6 [(0, queueIn .error)] 0) = some (some .paused) ∧
    moved .launchAdmission (sq1 0 [(0, queueIn .active)] 0) = some (some .error) := by decide +kernel
theorem test_qcmd_status : ev .qcmdPause (sq1 2 [(0, queueIn .paused)] 0) (fun t => t.readReg regQcmd) =
    some 0x200000000000000 := by decide +kernel
theorem test_qcmd_skip : ev .qcmdSkip (sq1 6 [(0, queueIn .error)] 0) (fun t => (look t.wqueues 0).map (fun x => (x.head, x.err))) =
    some (some (1, 0)) := by decide +kernel
/-- A command with an RZ bit set. -/
def cmdBad (n : Nat) : Dword := cmdOf 1 (2 ^ n)
theorem witness_SchedulerCommandResults_invalid :
    ev .qcmdInvalid { on hl with regs := { SchedRegs.reset with qcmd := cmdBad 20 } } (fun t => t.regs.qcmd) =
      some 0x100000000000000 ∧
    ev (.registerWrite 0xF0000000000 0x7000000000000009) (on hl) (fun t => t.regs.qcmd) = some 0x100000000000009 ∧
    ev .ctxcmdInvalid { on hl with regs := { SchedRegs.reset with ctxcmd := cmdBad 20 } } (fun t => t.regs.ctxcmd) =
      some 0x500000000000000 ∧
    cmdBusy (cmdBad 20) = true ∧ cmdRz (cmdBad 20) 0xFFFF 0 = true ∧ cmdRz (cmdBad 20) 0xFFF 0 = true ∧
    cmdRz (cmdBad 40) hcmdOperand 0 = true := by decide +kernel
theorem witness_SchedulerCommandResults_queues :
    ev .qtbaseWrite (at_ (sq1 0 [] 0) (foc 0 0 0xFFFFFFF)) (fun t => t.regs.qtbase) = some 0xFC00000 ∧
    ev .qtbaseWrite (at_ (sq1 0 [(0, queueIn .active)] 0) (foc 0 0 0)) (fun t => t.regs.qtbase) = some 0x4000000 ∧
    ev .doorbellWrite (at_ (sq1 0 [(0, queueIn .active)] 0) (foc 0 0 3)) (fun t => (look t.wqueues 0).map (·.tail)) =
      some (some 3) ∧
    ev (.registerWrite 0xF0000000208 5) (sq1 0 [] 0) (fun t => t.regs.pitarg0) = some 5 ∧
    recordError qRec 0 = 0 ∧
    ev .launchAdmission (sq1 0 [(0, queueIn .active)] qRec) (fun t => (t.nextLaunch, (look t.wqueues 0).map (·.head))) =
      some (1, some 1) := by decide +kernel
/-- A command of context 0, and the machine with one and another context's descriptor. -/
def sc (op : Nat) : State :=
  { on hl with harts := [], groups := [], pit := [], regs := { SchedRegs.reset with ctxcmd := cmdOf op 0, ctxdesc := 0x4000000 } }
def ctx0 (s : State) : Option Bool := (look s.ctxs 0).map (·.purging)
theorem witness_SchedulerCommandResults_contexts : (sc 1).freeCtx = some 1 ∧ ctxDescBad 0 = false ∧
    ev .ctxalloc { on hl with regs := (sc 1).regs } (fun t => ((look t.ctxs 1).isSome, t.lastCtx)) = some (true, 1) ∧
    ev .ctxfree (sc 2) ctx0 = some (some true) ∧
    ev .purgeComplete ((sc 2).modCtx 0 (fun c => { c with purging := true })) ctx0 = some none ∧
    ev .ctxabort (sc 3) (fun t => cmdBusy t.regs.ctxcmd) = some false ∧
    ev .ctxabort { on hl with regs := (sc 3).regs } (fun t => t.harts.length) = some 0 := by decide +kernel
/-- A suspended hart whose trap record, at s5, names the pc K + 10. -/
def hSusp : Hart :=
  { hl with state := .suspended, priv := true, traps := [{ hold := 0, inFrame := false, wait := .none }], csr := { hl.csr with traprec := 0x4000000000 } }
def sSusp (op : Nat) : State :=
  { on hSusp with regs := { SchedRegs.reset with hcmd := cmdOf op 0 }, mem := setNat [] 0x4000000 64 (0x4000000010 * 2 ^ 64) }
theorem witness_SchedulerCommandResults_harts : (sSusp 1).hcmdHart = some (0, hSusp) ∧
    ((sSusp 1).suspendedRecord hSusp).2 = some (0x4000000010 * 2 ^ 64) ∧ recordRz (0x4000000010 * 2 ^ 64) = false ∧
    ev .hcmdResume (sSusp 1) (fun t => ((look t.harts 0).map (fun g => (g.state, g.pc)), t.regs.hcmd)) =
      some (some (.running, 0x4000000010), 0) ∧
    ev .hcmdInvalid { sSusp 1 with regs := { SchedRegs.reset with hcmd := cmdBad 40 } } (fun t => t.regs.hcmd) =
      some 0x100000000000000 := by decide +kernel

/-- A launch at a node, and the machine with the node at the code page, its word after it. -/
def launch0 : Launch :=
  { queue := 0, ctx := 0, prio := 0, done := 0, doneVal := 0, args := 0, serial := false, next := some 0x4000000, counts := [],
    visits := 0, started := [], waitFor := none, fail := none }
def node (type next p0 p1 p2 word limit : Nat) : Nat :=
  type + limit * 2 ^ 96 + word * 2 ^ 128 + p2 * 2 ^ 256 + p1 * 2 ^ 320 + p0 * 2 ^ 384 + next * 2 ^ 448
def sNode (n word : Nat) : State :=
  { on hl with launches := [(0, launch0)], mem := setNat (setNat [] 0x4000000 64 n) 0x4000040 8 word, focus := foc 0 0 0 }
def walk (i : Instr) (s : State) : Option (Option (Option Nat)) := ev i s (fun t => (look t.launches 0).map (·.next))
theorem witness_GraphResults_events : ((sNode (node 3 0x4000080 5 0 0 0x4000040 0) 0).nodeDue 0).isSome = true ∧
    hbmAligned 0x4000000 64 = true ∧ (nodeOf (node 3 0x4000080 5 0 0 0x4000040 0)).ok = true ∧
    ev .eventSet (sNode (node 3 0x4000080 5 0 0 0x4000040 0) 0) (fun t => getNat t.mem 0x4000040 8) = some 5 ∧
    walk .eventWait (sNode (node 3 0x4000080 5 1 0 0x4000040 0) 5) = some (some (some 0x4000080)) ∧
    ev .eventWait (sNode (node 3 0x4000080 5 1 0 0x4000040 0) 4) (fun t => (look t.launches 0).map (·.started)) =
      some (some [.waiting 0x4000000 0x4000040 5 0]) ∧
    ev .eventMsi (sNode (node 3 0x4000080 0 2 0 0x4000040 0) 4) (fun t => t.msis.length) = some 1 := by decide +kernel
theorem witness_GraphResults_choices :
    walk .condNode (sNode (node 4 0x4000080 0x40000C0 2 0 0x4000040 0) 3) = some (some (some 0x40000C0)) ∧
    walk .condNode (sNode (node 4 0x4000080 0x40000C0 2 0 0x4000040 0) 1) = some (some (some 0x4000080)) ∧
    walk .loopNode (sNode (node 5 0x4000080 0x40000C0 0 0 0x4000040 1) 1) = some (some (some 0x40000C0)) ∧
    walk .loopNode (sNode (node 5 0x4000080 0x40000C0 0 0 0x4000040 1) 0) = some (some (some 0x4000080)) ∧
    walk .switchNode (sNode (node 6 0x4000080 0x40000C0 0x4000100 0 0x4000040 2) 1) = some (some (some 0x4000100)) ∧
    walk .switchNode (sNode (node 6 0x4000080 0x40000C0 0x4000100 0 0x4000040 2) 2) = some (some (some 0x4000080)) := by
  decide +kernel
/-- A JOB node of a copy of one sector, and a KERNEL node, whose descriptor and KTT are PLAIN zeros but for one stage. -/
def sJobNode : State :=
  let s := sNode (node 2 0 0x4000080 0 0 0 0) 0
  { s with mem := setNat s.mem 0x4000080 64 (card 2 0 0 1 0x4000200 0x4000400 0 0 1 0 0) }
theorem witness_GraphResults_job : ev .jobNode sJobNode (fun t => t.jobs.map (fun j => (j.2.opc, j.2.total))) =
    some [(2, 1)] := by decide +kernel
def sKernel : State :=
  let s := sNode (node 1 0 0x4000100 0 0 0 0) 0
  { s with sides := s.sides ++ [(0x40001, (mkTag clsPlain 0 0 0).zeroExtend 152)],
           mem := setNat s.mem 0x4000108 8 0x4001000 |> fun m => setNat m 0x40001E0 8 1 }
theorem witness_GraphResults_kernel : (sKernel.readKernel 0x4000100).toBool = true ∧
    ev .kernelNode sKernel (fun t => (look t.launches 0).map (fun l => (l.started.length, l.fail))) = some (some (1, none)) := by
  decide +kernel
/-- An EVENT WAIT under way, and a checked kernel of the placed program's shape. -/
def sWaits (v : Nat) : State :=
  let x := Started.waiting 0x4000000 0x4000040 5 0
  { sNode 0 v with launches := [(0, { launch0 with next := none, started := [x], waitFor := some x })], now := 9 }
def kOne : Kernel := { Kernel.program with stages :=
  [{ entry := 0x4000000000, inr := 0, outr := 0, inq := 0, outq := 0, xmin := 1, xmax := 1, amin := 0, amax := 0, tmin := 2, tmax := 2 }] }
def sCheck : State :=
  { sNode 0 0 with launches := [(0, { launch0 with next := none, started := [.checked 0x4000000 0 kOne 0x4000080 0] })], nextGroup := 1 }
theorem witness_GraphResults_places :
    ev .eventWaitReread (sWaits 5) (fun t => (look t.launches 0).map (fun l => l.started)) = some none ∧
    ev .eventWaitReread (sWaits 4) (fun t => (look t.launches 0).map (fun l => l.started)) =
      some (some [.waiting 0x4000000 0x4000040 5 9]) ∧
    sCheck.findPlace 0 kOne (fun _ => true) = some ([0], [0], [1]) := by decide +kernel
/-- No die is in service. -/
theorem witness_GraphResults_dies : let s := { sCheck with dieMap := List.replicate 8 none }
    s.diesInService.length < kOne.d ∧
    ev .kernelPlacement s (fun t => (look t.launches 0).map (fun l => (l.fail, l.started.length))) =
      some none := by decide +kernel
theorem witness_GraphResults_placement :
    ev .kernelPlacement sCheck (fun t => (t.groups.map (·.1), t.harts.map (fun h => (h.1, h.2.pc)))) =
      some ([0, 1], [(0, 0x4000000000), (1, 0x4000000000)]) := by decide +kernel

/-! ## Pages, stacks, links and the surroundings -/

/-- A command of the page service on the code page, whose entry is as given. -/
def sPit (op : Nat) (arg : Dword) (e : BitVec 128) : State :=
  { on hl with regs := { SchedRegs.reset with pitcmd := cmdOf op 0x400, pitarg0 := arg }, pit := [(0x400, e)] }
def present : BitVec 128 := programEntry
def moving : BitVec 128 := pitSet (pitSet programEntry 45 3 2) 88 40 0x401
def recoding : BitVec 128 := pitSet (pitSet programEntry 45 3 3) 7 5 14
def entryOf (s : State) : BitVec 3 × Nat := (pitState (s.pitEntry 0x400), pitWmark (s.pitEntry 0x400))
def status (s : State) : Dword := s.regs.pitcmd >>> 56
theorem witness_PageResults_commands : (sPit 1 0 0).pitIs 1 = true ∧ (sPit 1 0 0).writeBad (sPit 1 0 0).pitArg = false ∧
    (sPit 1 0 0).writeCxlBad (sPit 1 0 0).pitArg = false ∧ (sPit 1 0 0).accessOpen 0x400 = false ∧
    ev .pitcmdWrite (sPit 1 0 present) (fun t => (entryOf t, status t)) = some ((0, 0), 0) ∧
    ev .pitcmdMigrate (sPit 2 0x401 present) (fun t => (entryOf t, status t, (t.hubQueue 0).length)) = some ((2, 0), 0, 1) ∧
    ev .pitcmdRecode (sPit 3 14 present) (fun t => (entryOf t, status t, (t.hubQueue 0).length)) = some ((3, 0), 0, 1) ∧
    ev .pitcmdInvalid { sPit 1 0 0 with regs := { SchedRegs.reset with pitcmd := cmdBad 45 } } status = some 1 := by
  decide +kernel
def pass0 : Pass := { page := 0x400, background := false, before := 1 }
theorem witness_PageResults_passes :
    ev .passStart { on hl with passQ := ⟨#[[pass0], []], rfl⟩ } (fun t => (t.hubPass 0, t.hubQueue 0)) = some (some pass0, []) ∧
    backgroundDue (pitSet present 20 2 2) = true ∧
    ev .backgroundPassStart (sPit 0 0 (pitSet present 20 2 2)) (fun t => (t.hubPass 0).isSome) = some true ∧
    ev .passSectorStep ((sPit 0 0 moving).setHubPass 0 (some pass0)) entryOf = some (2, 1) ∧
    ev .passSectorStep ((sPit 0 0 recoding).setHubPass 0 (some pass0)) entryOf = some (3, 1) := by decide +kernel

/-- A focus with a request's header: tag 1, an opcode, port 0, or 64 for a tensor read. -/
def packetFoc (op : Nat) : Focus :=
  { foc 0 (if op = 3 then 64 else 0) (op * 2 ^ 61 + 2 ^ 58) with data := [zeroSector] }
def packets (i : Instr) (op : Nat) : Option (List (Nat × Nat)) :=
  ev i (at_ State.reset (packetFoc op)) (fun t => (t.stack 0).packets.map (fun p => (p.op, p.tag)))
theorem witness_StackResults : packets .rd 0 = some [(0, 1)] ∧ packets .wr 1 = some [(1, 1)] ∧ packets .wrm 2 = some [(2, 1)] ∧
    packets .trd 3 = some [(3, 1)] ∧ packets .tagw 4 = some [(4, 1)] ∧ packets .mrr 5 = some [(5, 1)] := by decide +kernel
theorem witness_StackResults_reply :
    ev .packetReply (at_ (nextOf (exec .rd (at_ State.reset (packetFoc 0)))) (foc 0 0 1)) (fun t =>
      ((t.stack 0).packets.length, t.replies.map (·.1))) = some (0, [3000]) := by decide +kernel
/-- Stack 0, taken over, whose management core has been restarted. -/
def handing (n : Nat) : State :=
  { State.reset.setStack 0 { State.reset.stack 0 with takeover := true, restarted := true } with now := n }
theorem witness_StackResults_sequencer :
    ev .refresh State.reset (fun t => (t.stack 0).refreshes) = some 1 ∧
    ev .scrubStep State.reset (fun t => (t.stack 0).scrubPos) = some 1 ∧
    ev .heartbeatMissing State.reset (fun t => (t.stack 0).takeover) = some true ∧
    ev .heartbeatMissing State.reset (fun t => t.replies) = some [(5000, .takeover 0)] ∧
    ev .refreshHandover (handing 3666) (fun t => (t.stack 0).takeover) = some false ∧
    ev .refreshHandover (handing 3665) (fun t => (t.stack 0).takeover) = some true ∧
    ev (.hmaskChange Stack.reset.hmask) State.reset (fun t => t.gates.length) = some 1 ∧ masksOk [] = false ∧
    ev (.hmaskChange []) State.reset (fun t => t.replies) = some [(5000, .refused)] := by decide +kernel
theorem witness_HashMasks : masksOk Stack.reset.hmask = true := by decide +kernel

/-- Link 0 in a state, n clock periods after reset. -/
def sLink (x : LinkState) (n : Nat) : State :=
  { State.reset.setLink 0 { State.reset.link 0 with state := x, rate := 1 } with now := n, focus := foc 0 0 2 }
/-- Link 0, active, at a utilisation that has stood since reset, below both bounds of a step and above. -/
def sUsed (n : Nat) : State :=
  let s := sLink .active n
  s.setLink 0 { s.link 0 with highSince := some 0, lowSince := some 0 }
/-- A gate that lowers the bound of link 0, and link 0 after replays in its last microsecond. -/
def sPressed : State := { sLink .active 0 with gates := [.rates 0 0 0] }
def sReplayed (n : Nat) : State :=
  let s := sLink .active 939
  s.setLink 0 { s.link 0 with recent := List.replicate n 0 }
def lk (i : Instr) (s : State) : Option (LinkState × BitVec 2) := ev i s (fun t => ((t.link 0).state, (t.link 0).rate))
theorem witness_LinkResults_links : lk .linkTrainingStart (sLink .down 0) = some (.training, 1) ∧
    ev .linkTrainingStart (sLink .failed 0) (fun t => t.gates) = some [.linkRestart 0] ∧
    lk .linkTrainingComplete (sLink .training 939999) = some (.active, 2) ∧
    lk .linkTrainingTimeout (sLink .training 940000) = some (.failed, 1) ∧
    lk .linkStepUp (sUsed 9400) = some (.hold, 2) ∧ lk .linkStepUp (sUsed 9399) = some (.active, 1) ∧
    lk .linkStepDown (sUsed 94000) = some (.hold, 0) ∧ lk .linkStepDown (sUsed 93999) = some (.active, 1) ∧
    (sPressed.ratePressed 0 (sPressed.link 0)) = true ∧ lk .linkStepDown sPressed = some (.hold, 0) ∧
    lk .linkRetrainComplete (sLink .hold 1879) = some (.active, 1) ∧ lk .linkHoldExpiry (sLink .hold 1880) = some (.down, 1) ∧
    ev .flitReplay (sLink .active 0) (fun t => (t.link 0).replays) = some 1 ∧
    lk .flitReplay (sReplayed 63) = some (.active, 1) ∧ lk .flitReplay (sReplayed 64) = some (.hold, 1) ∧
    ev .linkRatePolicy (sLink .active 0) (fun t => t.gates) = some [.rates 0 0 2] ∧
    ev .linkRatePolicy (at_ State.reset (foc 0 2 1)) (fun t => (t.gates, t.replies)) = some ([], [(5000, .refused)]) := by
  decide +kernel
/-- A collective of two ranks of package 0, whose member of rank 0 is sJob's job, now collecting. -/
def coll0 (sent : Bool) : Collective :=
  { ctx := 0, kind := 0, op := 0, root := 0, n0 := 1, pkgs := 1, cores := 3, timeout := 10, members := 2, started := some 0,
    got := [], acc := [], sent := sent, acked := [0], joined := [0], ended := none }
def sColl : State := { nextOf (exec (.jcoll (tj 7)) (carded (tj 7) (card 7 0 0 1 k2 k4 0 0 0 0x4000000040 10))) with focus := foc 0 0 0 }
theorem witness_LinkResults_contribution : ev .collectiveContribution (nextOf (exec .jobStart sColl)) (fun t =>
    t.colls.map (fun c => c.2.got.length)) = some [1] := by decide +kernel
def sSent (n sub : Nat) : State := { State.reset with colls := [(0, coll0 true)], now := n, focus := foc 0 sub 0 }
theorem witness_LinkResults_outcome :
    ev .collectiveTimeout (sSent 9400 0) (fun t => t.colls.map (fun c => c.2.ended)) = some [some (2, 0)] ∧
    ev .collectiveAck (sSent 9399 1) (fun t => t.colls.length) = some 0 := by decide +kernel
theorem witness_OutsideAccessResults : 0x4000000 < cxlEnd ∧ ((on hl).dpaLoc none 0 ((on hl).localDpa 0x4000000)).toBool = true ∧
    isHbm 0x4000000 = true ∧ pitState ((on hl).pitEntry (0x4000000 / 65536)) ≠ 0 ∧
    ((on hl).deviceLoc 0x4000000).isSome = true ∧
    ev (.applicationHartAccess 3 0 (.load 0x4000000 2)) { on hl with mem := [(0x4000001, 7)] } (fun t => t.replies) =
      some [(3, .bytes [0, 7])] ∧
    ev (.applicationHartAccess 3 0 (.store 0x4000000 2 0x10203)) (on hl) (fun t => t.mem) =
      some [(0x4000000, 3), (0x4000001, 2)] := by decide +kernel
/-- The IOMMU maps page 9 of device 1 to the code page. -/
def mapped : State := { on hl with iommu := [(1 * 2 ^ 52 + 9, { page := 0x4000, read := true, write := false }), (2 * 2 ^ 52 + 9, { page := 0x4000, read := false, write := true })] }
/-- A host copy of a CXL line in the LLC, and a scope entry that names host harts and the peer. -/
def sLlc : State :=
  { on hl with windows := [(0, .cxl 1 0 3)], llc := [(cxlKey 1 0 / 256, { tag := mkTag clsPlain 0 0 0, bmeta := 0, data := 5 })] }
theorem witness_OutsideAccessResults_atomics :
    ev (.applicationHartAccess 3 0 (.amo .add 0x4000000 4 5 false false)) { on hl with mem := [(0x4000000, 7)] } (fun t =>
      (t.replies, t.mem)) = some ([(3, .bytes [7, 0, 0, 0])], [(0x4000000, 12)]) ∧
    ev (.applicationHartAccess 3 0 (.lr 0x4000000 8 false false)) (on hl) (fun t => t.hostRes) = some [(3, 0x40000)] ∧
    ((sLlc.dpaLoc none 0 cxlBase).toOption.map (fun l => isCxlKey l.key)) = some true ∧
    ev (.applicationHartAccess 3 0 (.load cxlBase 1)) sLlc (fun t => t.replies) = some [(3, .bytes [5])] ∧
    (0 ∉ sLlc.hostScopes 3 ∨ sLlc.scopeNamesPeer 0 none = false) ∧ 31 ∈ sLlc.hostScopes 3 ∧ sLlc.scopeNamesPeer 31 none = true ∧
    ev .applicationHartFence { sLlc with focus := foc 3 0 0 } (fun t => t.llc.length) = some 0 ∧
    ev .cxlBackInvalidation { sLlc with focus := foc 0 0 cxlBase } (fun t => t.llc.length) = some 0 ∧
    ev .cxlBackInvalidation { sLlc with focus := { foc 0 0 cxlBase with data := [{ zeroSector with tag := mkTag clsPlain 0 0 0, data := 9 }] } }
      (fun t => (t.llc.length, getNat t.mem (cxlKey 1 0) 1)) = some (0, 9) := by decide +kernel
/-- With no context there is no entry of which an application hart is a member. -/
theorem witness_OutsideAccessResults_fence : State.hostScopes { sLlc with ctxs := [] } 3 = [] ∧
    ev .applicationHartFence { sLlc with ctxs := [], focus := foc 3 0 0 } (fun t => t.llc.length) = some 1 := by decide +kernel
theorem witness_OutsideAccessResults_others :
    ev (.domainAccessArrival 2 0 (.raw (.load 0x4000000 1))) { on hl with mem := [(0x4000000, 7)] } (fun t => t.replies) =
      some [(2002, .bytes [7])] ∧
    ev .deviceRead { mapped with mem := [(0x4000000, 7)], focus := foc 1 2 0x9000 } (fun t => t.replies) =
      some [(1001, .bytes [7, 0])] ∧
    (on hl).ioAddr 1 0x9000 false = none ∧ mapped.ioAddr 1 0x9000 true = none ∧
    ev .deviceRead { on hl with focus := foc 1 2 0x9000 } (fun t => (t.iommuFaults, t.replies)) =
      some ([0x9000], [(1001, .accessFault)]) ∧
    ev .deviceWrite { mapped with focus := { foc 2 2 0x9000 with data := [{ zeroSector with data := 0x0909 }] } }
      (fun t => t.mem) = some [(0x4000000, 9), (0x4000001, 9)] ∧
    (on hl).windowOk (.cxl 1 0 3) = true ∧ (on hl).windowOk (.cxl 2 0 3) = false ∧
    ev (.domainWindowConfig .unused) (at_ (on hl) (foc 55 0 0)) (fun t => t.gates.length) = some 1 := by decide +kernel

/-- A configuration record with every value in range. -/
def boot1 : BootRecord :=
  { pkg := 5, domain := 0, cxlSplit := [0, 1], rootSplit := [0, 1, 2, 0], dieMap := State.reset.dieMap,
    hmasks := List.replicate 12 Stack.reset.hmask, scrubHours := List.replicate 12 24, linkRates := List.replicate 24 (0, 2), powerLimit := 2000,
    bootAddr := 0x100 }
def booted (n since : Nat) (ready : Bool) : State :=
  let tr := { Trust.reset with record := some boot1, verified := true, released := n, releasedAt := 0, ready := ready,
                                     keysLoaded := decide (3 ≤ n) }
  { State.reset with trust := tr, now := since }
theorem witness_BringupResults : State.reset.trust.record = none ∧ recordOk boot1 = true ∧
    recordOk { boot1 with powerLimit := 3601 } = false ∧
    ev (.tdBoot boot1 true) State.reset (fun t => (t.pkg, t.powerLimit, t.gates, t.trust.failure)) =
      some (5, 2000, [.bootKeys], false) ∧
    recordOk { boot1 with linkRates := List.replicate 17 (0, 2) } = false ∧
    (State.reset.applyGate .bootKeys).trust.keysLoaded = true ∧
    ev (.tdBoot boot1 false) State.reset (fun t => (t.pkg, t.trust.failure, t.trust.faultPin)) = some (0, true, true) ∧
    ev .dieRelease (booted 0 94000001 false) (fun t => (t.trust.released, t.trust.failure)) = some (1, false) ∧
    ev .dieRelease (booted 21 93999999 false) (fun t => (t.trust.released, t.trust.failure)) = some (22, false) ∧
    ev .dieRelease (booted 22 93999999 true) (fun t =>
      (t.trust.released, t.trust.appStart, t.ahosts.map (fun a => (a.2.pc, a.2.waiting)))) = some (23, some 0x100, [(0x100, false)]) ∧
    ev .dieRelease (booted 23 93999999 false) (fun t => t.trust.ready) = some true ∧
    ev .dieReadyTimeout (booted 1 94000000 false) (fun t => t.trust.failure) = some true := by decide +kernel
theorem witness_BringupResults_power : State.now { State.reset with now := 9400 } % 9400 = 0 ∧
    ev .powerTick { State.reset with now := 9400, focus := foc 0 0 3601 } (fun t => t.permit) = some 15 ∧
    ev .powerTick { State.reset with now := 9400, permit := 9, focus := foc 0 0 3419 } (fun t => t.permit) = some 10 ∧
    ev .powerTick { State.reset with now := 9400, permit := 9, focus := foc 0 0 3420 } (fun t => t.permit) = some 9 ∧
    ev .powerTick { State.reset with now := 9400, permit := 4, focus := foc 0 0 9999 } (fun t => t.permit) = some 4 := by
  decide +kernel

/-! ## Steps and decoding -/

/-- The placed program's hart runs the instruction of a word, and an engine its queue's head. -/
def placed (w : Nat) : State := State.reset.withFetchWord 32 w
def stepped {α : Type} (s : State) (f : Hart → α) : Option α := after (step s) (fun _ h => f h)
theorem witness_StepRunsDecoded : (placed 0x10631FFF).plan = [.scalar 0 false] ∧
    (placed 0x10631FFF).sieveMay Hart.program = true ∧ (placed 0x10631FFF).hartUp Hart.program = true ∧
    (placed 0x10631FFF).stopped Hart.program = false ∧ (placed 0x10631FFF).expired Hart.program = false ∧
    stepped (placed 0x10631FFF) (fun h => (h.reg 0 24, h.pc)) = some (0xFFFFFFFFFFFFFFFF, 0x4000000004) ∧
    stepped (placed 0xFFFFFFFF) (fun h => h.state) = some .suspended := by decide +kernel
def tfAdd : Template := { tf with opc := 1 }
theorem witness_StepRunsDecoded_engine : let s := { on (queued .xv tfAdd hx) with plan := [.engine 0 .xv false 0 0] }
    decodeTemplate .xv tfAdd = some (.vadd tfAdd) ∧ stepped s (fun h => (h.queue .xv).map (fun c => c.done.isSome)) = some [true] ∧
    stepped { on hDone with plan := [.engine 0 .ld false 0 0] } (fun h => (h.queue .ld).length) = some 0 ∧
    stepped { on hFault with plan := [.engine 0 .ld false 0 0] } (fun h => h.state) = some .suspended := by decide +kernel
theorem witness_StepRunsDecoded_event : isStep .powerTick = true ∧
    (on hl).stepUp .refresh (foc 0 0 0) = true ∧
    (match step { on hl with plan := [.event .refresh (foc 0 0 0)] } with
      | .next t => (t.stack 0).refreshes == 1
      | _ => false) = true := by decide +kernel
theorem witness_EncodeDecode : Instr.wellFormed (.addi px0 24 24 0x1FFF) = true ∧
    encode (.addi px0 24 24 0x1FFF) = some [0x10631FFF] ∧ Instr.wellFormed (.addi (pxV 1) 24 24 0x1FFF) = true ∧
    ((encode (.addi (pxV 1) 24 24 0x1FFF)).map (fun ws => ws.length)) = some 2 := by decide +kernel
theorem witness_MemoryCanonicalKept : Memory.wf (placed 0x10631FFF).mem = true ∧
    stepped (placed 0x10631FFF) (fun h => h.pc) = some 0x4000000004 := by decide +kernel

/-- What a list of words decodes to, where the instruction is one. -/
def decoded (ws : List Word) : Option Instr :=
  match decode ws with
  | .instr i _ => some i
  | _ => none
theorem test_decode_integer : decoded [0x10631FFF] = some (.addi px0 24 24 0x1FFF) := by decide +kernel
theorem test_decode_load : decoded [0x2360A000] = some (.ld px0 24 5 0 0) := by decide +kernel
theorem test_decode_float : decoded [0x18633A00] = some (.fadd32 px0 24 25 26 0 0) := by decide +kernel
theorem test_decode_csr : decoded [0x2CE00008] = some (.csrrs px0 24 0 8) := by decide +kernel
theorem test_decode_tmld : (decoded [0x37031031]).map (fun i => match i with | .tmld _ _ _ _ _ => true | _ => false) = some true := by
  decide +kernel
theorem test_decode_dmsetc : (decoded [0x3E834000]).map (fun i => match i with | .dmsetc _ _ _ => true | _ => false) = some true := by
  decide +kernel
theorem test_decode_dred : (decoded [0x3F6F2000]).map (fun i => match i with | .dred _ _ _ o => o == 0 | _ => false) = some true := by
  decide +kernel
theorem test_decode_amo : decoded [0x386CC805] = some (.amoadd px0 27 6 1 0 5) := by decide +kernel
theorem test_decode_barinit : decoded [0x27810020] = some (.barinit px0 8 1 0) := by decide +kernel
theorem test_decode_bararm : decoded [0x27650000] = some (.bararm px0 25 8) := by decide +kernel
theorem test_decode_bwait : decoded [0x26010000] = some (.bwait px0 8 0) := by decide +kernel
theorem test_decode_fences : decoded [0x32000005] = some (.fences px0 5) := by decide +kernel
theorem test_decode_ldaq : (decoded [0x3D68CA05]).map (fun i => match i with | .ldaq _ _ _ _ e => e == 5 | _ => false) = some true := by
  decide +kernel
theorem test_decode_scopewr : (decoded [0x2E60A025]).map (fun i => match i with | .scopewr _ _ a nb e => a == 5 && nb == 1 && e == 5 | _ => false) = some true := by
  decide +kernel
theorem test_decode_formation : decoded [0x62800000] = some (.commandFormation px0 .xv 5 0 0 0) := by decide +kernel
theorem test_decode_record : decoded [0x2F000001] = some (.recordOn px0) ∧ decoded [0x2F80A000] = some (.reverse px0 5) := by
  decide +kernel
theorem test_decode_drain : decoded [0x33000001] = some (.drainDev px0) := by decide +kernel
theorem test_decode_jfill : let t := templateOfWords 0 0 0x18190800 0x05006E06
    decodeTemplate .jb t = some (.jfill t) ∧ t.d = 6 ∧ t.a = 24 ∧ t.b = 25 ∧ t.cw = 3 ∧ t.fmt = 14 := by decide +kernel
theorem test_decode_mlease : let t := templateOfWords 4 0 0 0x01000000
    decodeTemplate .mx t = some (.mlease t) ∧ t.imm = 4 := by decide +kernel
theorem test_decode_tact : let t := templateOfWords 0 0 0x01000000 0x18010002
    decodeTemplate .mx t = some (.tact t) ∧ t.d = 2 ∧ t.a = 1 ∧ t.mod = 1 := by decide +kernel
theorem test_decode_sst : let t := templateOfWords 0 1 0x01000000 0x01000007
    decodeTemplate .st t = some (.sst t) ∧ t.d = 7 ∧ t.a = 1 ∧ t.len = 1 := by decide +kernel
theorem test_decode_sacc : let t := templateOfWords 8 4 0x02090000 0x05082906
    decodeTemplate .st t = some (.sacc t) ∧ t.d = 6 ∧ t.a = 2 ∧ t.b = 9 ∧ t.len = 4 ∧ t.imm = 8 := by decide +kernel

/-! ## What WellFormed refuses -/

/-- A DIEP with a reserved bit, and one with MKEEP and a mask. -/
def pxBad : Px := { diep := some 1, valx := none }
def pxKeep : Px := { diep := some 0x48000, valx := none }
theorem smoke_prefixes : Instr.wellFormed (.add pxBad 1 2 3) = false ∧ Instr.wellFormed (.add pxKeep 1 2 3) = false ∧
    Instr.wellFormed (.add (pxV 0) 1 2 3) = false ∧ Instr.wellFormed (.add (pxD 3) 1 2 3) = true ∧
    Instr.wellFormed (.slli (pxV 1) 1 2 3) = false := by decide +kernel
theorem smoke_fields : Instr.wellFormed (.sext px0 1 2 3) = false ∧ Instr.wellFormed (.fadd32 px0 1 2 3 0 7) = false ∧
    Instr.wellFormed (.fcmp32 px0 1 2 3 5) = false ∧ Instr.wellFormed (.fcvtffTo px0 1 2 0 8 0) = false ∧
    Instr.wellFormed (.ld px0 1 2 3 0) = false ∧ Instr.wellFormed (.csrrw px0 1 2 0x00C) = false ∧
    Instr.wellFormed (.xstatSrseedAccess px0 .rw 1 2 0x009) = false ∧ Instr.wellFormed (.tapeCsrAccess px0 .rw 1 2 0x024) = false ∧
    Instr.wellFormed (.vlset px0 1 2 5) = false ∧ Instr.wellFormed (.scopewr px0 1 2 0 31) = false ∧
    Instr.wellFormed (.scopeinv px0 1 0 0) = false := by decide +kernel
theorem smoke_words : Instr.wellFormed (.tmld px0 2 0 60 5) = false ∧ Instr.wellFormed (.tmpli 1 0 0 0 0 0) = false ∧
    Instr.wellFormed (.amoadd px0 1 2 2 0 0) = false ∧ Instr.wellFormed (.amocas px0 1 2 0 0 0) = false ∧
    Instr.wellFormed (.dred px0 1 2 7) = false ∧ Instr.wellFormed (.illegalOpcode px0 0x10631FFF) = false := by decide +kernel
theorem smoke_templates : Instr.wellFormed (.ald { tl 1 with opc := 2 }) = false ∧ Instr.wellFormed (.ald { tl 1 with len := 0 }) = false ∧
    Instr.wellFormed (.vadd { tf with fmt := 7, cw := 3 }) = false ∧ Instr.wellFormed (.tzero { tmpl 0x12 1 1 0 with a := 1 }) = false :=
  by decide +kernel
theorem smoke_steps : Instr.wellFormed (.hmaskChange []) = false ∧ Instr.wellFormed (.applicationHartAccess 64 0 (.load 0 1)) = false ∧
    Instr.wellFormed (.domainAccessArrival 64 0 (.raw (.load 0 1))) = false := by decide +kernel
end Sys2Proof.Tests
end

section
/-! PROOFS. The family 07_scalar: integer register forms, branches, CSR instructions on DMASK, DMSETC and PSTEP
(R122, R125, R126, R132, R133, R137, R141, R147). -/

namespace Sys2Proof.Scalar

open Sys2Proof Sys2Proof.Machine Sys2Proof.Claim Sys2Proof.Laws

section
variable {s : State} {hid : Nat} {h : Hart} {px : Px}

/-! ## The scalar frame -/

/-- A scalar instruction that runs is its meaning at the acting hart. -/
theorem withRegs_of_runs {regs : List Nat} (r : Runs s px regs hid h) (f : Nat → Hart → Out) :
    withRegs s px regs f = f hid h := by
  obtain ⟨rfl, hl, hp, hr⟩ := r
  exact withRegs_runs hl hp hr f

/-- An instruction of the form d := f(a, b) that runs writes f of each active row's operands. -/
theorem exec_of_op2 {i : Instr} {d a b : Reg} {f : Dword → Dword → Dword} {v : Nat → Dword}
    (r : Runs s px [d.toNat, a.toNat, b.toNat] hid h) (hi : exec i s = op2 s px d a b f)
    (hf : ∀ j, f (h.reg j a.toNat) (h.reg j b.toNat) = v j) :
    exec i s = goes (rowsWritten s hid h px d v) := by
  rw [hi, op2, rowOp, withRegs_of_runs r, rowsWritten, funext hf]

/-! ## The integer functions as arithmetic of integers (R125, R126) -/

theorem add_eq_ofNat (x y : Dword) : x + y = BitVec.ofNat 64 (x.toNat + y.toNat) := by
  rw [BitVec.ofNat_add, BitVec.ofNat_toNat, BitVec.ofNat_toNat, BitVec.setWidth_eq, BitVec.setWidth_eq]

theorem mul_eq_ofNat (x y : Dword) : x * y = BitVec.ofNat 64 (x.toNat * y.toNat) := by
  rw [BitVec.ofNat_mul, BitVec.ofNat_toNat, BitVec.ofNat_toNat, BitVec.setWidth_eq, BitVec.setWidth_eq]

theorem sub_eq_ofInt (x y : Dword) : x - y = BitVec.ofInt 64 (x.toInt - y.toInt) :=
  BitVec.eq_of_toInt_eq (by rw [BitVec.toInt_sub, BitVec.toInt_ofInt])

theorem shl_shamt_eq_ofNat (x y : Dword) : x <<< shamt y = BitVec.ofNat 64 (x.toNat * 2 ^ (y.toNat % 64)) :=
  BitVec.eq_of_toNat_eq (by rw [BitVec.toNat_shiftLeft, BitVec.toNat_ofNat, Nat.shiftLeft_eq, shamt])

theorem shr_shamt_eq_ofNat (x y : Dword) : x >>> shamt y = BitVec.ofNat 64 (x.toNat / 2 ^ (y.toNat % 64)) := by
  have hlt : x.toNat / 2 ^ (y.toNat % 64) < 2 ^ 64 := (Nat.div_le_self _ _).trans_lt x.isLt
  apply BitVec.eq_of_toNat_eq
  rw [BitVec.toNat_ushiftRight, BitVec.toNat_ofNat, Nat.shiftRight_eq_div_pow, shamt, Nat.mod_eq_of_lt hlt]

theorem sar_shamt_eq_ofInt (x y : Dword) :
    x.sshiftRight (shamt y) = BitVec.ofInt 64 (x.toInt / 2 ^ (y.toNat % 64)) := by
  rw [BitVec.sshiftRight, Int.shiftRight_eq_div_pow, shamt, Nat.cast_pow, Nat.cast_ofNat]

theorem flag64_slt_eq_oneIf (x y : Dword) : flag64 (x.slt y) = oneIf (x.toInt < y.toInt) := by
  simp only [flag64, oneIf, BitVec.slt_iff_toInt_lt]

theorem flag64_ult_eq_oneIf (x y : Dword) : flag64 (x.ult y) = oneIf (x.toNat < y.toNat) := by
  simp only [flag64, oneIf, BitVec.ult_iff_toNat_lt]

/-- R126: the remainder by zero is the dividend, as Nat's own is. -/
theorem remU_eq_ofNat (x y : Dword) : remU x y = BitVec.ofNat 64 (x.toNat % y.toNat) := by
  rw [remU]
  split
  · next hy => rw [hy, show (0 : Dword).toNat = 0 from rfl, Nat.mod_zero, BitVec.ofNat_toNat, BitVec.setWidth_eq]
  · rfl

theorem minS_eq_ofInt (x y : Dword) : (if x.slt y then x else y) = BitVec.ofInt 64 (min x.toInt y.toInt) := by
  simp only [min_def_lt, apply_ite (BitVec.ofInt 64), BitVec.ofInt_toInt, BitVec.slt_iff_toInt_lt]

theorem maxS_eq_ofInt (x y : Dword) : (if x.slt y then y else x) = BitVec.ofInt 64 (max x.toInt y.toInt) := by
  simp only [max_def_lt, apply_ite (BitVec.ofInt 64), BitVec.ofInt_toInt, BitVec.slt_iff_toInt_lt]

theorem minU_eq_ofNat (x y : Dword) : (if x.ult y then x else y) = BitVec.ofNat 64 (min x.toNat y.toNat) := by
  simp only [min_def_lt, apply_ite (BitVec.ofNat 64), BitVec.ofNat_toNat, BitVec.setWidth_eq, BitVec.ult_iff_toNat_lt]

theorem maxU_eq_ofNat (x y : Dword) : (if x.ult y then y else x) = BitVec.ofNat 64 (max x.toNat y.toNat) := by
  simp only [max_def_lt, apply_ite (BitVec.ofNat 64), BitVec.ofNat_toNat, BitVec.setWidth_eq, BitVec.ult_iff_toNat_lt]

/-- CMOV reads d besides a and b, so it is not of the form d := f(a, b). -/
theorem exec_cmov_of_runs {d a b : Reg} (r : Runs s px [d.toNat, a.toNat, b.toNat] hid h) :
    exec (.cmov px d a b) s = goes (rowsWritten s hid h px d
      (fun j => if h.reg j b.toNat = 0 then h.reg j d.toNat else h.reg j a.toNat)) := by
  rw [exec_cmov, execCmov, rowOp, withRegs_of_runs r, rowsWritten]
  simp only [bne_iff_ne, ne_eq, ite_not]

/-! ## Branches (R132, R133) -/

section
variable {x y : Reg} {i : BitVec 13} {c : Dword → Dword → Bool}

/-- A branch on whose condition the active rows agree, of which row j is the lowest. -/
theorem branchOp_of_agree (r : Runs s px [x.toNat, y.toNat] hid h) {j : Nat} {js : List Nat}
    (ha : h.active px = j :: js) {b : Bool} (hc : ∀ k ∈ h.active px, c (h.reg k x.toNat) (h.reg k y.toNat) = b) :
    branchOp s px x y i c =
      if b then goes (s.setHart hid (h.retireTo s.now (h.pc + pxImm px i * 4))) else goes (retired s hid h px) := by
  rw [ha, List.forall_mem_cons] at hc
  obtain ⟨hj, hjs⟩ := hc
  have hfind : js.find? (fun k => c (h.reg k x.toNat) (h.reg k y.toNat) != b) = none :=
    List.find?_eq_none.mpr (fun k hk => by simp [hjs k hk])
  rw [branchOp, withRegs_of_runs r]
  simp only [ha, hj, hfind]
  rfl

/-- A branch whose condition holds in no active row, or which has none, goes to the next instruction. -/
theorem branchOp_falls (r : Runs s px [x.toNat, y.toNat] hid h)
    (hc : ∀ j ∈ h.active px, c (h.reg j x.toNat) (h.reg j y.toNat) = false) :
    branchOp s px x y i c = goes (retired s hid h px) := by
  cases ha : h.active px with
  | nil =>
    rw [branchOp, withRegs_of_runs r]
    simp only [ha]
    rfl
  | cons j js => rw [branchOp_of_agree r ha hc, if_neg Bool.false_ne_true]

/-- A branch whose condition holds in every active row, of which there is one, goes to its target. -/
theorem branchOp_taken (r : Runs s px [x.toNat, y.toNat] hid h) (hne : h.active px ≠ [])
    (hc : ∀ j ∈ h.active px, c (h.reg j x.toNat) (h.reg j y.toNat) = true) :
    branchOp s px x y i c = goes (s.setHart hid (h.retireTo s.now (h.pc + pxImm px i * 4))) := by
  obtain ⟨j, js, ha⟩ := List.exists_cons_of_ne_nil hne
  rw [branchOp_of_agree r ha hc, if_pos rfl]

/-- A branch on whose condition two active rows differ raises DIE_DIVERGENT_BRANCH for an active row. -/
theorem branchOp_diverges (r : Runs s px [x.toNat, y.toNat] hid h) {m n : Nat} (hm : m ∈ h.active px)
    (hn : n ∈ h.active px) (hcm : c (h.reg m x.toNat) (h.reg m y.toNat) = true)
    (hcn : c (h.reg n x.toNat) (h.reg n y.toNat) = false) :
    ∃ k ∈ h.active px,
      branchOp s px x y i c = goes (s.takeTrap hid (scalarInfo h 1 .dieDivergentBranch k none)) := by
  rw [branchOp, withRegs_of_runs r]
  cases ha : h.active px with
  | nil => rw [ha] at hm; exact absurd hm List.not_mem_nil
  | cons j js =>
    rw [ha] at hm hn
    dsimp only
    cases hfind : js.find? (fun k =>
        c (h.reg k x.toNat) (h.reg k y.toNat) != c (h.reg j x.toNat) (h.reg j y.toNat)) with
    | some k => exact ⟨k, List.mem_cons_of_mem _ (List.mem_of_find?_eq_some hfind), rfl⟩
    | none =>
      have agree : ∀ k ∈ j :: js,
          c (h.reg k x.toNat) (h.reg k y.toNat) = c (h.reg j x.toNat) (h.reg j y.toNat) :=
        List.forall_mem_cons.mpr ⟨rfl, fun k hk => by simpa using List.find?_eq_none.mp hfind k hk⟩
      rw [agree m hm] at hcm
      rw [agree n hn, hcm] at hcn
      exact absurd hcn.symm Bool.false_ne_true

/-- The three outcomes of a branch, by a proposition that its condition decides. -/
theorem exec_of_branchOp {e : Instr} {p : Nat → Prop} (r : Runs s px [x.toNat, y.toNat] hid h)
    (he : exec e s = branchOp s px x y i c) (hp : ∀ j, c (h.reg j x.toNat) (h.reg j y.toNat) = true ↔ p j) :
    ((∀ j ∈ h.active px, ¬ p j) → exec e s = goes (retired s hid h px)) ∧
    (h.active px ≠ [] → (∀ j ∈ h.active px, p j) →
      exec e s = goes (s.setHart hid (h.retireTo s.now (h.pc + pxImm px i * 4)))) ∧
    ((∃ j ∈ h.active px, p j) → (∃ j ∈ h.active px, ¬ p j) →
      ∃ k ∈ h.active px, exec e s = goes (s.takeTrap hid (scalarInfo h 1 .dieDivergentBranch k none))) := by
  simp only [he, ← hp, Bool.not_eq_true]
  refine ⟨branchOp_falls r, branchOp_taken r, ?_⟩
  rintro ⟨m, hm, hcm⟩ ⟨n, hn, hcn⟩
  exact branchOp_diverges r hm hn hcm hcn

end

theorem not_slt_iff_toInt_le (a b : Dword) : (!a.slt b) = true ↔ b.toInt ≤ a.toInt := by
  rw [BitVec.slt_eq_decide, Bool.not_eq_true', decide_eq_false_iff_not, not_lt]

theorem not_ult_iff_toNat_le (a b : Dword) : (!a.ult b) = true ↔ b.toNat ≤ a.toNat := by
  rw [BitVec.ult_eq_decide, Bool.not_eq_true', decide_eq_false_iff_not, not_lt]

/-! ## CSR instructions on DMASK (R137) -/

/-- A value of eight bits has no bit above them. -/
theorem and_not_byte {x : Dword} (hx : x.toNat < 2 ^ 8) : x &&& ~~~ (BitVec.ofNat 64 (2 ^ 8 - 1)) = 0 := by
  apply BitVec.eq_of_getLsbD_eq
  intro k _
  rw [BitVec.getLsbD_and, BitVec.getLsbD_not, BitVec.getLsbD_ofNat, Nat.testBit_two_pow_sub_one]
  by_cases hk : k < 8
  · simp [hk]
  · have hbit : x.getLsbD k = false :=
      Nat.testBit_lt_two_pow (hx.trans_le (Nat.pow_le_pow_right Nat.zero_lt_two (not_lt.mp hk)))
    simp [hbit]

/-- A value of eight bits meets no RZ bit of DMASK (R5, R105). -/
theorem csrReject_dmask {x : Dword} (hx : x.toNat < 256) : csrReject csrDmask x = none := by
  have hrz : x &&& csrRz csrDmask = 0 := and_not_byte hx
  rw [csrReject, hrz]
  rfl

/-- A CSR instruction with a ≠ s0 writes the CSR (R135). -/
theorem csrWrites_of_ne {op : CsrOp} {a : Reg} (ha : a ≠ 0) : csrWrites op a = true := by
  rw [csrWrites, bne_iff_ne.mpr ha, Bool.or_true]

/-- CSRRS and CSRRC with a = s0 write no CSR (R135). -/
theorem csrWrites_s0 {op : CsrOp} {a : Reg} (hop : op ≠ .rw) (ha : a = 0) : csrWrites op a = false := by
  rw [csrWrites, beq_eq_false_iff_ne.mpr hop, ha]
  rfl

section
variable {d a : Reg} {js : List Nat}

/-- CSRRS and CSRRC with a = s0 only read DMASK. -/
theorem csrAccess_dmask_reads (r : Runs s px [d.toNat, a.toNat] hid h) (hrows : h.allRows = 0 :: js) {op : CsrOp}
    (hw : csrWrites op a = false) :
    csrAccess s px op d a csrDmask =
      goes (s.retire hid (h.setRegs h.allRows d.toNat (fun _ => h.csr.dmask.zeroExtend 64)) px) := by
  rw [csrAccess, withRegs_of_runs r]
  simp only [if_true, hrows, hw]
  rfl

/-- The other forms put the new value, where DMASK takes it, into the bits of the span. -/
theorem csrAccess_dmask_writes (r : Runs s px [d.toNat, a.toNat] hid h) (hrows : h.allRows = 0 :: js) {op : CsrOp}
    (hw : csrWrites op a = true) {new : Dword}
    (hnew : csrNew op (h.csr.dmask.zeroExtend 64) (h.reg 0 a.toNat) = new) (hlt : new.toNat < 256) :
    csrAccess s px op d a csrDmask =
      goes (s.retire hid
        ((h.setRegs h.allRows d.toNat (fun _ => h.csr.dmask.zeroExtend 64)).csrStore csrDmask new) px) := by
  have hold : s.csrValue h csrDmask = h.csr.dmask.zeroExtend 64 := rfl
  rw [csrAccess, withRegs_of_runs r]
  simp only [if_true, hrows, hw, hold, hnew, csrReject_dmask hlt]
  rfl

end

/-! ## DMSETC (R141) -/

/-- Clearing the bits of some rows, one by one, leaves each bit that is not one of them. -/
theorem getLsbD_foldl_clear {k : Nat} (hk : k < 8) (js : List Nat) (m : BitVec 8) :
    (js.foldl (fun m j => m &&& ~~~ (BitVec.ofNat 8 (2 ^ j))) m).getLsbD k = (m.getLsbD k && !decide (k ∈ js)) := by
  induction js generalizing m with
  | nil => simp
  | cons j js ih =>
    rw [List.foldl_cons, ih, BitVec.getLsbD_and, BitVec.getLsbD_not, BitVec.getLsbD_ofNat, Nat.testBit_two_pow]
    by_cases hj : j = k
    · simp [hj, hk]
    · simp [hj, hk, Ne.symm hj]

/-! ## PSTEP (R147) -/

/-- PSTEP with no step left writes 0 into d of every row of the span. -/
theorem exec_pstep_none {d : Reg} (r : Runs s px [d.toNat] hid h)
    (hstep : h.task.bind (fun t => panelStep t h.csr.trows h.csr.vl.toNat) = none) :
    exec (.pstep px d) s = goes (s.retire hid (h.setRegs h.allRows d.toNat (fun _ => 0)) px) := by
  rw [exec_pstep, execPstep, withRegs_of_runs r, hstep]

/-- PSTEP with a step left writes it into d of every row of the span, its position into PANELPOS, and moves the task. -/
theorem exec_pstep_some {d : Reg} (r : Runs s px [d.toNat] hid h) {t : Task} {row col : Nat} {x : Dword}
    (hstep : h.task.bind (fun t => panelStep t h.csr.trows h.csr.vl.toNat) = some (t, row, col, x)) :
    exec (.pstep px d) s = goes (s.retire hid (Hart.setRegs
      { h with task := some t, csr := { h.csr with panelRow := BitVec.ofNat 32 row, panelCol := BitVec.ofNat 32 col } }
      h.allRows d.toNat (fun _ => x)) px) := by
  rw [exec_pstep, execPstep, withRegs_of_runs r, hstep]

/-- A task past its last row, and any task with VL = 0, has no step. -/
theorem panelStep_none {t : Task} {trows vl : Nat} (hn : t.rows.toNat ≤ t.row0 ∨ vl = 0) :
    panelStep t trows vl = none := by
  rw [panelStep, if_pos (by simpa using hn)]

/-- The step at the position of a task that has a row left, with VL not 0. -/
theorem panelStep_some {t : Task} {trows vl : Nat} (hrow : t.row0 < t.rows.toNat) (hvl : vl ≠ 0) :
    panelStep t trows vl = some
      (if t.cols.toNat ≤ t.col0 + min (t.cols.toNat - t.col0) vl then
          { t with col0 := 0, row0 := t.row0 + min (t.rows.toNat - t.row0) trows }
        else { t with col0 := t.col0 + min (t.cols.toNat - t.col0) vl },
       t.row0, t.col0,
       BitVec.ofNat 64 (min (t.cols.toNat - t.col0) vl * 2 ^ 32 + min (t.rows.toNat - t.row0) trows)) := by
  rw [panelStep, if_neg (by simp [hrow, hvl])]

end

/-! ## The obligations -/

/-- Settles O1: each register form is `op2` of a function that the lemmas above give in arithmetic of integers. -/
theorem integerRegisterResults : Obligations.IntegerRegisterResults := by
  unfold Obligations.IntegerRegisterResults
  intro s hid h px d a b r x y w
  exact ⟨exec_of_op2 r (exec_add ..) (fun _ => add_eq_ofNat _ _),
    exec_of_op2 r (exec_sub ..) (fun _ => sub_eq_ofInt _ _),
    exec_of_op2 r (exec_and ..) (fun _ => rfl),
    exec_of_op2 r (exec_or ..) (fun _ => rfl),
    exec_of_op2 r (exec_xor ..) (fun _ => rfl),
    exec_of_op2 r (exec_sll ..) (fun _ => shl_shamt_eq_ofNat _ _),
    exec_of_op2 r (exec_srl ..) (fun _ => shr_shamt_eq_ofNat _ _),
    exec_of_op2 r (exec_sra ..) (fun _ => sar_shamt_eq_ofInt _ _),
    exec_of_op2 r (exec_slt ..) (fun _ => flag64_slt_eq_oneIf _ _),
    exec_of_op2 r (exec_sltu ..) (fun _ => flag64_ult_eq_oneIf _ _),
    exec_of_op2 r (exec_mul ..) (fun _ => mul_eq_ofNat _ _),
    exec_of_op2 r (exec_mulh ..) (fun _ => rfl),
    exec_of_op2 r (exec_mulhu ..) (fun _ => rfl),
    exec_of_op2 r (exec_div ..) (fun _ => rfl),
    exec_of_op2 r (exec_divu ..) (fun _ => rfl),
    exec_of_op2 r (exec_rem ..) (fun _ => rfl),
    exec_of_op2 r (exec_remu ..) (fun _ => remU_eq_ofNat _ _),
    exec_of_op2 r (exec_min ..) (fun _ => minS_eq_ofInt _ _),
    exec_of_op2 r (exec_max ..) (fun _ => maxS_eq_ofInt _ _),
    exec_of_op2 r (exec_minu ..) (fun _ => minU_eq_ofNat _ _),
    exec_of_op2 r (exec_maxu ..) (fun _ => maxU_eq_ofNat _ _),
    exec_of_op2 r (exec_addw ..) (fun _ => rfl),
    exec_of_op2 r (exec_subw ..) (fun _ => rfl),
    exec_cmov_of_runs r⟩

/-- Settles O6: the six branches are `branchOp` of a test of the condition that each is named for. -/
theorem branchResults : Obligations.BranchResults := by
  unfold Obligations.BranchResults
  intro s hid h px x y i r u v target taken falls gives
  exact ⟨exec_of_branchOp r (exec_beq ..) (fun _ => beq_iff_eq),
    exec_of_branchOp r (exec_bne ..) (fun _ => bne_iff_ne),
    exec_of_branchOp r (exec_blt ..) (fun _ => BitVec.slt_iff_toInt_lt),
    exec_of_branchOp r (exec_bge ..) (fun _ => not_slt_iff_toInt_le _ _),
    exec_of_branchOp r (exec_bltu ..) (fun _ => BitVec.ult_iff_toNat_lt),
    exec_of_branchOp r (exec_bgeu ..) (fun _ => not_ult_iff_toNat_le _ _)⟩

/-- Settles O14: DMASK's access by its own row and by the CSR instructions is one operation, which reads or writes. -/
theorem dmaskResults : Obligations.DmaskResults := by
  unfold Obligations.DmaskResults
  intro s hid h px d a js r hrows x old g gets
  have writes (op : CsrOp) (hw : csrWrites op a = true) (hlt : (csrNew op old x).toNat < 256) :=
    csrAccess_dmask_writes r hrows hw rfl hlt
  refine ⟨fun hlt => ?_, fun ha hlt => ?_, fun ha hlt => ?_, fun ha op hop => ?_⟩
  · have e := writes .rw rfl hlt
    exact ⟨e, e⟩
  · have e := writes .rs (csrWrites_of_ne ha) hlt
    exact ⟨e, e⟩
  · have e := writes .rc (csrWrites_of_ne ha) hlt
    exact ⟨e, e⟩
  · exact csrAccess_dmask_reads r hrows (csrWrites_s0 hop ha)

/-- Settles O15: the mask that DMSETC leaves is DMASK with the bits of the rows that a tests cleared. -/
theorem dieMaskChange : Obligations.DieMaskChange := by
  unfold Obligations.DieMaskChange
  intro s hid h px a z r
  rw [exec_dmsetc, execDmsetc, withRegs_of_runs r]
  refine ⟨_, rfl, rfl, rfl, fun k hk => ?_⟩
  have htest : ((h.reg k a.toNat == 0) == (z == 0)) = (decide (h.reg k a.toNat = 0) == decide (z = 0)) := rfl
  rw [getLsbD_foldl_clear hk, ← htest]
  simp only [List.mem_filter, Bool.decide_and, Bool.decide_eq_true]

/-- Settles O26, by whether the task has a step left. -/
theorem panelSteps : Obligations.PanelSteps := by
  unfold Obligations.PanelSteps
  intro s hid h px d r gives
  refine ⟨fun hnone => exec_pstep_none r ?_, fun t ht hrow hvl => exec_pstep_some r ?_⟩
  · rcases hnone with ht | ⟨t, ht, hrow⟩ | hvl
    · rw [ht, Option.bind_none]
    · rw [ht, Option.bind_some, panelStep_none (.inl hrow)]
    · exact Option.bind_eq_none_iff.mpr (fun t _ => panelStep_none (.inr (by rw [hvl]; rfl)))
  · have hvl' : h.csr.vl.toNat ≠ 0 := fun h0 => hvl (BitVec.eq_of_toNat_eq h0)
    rw [ht, Option.bind_some, panelStep_some hrow hvl']

end Sys2Proof.Scalar
end

section
/-! PROOFS. The family 08_vector: the mask instructions and VCMP (R152, R166, R180, R181). -/

namespace Sys2Proof.VectorMask

open Sys2Proof Sys2Proof.Machine Sys2Proof.Claim Sys2Proof.Laws

/-! ## An XV command at the head of its queue -/

/-- An XV command at the head whose rows all run has run, on the hart that its rows leave (R157). -/
theorem ran_xvOp {s : State} {hid : Nat} {h g : Hart} {c : Command} {fl : Flags} {i : Instr} {f : State → RowFn}
    (hd : Head s .xv hid h c) (hi : exec i s = xvOp c.t s f)
    (hr : runRows (f s) h (c.atIssue s h) ((c.atIssue s h).rows h) h 0 = .ok (g, fl)) :
    Ran (s.setHart hid g) hid .xv (c.atIssue s h) fl (exec i s) := by
  obtain ⟨⟨rfl, hl, ⟨cs, hq⟩, hf, hdone, hm, hw, hv⟩, hrows⟩ := hd
  refine ⟨(c.atIssue s h).touched, h.touchedRows (c.atIssue s h), ?_⟩
  rw [hi, xvOp, engineOp_runs hl hq hf hdone hm hw hv hrows, hr]
  rfl

/-! ## The set bits of a mask (R181) -/

theorem bitCount_eq_countP (n x : Nat) : bitCount x n = (List.range n).countP (fun k => x.testBit k) := by
  induction n generalizing x with
  | zero => rfl
  | succ n ih =>
    have hbit : x % 2 = if x.testBit 0 = true then 1 else 0 := by
      rw [Nat.testBit_zero]
      obtain hx | hx := Nat.mod_two_eq_zero_or_one x <;> rw [hx] <;> rfl
    have htail : ((fun k => x.testBit k) ∘ Nat.succ) = fun k => (x / 2).testBit k :=
      funext (fun k => Nat.testBit_succ x k)
    rw [bitCount, ih, hbit, List.range_succ_eq_map, List.countP_cons, List.countP_map, htail, Nat.add_comm]

theorem trailingZeros_eq_find? (n x : Nat) :
    trailingZeros x n = ((List.range n).find? (fun k => x.testBit k)).getD n := by
  induction n generalizing x with
  | zero => rfl
  | succ n ih =>
    have htail : ((fun k => x.testBit k) ∘ Nat.succ) = fun k => (x / 2).testBit k :=
      funext (fun k => Nat.testBit_succ x k)
    rw [trailingZeros, ih, List.range_succ_eq_map, List.find?_cons]
    cases x.testBit 0 with
    | true => rfl
    | false =>
      rw [if_neg Bool.false_ne_true, List.find?_map, htail]
      cases (List.range n).find? (fun k => (x / 2).testBit k) with
      | none => exact Nat.add_comm 1 n
      | some k => exact Nat.add_comm 1 k

/-- KFIRST's value: the lowest set bit, or 2⁶⁴ − 1 where `trailingZeros` stops at the width of the mask. -/
theorem firstBit_eq_find? (m : BitVec 4096) :
    (if trailingZeros m.toNat 4096 = 4096 then 2 ^ 64 - 1 else trailingZeros m.toNat 4096)
      = ((List.range 4096).find? (fun k => m.getLsbD k)).getD (2 ^ 64 - 1) := by
  have hz : trailingZeros m.toNat 4096 = ((List.range 4096).find? (fun k => m.getLsbD k)).getD 4096 :=
    trailingZeros_eq_find? 4096 m.toNat
  rw [hz]
  cases hf : (List.range 4096).find? (fun k => m.getLsbD k) with
  | none => exact if_pos rfl
  | some k =>
    have hk : k < 4096 := List.mem_range.mp (List.mem_of_find?_eq_some hf)
    exact if_neg (Nat.ne_of_lt hk)

/-- A row function that writes a number taken from mask A into scalar register D. -/
def countRow (f : BitVec 4096 → Nat) : RowFn := fun h c j a =>
  .ok { a with row := a.row.set false c.t.d.toNat (BitVec.ofNat 64 (f ((h.row j).mask c.t.a.toNat))) }

theorem exec_kpopc_eq_countRow (t : Template) (s : State) : exec (.kpopc t) s =
    xvOp t s (fun _ => countRow (fun m => (List.range 4096).countP (fun k => m.getLsbD k))) := by
  have hrow : (fun h c j a => .ok (a.setS c.t.d.toNat (bitCount ((h.row j).mask c.t.a.toNat).toNat 4096)) : RowFn) =
      countRow (fun m => (List.range 4096).countP (fun k => m.getLsbD k)) := by
    funext h c j a
    rw [bitCount_eq_countP]
    rfl
  rw [exec_kpopc, execKpopc, hrow]

theorem exec_kfirst_eq_countRow (t : Template) (s : State) : exec (.kfirst t) s =
    xvOp t s (fun _ => countRow (fun m => ((List.range 4096).find? (fun k => m.getLsbD k)).getD (2 ^ 64 - 1))) := by
  have hrow : (fun h c j a => .ok (a.setS c.t.d.toNat
        (if trailingZeros ((h.row j).mask c.t.a.toNat).toNat 4096 = 4096 then 2 ^ 64 - 1
         else trailingZeros ((h.row j).mask c.t.a.toNat).toNat 4096)) : RowFn) =
      countRow (fun m => ((List.range 4096).find? (fun k => m.getLsbD k)).getD (2 ^ 64 - 1)) := by
    funext h c j a
    rw [firstBit_eq_find?]
    rfl
  rw [exec_kfirst, execKfirst, hrow]

/-! ## Mask registers (R101, R180) -/

theorem mask_zero (r : RowRegs) : r.mask 0 = BitVec.allOnes 4096 := rfl

/-- A mask register other than k0 holds what is written into it, where the row has it. -/
theorem mask_setMask_same (r : RowRegs) {n : Nat} (x : BitVec 4096) (hn : n ≠ 0) :
    (r.setMask n x).mask n = if n < 8 then x else 0 := by
  rw [RowRegs.setMask, if_neg hn, RowRegs.mask, if_neg hn, Vector.getElem?_setIfInBounds_self,
    apply_ite (fun y => Option.getD y 0)]
  rfl

/-- An element that the mask bit enables has its bit in the mask register that is read, k0 among them (R180). -/
theorem maskBit_mask (r : RowRegs) (n : Nat) {e : Nat} (he : e < 4096) :
    maskBit n (r.mask n) e = (r.mask n).getLsbD e := by
  by_cases hn : n = 0
  · subst hn
    rw [maskBit, mask_zero, BitVec.getLsbD_allOnes, decide_eq_true he, Bool.or_true]
  · rw [maskBit, beq_eq_false_iff_ne.mpr hn, Bool.false_or]

/-! ## Folds that only set bits -/

/-- The bits after a fold whose every step only sets those that its item asks for. -/
theorem foldl_testBit {α : Type} {f : Nat × Flags → α → Nat × Flags} {P : α → Prop} {e : Nat}
    (hf : ∀ y v, (f y v).1.testBit e = true ↔ y.1.testBit e = true ∨ P v) (vs : List α) (y : Nat × Flags) :
    (vs.foldl f y).1.testBit e = true ↔ y.1.testBit e = true ∨ ∃ v ∈ vs, P v := by
  induction vs generalizing y with
  | nil => simp
  | cons v vs ih => rw [List.foldl_cons, ih, hf, List.exists_mem_cons_iff, or_assoc]

theorem bind_eq_ok {ε α β : Type} {x : Except ε α} {f : α → Except ε β} {b : β} :
    x >>= f = .ok b ↔ ∃ a, x = .ok a ∧ f a = .ok b := by
  cases x with
  | error k => exact ⟨nofun, nofun⟩
  | ok a => exact ⟨fun h => ⟨a, rfl, h⟩, fun ⟨_, h, hf⟩ => Except.ok.inj h ▸ hf⟩

/-- The bits after such a fold that can fault and has not. -/
theorem foldlM_testBit {α : Type} {f : Nat × Flags → α → Except Cause (Nat × Flags)} {P : α → Prop} {e : Nat}
    (hf : ∀ y v z, f y v = .ok z → (z.1.testBit e = true ↔ y.1.testBit e = true ∨ P v)) {vs : List α}
    {y z : Nat × Flags} (hz : vs.foldlM f y = .ok z) :
    z.1.testBit e = true ↔ y.1.testBit e = true ∨ ∃ v ∈ vs, P v := by
  induction vs generalizing y with
  | nil =>
    obtain rfl : y = z := Except.ok.inj hz
    simp
  | cons v vs ih =>
    rw [List.foldlM_cons] at hz
    obtain ⟨u, hu, hz⟩ := bind_eq_ok.mp hz
    rw [ih hz, hf y v u hu, List.exists_mem_cons_iff, or_assoc]

theorem testBit_or_two_pow (m k e : Nat) : (m ||| 2 ^ k).testBit e = true ↔ m.testBit e = true ∨ e = k := by
  rw [Nat.testBit_or, Bool.or_eq_true, Nat.testBit_two_pow, decide_eq_true_iff, eq_comm (a := k)]

/-! ## VCMP (R166) -/

theorem vcmpE_iff_compares (p : Nat) (x y : Exact) : (vcmpE p x y).1 = true ↔ compares p x y := by
  unfold vcmpE compares
  by_cases hnan : (x.isNan || y.isNan) = true
  · simp [hnan]
  · rw [if_neg hnan, if_neg hnan]
    match p with
    | 0 | 1 | 2 | 3 | 4 | 5 => simp
    | p + 6 => simp

/-- The operand sectors x of a row. -/
def operands (c : Command) (r : RowRegs) (x : Nat) : List Sector := [r.vec c.t.a.toNat x, r.vec c.t.b.toNat x]

/-- The container at which the elements of opened operands are compared: the result's, where it is known. -/
def compareCw (c : Command) (r : RowRegs) (x : Nat) (tg : Option Target) : BitVec 3 :=
  match tg with
  | some t => t.cw
  | none => guessCw c none (operands c r x)

/-- The elements of opened operands side by side, with their activity and their numbers. -/
def elements (c : Command) (r : RowRegs) (x : Nat) (os : List Opened) (w : BitVec 3) :
    List ((List Exact × Bool) × Nat) :=
  ((transposed (elemCount w) (os.map (fun o => o.values w))).zip (c.acts r w x)).zipIdx

/-- VCMP at one element of sector x, which holds n. -/
def compareElement (c : Command) (x n : Nat) (acc : Nat × Flags) (v : (List Exact × Bool) × Nat) : Nat × Flags :=
  if v.1.2 then
    let (b, f) := vcmpE (c.t.mod.toNat % 8) (arg v.1.1 0) (arg v.1.1 1)
    (if b then acc.1 ||| 2 ^ (x * n + v.2) else acc.1, acc.2 ||| f)
  else acc

/-- VCMP at sector x of a row. -/
def compareSector (s : State) (h : Hart) (c : Command) (r : RowRegs) (acc : Nat × Flags) (x : Nat) :
    Except Cause (Nat × Flags) := do
  if !c.inRange (guessCw c none (operands c r x)) x then return acc
  let os ← openAll c (operands c r x)
  let (tg, fl) ← resultTarget (s.prtOf h) .any none none c.vlcw os
  let w := compareCw c r x tg
  return (elements c r x os w).foldl (compareElement c x (elemCount w)) (acc.1, acc.2 ||| fl)

/-- VCMP in a row is its sectors one after the other. -/
theorem cmpRow_eq_foldlM (s : State) (h : Hart) (c : Command) (j : Nat) (a : Acc) :
    cmpRow s h c j a = ((sectorsOf h).foldlM (compareSector s h c (h.row j)) (0, 0)).map (fun y =>
      { a with row := a.row.setMask c.t.d.toNat (BitVec.ofNat 4096 y.1), fl := a.fl ||| y.2 }) := by
  rw [List.foldlM_eq_foldl]
  rfl

/-- The predicate holds between elements i of opened operands. -/
def Holds (c : Command) (os : List Opened) (w : BitVec 3) (i : Nat) : Prop :=
  let vs := os.map (fun o => (o.values w).getD i (zeroOf false))
  (vcmpE (c.t.mod.toNat % 8) (arg vs 0) (arg vs 1)).1 = true

/-- Bit e is that of an active element of sector x, at container w, for which the predicate holds. -/
def ElementSets (c : Command) (r : RowRegs) (x : Nat) (os : List Opened) (w : BitVec 3) (e : Nat) : Prop :=
  ∃ i < elemCount w, e = x * elemCount w + i ∧ inVl (vlBits c.vl c.vlcw) w e = true ∧
    maskBit c.t.cmask.toNat (r.mask c.t.cmask.toNat) e = true ∧ Holds c os w i

/-- Sector x of a row is compared, and an element of it sets bit e. -/
def SectorSets (s : State) (h : Hart) (c : Command) (r : RowRegs) (x e : Nat) : Prop :=
  c.inRange (guessCw c none (operands c r x)) x = true ∧
  ∃ os tg fl, openAll c (operands c r x) = .ok os ∧
    resultTarget (s.prtOf h) .any none none c.vlcw os = .ok (tg, fl) ∧
    ElementSets c r x os (compareCw c r x tg) e

theorem mem_elements_iff {c : Command} {r : RowRegs} {x : Nat} {os : List Opened} {w : BitVec 3}
    {v : List Exact} {act : Bool} {i : Nat} :
    ((v, act), i) ∈ elements c r x os w ↔
      i < elemCount w ∧ v = os.map (fun o => (o.values w).getD i (zeroOf false)) ∧
        act = (inVl (vlBits c.vl c.vlcw) w (x * elemCount w + i) &&
          maskBit c.t.cmask.toNat (r.mask c.t.cmask.toNat) (x * elemCount w + i)) := by
  rw [elements, List.mk_mem_zipIdx_iff_getElem?, List.getElem?_zip_eq_some, transposed, Command.acts, activity]
  by_cases hi : i < elemCount w
  · simp [hi, eq_comm, Function.comp_def]
  · simp [hi]

theorem compareElement_testBit (c : Command) (x n e : Nat) (acc : Nat × Flags) (v : (List Exact × Bool) × Nat) :
    (compareElement c x n acc v).1.testBit e = true ↔ acc.1.testBit e = true ∨
      (v.1.2 = true ∧ (vcmpE (c.t.mod.toNat % 8) (arg v.1.1 0) (arg v.1.1 1)).1 = true ∧ e = x * n + v.2) := by
  rw [compareElement]
  by_cases hact : v.1.2 = true
  · by_cases hcmp : (vcmpE (c.t.mod.toNat % 8) (arg v.1.1 0) (arg v.1.1 1)).1 = true
    · simp only [hact, hcmp, if_true, true_and, testBit_or_two_pow]
    · simp [hact, hcmp]
  · simp [hact]

/-- The elements of a sector set the bits of the active ones whose predicate holds, and no others. -/
theorem elements_testBit (c : Command) (r : RowRegs) (x : Nat) (os : List Opened) (w : BitVec 3) (e : Nat)
    (acc : Nat × Flags) :
    ((elements c r x os w).foldl (compareElement c x (elemCount w)) acc).1.testBit e = true ↔
      acc.1.testBit e = true ∨ ElementSets c r x os w e := by
  rw [foldl_testBit (compareElement_testBit c x (elemCount w) e)]
  refine or_congr_right ⟨?_, ?_⟩
  · rintro ⟨⟨⟨v, act⟩, i⟩, hmem, hact, hcmp, rfl⟩
    obtain ⟨hi, rfl, rfl⟩ := mem_elements_iff.mp hmem
    obtain ⟨hvl, hmask⟩ := Bool.and_eq_true_iff.mp hact
    exact ⟨i, hi, rfl, hvl, hmask, hcmp⟩
  · rintro ⟨i, hi, rfl, hvl, hmask, hcmp⟩
    exact ⟨((_, _), i), mem_elements_iff.mpr ⟨hi, rfl, rfl⟩, Bool.and_eq_true_iff.mpr ⟨hvl, hmask⟩, hcmp, rfl⟩

theorem compareSector_testBit {s : State} {h : Hart} {c : Command} {r : RowRegs} {x e : Nat} {y z : Nat × Flags}
    (hz : compareSector s h c r y x = .ok z) :
    z.1.testBit e = true ↔ y.1.testBit e = true ∨ SectorSets s h c r x e := by
  rw [compareSector] at hz
  by_cases hin : c.inRange (guessCw c none (operands c r x)) x = true
  · simp only [hin, Bool.not_true, Bool.false_eq_true, if_false] at hz
    obtain ⟨os, hos, hz⟩ := bind_eq_ok.mp hz
    obtain ⟨⟨tg, fl⟩, htg, hz⟩ := bind_eq_ok.mp hz
    rw [← Except.ok.inj hz, elements_testBit]
    refine or_congr_right ⟨fun he => ⟨hin, os, tg, fl, hos, htg, he⟩, ?_⟩
    rintro ⟨-, os', tg', fl', hos', htg', he⟩
    obtain rfl : os = os' := Except.ok.inj (hos.symm.trans hos')
    obtain ⟨rfl, -⟩ := Prod.mk.inj (Except.ok.inj (htg.symm.trans htg'))
    exact he
  · simp only [Bool.eq_false_iff.mpr hin, Bool.not_false, if_true] at hz
    obtain rfl : y = z := Except.ok.inj hz
    exact ⟨.inl, Or.rec id (fun hs => absurd hs.1 hin)⟩

/-- What VCMP leaves in a row: a mask register whose bits are those that its sectors set. -/
theorem cmpRow_sets {s : State} {h : Hart} {c : Command} {j : Nat} {a b : Acc} (hok : cmpRow s h c j a = .ok b) :
    ∃ m, b.row = a.row.setMask c.t.d.toNat (BitVec.ofNat 4096 m) ∧
      ∀ e, m.testBit e = true ↔ ∃ x < h.csr.xcl, SectorSets s h c (h.row j) x e := by
  rw [cmpRow_eq_foldlM] at hok
  cases hfold : (sectorsOf h).foldlM (compareSector s h c (h.row j)) (0, 0) with
  | error k => rw [hfold] at hok; cases hok
  | ok z =>
    rw [hfold] at hok
    obtain rfl := Except.ok.inj hok
    refine ⟨z.1, rfl, fun e => ?_⟩
    have hbits := foldlM_testBit (P := fun x => SectorSets s h c (h.row j) x e)
      (fun _ _ _ hz => compareSector_testBit hz) hfold
    rw [hbits, Nat.zero_testBit]
    simp [sectorsOf]

/-- A bit of the mask register that VCMP writes (R166). -/
theorem cmpRow_mask {s : State} {h : Hart} {c : Command} {j e : Nat} {a b : Acc} (hok : cmpRow s h c j a = .ok b)
    (he : e < 4096) (hd : c.t.d.toNat ≠ 0) :
    (b.row.mask c.t.d.toNat).getLsbD e = true ↔
      c.t.d.toNat < 8 ∧ ∃ x < h.csr.xcl, SectorSets s h c (h.row j) x e := by
  obtain ⟨m, hb, hm⟩ := cmpRow_sets hok
  rw [hb, mask_setMask_same _ _ hd, ← hm]
  by_cases h8 : c.t.d.toNat < 8
  · simp only [h8, if_true, BitVec.getLsbD_ofNat, he, decide_true, Bool.true_and, true_and]
  · simp [h8]

/-! ## Operands of one format and container (R37, R42, R154) -/

theorem tagCls_lt (t : BitVec 24) : tagCls t < 8 := (t.extractLsb' 21 3).isLt

/-- The classes that a typed read takes are ZERO, PLAIN and TYPED (R37). -/
theorem le_two_of_typedClassFault : ∀ n < 8, typedClassFault n = none → n ≤ 2 := by decide

/-- A sector that a typed read opens and that is not ZERO has a format, container and exponent that go together, and its
container is the one that its tag or LDFMT names. -/
theorem openTyped_wf {c : Command} {y : Sector} {o : Opened} (ho : openTyped c.reader y = .ok o) (hz : o.zero = false) :
    tagCls y.tag ≠ 0 ∧ tripleOk o.fmt o.cw o.sexp = true ∧ tagContainer c y = namedCw o.cw := by
  unfold openTyped at ho
  split at ho
  · cases ho
  · next hok =>
    split at ho
    · cases ho
    · next hfault =>
      split at ho
      · obtain rfl := Except.ok.inj ho
        cases hz
      · next hcls =>
        split at ho
        · next htriple =>
          obtain rfl := Except.ok.inj ho
          exact ⟨by omega, htriple, by rw [tagContainer, hcls]; rfl⟩
        · cases ho
      · next h0 h1 =>
        obtain rfl := Except.ok.inj ho
        have hle := le_two_of_typedClassFault _ (tagCls_lt y.tag) hfault
        have h2 : tagCls y.tag = 2 := by
          rw [imp_false] at h0 h1
          omega
        simp only [Bool.not_eq_true, Bool.not_eq_false', tagOk, h2, Bool.and_eq_true] at hok
        exact ⟨h0, hok.2, by rw [tagContainer, h2]; rfl⟩

theorem fits_of_tripleOk {f : BitVec 5} {w : BitVec 3} {x : BitVec 8} (ht : tripleOk f w x = true) :
    w.toNat ≤ 4 ∧ fmtFits f w = true := by
  simp only [tripleOk, Bool.and_eq_true, decide_eq_true_eq] at ht
  obtain ⟨⟨⟨⟨-, hw⟩, hfit⟩, -⟩, -⟩ := ht
  exact ⟨hw, hfit⟩

theorem openTyped_of_openScaled {rd : Reader} {y : Sector} {o : Opened} (ho : openScaled rd y = .ok o) :
    openTyped rd y = .ok o ∧ o.badScale = false := by
  obtain ⟨p, hp, ho⟩ := bind_eq_ok.mp ho
  obtain ⟨u, hu, ho⟩ := bind_eq_ok.mp ho
  obtain rfl : p = o := Except.ok.inj ho
  refine ⟨hp, Bool.eq_false_iff.mpr (fun hbad => ?_)⟩
  rw [scaleCheck, if_pos hbad] at hu
  cases hu

section
variable {h : Hart} {c : Command} {j x e : Nat} {f : BitVec 5} {w : BitVec 3}

/-- A register sector that reads as one of format f and container w has a tag that says so, and they fit. -/
theorem opens_wf {v : Nat} {o : Opened} (ho : Opens h c j v x f w o) :
    openTyped c.reader ((h.row j).vec v x) = .ok o ∧ o.badScale = false ∧ tagCls ((h.row j).vec v x).tag ≠ 0 ∧
      tagContainer c ((h.row j).vec v x) = some w ∧ w.toNat ≤ 4 ∧ fmtFits f w = true := by
  obtain ⟨hopen, hz, rfl, rfl⟩ := ho
  obtain ⟨htyped, hbad⟩ := openTyped_of_openScaled hopen
  obtain ⟨hcls, htriple, hcw⟩ := openTyped_wf htyped hz
  obtain ⟨hw, hfit⟩ := fits_of_tripleOk htriple
  exact ⟨htyped, hbad, hcls, hcw.trans (if_pos hw), hw, hfit⟩

theorem guessCw_operands {o : Opened} (ho : Opens h c j c.t.a.toNat x f w o) :
    guessCw c none (operands c (h.row j) x) = w := by
  obtain ⟨-, -, hcls, hcw, -⟩ := opens_wf ho
  simp [guessCw, operands, hcls, hcw]

section
variable {o p : Opened} (ho : Opens h c j c.t.a.toNat x f w o) (hp : Opens h c j c.t.b.toNat x f w p)
include ho hp

theorem openAll_operands : openAll c (operands c (h.row j) x) = .ok [o, p] := by
  obtain ⟨htyped, hbad, -⟩ := opens_wf ho
  obtain ⟨htyped', hbad', -⟩ := opens_wf hp
  simp [openAll, operands, htyped, htyped', hbad, hbad', bind, Except.bind, pure, Except.pure]

/-- Operands of one format and container give a result of the same, with no promotion (R57, R154). -/
theorem resultTarget_operands (prt : Option (List Byte)) (vlcw : BitVec 3) :
    resultTarget prt .any none none vlcw [o, p] = .ok (some ⟨f, w⟩, 0) := by
  obtain ⟨-, -, -, -, -, hfit⟩ := opens_wf ho
  obtain ⟨-, hoz, hof, how⟩ := ho
  obtain ⟨-, hpz, hpf, hpw⟩ := hp
  have hprom : promoteAll prt [o, p] = .ok (some f, 0) := by
    simp [promoteAll, hoz, hpz, hof, hpf, promote, bind, Except.bind, pure, Except.pure]
  have hshared : sharedCw none vlcw [o, p] = .ok w := by
    simp [sharedCw, hoz, hpz, how, hpw]
  unfold resultTarget
  simp [hprom, hshared, hoz, hpz, hof, hpf, hfit, Kind.accepts, bind, Except.bind, pure, Except.pure]

/-- A sector whose operands read in one format and container sets the bits of its own elements, as R166 says. -/
theorem sectorSets_iff (s : State) : SectorSets s h c (h.row j) x e ↔
    c.inRange w x = true ∧ ElementSets c (h.row j) x [o, p] w e := by
  rw [SectorSets, guessCw_operands ho, openAll_operands ho hp]
  refine and_congr_right (fun _ => ⟨?_, fun he => ⟨_, _, _, rfl, resultTarget_operands ho hp _ _, he⟩⟩)
  rintro ⟨os, tg, fl, hos, htg, he⟩
  obtain rfl := Except.ok.inj hos
  rw [resultTarget_operands ho hp] at htg
  obtain ⟨rfl, -⟩ := Prod.mk.inj (Except.ok.inj htg)
  exact he

end

/-! ## Elements and sectors (R35, R152) -/

theorem elemCount_mul_cwBits (hw : w.toNat ≤ 4) : elemCount w * cwBits w = 2048 := by
  revert w
  decide

/-- A sector that holds an element within VL is in range. -/
theorem inRange_of_inVl (hw : w.toNat ≤ 4) {i : Nat} (he : inVl (vlBits c.vl c.vlcw) w (x * elemCount w + i) = true) :
    c.inRange w x = true := by
  rw [inVl, decide_eq_true_iff] at he
  rw [Command.inRange, sectorInRange, decide_eq_true hw, Bool.true_and, decide_eq_true_iff]
  calc x * 2048 + cwBits w = (x * elemCount w + 1) * cwBits w := by
        rw [← elemCount_mul_cwBits hw, Nat.add_mul, Nat.mul_assoc, Nat.one_mul]
    _ ≤ (x * elemCount w + i + 1) * cwBits w := Nat.mul_le_mul_right _ (by omega)
    _ ≤ vlBits c.vl c.vlcw := he

/-- VCMP's bits where both operands read in one format and container throughout the row. -/
theorem exists_sectorSets_iff {o p : Nat → Opened} (s : State) (ho : AllOpen h c j c.t.a.toNat f w o)
    (hp : AllOpen h c j c.t.b.toNat f w p) :
    (∃ x < h.csr.xcl, SectorSets s h c (h.row j) x e) ↔ e < elemCount w * h.csr.xcl ∧ Active h c j w e = true ∧
      compares (c.t.mod.toNat % 8) (valueOf o w e) (valueOf p w e) := by
  rw [← vcmpE_iff_compares, Active, Enabled, Bool.and_eq_true]
  constructor
  · rintro ⟨x, hx, hset⟩
    obtain ⟨-, i, hi, rfl, hvl, hmask, hcmp⟩ := (sectorSets_iff (ho x hx) (hp x hx) s).mp hset
    have hdiv : (x * elemCount w + i) / elemCount w = x := by
      rw [Nat.mul_comm, Nat.mul_add_div (by omega), Nat.div_eq_of_lt hi, Nat.add_zero]
    have hmod : (x * elemCount w + i) % elemCount w = i := by
      rw [Nat.mul_comm, Nat.mul_add_mod, Nat.mod_eq_of_lt hi]
    refine ⟨?_, ⟨hvl, hmask⟩, ?_⟩
    · calc x * elemCount w + i < (x + 1) * elemCount w := by rw [Nat.add_mul, Nat.one_mul]; omega
        _ ≤ h.csr.xcl * elemCount w := Nat.mul_le_mul_right _ hx
        _ = elemCount w * h.csr.xcl := Nat.mul_comm _ _
    · rw [valueOf, valueOf, hdiv, hmod]
      exact hcmp
  · rintro ⟨he, ⟨hvl, hmask⟩, hcmp⟩
    have hx : e / elemCount w < h.csr.xcl := Nat.div_lt_of_lt_mul he
    have hn : 0 < elemCount w := Nat.pos_of_ne_zero (fun h0 => by rw [h0, Nat.zero_mul] at he; omega)
    have hsplit : e = e / elemCount w * elemCount w + e % elemCount w := (Nat.div_add_mod' e _).symm
    obtain ⟨-, -, -, -, hw, -⟩ := opens_wf (ho _ hx)
    refine ⟨_, hx, (sectorSets_iff (ho _ hx) (hp _ hx) s).mpr
      ⟨inRange_of_inVl hw (hsplit ▸ hvl), _, Nat.mod_lt e hn, hsplit, hvl, hmask, hcmp⟩⟩

end

/-! ## The obligation -/

/-- VCMP sets no bit of an element that its mask does not enable. -/
theorem enabled_of_sectorSets {s : State} {h : Hart} {c : Command} {r : RowRegs} {x e : Nat} (he : e < 4096)
    (hs : SectorSets s h c r x e) : (r.mask c.t.cmask.toNat).getLsbD e = true := by
  obtain ⟨-, os, tg, fl, -, -, i, -, -, -, hmask, -⟩ := hs
  rwa [maskBit_mask r _ he] at hmask

/-- Settles O31: the mask instructions run their row functions, whose counts are those of the bits of the mask, and a bit
of VCMP's mask register is set by one active element of one sector. -/
theorem maskRegisterResults : Obligations.MaskRegisterResults := by
  unfold Obligations.MaskRegisterResults
  refine ⟨fun s hid h c g fl hd => ?_, fun s h c j e a b hok he hd hbit => ?_,
    fun s h c j e a b f w o p hok ho hp h0 h8 he => ?_⟩
  · intro k runs masks scalars
    exact ⟨ran_xvOp hd (exec_kand ..), ran_xvOp hd (exec_kor ..), ran_xvOp hd (exec_knot ..),
      ran_xvOp hd (exec_kpopc_eq_countRow ..), ran_xvOp hd (exec_kfirst_eq_countRow ..)⟩
  · obtain ⟨-, x, -, hs⟩ := (cmpRow_mask hok he hd).mp hbit
    exact enabled_of_sectorSets he hs
  · rw [cmpRow_mask hok he (Nat.ne_of_gt h0), and_iff_right h8, exists_sectorSets_iff s ho hp]

end Sys2Proof.VectorMask
end

section
/-! PROOFS. The canonical form of byte memory: one lemma per function of the model that takes a state. `f_mem` says that
`f` leaves memory as it is, `wf_f` that it keeps the canonical form, and `wf_of_f` that every state which `f` answers
keeps it. -/

namespace Sys2Proof.MemoryForm
open Sys2Proof Sys2Proof.Machine Sys2Proof.Claim Sys2Proof.Laws Sys2Proof.Safety

-- One proof is checked at a time: this keeps the check of the whole text within its memory.
set_option Elab.async false

/-- What a command's turn leaves keeps the form, whichever way the turn ends. -/
def WfTurn : Turn → Prop
  | .wait => True
  | .stay s _ | .stop s .. | .more s _ | .ran s .. => Memory.wf s.mem = true

theorem bind_ok {ε α β : Type} {x : Except ε α} {f : α → Except ε β} {b : β} : (x >>= f) = .ok b ↔
    ∃ a, x = .ok a ∧ f a = .ok b := VectorMask.bind_eq_ok

theorem pure_ok {ε α : Type} {a b : α} : (pure a : Except ε α) = .ok b ↔ a = b := by
  constructor
  · intro h; injection h
  · rintro rfl; rfl

/-- A fold keeps the form where each of its steps does. -/
theorem wf_foldl {β : Type} {f : State → β → State} (step : ∀ s x, Memory.wf s.mem = true → Memory.wf (f s x).mem =
    true)
    {l : List β} {s : State} (w : Memory.wf s.mem = true) : Memory.wf (l.foldl f s).mem = true := by
  induction l generalizing s with
  | nil => exact w
  | cons x l ih => exact ih (step _ _ w)

theorem throw_ok {ε α : Type} {e : ε} {b : α} : (throw e : Except ε α) = .ok b ↔ False := by
  constructor
  · intro h; injection h
  · exact False.elim

theorem map_ok {ε α β : Type} {x : Except ε α} {f : α → β} {b : β} : x.map f = .ok b ↔ ∃ a, x = .ok a ∧ f a = b := by
  cases x <;> simp [Except.map]

theorem wf_foldlM {ε β : Type} {f : State → β → Except ε State} {l : List β} {s t : State}
    (step : ∀ s x t, f s x = .ok t → Memory.wf s.mem = true → Memory.wf t.mem = true) (hn : l.foldlM f s = .ok t)
    (w : Memory.wf s.mem = true) : Memory.wf t.mem = true := by
  induction l generalizing s with
  | nil => simp only [List.foldlM_nil, pure_ok] at hn; exact hn ▸ w
  | cons x l ih =>
    simp only [List.foldlM_cons, bind_ok] at hn
    obtain ⟨a, ha, hn⟩ := hn
    exact ih hn (step _ _ _ ha w)

theorem wf_foldlM_fst {ε α β : Type} {f : State × α → β → Except ε (State × α)} {l : List β} {s t : State × α}
    (step : ∀ s x t, f s x = .ok t → Memory.wf s.1.mem = true → Memory.wf t.1.mem = true) (hn : l.foldlM f s = .ok t)
    (w : Memory.wf s.1.mem = true) : Memory.wf t.1.mem = true := by
  induction l generalizing s with
  | nil => simp only [List.foldlM_nil, pure_ok] at hn; exact hn ▸ w
  | cons x l ih =>
    simp only [List.foldlM_cons, bind_ok] at hn
    obtain ⟨a, ha, hn⟩ := hn
    exact ih hn (step _ _ _ ha w)

theorem canonical_foldl {β : Type} {f : State → β → State} (step : ∀ s x, memoryCanonical s → memoryCanonical (f s x))
    {l : List β} {s : State} (w : memoryCanonical s) : memoryCanonical (l.foldl f s) := wf_foldl step w

/-! The lemmas named `canonical_` say the same of a state through the name `memoryCanonical`: where a goal compares a
step of a fold with its body, the kernel then meets two states and not two memories, and does not run the step. -/
theorem canonical_ite {p : Prop} [Decidable p] {s t : State} (hs : memoryCanonical s) (ht : memoryCanonical t) :
    memoryCanonical (if p then s else t) := by
  split
  · exact hs
  · exact ht

/-! ### Machine/Ops.lean -/
theorem modGroup_mem (s : State) (g : Nat) (f : Group → Group) : (State.modGroup s g f).mem = s.mem := by
  grind [State.modGroup]

theorem setPit_mem (s : State) (p : Nat) (e : BitVec 128) : (State.setPit s p e).mem = s.mem := by
  grind [State.setPit]

theorem answer_mem (s : State) (who : Nat) (r : Reply) : (State.answer s who r).mem = s.mem := by
  grind [State.answer]

theorem askGate_mem (s : State) (g : Gate) : (State.askGate s g).mem = s.mem := by
  grind [State.askGate, answer_mem]

theorem refuse_mem (s : State) : (State.refuse s).mem = s.mem := by
  grind [State.refuse, answer_mem]

theorem sendMsi_mem (s : State) (ahart id : Nat) : (State.sendMsi s ahart id).mem = s.mem := by
  grind [State.sendMsi]

theorem ctxMsi_mem (s : State) (ctx : Nat) : (State.ctxMsi s ctx).mem = s.mem := by
  grind [State.ctxMsi, sendMsi_mem]

theorem wf_psWriteOne (s : State) (hm : Memory.wf s.mem = true) : Memory.wf (State.psWriteOne s).mem = true := by
  grind [State.psWriteOne, wf_sysWrite, sendMsi_mem]

theorem wf_psFlush (x0 : Nat) (x1 : State) (hm : Memory.wf x1.mem = true) : Memory.wf (psFlush x0 x1).mem = true := by
  induction x0 generalizing x1   with
  | zero => grind [psFlush, wf_psWriteOne]
  | succ n ih => grind [psFlush, bind_ok, pure_ok, wf_psWriteOne]

theorem wf_psRecord (s : State) (r : PsRecord) (hm : Memory.wf s.mem = true) : Memory.wf (State.psRecord s r).mem =
    true := by
  grind [State.psRecord, wf_psFlush]

theorem wf_poisonSector (s : State) (k page : Nat) (hm : Memory.wf s.mem = true) :
    Memory.wf (State.poisonSector s k page).mem = true := by
  grind [State.poisonSector, wf_psRecord]

theorem setStack_mem (s : State) (n : Nat) (x : Stack) : (State.setStack s n x).mem = s.mem := by
  grind [State.setStack]

theorem countFound_mem (s : State) (k : Nat) (uncorrectable : Bool) : (State.countFound s k uncorrectable).mem =
    s.mem := by
  grind [State.countFound, setStack_mem]

theorem wf_correct (s : State) (k : Nat) (hm : Memory.wf s.mem = true) : Memory.wf (State.correct s k).mem =
    true := by
  grind [State.correct, wf_writeSector]

theorem wf_settle (s : State) (l : Loc) (dpa : Nat) (hm : Memory.wf s.mem = true) :
    Memory.wf (State.settle s l dpa).mem = true := by
  grind [State.settle, wf_poisonSector, countFound_mem, wf_correct]

theorem clearL1_mem (s : State) (c : Nat) : (State.clearL1 s c).mem = s.mem := by
  grind [State.clearL1, modCore_mem]

theorem wf_dropL1 (s : State) (cores : List Nat) (dpa : Nat) (hm : Memory.wf s.mem = true) :
    Memory.wf (State.dropL1 s cores dpa).mem = true := by
  unfold State.dropL1
  exact wf_foldl (fun s x w => by grind [modCore_mem]) hm

theorem wf_recall (s : State) (dpa : Nat) (hm : Memory.wf s.mem = true) : Memory.wf (State.recall s dpa).mem =
    true := by
  unfold State.recall
  split
  · exact hm
  · exact wf_foldl (fun s x w => by grind [wf_settle]) hm

theorem wf_dropL2 (s : State) (cores : List Nat) (key : Nat) (hm : Memory.wf s.mem = true) :
    Memory.wf (State.dropL2 s cores key).mem = true := by
  unfold State.dropL2
  split
  · exact hm
  · exact wf_foldl (fun s x w => by grind []) hm

theorem wf_writeFar (s : State) (cores : List Nat) (l : Loc) (hm : Memory.wf s.mem = true) :
    Memory.wf (State.writeFar s cores l).mem = true := by
  grind [State.writeFar, wf_dropL2]

theorem modL1_mem (s : State) (core dpa : Nat) (f : L1Copy → L1Copy) : (State.modL1 s core dpa f).mem = s.mem := by
  grind [State.modL1, modCore_mem]

theorem wf_patchL1 (s : State) (core dpa : Nat) (l : Loc) (f : Sector → Sector) (hm : Memory.wf s.mem = true) :
    Memory.wf (State.patchL1 s core dpa l f).mem = true := by
  grind [State.patchL1, wf_dropL1, modL1_mem]

theorem wf_writeThrough (s : State) (h : Hart) (row dpa : Nat) (l : Loc) (f : Sector → Sector)
    (hm : Memory.wf s.mem = true) : Memory.wf (State.writeThrough s h row dpa l f).mem = true := by
  grind [State.writeThrough, wf_dropL1, wf_patchL1, wf_writeFar]

theorem wf_writePast (s : State) (core dpa : Nat) (l : Loc) (hm : Memory.wf s.mem = true) :
    Memory.wf (State.writePast s core dpa l).mem = true := by
  have hf : Memory.wf ((s.cores.map (·.1)).foldl (fun s c => s.modL1 c dpa (fun x => { x with byJob := true }))
    s).mem = true :=
    wf_foldl (fun s x w => by grind [modL1_mem]) hm
  grind [State.writePast, wf_recall, wf_writeFar]

theorem noteStore_mem (s : State) (dpa : Nat) (l : Loc) : (State.noteStore s dpa l).mem = s.mem := by
  grind [State.noteStore, setPit_mem]

theorem wf_storeRaw (s : State) (dpa : Nat) (l : Loc) (n x : Nat) (hm : Memory.wf s.mem = true) :
    Memory.wf (State.storeRaw s dpa l n x).mem = true := by
  grind [State.storeRaw, wf_writeRaw, noteStore_mem]

theorem wf_writeRecord (s : State) (h : Hart) (x : Loc × Nat) (r : TrapRecord) (hm : Memory.wf s.mem = true) :
    Memory.wf (State.writeRecord s h x r).mem = true := by
  grind [State.writeRecord, wf_dropL1, wf_recall, wf_writeFar, wf_storeRaw]

theorem wf_writeFrameRecord (s : State) (h : Hart) (r : TrapRecord) (hm : Memory.wf s.mem = true) :
    Memory.wf (State.writeFrameRecord s h r).mem = true := by
  grind [State.writeFrameRecord, wf_sysWrite]

theorem wf_suspend (s : State) (hid : Nat) (h : Hart) (hm : Memory.wf s.mem = true) :
    Memory.wf (State.suspend s hid h).mem = true := by
  grind [State.suspend, setHart_mem, ctxMsi_mem, wf_psRecord]

theorem wf_takeTrap (s : State) (hid : Nat) (t : TrapInfo) (hm : Memory.wf s.mem = true) :
    Memory.wf (State.takeTrap s hid t).mem = true := by
  grind [State.takeTrap, setHart_mem, wf_writeRecord, wf_writeFrameRecord, wf_suspend]

theorem resumeTrap_mem (s : State) (hid : Nat) (h : Hart) (rec : Nat) (after : Dword) (priv : Bool) :
    (State.resumeTrap s hid h rec after priv).mem = s.mem := by
  grind [State.resumeTrap, setHart_mem]

theorem retire_mem (s : State) (hid : Nat) (h : Hart) (px : Px) : (State.retire s hid h px).mem = s.mem := by
  grind [State.retire, setHart_mem]

theorem wf_of_withRegs {s s' : State} {px : Px} {regs : List Nat} {f : Nat → Hart → Out}
    (hn : withRegs s px regs f = .next s')
    (w : Memory.wf s.mem = true) (hf : ∀ hid h, f hid h = .next s' → Memory.wf s'.mem = true) : Memory.wf s'.mem =
      true := by
  obtain ⟨h, -, ⟨-, rfl⟩ | ⟨-, -, rfl⟩ | ⟨-, -, hn⟩⟩ := withRegs_next hn
  · exact wf_takeTrap _ _ _ w
  · exact w
  · exact hf _ _ hn

theorem wf_absentRecord (s : State) (page sector ctx vcore slot : Nat) (job write : Bool)
    (hm : Memory.wf s.mem = true) : Memory.wf (State.absentRecord s page sector ctx vcore slot job write).mem =
    true := by
  grind [State.absentRecord, setPit_mem, wf_psRecord]

/-! ### Machine/Csr.lean -/
theorem wf_sysPut (s : State) (dpa : Nat) (bs : List Byte) (hm : Memory.wf s.mem = true) :
    Memory.wf (State.sysPut s dpa bs).mem = true := by
  unfold State.sysPut
  exact wf_foldl (fun s x w => by grind [wf_sysWrite]) hm

/-! ### Machine/Mem.lean -/
theorem crossed_mem (s : State) (l : Loc) : (State.crossed s l).mem = s.mem := by
  grind [State.crossed]

theorem wf_of_home (s : State) (h : Hart) (row dpa : Nat) (va : Dword) (u : Use) {s₁ : State} {y₁ : Loc}
    (hn : (State.home s h row dpa va u) = .ok (s₁, y₁)) (hm : Memory.wf s.mem = true) : Memory.wf s₁.mem = true := by
  grind [State.home, wf_settle, wf_dropL1, wf_recall, wf_dropL2, wf_writeFar, crossed_mem]

theorem wf_settleStop (s : State) (h : Hart) (x : Stop) (hm : Memory.wf s.mem = true) :
    Memory.wf (State.settleStop s h x).mem = true := by
  unfold State.settleStop
  split
  · grind [wf_recall, wf_settle]
  · exact hm

theorem wf_of_unitLoc (s : State) (h : Hart) (row : Nat) (p : Perm) (va : Dword) {s₁ : State} {y₁ : Nat} {y₂ : Loc}
    (hn : (State.unitLoc s h row p va) = .ok (s₁, y₁, y₂)) (hm : Memory.wf s.mem = true) : Memory.wf s₁.mem =
    true := by
  grind [State.unitLoc, wf_of_home]

theorem wf_of_homeRaw (s : State) (h : Hart) (row dpa : Nat) (va : Dword) (u : Use) {s₁ : State} {y₁ : Loc}
    (hn : (State.homeRaw s h row dpa va u) = .ok (s₁, y₁)) (hm : Memory.wf s.mem = true) : Memory.wf s₁.mem =
    true := by
  grind [State.homeRaw, bind_ok, pure_ok, wf_of_home]

theorem wf_storeThrough (s : State) (h : Hart) (row dpa : Nat) (l : Loc) (n x : Nat) (hm : Memory.wf s.mem = true) :
    Memory.wf (State.storeThrough s h row dpa l n x).mem = true := by
  grind [State.storeThrough, wf_writeThrough, wf_storeRaw]

theorem wf_releaseCell (s : State) (ctx cell : Nat) (hm : Memory.wf s.mem = true) :
    Memory.wf (State.releaseCell s ctx cell).mem = true := by
  simp only [State.releaseCell]
  split
  · exact hm
  · exact wf_foldl (fun s x w => by grind [modGroup_mem]) hm

theorem wf_storeSector (s : State) (h : Hart) (row dpa : Nat) (l : Loc) (x : Sector) (hm : Memory.wf s.mem = true) :
    Memory.wf (State.storeSector s h row dpa l x).mem = true := by
  grind [State.storeSector, wf_writeSector, wf_writeThrough, noteStore_mem]

theorem wf_putSector (s : State) (h : Hart) (row dpa : Nat) (l : Loc) (x : Sector) (hm : Memory.wf s.mem = true) :
    Memory.wf (State.putSector s h row dpa l x).mem = true := by
  grind [State.putSector, wf_releaseCell, wf_storeSector]

theorem wf_of_homeRows (s : State) (h : Hart) (u : Use) (va : Nat → Dword) (x0 : List (Nat × Nat)) {s₁ : State}
    {y₁ : List (Nat × Loc)} (hn : (State.homeRows s h u va x0) = .ok (s₁, y₁)) (hm : Memory.wf s.mem = true) :
    Memory.wf s₁.mem = true := by
  induction x0 generalizing s s₁ y₁ with
  | nil =>
    simp only [State.homeRows] at hn
    grind
  | cons x xs ih =>
    simp only [State.homeRows, bind_ok, pure_ok] at hn
    grind [bind_ok, pure_ok, throw_ok, wf_of_homeRaw]

theorem wf_of_rawPieces (s : State) (h : Hart) (row : Nat) (chunk : Nat) (va : Dword) (x0 : Nat) {s₁ : State}
    {y₁ : Nat} (hn : (State.rawPieces s h row chunk va x0) = .ok (s₁, y₁)) (hm : Memory.wf s.mem = true) :
    Memory.wf s₁.mem = true := by
  induction x0 generalizing s s₁ y₁ va with
  | zero =>
    simp only [State.rawPieces] at hn
    grind
  | succ n ih =>
    simp only [State.rawPieces, bind_ok, pure_ok] at hn
    grind [bind_ok, pure_ok, throw_ok, wf_of_homeRaw]

theorem wf_of_rawStruct (s : State) (h : Hart) (row : Nat) (align chunk k : Nat) (va : Dword) {s₁ : State} {y₁ : Nat}
    (hn : (State.rawStruct s h row align chunk k va) = .ok (s₁, y₁)) (hm : Memory.wf s.mem = true) :
    Memory.wf s₁.mem = true := by
  grind [State.rawStruct, wf_of_rawPieces]

/-! ### Machine/Loads.lean -/
theorem wf_of_arrive (s : State) (h : Hart) (e : LoadEntry) {s₁ : State} {y₁ : Arrival}
    (hn : (State.arrive s h e) = .ok (s₁, y₁)) (hm : Memory.wf s.mem = true) : Memory.wf s₁.mem = true := by
  unfold State.arrive at hn
  split at hn
  · grind
  · grind
  · next e => 
    have := wf_of_home (hn := e) (hm := hm)
    split at hn
    · grind
    · split at hn
      · grind
      · split at hn
        · grind
        · grind
        · next e' =>
          have := wf_of_home (hn := e') (hm := this)
          grind

theorem wf_landLoad (s : State) (hid : Nat) (o : Nat) (hm : Memory.wf s.mem = true) :
    Memory.wf (State.landLoad s hid o).mem = true := by
  grind [State.landLoad, setHart_mem, wf_takeTrap]

theorem refreezeCore_mem (s : State) (c : Nat) : (State.refreezeCore s c).mem = s.mem := by
  grind [State.refreezeCore, modCore_mem]

theorem wf_refreeze (s : State) (h : Hart) (hm : Memory.wf s.mem = true) : Memory.wf (State.refreeze s h).mem =
    true := by
  unfold State.refreeze
  exact wf_foldl (fun s x w => by grind [refreezeCore_mem]) hm

theorem wf_landAll (s : State) (hid : Nat) (hm : Memory.wf s.mem = true) : Memory.wf (State.landAll s hid).mem =
    true := by
  unfold State.landAll
  split
  · exact hm
  · exact wf_foldl (fun s x w => by grind [wf_landLoad]) hm

/-! ### Machine/Save.lean -/
theorem wf_putFree (s : State) (dpa : Nat) (x0 : Nat) (hm : Memory.wf s.mem = true) :
    Memory.wf (State.putFree s dpa x0).mem = true := by
  induction x0 generalizing s dpa with
  | zero => exact hm
  | succ n ih => exact ih _ _ (wf_sysWrite hm ..)

theorem wf_saveScalars (s : State) (base : Nat) (r : RowRegs) (k : SaveKind) (hm : Memory.wf s.mem = true) :
    Memory.wf (State.saveScalars s base r k).mem = true := by
  unfold State.saveScalars
  grind [wf_sysPut]

theorem wf_saveVectors (s : State) (base : Nat) (r : RowRegs) (xcl : Nat) (hm : Memory.wf s.mem = true) :
    Memory.wf (State.saveVectors s base r xcl).mem = true := by
  unfold State.saveVectors
  exact wf_foldl (fun s x w => by grind [wf_sysPut]) (by grind [wf_sysPut])

theorem wf_saveTraps (s : State) (h : Hart) (f : Nat) (hm : Memory.wf s.mem = true) :
    Memory.wf (State.saveTraps s h f).mem = true := by
  grind [State.saveTraps, wf_putFree]

theorem wf_writeFrame (s : State) (h : Hart) (k : SaveKind) (hm : Memory.wf s.mem = true) :
    Memory.wf (State.writeFrame s h k).mem = true := by
  have rows : ∀ (f : Nat) (u : State), memoryCanonical u → memoryCanonical
    (h.allRows.foldl (fun s j => s.saveScalars (f + frameRow j) (h.row j) k)
      ((List.range 320).foldl (fun s i =>
        s.sysPut (f + frameTemplates + 16 * i) (bytesOfNat (templateNat (lookD h.tmpl i emptyTemplate)) 16)) u)) :=
    fun f u w => canonical_foldl (fun s j w => wf_saveScalars _ _ _ _ w)
      (canonical_foldl (fun s i w => wf_sysPut _ _ _ w) w)
  unfold State.writeFrame
  dsimp only
  split
  · refine canonical_foldl (fun s j w => wf_saveVectors _ _ _ _ w)
      (canonical_foldl (fun s e w => wf_putFree _ _ _ w) (wf_putFree _ _ _ (rows _ _ ?_)))
    exact wf_saveTraps _ _ _ (wf_sysPut _ _ _ (wf_putFree _ _ _ hm))
  · refine rows _ _ ?_
    exact wf_saveTraps _ _ _ (wf_sysPut _ _ _ (wf_putFree _ _ _ hm))

theorem wf_of_madeStore (s : State) (h : Hart) (x : StoreEntry) {s₁ : State} {y₁ : Flags}
    (hn : (State.madeStore s h x) = .ok (s₁, y₁)) (hm : Memory.wf s.mem = true) : Memory.wf s₁.mem = true := by
  grind [State.madeStore, crossed_mem, wf_storeThrough, wf_putSector]

theorem wf_finishStore (s : State) (hid : Nat) (x : StoreEntry) (hm : Memory.wf s.mem = true) :
    Memory.wf (State.finishStore s hid x).mem = true := by
  grind [State.finishStore, modHart_mem, wf_of_madeStore]

theorem wf_leaseBack (s : State) (h : Hart) (hm : Memory.wf s.mem = true) : Memory.wf (State.leaseBack s h).mem =
    true := by
  unfold State.leaseBack
  exact wf_foldl (fun s x w => by grind [modCore_mem]) hm

theorem setPair_mem (s : State) (h : Hart) (core : Nat) (p : PairState) : (State.setPair s h core p).mem = s.mem := by
  grind [State.setPair]

theorem wf_cancelHalves (s : State) (h : Hart) (reason : Nat) (hm : Memory.wf s.mem = true) :
    Memory.wf (State.cancelHalves s h reason).mem = true := by
  unfold State.cancelHalves
  exact wf_foldl (fun s x w => by grind [setPair_mem]) hm

theorem wf_clearHalves (s : State) (h : Hart) (hm : Memory.wf s.mem = true) : Memory.wf (State.clearHalves s h).mem =
    true := by
  unfold State.clearHalves
  exact wf_foldl (fun s x w => by grind [setPair_mem]) hm

theorem wf_finishRead (s : State) (hid : Nat) (e : LoadEntry) (hm : Memory.wf s.mem = true) :
    Memory.wf (State.finishRead s hid e).mem = true := by
  grind [State.finishRead, modHart_mem, wf_of_arrive]

theorem wf_finishOrder (s : State) (hid o : Nat) (hm : Memory.wf s.mem = true) :
    Memory.wf (State.finishOrder s hid o).mem = true := by
  unfold State.finishOrder
  split
  · exact hm
  · exact wf_foldl (fun s x w => wf_finishStore _ _ _ w) (wf_foldl (fun s x w => wf_finishRead _ _ _ w) hm)

theorem wf_finishLoad (s : State) (hid o : Nat) (hm : Memory.wf s.mem = true) :
    Memory.wf (State.finishLoad s hid o).mem = true := by
  grind [State.finishLoad, setHart_mem, wf_landLoad]

theorem wf_finishAccesses (s : State) (hid : Nat) (hm : Memory.wf s.mem = true) :
    Memory.wf (State.finishAccesses s hid).mem = true := by
  unfold State.finishAccesses
  split
  · exact hm
  · exact wf_foldl (fun s x w => wf_finishLoad _ _ _ w) (wf_foldl (fun s x w => wf_finishOrder _ _ _ w) hm)

theorem wf_saveWhole (s : State) (hid : Nat) (st : HartState) (hm : Memory.wf s.mem = true) :
    Memory.wf (State.saveWhole s hid st).mem = true := by
  grind [State.saveWhole, setHart_mem, wf_refreeze, wf_writeFrame, wf_leaseBack, wf_cancelHalves, wf_finishAccesses]

theorem wf_pageAbsent (s : State) (hid dpa : Nat) (write : Bool) (hm : Memory.wf s.mem = true) :
    Memory.wf (State.pageAbsent s hid dpa write).mem = true := by
  grind [State.pageAbsent, wf_absentRecord, wf_saveWhole]

theorem wf_stopScalar (s : State) (hid : Nat) (h : Hart) (cls : Nat) (x : Stop) (hm : Memory.wf s.mem = true) :
    Memory.wf (State.stopScalar s hid h cls x).mem = true := by
  unfold State.stopScalar
  grind [wf_settleStop, wf_takeTrap, wf_pageAbsent]

/-! ### Machine/Integer.lean -/
theorem wf_of_rowOp (s : State) (px : Px) (regs : List Nat) (d : Nat) (f : Hart → Nat → Dword) {s' : State}
    (hn : (rowOp s px regs d f) = .next s') (hm : Memory.wf s.mem = true) : Memory.wf s'.mem = true := by
  grind [rowOp, withRegs_next, setHart_mem, wf_takeTrap, retire_mem]

theorem wf_of_op2 (s : State) (px : Px) (d a b : Reg) (f : Dword → Dword → Dword) {s' : State}
    (hn : (op2 s px d a b f) = .next s') (hm : Memory.wf s.mem = true) : Memory.wf s'.mem = true := by
  grind [op2, wf_of_rowOp]

theorem wf_of_op1 (s : State) (px : Px) (d a : Reg) (f : Dword → Dword) {s' : State}
    (hn : (op1 s px d a f) = .next s') (hm : Memory.wf s.mem = true) : Memory.wf s'.mem = true := by
  grind [op1, wf_of_rowOp]

theorem wf_of_opImm (s : State) (px : Px) (d a : Reg) (i : BitVec 13) (f : Dword → Dword → Dword) {s' : State}
    (hn : (opImm s px d a i f) = .next s') (hm : Memory.wf s.mem = true) : Memory.wf s'.mem = true := by
  grind [opImm, wf_of_rowOp]

/-! ### Machine/Float.lean -/
theorem wf_of_floatOp (s : State) (px : Px) (regs : List Nat) (d : Nat) (m : BitVec 3)
    (f : Hart → Nat → Nat → Nat → FRow) {s' : State} (hn : (floatOp s px regs d m f) = .next s')
    (hm : Memory.wf s.mem = true) : Memory.wf s'.mem = true := by
  grind [floatOp, withRegs_next, setHart_mem, wf_takeTrap, retire_mem]

theorem wf_of_float2 (s : State) (px : Px) (d a b : Reg) (t : BitVec 1) (m : BitVec 3)
    (f : Nat → Exact → Exact → Exact × Flags) {s' : State} (hn : (float2 s px d a b t m f) = .next s')
    (hm : Memory.wf s.mem = true) : Memory.wf s'.mem = true := by
  grind [float2, wf_of_floatOp]

/-! ### Machine/LoadStore.lean -/
theorem wf_of_scalarLoad (s : State) (px : Px) (d a : Reg) (c : BitVec 5) (o : BitVec 8) (size : Nat) (sg : Bool)
    {s' : State} (hn : (scalarLoad s px d a c o size sg) = .next s') (hm : Memory.wf s.mem = true) :
    Memory.wf s'.mem = true := by
  refine wf_of_withRegs hn hm (fun hid h hn => ?_)
  grind [wf_stopScalar, retire_mem, wf_of_homeRows]

theorem wf_storeLocs (s : State) (h : Hart) (va : Nat → Nat) (val : Nat → Dword) (size : Nat)
    (locs : List (Nat × Loc)) (hm : Memory.wf s.mem = true) : Memory.wf (storeLocs s h va val size locs).mem =
    true := by
  unfold storeLocs
  exact wf_foldl (fun s x w => by grind [wf_storeThrough]) hm

theorem wf_of_scalarStore (s : State) (px : Px) (d a : Reg) (i : BitVec 13) (size : Nat) {s' : State}
    (hn : (scalarStore s px d a i size) = .next s') (hm : Memory.wf s.mem = true) : Memory.wf s'.mem = true := by
  grind [scalarStore, withRegs_next, setHart_mem, wf_takeTrap, retire_mem, wf_of_homeRows, wf_stopScalar,
    wf_storeLocs]

theorem wf_of_execLoadDataArrival (s : State) {s' : State} (hn : (execLoadDataArrival s) = .next s')
    (hm : Memory.wf s.mem = true) : Memory.wf s'.mem = true := by
  unfold execLoadDataArrival at hn
  simp only [] at hn
  grind [setHart_mem, wf_of_arrive, wf_refreeze, wf_landAll, wf_pageAbsent]

theorem wf_of_execLoadLanding (s : State) {s' : State} (hn : (execLoadLanding s) = .next s')
    (hm : Memory.wf s.mem = true) : Memory.wf s'.mem = true := by
  grind [execLoadLanding, wf_refreeze, wf_landAll]

theorem wf_refuseStore (s : State) (hid : Nat) (h : Hart) (x : StoreEntry) (k : Cause) (hm : Memory.wf s.mem = true) :
    Memory.wf (State.refuseStore s hid h x k).mem = true := by
  grind [State.refuseStore, setHart_mem, modHart_mem, wf_takeTrap]

theorem wf_of_execAccessPerformed (s : State) {s' : State} (hn : (execAccessPerformed s) = .next s')
    (hm : Memory.wf s.mem = true) : Memory.wf s'.mem = true := by
  unfold execAccessPerformed at hn
  simp only [] at hn
  grind [modHart_mem, wf_of_madeStore, wf_refuseStore]

/-! ### Machine/Sync.lean -/
theorem wf_of_execLsync (px : Px) (s : State) {s' : State} (hn : (execLsync px s) = .next s')
    (hm : Memory.wf s.mem = true) : Memory.wf s'.mem = true := by
  grind [execLsync, withRegs_next, setHart_mem, wf_takeTrap, retire_mem]

theorem dropJobCopies_mem (s : State) (c : Nat) : (State.dropJobCopies s c).mem = s.mem := by
  grind [State.dropJobCopies, modCore_mem]

theorem wf_of_drain (s : State) (px : Px) (space : Nat) {s' : State} (hn : (drain s px space) = .next s')
    (hm : Memory.wf s.mem = true) : Memory.wf s'.mem = true := by
  refine wf_of_withRegs hn hm (fun hid h hn => ?_)
  have := @wf_foldl
  grind [retire_mem, setHart_mem, dropJobCopies_mem]

theorem setScope_mem (s : State) (ctx k : Nat) (e : ScopeEntry) : (State.setScope s ctx k e).mem = s.mem := by
  grind [State.setScope, modCtx_mem]

theorem wf_acquire (s : State) (h : Hart) (rows : List Nat) (k : Nat) (cur : Option Scope)
    (hm : Memory.wf s.mem = true) : Memory.wf (State.acquire s h rows k cur).mem = true := by
  have hf : Memory.wf (rows.foldl (fun s j => s.clearL1 (h.coreOf j)) s).mem = true :=
    wf_foldl (fun s x w => by grind [clearL1_mem]) hm
  grind [State.acquire]

theorem scopedOp_next {s t : State} {hid : Nat} {h : Hart} {k : Nat} {rows : List Nat} {va : Nat → Option Dword}
    {rel ready : Bool} {perform : Option Scope → Out} (hn : scopedOp s hid h k rows va rel ready perform = .next t) :
    (∃ i, t = s.takeTrap hid i) ∨ t = s ∨ (∃ g, t = s.setHart hid g) ∨ ∃ cur, perform cur = .next t := by
  grind [scopedOp]

theorem wf_of_execFences (px : Px) (k : BitVec 5) (s : State) {s' : State} (hn : (execFences px k s) = .next s')
    (hm : Memory.wf s.mem = true) : Memory.wf s'.mem = true := by
  grind [execFences, withRegs_next, scopedOp_next, bind_ok, pure_ok, setHart_mem, wf_takeTrap, retire_mem, wf_acquire]

theorem wf_of_rewriteScope (s : State) (px : Px) (hid : Nat) (h : Hart) (d : Reg) (nb : Bool) (k : Nat)
    (news : List (Option Scope)) {s' : State} (hn : (rewriteScope s px hid h d nb k news) = .next s')
    (hm : Memory.wf s.mem = true) : Memory.wf s'.mem = true := by
  grind [rewriteScope, setHart_mem, retire_mem, setScope_mem]

theorem wf_of_scopeWait (s : State) (px : Px) (hid : Nat) (h : Hart) (d : Reg) (done : Bool) {s' : State}
    (hn : (scopeWait s px hid h d done) = .next s') (hm : Memory.wf s.mem = true) : Memory.wf s'.mem = true := by
  grind [scopeWait, retire_mem]

theorem wf_of_scopeDescs (s : State) (h : Hart) (va : Nat → Dword) (x0 : List Nat) {s₁ : State}
    {y₁ : List (Option Scope)} (hn : (State.scopeDescs s h va x0) = .ok (s₁, y₁)) (hm : Memory.wf s.mem = true) :
    Memory.wf s₁.mem = true := by
  induction x0 generalizing s s₁ y₁ with
  | nil =>
    simp only [State.scopeDescs] at hn
    grind
  | cons x xs ih =>
    simp only [State.scopeDescs, bind_ok] at hn
    grind [bind_ok, pure_ok, throw_ok, wf_of_rawStruct]

theorem wf_of_execScopewr (px : Px) (d a : Reg) (n : BitVec 1) (e : BitVec 5) (s : State) {s' : State}
    (hn : (execScopewr px d a n e s) = .next s') (hm : Memory.wf s.mem = true) : Memory.wf s'.mem = true := by
  grind [execScopewr, withRegs_next, setHart_mem, wf_takeTrap, retire_mem, wf_stopScalar, wf_of_rewriteScope,
    wf_of_scopeWait, wf_of_scopeDescs]

theorem wf_of_execScopeinv (px : Px) (d : Reg) (n : BitVec 1) (e : BitVec 5) (s : State) {s' : State}
    (hn : (execScopeinv px d n e s) = .next s') (hm : Memory.wf s.mem = true) : Memory.wf s'.mem = true := by
  grind [execScopeinv, withRegs_next, setHart_mem, wf_takeTrap, retire_mem, wf_of_rewriteScope, wf_of_scopeWait]

theorem wf_of_execScopeChangeInstall (s : State) {s' : State} (hn : (execScopeChangeInstall s) = .next s')
    (hm : Memory.wf s.mem = true) : Memory.wf s'.mem = true := by
  grind [execScopeChangeInstall, modHart_mem, setScope_mem]

theorem wf_amoRows (s : State) (op : AmoOp) (w : Nat) (v d1 : Nat → Nat) (x0 : List AmoRow)
    (hm : Memory.wf s.mem = true) : Memory.wf (amoRows s op w v d1 x0).1.mem = true := by
  induction x0 generalizing s   with
  | nil => grind [amoRows, wf_storeRaw]
  | cons x xs ih => grind [amoRows, bind_ok, pure_ok, wf_storeRaw]

theorem wf_of_atomic (s : State) (px : Px) (op : AmoOp) (d a : Reg) (w : Nat) (o : BitVec 2) (k : BitVec 5)
    {s' : State} (hn : (atomic s px op d a w o k) = .next s') (hm : Memory.wf s.mem = true) : Memory.wf s'.mem =
    true := by
  refine wf_of_withRegs hn hm (fun hid h hn => ?_)
  grind [wf_stopScalar, retire_mem, wf_of_homeRows, scopedOp_next, wf_takeTrap, setHart_mem, wf_acquire, wf_amoRows]

theorem wf_of_execLdaq (px : Px) (d a : Reg) (w : BitVec 2) (k : BitVec 5) (s : State) {s' : State}
    (hn : (execLdaq px d a w k s) = .next s') (hm : Memory.wf s.mem = true) : Memory.wf s'.mem = true := by
  refine wf_of_withRegs hn hm (fun hid h hn => ?_)
  grind [wf_stopScalar, retire_mem, wf_of_homeRows, scopedOp_next, wf_takeTrap, setHart_mem, wf_acquire]

theorem wf_storeHome (s : State) (va : Nat → Nat) (val : Nat → Dword) (size : Nat) (locs : List (Nat × Loc))
    (hm : Memory.wf s.mem = true) : Memory.wf (storeHome s va val size locs).mem = true := by
  unfold storeHome
  exact wf_foldl (fun s x w => by grind [wf_storeRaw]) hm

theorem wf_of_execStrl (px : Px) (d a : Reg) (w : BitVec 2) (k : BitVec 5) (s : State) {s' : State}
    (hn : (execStrl px d a w k s) = .next s') (hm : Memory.wf s.mem = true) : Memory.wf s'.mem = true := by
  unfold execStrl at hn
  simp only [] at hn
  grind [withRegs_next, scopedOp_next, setHart_mem, wf_takeTrap, retire_mem, wf_of_homeRows, wf_stopScalar,
    wf_storeHome]

theorem wakeContext_mem (s : State) (ctx : Nat) : (State.wakeContext s ctx).mem = s.mem := by
  grind [State.wakeContext]

theorem releaseBwaits_mem (s : State) (key : Nat) : (State.releaseBwaits s key).mem = s.mem := by
  grind [State.releaseBwaits]

theorem wf_of_barrierAct (s : State) (ctx core : Nat) (agent : Agent) (dpa : Nat) (l : Loc) (a : BarAct) {s₁ : State}
    {y₁ : Option Cause} (hn : (State.barrierAct s ctx core agent dpa l a) = some (s₁, y₁))
    (hm : Memory.wf s.mem = true) : Memory.wf s₁.mem = true := by
  grind [State.barrierAct, wf_storeRaw, wakeContext_mem, releaseBwaits_mem]

theorem barrierTook_mem (s : State) (ps : List (Nat × Nat)) : (State.barrierTook s ps).mem = s.mem := by
  grind [State.barrierTook]

theorem wf_of_barrierActs (s : State) (h : Hart) (act : Nat → BarAct) (x0 : List AmoRow) {s₁ : State}
    {y₁ : Option (Nat × Cause)} (hn : (barrierActs s h act x0) = some (s₁, y₁)) (hm : Memory.wf s.mem = true) :
    Memory.wf s₁.mem = true := by
  induction x0 generalizing s s₁ y₁ with
  | nil => grind [barrierActs]
  | cons x xs ih =>
    simp only [barrierActs, Option.bind_eq_bind, Option.bind_eq_some_iff] at hn
    grind [wf_of_barrierAct]

theorem wf_of_barrierInstr (s : State) (px : Px) (hid : Nat) (h : Hart) (va : Nat → Dword) (rel : Bool)
    (act : Nat → BarAct) (acc : List (Nat × Nat)) {s' : State}
    (hn : (barrierInstr s px hid h va rel act acc) = .next s') (hm : Memory.wf s.mem = true) : Memory.wf s'.mem =
    true := by
  unfold barrierInstr at hn
  repeat' split at hn
  all_goals grind [wf_takeTrap, retire_mem, wf_stopScalar, wf_of_homeRows, wf_of_barrierActs, barrierTook_mem,
    setHart_mem]

theorem wf_of_execBararm (px : Px) (d a : Reg) (s : State) {s' : State} (hn : (execBararm px d a s) = .next s')
    (hm : Memory.wf s.mem = true) : Memory.wf s'.mem = true := by
  grind [execBararm, withRegs_next, setHart_mem, wf_takeTrap, retire_mem, wf_stopScalar, wf_of_barrierInstr]

theorem wf_of_execBarrive (px : Px) (d a : Reg) (n : BitVec 8) (s : State) {s' : State}
    (hn : (execBarrive px d a n s) = .next s') (hm : Memory.wf s.mem = true) : Memory.wf s'.mem = true := by
  grind [execBarrive, withRegs_next, setHart_mem, wf_takeTrap, retire_mem, wf_stopScalar, wf_of_barrierInstr]

theorem wf_of_execBarinit (px : Px) (a : Reg) (n : BitVec 8) (k : BitVec 5) (s : State) {s' : State}
    (hn : (execBarinit px a n k s) = .next s') (hm : Memory.wf s.mem = true) : Memory.wf s'.mem = true := by
  refine wf_of_withRegs hn hm (fun hid h hn => ?_)
  have := @wf_foldl
  grind [wf_stopScalar, retire_mem, wf_of_homeRows, wf_takeTrap, barrierTook_mem, wf_storeRaw]

theorem wf_bwaitReturn (s : State) (hid : Nat) (h : Hart) (px : Px) (scopes : List (Nat × Option Scope))
    (hm : Memory.wf s.mem = true) : Memory.wf (State.bwaitReturn s hid h px scopes).mem = true := by
  unfold State.bwaitReturn
  exact wf_foldl (fun s x w => by grind [retire_mem, wf_acquire]) hm

theorem wf_of_execBwait (px : Px) (a : Reg) (p : BitVec 1) (s : State) {s' : State}
    (hn : (execBwait px a p s) = .next s') (hm : Memory.wf s.mem = true) : Memory.wf s'.mem = true := by
  refine wf_of_withRegs hn hm (fun hid h hn => ?_)
  grind [wf_bwaitReturn, wf_stopScalar, wf_of_homeRows, barrierTook_mem, wf_takeTrap, setHart_mem]

theorem wf_of_cellRows (s : State) (h : Hart) (u : Use) (va : Nat → Dword) (x0 : List (Nat × Nat)) {s₁ : State}
    {y₁ : List AmoRow} (hn : (State.cellRows s h u va x0) = .ok (s₁, y₁)) (hm : Memory.wf s.mem = true) :
    Memory.wf s₁.mem = true := by
  induction x0 generalizing s s₁ y₁ with
  | nil =>
    simp only [State.cellRows] at hn
    grind
  | cons x xs ih =>
    simp only [State.cellRows, bind_ok] at hn
    grind [bind_ok, pure_ok, throw_ok, wf_of_home]

theorem wf_squash (s : State) (hid : Nat) (h : Hart) (t : Task) (cells : List AmoRow) (hm : Memory.wf s.mem = true) :
    Memory.wf (State.squash s hid h t cells).mem = true := by
  rw [State.squash, setHart_mem, modGroup_mem]
  exact wf_clearHalves _ _ hm

theorem wf_of_execFrd (px : Px) (d a : Reg) (i : BitVec 5) (s : State) {s' : State}
    (hn : (execFrd px d a i s) = .next s') (hm : Memory.wf s.mem = true) : Memory.wf s'.mem = true := by
  refine wf_of_withRegs hn hm (fun hid h hn => ?_)
  grind [wf_stopScalar, wf_of_cellRows, wf_takeTrap, retire_mem, wf_acquire, wf_squash]

theorem wf_fillCells (s : State) (h : Hart) (i : Nat) (v : Nat → Dword) (rows : List AmoRow)
    (hm : Memory.wf s.mem = true) : Memory.wf (fillCells s h i v rows).mem = true := by
  unfold fillCells
  exact wf_foldl (fun s x w => by grind [wf_writeSector, wf_releaseCell]) hm

theorem wf_of_execFwr (px : Px) (d a : Reg) (i : BitVec 5) (s : State) {s' : State}
    (hn : (execFwr px d a i s) = .next s') (hm : Memory.wf s.mem = true) : Memory.wf s'.mem = true := by
  refine wf_of_withRegs hn hm (fun hid h hn => ?_)
  grind [wf_stopScalar, wf_of_cellRows, wf_takeTrap, retire_mem, wf_fillCells, wakeContext_mem, setHart_mem]

/-! ### Machine/Branch.lean -/
theorem wf_of_branchOp (s : State) (px : Px) (x y : Reg) (i : BitVec 13) (c : Dword → Dword → Bool) {s' : State}
    (hn : (branchOp s px x y i c) = .next s') (hm : Memory.wf s.mem = true) : Memory.wf s'.mem = true := by
  grind [branchOp, withRegs_next, setHart_mem, wf_takeTrap, retire_mem]

theorem wf_of_execJal (px : Px) (d : Reg) (i : BitVec 18) (s : State) {s' : State}
    (hn : (execJal px d i s) = .next s') (hm : Memory.wf s.mem = true) : Memory.wf s'.mem = true := by
  grind [execJal, withRegs_next, setHart_mem, wf_takeTrap, retire_mem]

theorem wf_of_execJalr (px : Px) (d a : Reg) (i : BitVec 13) (s : State) {s' : State}
    (hn : (execJalr px d a i s) = .next s') (hm : Memory.wf s.mem = true) : Memory.wf s'.mem = true := by
  grind [execJalr, withRegs_next, setHart_mem, wf_takeTrap, retire_mem]

/-! ### Machine/CsrOps.lean -/
theorem wf_installPrt (s : State) (ctx : Nat) (addr : Dword) (bytes : List Byte) (hm : Memory.wf s.mem = true) :
    Memory.wf (State.installPrt s ctx addr bytes).mem = true := by
  grind [State.installPrt, modCtx_mem, wf_sysPut]

theorem wf_of_prtabaStore (s : State) (h : Hart) (row : Nat) (x : Dword) {s₁ : State}
    (hn : (prtabaStore s h row x) = .ok s₁) (hm : Memory.wf s.mem = true) : Memory.wf s₁.mem = true := by
  grind [prtabaStore, bind_ok, pure_ok, modCtx_mem, wf_of_rawStruct, wf_installPrt]

theorem wf_of_csrWrite (s : State) (hid : Nat) (h : Hart) (row n : Nat) (x : Dword) {s₁ : State} {y₁ : Hart}
    (hn : (csrWrite s hid h row n x) = .ok (s₁, y₁)) (hm : Memory.wf s.mem = true) : Memory.wf s₁.mem = true := by
  grind [csrWrite, bind_ok, pure_ok, wf_of_prtabaStore]

theorem wf_of_csrAccess (s : State) (px : Px) (op : CsrOp) (d a : Reg) (n : Nat) {s' : State}
    (hn : (csrAccess s px op d a n) = .next s') (hm : Memory.wf s.mem = true) : Memory.wf s'.mem = true := by
  unfold csrAccess at hn
  simp only [] at hn
  grind [withRegs_next, setHart_mem, wf_takeTrap, retire_mem, wf_stopScalar, wf_of_csrWrite]

/-! ### Machine/Control.lean -/
theorem wf_of_execVlset (px : Px) (d a : Reg) (w : BitVec 3) (s : State) {s' : State}
    (hn : (execVlset px d a w s) = .next s') (hm : Memory.wf s.mem = true) : Memory.wf s'.mem = true := by
  grind [execVlset, withRegs_next, setHart_mem, wf_takeTrap, retire_mem]

theorem wf_of_execTmld (px : Px) (a : Reg) (c : BitVec 3) (f : BitVec 6) (n : BitVec 4) (s : State) {s' : State}
    (hn : (execTmld px a c f n s) = .next s') (hm : Memory.wf s.mem = true) : Memory.wf s'.mem = true := by
  refine wf_of_withRegs hn hm (fun hid h hn => ?_)
  grind [wf_stopScalar, wf_of_rawStruct, wf_takeTrap, retire_mem]

theorem wf_of_execTmpli (c : BitVec 3) (n : BitVec 6) (w0 w1 w2 w3 : Word) (s : State) {s' : State}
    (hn : (execTmpli c n w0 w1 w2 w3 s) = .next s') (hm : Memory.wf s.mem = true) : Memory.wf s'.mem = true := by
  grind [execTmpli, withHart_next, setHart_mem, wf_takeTrap]

theorem wf_of_execDmsetc (px : Px) (a : Reg) (z : BitVec 1) (s : State) {s' : State}
    (hn : (execDmsetc px a z s) = .next s') (hm : Memory.wf s.mem = true) : Memory.wf s'.mem = true := by
  grind [execDmsetc, withRegs_next, setHart_mem, wf_takeTrap, retire_mem]

theorem wf_of_execDred (px : Px) (d a : Reg) (o : BitVec 3) (s : State) {s' : State}
    (hn : (execDred px d a o s) = .next s') (hm : Memory.wf s.mem = true) : Memory.wf s'.mem = true := by
  grind [execDred, withRegs_next, setHart_mem, wf_takeTrap, retire_mem]

theorem wf_of_execDbcast (px : Px) (d a : Reg) (r : BitVec 3) (s : State) {s' : State}
    (hn : (execDbcast px d a r s) = .next s') (hm : Memory.wf s.mem = true) : Memory.wf s'.mem = true := by
  grind [execDbcast, withHart_next, withRegs_next, bind_ok, pure_ok, setHart_mem, wf_takeTrap, retire_mem]

theorem wf_of_execPstep (px : Px) (d : Reg) (s : State) {s' : State} (hn : (execPstep px d s) = .next s')
    (hm : Memory.wf s.mem = true) : Memory.wf s'.mem = true := by
  grind [execPstep, withRegs_next, setHart_mem, wf_takeTrap, retire_mem]

theorem wf_of_execWfe (px : Px) (s : State) {s' : State} (hn : (execWfe px s) = .next s')
    (hm : Memory.wf s.mem = true) : Memory.wf s'.mem = true := by
  grind [execWfe, withRegs_next, setHart_mem, wf_takeTrap, retire_mem]

theorem wf_of_execWfeTimeout (s : State) {s' : State} (hn : (execWfeTimeout s) = .next s')
    (hm : Memory.wf s.mem = true) : Memory.wf s'.mem = true := by
  grind [execWfeTimeout, withHart_next, setHart_mem]

theorem wf_of_execEcall (px : Px) (n : BitVec 12) (s : State) {s' : State} (hn : (execEcall px n s) = .next s')
    (hm : Memory.wf s.mem = true) : Memory.wf s'.mem = true := by
  grind [execEcall, withRegs_next, setHart_mem, wf_takeTrap, retire_mem]

theorem wf_of_execEbreak (px : Px) (s : State) {s' : State} (hn : (execEbreak px s) = .next s')
    (hm : Memory.wf s.mem = true) : Memory.wf s'.mem = true := by
  grind [execEbreak, withRegs_next, setHart_mem, wf_takeTrap, retire_mem]

theorem wf_of_execIllegalOpcode (px : Px) (w : Word) (s : State) {s' : State}
    (hn : (execIllegalOpcode px w s) = .next s') (hm : Memory.wf s.mem = true) : Memory.wf s'.mem = true := by
  grind [execIllegalOpcode, withHart_next, wf_takeTrap]

theorem wf_of_execTrapret (px : Px) (s : State) {s' : State} (hn : (execTrapret px s) = .next s')
    (hm : Memory.wf s.mem = true) : Memory.wf s'.mem = true := by
  grind [execTrapret, withRegs_next, setHart_mem, wf_takeTrap, resumeTrap_mem, retire_mem, wf_of_rawStruct,
    wf_stopScalar]

/-! ### Machine/Formation.lean -/
theorem wf_of_execCommandFormation (px : Px) (e : Eng) (tix : BitVec 6) (tok : BitVec 4) (fsel : BitVec 3)
    (val : BitVec 16) (s : State) {s' : State} (hn : (execCommandFormation px e tix tok fsel val s) = .next s')
    (hm : Memory.wf s.mem = true) : Memory.wf s'.mem = true := by
  grind [execCommandFormation, withHart_next, setHart_mem, wf_takeTrap]

/-! ### Machine/Engine.lean -/
theorem wf_stopCommand (s : State) (hid : Nat) (e : Eng) (c : Command) (x : Stop) (status : BitVec 32)
    (progress : Bool) (hm : Memory.wf s.mem = true) : Memory.wf (State.stopCommand s hid e c x status progress).mem =
    true := by
  unfold State.stopCommand
  grind [wf_settleStop, wf_takeTrap, wf_pageAbsent, modHart_mem]

theorem issue_mem (s : State) (hid : Nat) (e : Eng) (c : Command) : (State.issue s hid e c).mem = s.mem := by
  grind [State.issue, modHart_mem]

theorem wf_of_turnOut {s u : State} {hid : Nat} {e : Eng} {x : Turn} (hn : turnOut hid e s x = .next u)
    (w : Memory.wf s.mem = true) (hx : WfTurn x) : Memory.wf u.mem = true := by
  unfold turnOut at hn
  split at hn <;> grind [WfTurn, wf_stopCommand, issue_mem, modHart_mem]

theorem wf_of_engineRun {b : Bool} {e : Eng} {t : Template} {s u : State} {f : State → Nat → Hart → Command → Turn}
    (hn : engineRun b e t s f = .next u) (w : Memory.wf s.mem = true) (hf : ∀ hid h c, WfTurn (f s hid h c)) :
    Memory.wf u.mem = true := by
  obtain ⟨h, c, cs, -, -, -, -, -, rfl | rfl | hn⟩ := engineRun_next hn
  · exact w
  · exact w
  · exact wf_of_turnOut hn w (hf _ _ _)

theorem wf_of_engineOp {e : Eng} {t : Template} {s u : State} {f : State → Nat → Hart → Command → Turn}
    (hn : engineOp e t s f = .next u) (w : Memory.wf s.mem = true) (hf : ∀ hid h c, WfTurn (f s hid h c)) :
    Memory.wf u.mem = true := wf_of_engineRun hn w hf

theorem wf_of_execFormationFaultRaise (s : State) {s' : State} (hn : (execFormationFaultRaise s) = .next s')
    (hm : Memory.wf s.mem = true) : Memory.wf s'.mem = true := by
  grind [execFormationFaultRaise, withHart_next, wf_takeTrap]

/-! ### Machine/Tiles.lean -/
theorem wf_setTile (s : State) (core t : Nat) (tag : BitVec 24) (rows : List (List Nat)) (hm : Memory.wf s.mem = true)
    : Memory.wf (State.setTile s core t tag rows).mem = true := by
  exact wf_setBytes hm _ _

theorem zeroTile_mem (s : State) (core t : Nat) : (State.zeroTile s core t).mem = s.mem := by
  grind [State.zeroTile, modCore_mem]

theorem wf_setTileRow (s : State) (core t i : Nat) (tag : BitVec 24) (xs : List Nat) (hm : Memory.wf s.mem = true) :
    Memory.wf (State.setTileRow s core t i tag xs).mem = true := by
  refine wf_setBytes ?_ _ _
  grind [wf_setTile]

theorem wf_mcTake (s : State) (hid : Nat) (h : Hart) (hm : Memory.wf s.mem = true) :
    Memory.wf (State.mcTake s hid h).mem = true := by
  grind [State.mcTake, modHart_mem, wf_takeTrap]

theorem wf_mcTrap (s : State) (hid : Nat) (hm : Memory.wf s.mem = true) : Memory.wf (State.mcTrap s hid).mem =
    true := by
  grind [State.mcTrap, modHart_mem, wf_mcTake]

theorem wf_mcContext (s : State) (ctx : Nat) (hm : Memory.wf s.mem = true) : Memory.wf (State.mcContext s ctx).mem =
    true := by
  unfold State.mcContext
  exact wf_foldl (fun s x w => by grind [wf_mcTrap]) hm

theorem wf_sysWriteSector (s : State) (dpa : Nat) (x : Sector) (hm : Memory.wf s.mem = true) :
    Memory.wf (State.sysWriteSector s dpa x).mem = true := by
  grind [State.sysWriteSector, wf_writeSector]

theorem wf_setMarks (s : State) (ctx core : Nat) (f : Map Bool → Map Bool) (hm : Memory.wf s.mem = true) :
    Memory.wf (State.setMarks s ctx core f).mem = true := by
  grind [State.setMarks, modCtx_mem, wf_sysWrite]

theorem wf_markSpilled (s : State) (ctx core t : Nat) (zero : Bool) (hm : Memory.wf s.mem = true) :
    Memory.wf (State.markSpilled s ctx core t zero).mem = true := by
  grind [State.markSpilled, wf_setMarks]

theorem canonical_modCore {s : State} {c : Nat} {f : Core → Core} (w : memoryCanonical s) : memoryCanonical
    (s.modCore c f) :=
  (congrArg Memory.wf (modCore_mem s c f)).trans w

theorem canonical_zeroTile {s : State} {c t : Nat} (w : memoryCanonical s) : memoryCanonical (s.zeroTile c t) :=
  (congrArg Memory.wf (zeroTile_mem s c t)).trans w

theorem canonical_sysWriteSector {s : State} {d : Nat} {x : Sector} (w : memoryCanonical s) : memoryCanonical
    (s.sysWriteSector d x) :=
  wf_sysWriteSector _ _ _ w

theorem wf_spillTile (s : State) (core t : Nat) (hm : Memory.wf s.mem = true) :
    Memory.wf (State.spillTile s core t).mem = true := by
  have free : ∀ u : State, memoryCanonical u → memoryCanonical
    ((u.zeroTile core t).modCore core (fun c => { c with tileOwner := del c.tileOwner t })) :=
    fun u w => canonical_modCore (canonical_zeroTile w)
  change memoryCanonical (State.spillTile s core t)
  unfold State.spillTile
  split
  · exact hm
  · dsimp only
    split
    · exact free _ hm
    · split
      · exact free _ (wf_markSpilled _ _ _ _ _ hm)
      · split
        · exact free _ (wf_mcContext _ _ hm)
        · exact free _ (wf_markSpilled _ _ _ _ _ (canonical_foldl (fun s x w => canonical_sysWriteSector w) hm))

theorem wf_fillTile (s : State) (ctx core t : Nat) (hm : Memory.wf s.mem = true) :
    Memory.wf (State.fillTile s ctx core t).mem = true := by
  grind [State.fillTile, wf_setTile, zeroTile_mem, wf_mcContext, wf_setMarks]

theorem wf_useTile (s : State) (h : Hart) (core t : Nat) (hm : Memory.wf s.mem = true) :
    Memory.wf (State.useTile s h core t).mem = true := by
  grind [State.useTile, modCore_mem, wf_spillTile, wf_fillTile]

theorem wf_of_execTileSpill (s : State) {s' : State} (hn : (execTileSpill s) = .next s') (hm : Memory.wf s.mem = true)
    : Memory.wf s'.mem = true := by
  grind [execTileSpill, wf_spillTile]

/-! ### Machine/Vector.lean -/
theorem wf_of_xvOp {t : Template} {s u : State} {f : State → RowFn} (hn : xvOp t s f = .next u)
    (w : Memory.wf s.mem = true) : Memory.wf u.mem = true := by
  refine wf_of_engineOp hn w (fun hid h c => ?_)
  grind [WfTurn, setHart_mem]

theorem wf_of_elemOp (t : Template) (s : State) (e : Command → ElemSpec) {s' : State} (hn : (elemOp t s e) = .next s')
    (hm : Memory.wf s.mem = true) : Memory.wf s'.mem = true := by
  grind [elemOp, wf_of_xvOp, bind_ok, pure_ok]

theorem wf_of_transOp (t : Template) (s : State) (g : Trans) {s' : State} (hn : (transOp t s g) = .next s')
    (hm : Memory.wf s.mem = true) : Memory.wf s'.mem = true := by
  grind [transOp, wf_of_elemOp]

/-! ### Machine/Access.lean -/
theorem wf_of_hold (s : State) (c : Command) (hm : Memory.wf s.mem = true) : WfTurn (hold s c) := by
  grind [hold, WfTurn]

/-- What one unit of a command leaves keeps the form. -/
def WfUnit : UnitRes → Prop
  | .ok s _ => Memory.wf s.mem = true
  | _ => True

theorem wf_of_nextUnit {s : State} {c : Command} {count : Nat → Nat} {serial : Bool}
    {unit : State → Command → Nat → Nat → UnitRes}
    {rows : List Nat} {j : Nat} {x : UnitRes} (hf : ∀ j k, WfUnit (unit s c j k))
    (e : nextUnit s c count serial unit rows = some (j, x)) : WfUnit x := by
  induction rows with
  | nil => grind [nextUnit]
  | cons i is ih =>
    have := hf i (c.doneOf i)
    grind [nextUnit]

theorem wf_of_unitTurn {s : State} {h : Hart} {c : Command} {rows : List Nat} {count : Command → Nat → Nat}
    {check : Except Stop Command} {touch : Command → Nat → Nat → List Dword} {serial : Bool}
    {unit : State → Command → Nat → Nat → UnitRes} (w : Memory.wf s.mem = true)
      (hf : ∀ s c j k, Memory.wf s.mem = true → WfUnit (unit s c j k)) :
    WfTurn (unitTurn s h c rows count check touch serial unit) := by
  unfold unitTurn
  split
  · exact w
  · next d _ =>
    have := fun j x => @wf_of_nextUnit s d (count d) serial unit rows j x (fun j k => hf s d j k w)
    grind [WfTurn, hold, WfUnit]

theorem wf_push (s : State) (core q : Nat) (x : Sector) (hm : Memory.wf s.mem = true) :
    Memory.wf (State.push s core q x).mem = true := by
  exact hm

theorem wf_pop (s : State) (core q : Nat) (hm : Memory.wf s.mem = true) : Memory.wf (State.pop s core q).mem =
    true := by
  exact hm

theorem wf_putSpad (s : State) (h : Hart) (row off : Nat) (x : Sector) (hm : Memory.wf s.mem = true) :
    Memory.wf (State.putSpad s h row off x).mem = true := by
  grind [State.putSpad, wf_putSector]

theorem wf_deliver (s : State) (h : Hart) (c : Command) (j k : Nat) (x : Sector) (hm : Memory.wf s.mem = true) :
    Memory.wf (deliver s h c j k x).mem = true := by
  grind [deliver, wf_push, wf_putSpad]

theorem wf_of_readVerbatim (s : State) (h : Hart) (x : Sectors) (j k : Nat) {s₁ : State} {y₁ : Sector}
    (hn : (readVerbatim s h x j k) = .ok (s₁, y₁)) (hm : Memory.wf s.mem = true) : Memory.wf s₁.mem = true := by
  grind [readVerbatim, wf_of_unitLoc]

theorem wf_of_Command_readUnit (c : Command) (s : State) (h : Hart) (x : Sectors) (j k : Nat) {s₁ : State}
    {y₁ : Sector} (hn : (Command.readUnit c s h x j k) = .ok (s₁, y₁)) (hm : Memory.wf s.mem = true) :
    Memory.wf s₁.mem = true := by
  grind [Command.readUnit, wf_of_readVerbatim]

theorem wf_of_readAhead (s : State) (h : Hart) (c : Command) (rows : List Nat) (x : Sectors)
    (hm : Memory.wf s.mem = true) : WfTurn (readAhead s h c rows x) := by
  grind [readAhead, WfTurn, wf_of_readVerbatim]

theorem wf_of_streamLoad (t : Template) (s : State) (prep : Hart → Command → List Nat → Except Stop Command)
    (counts : Command → Nat → List Nat) (src : Command → Sectors) {s' : State}
    (hn : (streamLoad t s prep counts src) = .next s') (hm : Memory.wf s.mem = true) : Memory.wf s'.mem = true := by
  refine wf_of_engineOp hn hm (fun hid h c => ?_)
  dsimp only
  split
  · exact wf_of_readAhead _ _ _ _ _ hm
  · refine wf_of_unitTurn hm (fun s c j k w => ?_)
    grind [WfUnit, wf_of_Command_readUnit, wf_deliver]

theorem wf_of_openSource (s : State) (h : Hart) (c : Command) (j : Nat) (ok : Opened → Option Cause) (a : Nat)
    {s₁ : State} {y₁ : Opened} (hn : (openSource s h c j ok a) = .ok (s₁, y₁)) (hm : Memory.wf s.mem = true) :
    Memory.wf s₁.mem = true := by
  grind [openSource, wf_of_unitLoc]

theorem wf_of_openSources (s : State) (h : Hart) (c : Command) (j : Nat) (ok : Opened → Option Cause) (x0 : List Nat)
    {s₁ : State} {y₁ : Map Opened} (hn : (openSources s h c j ok x0) = .ok (s₁, y₁)) (hm : Memory.wf s.mem = true) :
    Memory.wf s₁.mem = true := by
  induction x0 generalizing s s₁ y₁  with
  | nil => grind [openSources, bind_ok, pure_ok, wf_of_openSource]
  | cons x xs ih => grind [openSources, bind_ok, pure_ok, wf_of_openSource]

theorem wf_of_aldtRead (h : Hart) (c : Command) (x0 : List Nat) (x1 : State) {s₁ : State} {y₁ : List Sector}
    {y₂ : Flags} (hn : (aldtRead h c x0 x1) = .ok (s₁, y₁, y₂)) (hm : Memory.wf x1.mem = true) : Memory.wf s₁.mem =
    true := by
  induction x0 generalizing x1 s₁ y₁ y₂  with
  | nil => grind [aldtRead, wf_of_openSources]
  | cons x xs ih => grind [aldtRead, bind_ok, pure_ok, wf_of_openSources]

theorem wf_of_execAldt (t : Template) (s : State) {s' : State} (hn : (execAldt t s) = .next s')
    (hm : Memory.wf s.mem = true) : Memory.wf s'.mem = true := by
  refine wf_of_engineOp hn hm (fun hid h c => ?_)
  refine wf_of_unitTurn hm (fun s c j k w => ?_)
  grind [WfUnit, wf_of_aldtRead, wf_deliver]

theorem wf_fillSlot (s : State) (h : Hart) (c : Command) (j : Nat) (xs : List Sector) (hm : Memory.wf s.mem = true) :
    Memory.wf (fillSlot s h c j xs).mem = true := by
  unfold fillSlot
  exact wf_foldl (fun s x w => by grind [modCore_mem, wf_putSpad]) hm

theorem wfUnit_aringUnit (hid : Nat) (h : Hart) (rows : List Nat) (s : State) (c : Command) (j k : Nat)
    (w : Memory.wf s.mem = true) : WfUnit (aringUnit hid h rows s c j k) := by
  grind [aringUnit, WfUnit, wf_of_openSource, wf_fillSlot, modHart_mem]

theorem wf_of_execAring (t : Template) (s : State) {s' : State} (hn : (execAring t s) = .next s')
    (hm : Memory.wf s.mem = true) : Memory.wf s'.mem = true := by
  refine wf_of_engineOp hn hm (fun hid h c => ?_)
  exact wf_of_unitTurn hm (fun s c j k w => wfUnit_aringUnit _ _ _ _ _ _ _ w)

theorem wf_of_execAqcfg (t : Template) (s : State) {s' : State} (hn : (execAqcfg t s) = .next s')
    (hm : Memory.wf s.mem = true) : Memory.wf s'.mem = true := by
  refine wf_of_engineOp hn hm (fun hid h c => ?_)
  have hp : Memory.wf ((c.rows h).foldl (fun s j => s.modCore (h.coreOf j)
    (fun k => k.setQueue c.t.d.toNat ((k.queue c.t.d.toNat).config c.t))) s).mem = true := by
    refine wf_foldl (fun s j w => ?_) hm; exact w
  grind [WfTurn, hold]

theorem wf_of_execApref (t : Template) (s : State) {s' : State} (hn : (execApref t s) = .next s')
    (hm : Memory.wf s.mem = true) : Memory.wf s'.mem = true := by
  refine wf_of_engineOp hn hm (fun hid h c => ?_)
  grind [WfTurn, bind_ok, pure_ok]

/-! ### Machine/Graph.lean -/
theorem wf_writeBack (s : State) (q : Nat) (x : HwQueue) (hm : Memory.wf s.mem = true) :
    Memory.wf (State.writeBack s q x).mem = true := by
  grind [State.writeBack, wf_sysWrite]

theorem wf_setQueue (s : State) (q : Nat) (x : HwQueue) (hm : Memory.wf s.mem = true) :
    Memory.wf (State.setQueue s q x).mem = true := by
  grind [State.setQueue, wf_sysWrite, wf_writeBack]

theorem wf_drained (s : State) (q : Nat) (hm : Memory.wf s.mem = true) : Memory.wf (State.drained s q).mem =
    true := by
  grind [State.drained, wf_setQueue]

theorem wf_finishLaunch (s : State) (id : Nat) (hm : Memory.wf s.mem = true) :
    Memory.wf (State.finishLaunch s id).mem = true := by
  grind [State.finishLaunch, wf_sysWrite, ctxMsi_mem, wf_drained]

theorem modLaunch_mem (s : State) (id : Nat) (f : Launch → Launch) : (State.modLaunch s id f).mem = s.mem := by
  grind [State.modLaunch]

theorem wf_nodeDone (s : State) (id : Nat) (x : Started) (hm : Memory.wf s.mem = true) :
    Memory.wf (State.nodeDone s id x).mem = true := by
  grind [State.nodeDone, wf_finishLaunch, modLaunch_mem]

theorem wf_nodeFail (s : State) (id code node : Nat) (hm : Memory.wf s.mem = true) :
    Memory.wf (State.nodeFail s id code node).mem = true := by
  grind [State.nodeFail, wf_finishLaunch, modLaunch_mem]

theorem wf_nodeNext (s : State) (id next : Nat) (hm : Memory.wf s.mem = true) :
    Memory.wf (State.nodeNext s id next).mem = true := by
  grind [State.nodeNext, wf_finishLaunch, modLaunch_mem]

theorem wf_raiseRequest (s : State) (who : Requester) (hs : List Nat) (hm : Memory.wf s.mem = true) :
    Memory.wf (State.raiseRequest s who hs).mem = true := by
  unfold State.raiseRequest
  exact wf_foldl (fun s x w => by grind [modHart_mem]) hm

theorem lapse_mem (s : State) (who : Requester) : (State.lapse s who).mem = s.mem := by
  grind [State.lapse]

/-! ### Machine/Grants.lean -/
theorem wf_fuse (s : State) (cores : List Nat) (hm : Memory.wf s.mem = true) : Memory.wf (State.fuse s cores).mem =
    true := by
  unfold State.fuse
  exact wf_foldl (fun s x w => by grind [modCore_mem]) hm

theorem wf_of_wakeHart (s : State) (hid : Nat) (h : Hart) {s₁ : State} (hn : (State.wakeHart s hid h) = some s₁)
    (hm : Memory.wf s.mem = true) : Memory.wf s₁.mem = true := by
  simp only [State.wakeHart] at hn
  split at hn
  · grind
  · split at hn
    · grind
    · obtain ⟨g, -, rfl⟩ := Option.map_eq_some_iff.mp hn
      exact hm

/-! ### Machine/Stores.lean -/
theorem wf_putAll (s : State) (h : Hart) (xs : List Pending) (hm : Memory.wf s.mem = true) :
    Memory.wf (State.putAll s h xs).mem = true := by
  unfold State.putAll
  exact wf_foldl (fun s x w => by grind [wf_putSector]) hm

theorem wf_storeAll (s : State) (hid : Nat) (h : Hart) (c : Command) (xs : List Pending) (hm : Memory.wf s.mem = true)
    : Memory.wf (State.storeAll s hid h c xs).1.mem = true := by
  grind [State.storeAll, modHart_mem, wf_putAll]

theorem markTask_mem (s : State) (hid : Nat) : (State.markTask s hid).mem = s.mem := by
  grind [State.markTask, modHart_mem]

theorem wf_of_destLoc (s : State) (h : Hart) (x : Sectors) (j k : Nat) {s₁ : State} {y₁ : Nat} {y₂ : Loc}
    (hn : (destLoc s h x j k) = .ok (s₁, y₁, y₂)) (hm : Memory.wf s.mem = true) : Memory.wf s₁.mem = true := by
  grind [destLoc, wf_of_unitLoc]

theorem wf_of_stripUnit (h : Hart) (c : Command) (x : Sectors) (j k : Nat) (s : State) {s₁ : State} {y₁ : Pending}
    {y₂ : Encoded} (hn : (stripUnit h c x j k s) = .ok (s₁, y₁, y₂)) (hm : Memory.wf s.mem = true) :
    Memory.wf s₁.mem = true := by
  grind [stripUnit, wf_of_destLoc]

theorem wf_of_stripStore (t : Template) (s : State) (prep : Hart → Command → List Nat → Except Stop Command)
    (counts : Command → Nat → List Nat) (dst : Command → Sectors) {s' : State}
    (hn : (stripStore t s prep counts dst) = .next s') (hm : Memory.wf s.mem = true) : Memory.wf s'.mem = true := by
  refine wf_of_engineOp hn hm (fun hid h c => wf_of_unitTurn hm (fun s c j k w => ?_))
  grind [WfUnit, wf_of_stripUnit, wf_storeAll, modHart_mem, markTask_mem, wf_pop]

theorem wf_of_saccPiece (s : State) (h : Hart) (c : Command) (j k q : Nat) (tile : BitVec 24) (g : SaccTarget)
    (row : List Nat) (sr : BitVec 32) {s₁ : State} {y₁ : Pending} {y₂ : Flags} {y3 : BitVec 32}
    (hn : (saccPiece s h c j k q tile g row sr) = .ok (s₁, y₁, y₂, y3)) (hm : Memory.wf s.mem = true) :
    Memory.wf s₁.mem = true := by
  grind [saccPiece, wf_of_unitLoc]

theorem wf_of_saccPieces (h : Hart) (c : Command) (j k : Nat) (tile : BitVec 24) (g : SaccTarget) (row : List Nat)
    (x0 : List Nat) (x1 : State) (x2 : BitVec 32) {s₁ : State} {y₁ : List Pending} {y₂ : Flags} {y3 : BitVec 32}
    (hn : (saccPieces h c j k tile g row x0 x1 x2) = .ok (s₁, y₁, y₂, y3)) (hm : Memory.wf x1.mem = true) :
    Memory.wf s₁.mem = true := by
  induction x0 generalizing x1 s₁ y₁ y₂ y3 x2 with
  | nil => grind [saccPieces, wf_of_saccPiece]
  | cons x xs ih => grind [saccPieces, bind_ok, pure_ok, wf_of_saccPiece]

theorem wf_of_saccUnit (h : Hart) (c : Command) (j k : Nat) (s : State) {s₁ : State} {y₁ : List Pending} {y₂ : Flags}
    {y3 : BitVec 32} (hn : (saccUnit h c j k s) = .ok (s₁, y₁, y₂, y3)) (hm : Memory.wf s.mem = true) :
    Memory.wf s₁.mem = true := by
  grind [saccUnit, wf_of_saccPieces]

theorem wf_of_execSacc (t : Template) (s : State) {s' : State} (hn : (execSacc t s) = .next s')
    (hm : Memory.wf s.mem = true) : Memory.wf s'.mem = true := by
  refine wf_of_engineOp hn hm (fun hid h c => ?_)
  dsimp only
  split
  · trivial
  · refine wf_of_unitTurn (wf_foldl (fun s j w => wf_useTile _ _ _ _ w) hm) (fun s c j k w => ?_)
    grind [WfUnit, wf_of_saccUnit, wf_storeAll, modHart_mem, markTask_mem]

theorem wf_of_retagStore {t : Template} {s s' : State} {pre : Command → Nat → Except Stop Unit}
    {store : State → Hart → Command → Nat → Nat → Loc → Except Cause State} (hn : retagStore t s pre store = .next s')
    (w : Memory.wf s.mem = true) (hf : ∀ s h c j dpa l t, store s h c j dpa l = .ok t → Memory.wf s.mem = true →
      Memory.wf t.mem = true) :
    Memory.wf s'.mem = true := by
  refine wf_of_engineOp hn w (fun hid h c => wf_of_unitTurn w (fun s c j k w => ?_))
  grind [WfUnit, wf_of_unitLoc, markTask_mem]

theorem wf_of_execStag (t : Template) (s : State) {s' : State} (hn : (execStag t s) = .next s')
    (hm : Memory.wf s.mem = true) : Memory.wf s'.mem = true := by
  exact wf_of_retagStore hn hm (by grind [wf_putSector])

theorem wf_of_execFeset (t : Template) (s : State) {s' : State} (hn : (execFeset t s) = .next s')
    (hm : Memory.wf s.mem = true) : Memory.wf s'.mem = true := by
  exact wf_of_retagStore hn hm (by grind [wf_putSector, wf_storeSector])

/-! ### Machine/VectorMem.lean -/
theorem wf_of_execVpop (t : Template) (s : State) {s' : State} (hn : (execVpop t s) = .next s')
    (hm : Memory.wf s.mem = true) : Memory.wf s'.mem = true := by
  refine wf_of_engineOp hn hm (fun hid h c => ?_)
  have hp : Memory.wf ((c.rows h).foldl (fun s j => (List.range h.csr.xcl).foldl
    (fun s _ => s.pop (h.coreOf j) c.t.a.toNat) s) s).mem = true :=
    wf_foldl (fun s j w => wf_foldl (fun s _ w => wf_pop _ _ _ w) w) hm
  grind [WfTurn, hold, setHart_mem]

theorem wf_of_execVpush (t : Template) (s : State) {s' : State} (hn : (execVpush t s) = .next s')
    (hm : Memory.wf s.mem = true) : Memory.wf s'.mem = true := by
  refine wf_of_engineOp hn hm (fun hid h c => wf_of_unitTurn hm (fun s c j k w => ?_))
  grind [WfUnit, wf_push]

theorem wf_of_arriveAll (h : Hart) (x0 : List LoadEntry) (x1 : State) {s₁ : State}
    {y₁ : List (LoadEntry × Sector × Flags)} (hn : (arriveAll h x0 x1) = .ok (s₁, y₁)) (hm : Memory.wf x1.mem = true)
    : Memory.wf s₁.mem = true := by
  induction x0 generalizing x1 s₁ y₁  with
  | nil => grind [arriveAll, wf_of_arrive]
  | cons x xs ih => grind [arriveAll, bind_ok, pure_ok, wf_of_arrive]

theorem wf_of_execVldr (t : Template) (s : State) {s' : State} (hn : (execVldr t s) = .next s')
    (hm : Memory.wf s.mem = true) : Memory.wf s'.mem = true := by
  refine wf_of_engineOp hn hm (fun hid h c => ?_)
  grind [WfTurn, modHart_mem, wf_of_hold, wf_of_arriveAll, bind_ok, pure_ok]

theorem wf_of_storeParts (h : Hart) (row : Nat) (x0 : List (Dword × Nat × VecStore)) (x1 : State) {s₁ : State}
    {y₁ : Flags} (hn : (storeParts h row x0 x1) = .ok (s₁, y₁)) (hm : Memory.wf x1.mem = true) : Memory.wf s₁.mem =
    true := by
  induction x0 generalizing x1 s₁ y₁  with
  | nil => grind [storeParts, bind_ok, pure_ok, wf_of_home, wf_putSector]
  | cons x xs ih => grind [storeParts, bind_ok, pure_ok, wf_of_home, wf_putSector]

theorem wf_of_vstrAll (h : Hart) (c : Command) (x0 : List VecAccess) (x1 : State) {s₁ : State} {y₁ : Flags}
    (hn : (vstrAll h c x0 x1) = .ok (s₁, y₁)) (hm : Memory.wf x1.mem = true) : Memory.wf s₁.mem = true := by
  induction x0 generalizing x1 s₁ y₁  with
  | nil => grind [vstrAll, bind_ok, pure_ok, wf_of_storeParts]
  | cons x xs ih => grind [vstrAll, bind_ok, pure_ok, wf_of_storeParts]

theorem wf_of_execVstr (t : Template) (s : State) {s' : State} (hn : (execVstr t s) = .next s')
    (hm : Memory.wf s.mem = true) : Memory.wf s'.mem = true := by
  refine wf_of_engineOp hn hm (fun hid h c => ?_)
  grind [WfTurn, modHart_mem, wf_of_hold, markTask_mem, wf_of_vstrAll, bind_ok, pure_ok]

/-! ### Machine/Matrix.lean -/
theorem setLease_mem (s : State) (h : Hart) (core : Nat) (l : Lease) : (State.setLease s h core l).mem = s.mem := by
  grind [State.setLease, modCore_mem]

theorem mlease_mem (s : State) (hid : Nat) (h : Hart) (n core : Nat) : (State.mlease s hid h n core).mem = s.mem := by
  grind [State.mlease, setLease_mem]

theorem dropLease_mem (s : State) (h : Hart) (core : Nat) : (State.dropLease s h core).mem = s.mem := by
  grind [State.dropLease, setLease_mem]

theorem wf_dropLeases (s : State) (h : Hart) (hm : Memory.wf s.mem = true) : Memory.wf (State.dropLeases s h).mem =
    true := by
  unfold State.dropLeases
  exact wf_foldl (fun s x w => by grind [dropLease_mem]) hm

theorem wf_of_execMlease (t : Template) (s : State) {s' : State} (hn : (execMlease t s) = .next s')
    (hm : Memory.wf s.mem = true) : Memory.wf s'.mem = true := by
  refine wf_of_engineRun hn hm (fun hid h c => ?_)
  exact wf_foldl (fun s k w => by grind [mlease_mem]) hm

theorem wf_of_execMrelease (t : Template) (s : State) {s' : State} (hn : (execMrelease t s) = .next s')
    (hm : Memory.wf s.mem = true) : Memory.wf s'.mem = true := by
  refine wf_of_engineRun hn hm (fun hid h c => wf_foldl (fun s k w => ?_) hm)
  split
  · exact w
  · exact w

theorem startArray_mem (s : State) (h : Hart) (core : Nat) : (State.startArray s h core).mem = s.mem := by
  grind [State.startArray, setLease_mem]

theorem wf_partnerAbort (s : State) (hid : Nat) (h : Hart) (c : Command) (row reason : Nat)
    (hm : Memory.wf s.mem = true) : Memory.wf (State.partnerAbort s hid h c row reason).mem = true := by
  grind [State.partnerAbort, wf_cancelHalves, wf_stopCommand]

theorem wf_endLease (s : State) (hid : Nat) (h : Hart) (core : Nat) (hm : Memory.wf s.mem = true) :
    Memory.wf (State.endLease s hid h core).mem = true := by
  grind [State.endLease, setPair_mem, setLease_mem, wf_partnerAbort]

theorem wf_of_execLeaseGrant (s : State) {s' : State} (hn : (execLeaseGrant s) = .next s')
    (hm : Memory.wf s.mem = true) : Memory.wf s'.mem = true := by
  grind [execLeaseGrant, modCore_mem, setLease_mem]

theorem wf_of_execLeaseTimeout (s : State) {s' : State} (hn : (execLeaseTimeout s) = .next s')
    (hm : Memory.wf s.mem = true) : Memory.wf s'.mem = true := by
  grind [execLeaseTimeout, wf_endLease]

theorem wf_of_execLeaseIdleExpiry (s : State) {s' : State} (hn : (execLeaseIdleExpiry s) = .next s')
    (hm : Memory.wf s.mem = true) : Memory.wf s'.mem = true := by
  grind [execLeaseIdleExpiry, wf_endLease]

theorem wf_of_ringDescs (h : Hart) (c : Command) (x0 : List Nat) (x1 : State) {s₁ : State}
    {y₁ : List (Nat × BitVec 512)} (hn : (ringDescs h c x0 x1) = .ok (s₁, y₁)) (hm : Memory.wf x1.mem = true) :
    Memory.wf s₁.mem = true := by
  induction x0 generalizing x1 s₁ y₁  with
  | nil => grind [ringDescs, wf_of_rawStruct]
  | cons x xs ih => grind [ringDescs, bind_ok, pure_ok, wf_of_rawStruct]

theorem wf_of_execRingcfg (t : Template) (s : State) {s' : State} (hn : (execRingcfg t s) = .next s')
    (hm : Memory.wf s.mem = true) : Memory.wf s'.mem = true := by
  refine wf_of_engineOp hn hm (fun hid h c => ?_)
  have := @wf_foldl
  grind [WfTurn, hold, wf_of_ringDescs, modCore_mem]

theorem wf_of_execRingput (t : Template) (s : State) {s' : State} (hn : (execRingput t s) = .next s')
    (hm : Memory.wf s.mem = true) : Memory.wf s'.mem = true := by
  refine wf_of_engineOp hn hm (fun hid h c => ?_)
  have hp : Memory.wf ((c.rows h).foldl (fun s j => s.modCore (h.coreOf j)
    (fun k => k.setRing c.t.d.toNat (k.ring c.t.d.toNat).put)) s).mem = true := by
    refine wf_foldl (fun s j w => ?_) hm; exact w
  grind [WfTurn, hold]

theorem wf_of_execRingpop (t : Template) (s : State) {s' : State} (hn : (execRingpop t s) = .next s')
    (hm : Memory.wf s.mem = true) : Memory.wf s'.mem = true := by
  refine wf_of_engineOp hn hm (fun hid h c => ?_)
  have hp : Memory.wf ((c.rows h).foldl (fun s j => s.modCore (h.coreOf j)
    (fun k => k.setRing c.t.d.toNat (k.ring c.t.d.toNat).pop)) s).mem = true := by
    refine wf_foldl (fun s j w => ?_) hm; exact w
  grind [WfTurn, hold]

theorem wf_of_execRingqry (t : Template) (s : State) {s' : State} (hn : (execRingqry t s) = .next s')
    (hm : Memory.wf s.mem = true) : Memory.wf s'.mem = true := by
  refine wf_of_engineOp hn hm (fun hid h c => ?_)
  grind [WfTurn, setHart_mem, bind_ok, pure_ok]

theorem wf_putTile (s : State) (core t : Nat) (r : TileRes) (hm : Memory.wf s.mem = true) :
    Memory.wf (State.putTile s core t r).mem = true := by
  grind [State.putTile, wf_setTile, zeroTile_mem]

theorem wf_useTiles (s : State) (h : Hart) (rows tiles : List Nat) (hm : Memory.wf s.mem = true) :
    Memory.wf (State.useTiles s h rows tiles).mem = true := by
  exact wf_foldl (fun s x w => wf_foldl (fun s x w => wf_useTile _ _ _ _ w) w) hm

theorem wf_writeTiles (s : State) (h : Hart) (c : Command) (hm : Memory.wf s.mem = true) :
    Memory.wf (State.writeTiles s h c).mem = true := by
  unfold State.writeTiles
  exact wf_foldl (fun s x w => by grind [wf_useTile, wf_putTile]) hm

theorem wf_of_startRow {s : State} {h : Hart} {c : Command} {j : Nat} {rings : List Nat}
    {f : State → Nat → Except Stop (State × ArrayRes)} (w : Memory.wf s.mem = true)
    (hf : ∀ s j t r, f s j = .ok (t, r) → Memory.wf s.mem = true → Memory.wf t.mem = true) : WfTurn
      (startRow s h c j rings f) := by
  unfold startRow
  dsimp only
  split
  · exact w
  · next e =>
    simp only [bind_ok, pure_ok] at e
    grind [WfTurn, startArray_mem]

theorem wf_of_arrayTurn {s : State} {hid : Nat} {h : Hart} {c : Command} {rings tiles : List Nat}
    {check : Except Stop Unit}
    {f : State → Nat → Except Stop (State × ArrayRes)} (w : Memory.wf s.mem = true)
    (hf : ∀ s j t r, f s j = .ok (t, r) → Memory.wf s.mem = true → Memory.wf t.mem = true) :
    WfTurn (arrayTurn s hid h c rings tiles check f) := by
  have := fun j => @wf_of_startRow (s.useTiles h [j] tiles) h c j rings f (wf_useTiles _ _ _ _ w) hf
  grind [arrayTurn, WfTurn]

theorem wf_of_arrayOp (t : Template) (s : State) (rings tiles : Command → List Nat)
    (f : Hart → Command → State → Nat → Except Stop ArrayRes) {s' : State}
    (hn : (arrayOp t s rings tiles f) = .next s') (hm : Memory.wf s.mem = true) : Memory.wf s'.mem = true := by
  exact wf_of_engineOp hn hm (fun hid h c => wf_of_arrayTurn hm (by grind [map_ok]))

theorem wf_of_tileOp2 (t : Template) (s : State) (f : Hart → Command → State → Nat → Except Stop ArrayRes)
    {s' : State} (hn : (tileOp2 t s f) = .next s') (hm : Memory.wf s.mem = true) : Memory.wf s'.mem = true := by
  grind [tileOp2, wf_of_arrayOp]

theorem wf_of_tileOp (t : Template) (s : State) (f : Hart → Command → State → Nat → Except Stop ArrayRes) {s' : State}
    (hn : (tileOp t s f) = .next s') (hm : Memory.wf s.mem = true) : Memory.wf s'.mem = true := by
  grind [tileOp, wf_of_arrayOp]

theorem wf_of_tloadaTile (s : State) (h : Hart) (c : Command) (j : Nat) {s₁ : State} {y₁ : ArrayRes}
    (hn : (tloadaTile s h c j) = .ok (s₁, y₁)) (hm : Memory.wf s.mem = true) : Memory.wf s₁.mem = true := by
  grind [tloadaTile, bind_ok, pure_ok, wf_of_openSources]

theorem wf_of_execTloada (t : Template) (s : State) {s' : State} (hn : (execTloada t s) = .next s')
    (hm : Memory.wf s.mem = true) : Memory.wf s'.mem = true := by
  exact wf_of_engineOp hn hm (fun hid h c => wf_of_arrayTurn hm
    (fun s j t r e w => wf_of_tloadaTile (hn := e) (hm := w)))

theorem wf_stopPartner (s : State) (hid : Nat) (h : Hart) (c : Command) (x : Stop) (status : BitVec 32)
    (hm : Memory.wf s.mem = true) : Memory.wf (State.stopPartner s hid h c x status).mem = true := by
  grind [State.stopPartner, wf_cancelHalves, wf_stopCommand]

/-- What a TMMAP's rows leave keeps the form. -/
def WfPair : PairRes → Prop
  | .ok s _ | .stop s .. => Memory.wf s.mem = true

theorem wf_pairStart {s : State} {hid : Nat} {h : Hart} {c : Command} {j : Nat} {a b : HeadTile} {yid : Nat}
    {y : Hart}
    {d : Command} (w : Memory.wf s.mem = true) : WfPair (pairStart s hid h c j a b yid y d) := by
  simp only [pairStart]
  repeat' split
  all_goals grind [WfPair, wf_stopPartner, setPair_mem, startSide, startArray_mem, issue_mem]

theorem wf_pairRow {s : State} {hid : Nat} {h : Hart} {c : Command} {j : Nat} (w : Memory.wf s.mem = true) : WfPair
    (pairRow s hid h c j) := by
  simp only [pairRow]
  repeat' split
  all_goals first | exact w | exact wf_pairStart w | exact wf_stopPartner _ _ _ _ _ _ w

theorem wf_pairRows (hid : Nat) (h : Hart) (js : List Nat) {s : State} {c : Command} (w : Memory.wf s.mem = true) :
    WfPair (pairRows hid h js s c) := by
  induction js generalizing s c with
  | nil => exact w
  | cons j js ih =>
    have := fun c => wf_pairRow (hid := hid) (h := h) (j := j) (c := c) w
    grind [pairRows, WfPair]

theorem wf_of_execTmmap (t : Template) (s : State) {s' : State} (hn : (execTmmap t s) = .next s')
    (hm : Memory.wf s.mem = true) : Memory.wf s'.mem = true := by
  refine wf_of_engineOp hn hm (fun hid h c => ?_)
  have hu := wf_useTiles s h (c.rows h) [c.t.d.toNat] hm
  have hp := wf_pairRows hid h (c.rowsLeft h) (c := c) hu
  grind [WfTurn, WfPair, wf_cancelHalves]

theorem wf_of_tileRows {hid : Nat} {c : Command} {f : State → Hart → Command → Nat → Except Cause (State × Flags)}
    {js : List Nat} {x : Except (Nat × Cause) (State × Flags)} {s' : State} {fl : Flags}
    (hn : js.foldl (fun (acc : Except (Nat × Cause) (State × Flags)) j => do
      let (s, fl) ← acc
      match look s.harts hid with
      | none => pure (s, fl)
      | some g =>
        match f s g c j with
        | .error k => .error (j, k)
        | .ok (s, fl') => pure (s, fl ||| fl')) x = .ok (s', fl))
    (hf : ∀ s h c j t fl, f s h c j = .ok (t, fl) → Memory.wf s.mem = true → Memory.wf t.mem = true)
    (w : ∀ t fl, x = .ok (t, fl) → Memory.wf t.mem = true) : Memory.wf s'.mem = true := by
  induction js generalizing x with
  | nil => exact w _ _ hn
  | cons j js ih =>
    refine ih hn (fun t fl e => ?_)
    simp only [bind_ok] at e
    grind [pure_ok]

/-! ### Machine/TileVec.lean -/
theorem wf_of_tileVecOp {t : Template} {s s' : State} {tile : Command → Nat}
    {f : State → Hart → Command → Nat → Except Cause (State × Flags)} (hn : tileVecOp t s tile f = .next s')
    (w : Memory.wf s.mem = true) (hf : ∀ s h c j t fl, f s h c j = .ok (t, fl) → Memory.wf s.mem = true →
      Memory.wf t.mem = true) :
    Memory.wf s'.mem = true := by
  refine wf_of_engineOp hn w (fun hid h c => ?_)
  have hu : Memory.wf ((c.rows h).foldl (fun s j => s.useTile h (h.coreOf j) (tile c)) s).mem = true :=
    wf_foldl (fun s j w => wf_useTile _ _ _ _ w) w
  dsimp only
  split
  · trivial
  · split
    · exact hu
    · next e => exact wf_of_tileRows e hf (fun t fl e => by grind)

theorem wf_of_vrdaRow (hid : Nat) (s : State) (h : Hart) (c : Command) (j : Nat) {s₁ : State} {y₁ : Flags}
    (hn : (vrdaRow hid s h c j) = .ok (s₁, y₁)) (hm : Memory.wf s.mem = true) : Memory.wf s₁.mem = true := by
  grind [vrdaRow, setHart_mem]

theorem wf_of_execVrda (t : Template) (s : State) {s' : State} (hn : (execVrda t s) = .next s')
    (hm : Memory.wf s.mem = true) : Memory.wf s'.mem = true := by
  exact wf_of_tileVecOp hn hm (fun s h c j t fl e w => by grind [wf_of_vrdaRow])

theorem wf_of_vwraRow (s : State) (h : Hart) (c : Command) (j : Nat) {s₁ : State} {y₁ : Flags}
    (hn : (vwraRow s h c j) = .ok (s₁, y₁)) (hm : Memory.wf s.mem = true) : Memory.wf s₁.mem = true := by
  unfold vwraRow at hn
  simp only [bind_ok] at hn
  grind [bind_ok, pure_ok, throw_ok, map_ok, wf_setTileRow]

theorem wf_of_execVwra (t : Template) (s : State) {s' : State} (hn : (execVwra t s) = .next s')
    (hm : Memory.wf s.mem = true) : Memory.wf s'.mem = true := by
  exact wf_of_tileVecOp hn hm (fun s h c j t fl e w => by grind [wf_of_vwraRow])

/-! ### Machine/Tape.lean -/
theorem wf_of_tapeWrite (h : Hart) (j : Nat) (x0 : Nat) (x1 : List Sector) (x2 : State) {s₁ : State}
    (hn : (tapeWrite h j x0 x1 x2) = .ok s₁) (hm : Memory.wf x2.mem = true) : Memory.wf s₁.mem = true := by
  induction x1 generalizing x0 x2 with
  | nil => grind [tapeWrite]
  | cons x xs ih => grind [tapeWrite, wf_of_unitLoc, wf_putSector]

theorem wf_of_writeTape (s : State) (hid : Nat) (h : Hart) (c : Command) (r : TapeRecord) {s₁ : State}
    (hn : (State.writeTape s hid h c r) = .ok s₁) (hm : Memory.wf s.mem = true) : Memory.wf s₁.mem = true := by
  grind [State.writeTape, bind_ok, pure_ok, modHart_mem, wf_of_tapeWrite]

theorem wf_traceAll (s : State) (h : Hart) (e : Eng) (c : Command) (d : Completion) (hm : Memory.wf s.mem = true) :
    Memory.wf (State.traceAll s h e c d).mem = true := by
  unfold State.traceAll
  split
  · exact hm
  · exact wf_foldl (fun s x w => by grind [modCore_mem]) hm

theorem wf_of_completeLate (s : State) (hid : Nat) (h : Hart) (e : Eng) (c : Command) {s' : State}
    (hn : (completeLate s hid h e c) = .next s') (hm : Memory.wf s.mem = true) : Memory.wf s'.mem = true := by
  grind [completeLate, setHart_mem, wf_traceAll]

theorem wf_touchLeases (s : State) (h : Hart) (c : Command) (hm : Memory.wf s.mem = true) :
    Memory.wf (State.touchLeases s h c).mem = true := by
  unfold State.touchLeases
  split
  · exact wf_foldl (fun s x w => by grind [setLease_mem]) hm
  · exact hm

theorem wf_modCore {s : State} {c : Nat} {f : Core → Core} (w : memoryCanonical s) : memoryCanonical
    (s.modCore c f) :=
  (congrArg Memory.wf (modCore_mem s c f)).trans w

theorem wf_of_written {s t : State} {hid : Nat} {h : Hart} {c : Command} {d : Completion}
    (e : (match d.tape with | none => .ok s | some r => s.writeTape hid h c r) = (.ok t : Except Stop State))
    (w : Memory.wf s.mem = true) : Memory.wf t.mem = true := by
  split at e
  · cases e; exact w
  · exact wf_of_writeTape (hn := e) (hm := w)

theorem wf_of_execCommandCompletion (s : State) {s' : State} (hn : (execCommandCompletion s) = .next s')
    (hm : Memory.wf s.mem = true) : Memory.wf s'.mem = true := by
  obtain ⟨h, -, hn⟩ := withHart_next hn
  dsimp only at hn
  split at hn
  · exact wf_of_completeLate (hn := hn) (hm := hm)
  · cases hn; exact hm
  · split at hn
    · cases hn; exact hm
    · split at hn
      · cases hn; exact hm
      · split at hn
        · cases hn; exact hm
        · split at hn
          · cases hn; exact wf_takeTrap _ _ _ hm
          · cases hn; exact wf_pageAbsent _ _ _ _ hm
          · cases hn; exact hm
          · next t e =>
            have w := wf_of_written e hm
            cases hn
            rw [modHart_mem]
            refine wf_traceAll _ _ _ _ _ (canonical_ite (wf_touchLeases _ _ _ ?_) ?_)
            · exact canonical_foldl (fun s p w => wf_modCore w) (wf_writeTiles _ _ _ w)
            · exact canonical_foldl (fun s p w => wf_modCore w) (wf_writeTiles _ _ _ w)

theorem recordOp_next {px : Px} {s t : State} {f : Nat → Hart → Nat → Out} (hn : recordOp px s f = .next t) :
    (∃ i, t = s.takeTrap s.focus.hart i) ∨ t = s ∨ (∃ h, t = s.retire s.focus.hart h px) ∨ ∃ h j, f s.focus.hart h j =
      .next t := by
  grind [recordOp, withRegs_next]

theorem wf_of_execRecordOff (px : Px) (s : State) {s' : State} (hn : (execRecordOff px s) = .next s')
    (hm : Memory.wf s.mem = true) : Memory.wf s'.mem = true := by
  grind [execRecordOff, recordOp_next, setHart_mem, wf_takeTrap, retire_mem, wf_nodeFail]

theorem wf_of_execRecordMark (px : Px) (s : State) {s' : State} (hn : (execRecordMark px s) = .next s')
    (hm : Memory.wf s.mem = true) : Memory.wf s'.mem = true := by
  grind [execRecordMark, recordOp_next, setHart_mem, wf_takeTrap, retire_mem, wf_nodeFail]

theorem wf_of_execRecordOn (px : Px) (s : State) {s' : State} (hn : (execRecordOn px s) = .next s')
    (hm : Memory.wf s.mem = true) : Memory.wf s'.mem = true := by
  grind [execRecordOn, recordOp_next, setHart_mem, wf_takeTrap, retire_mem, wf_of_rawStruct, wf_stopScalar,
    wf_nodeFail]

theorem wf_of_readGMap (s : State) (h : Hart) (j : Nat) (a : Dword) {s₁ : State} {y₁ : List (BitVec 256)}
    (hn : (readGMap s h j a) = .ok (s₁, y₁)) (hm : Memory.wf s.mem = true) : Memory.wf s₁.mem = true := by
  grind [readGMap, bind_ok, pure_ok, wf_of_rawStruct]

theorem wf_stopSpatula (s : State) (hid : Nat) (h : Hart) (x : Stop) (hm : Memory.wf s.mem = true) :
    Memory.wf (State.stopSpatula s hid h x).mem = true := by
  unfold State.stopSpatula
  grind [wf_settleStop, wf_takeTrap, wf_pageAbsent]

theorem reverseEnd_mem (s : State) (hid : Nat) (h : Hart) (px : Px) (tapep : Dword) :
    (State.reverseEnd s hid h px tapep).mem = s.mem := by
  grind [State.reverseEnd, retire_mem]

theorem wf_of_execReverse (px : Px) (a : Reg) (s : State) {s' : State} (hn : (execReverse px a s) = .next s')
    (hm : Memory.wf s.mem = true) : Memory.wf s'.mem = true := by
  grind [execReverse, withRegs_next, setHart_mem, wf_takeTrap, retire_mem, wf_nodeFail, wf_of_readGMap,
    wf_stopSpatula, reverseEnd_mem]

theorem wf_of_findRecord (h : Hart) (j : Nat) (x0 : Nat) (x1 : Nat) (x2 : Dword) (x3 : Nat) (x4 : State) {s₁ : State}
    {y₁ : Recorded} (hn : (findRecord h j x0 x1 x2 x3 x4) = .ok (s₁, y₁)) (hm : Memory.wf x4.mem = true) :
    Memory.wf s₁.mem = true := by
  induction x0 generalizing x4 s₁ y₁ x1 x2 x3 with
  | zero => grind [findRecord, bind_ok, pure_ok, wf_of_rawStruct]
  | succ n ih => grind [findRecord, bind_ok, pure_ok, wf_of_rawStruct]

theorem wf_of_record (s : State) (h : Hart) (j n : Nat) {s₁ : State} {y₁ : Recorded}
    (hn : (State.record s h j n) = .ok (s₁, y₁)) (hm : Memory.wf s.mem = true) : Memory.wf s₁.mem = true := by
  grind [State.record, wf_of_findRecord]

theorem wf_of_payloadOf (h : Hart) (j : Nat) (x0 : Nat) (x1 : Dword) (x2 : State) {s₁ : State} {y₁ : List Sector}
    (hn : (payloadOf h j x0 x1 x2) = .ok (s₁, y₁)) (hm : Memory.wf x2.mem = true) : Memory.wf s₁.mem = true := by
  induction x0 generalizing x2 s₁ y₁ x1 with
  | zero => grind [payloadOf, bind_ok, pure_ok, wf_of_unitLoc]
  | succ n ih => grind [payloadOf, bind_ok, pure_ok, wf_of_unitLoc]

theorem wf_of_keepRows (s : State) (h : Hart) (j n : Nat) (d : Desc) {s₁ : State} {y₁ : List (List Exact)}
    (hn : (keepRows s h j n d) = .ok (s₁, y₁)) (hm : Memory.wf s.mem = true) : Memory.wf s₁.mem = true := by
  grind [keepRows, bind_ok, pure_ok, wf_of_openSources]

theorem wf_of_ringVals (s : State) (hid : Nat) (h : Hart) (j : Nat) (r : Recorded) (d : Desc) {s₁ : State}
    {y₁ : List (List Exact)} (hn : (ringVals s hid h j r d) = .ok (s₁, y₁)) (hm : Memory.wf s.mem = true) :
    Memory.wf s₁.mem = true := by
  grind [ringVals, bind_ok, pure_ok, wf_of_payloadOf, wf_of_keepRows]

theorem wf_of_heldTile (s : State) (hid : Nat) (h : Hart) (j : Nat) (r : Recorded) (d : Desc) {s₁ : State}
    {y₁ : TileRes} (hn : (heldTile s hid h j r d) = .ok (s₁, y₁)) (hm : Memory.wf s.mem = true) : Memory.wf s₁.mem =
    true := by
  grind [heldTile, bind_ok, pure_ok, wf_useTile, wf_of_payloadOf]

theorem wf_of_rerunSources (hid : Nat) (h : Hart) (j : Nat) (r : Recorded) (x0 : List (Desc × Nat)) (x1 : State)
    (x2 : State) (x3 : Hart) {s₁ : State} {s₂ : State} {y₂ : Hart}
    (hn : (rerunSources hid h j r x0 x1 x2 x3) = .ok (s₁, s₂, y₂)) (hm : Memory.wf x1.mem = true)
    (hm' : Memory.wf x2.mem = true) : Memory.wf s₁.mem = true ∧ Memory.wf s₂.mem = true := by
  induction x0 generalizing x1 x2 x3 with
  | nil => grind [rerunSources]
  | cons d ds ih =>
    obtain ⟨d, i⟩ := d
    simp only [rerunSources] at hn
    grind [wf_of_payloadOf, wf_of_heldTile, wf_putTile, bind_ok, throw_ok]

theorem wf_of_rerunLoad (s : State) (hid : Nat) (h : Hart) (j : Nat) (r : Recorded) {s₁ : State} {y₁ : TileRes}
    (hn : (rerunLoad s hid h j r) = .ok (s₁, y₁)) (hm : Memory.wf s.mem = true) : Memory.wf s₁.mem = true := by
  unfold rerunLoad at hn
  simp only [] at hn
  grind [bind_ok, pure_ok, throw_ok, map_ok, wf_of_payloadOf, wf_of_keepRows]

theorem throw_bind_ok {ε α β : Type} {e : ε} {f : α → Except ε β} {b : β} : ((throw e : Except ε α) >>= f) = .ok b ↔
    False := by
  rw [bind_ok]; simp [throw_ok]

theorem wf_of_rerun (s : State) (hid : Nat) (h : Hart) (j n below : Nat) {s₁ : State} {y₁ : TileRes}
    (hn : (rerun s hid h j n below) = .ok (s₁, y₁)) (hm : Memory.wf s.mem = true) : Memory.wf s₁.mem = true := by
  rw [rerun] at hn
  split at hn
  · exact (throw_bind_ok.mp hn).elim
  · obtain ⟨⟨t, r⟩, e, hn⟩ := bind_ok.mp hn
    have w := wf_of_record (hn := e) (hm := hm)
    dsimp only at hn
    split at hn
    · exact wf_of_rerunLoad (hn := hn) (hm := w)
    · obtain ⟨⟨u, z, g⟩, e, hn⟩ := bind_ok.mp hn
      have w := (wf_of_rerunSources (hn := e) (hm := w) (hm' := w)).1
      dsimp only at hn
      split at hn
      · cases hn
      · cases hn
      · cases hn
        exact w

theorem wf_of_tileOperand (s : State) (hid : Nat) (h : Hart) (j : Nat) (r : Recorded) (d : Desc) {s₁ : State}
    {y₁ : List (List Exact)} (hn : (tileOperand s hid h j r d) = .ok (s₁, y₁)) (hm : Memory.wf s.mem = true) :
    Memory.wf s₁.mem = true := by
  grind [tileOperand, bind_ok, pure_ok, wf_of_heldTile, wf_of_rerun]

theorem wf_of_operandVals (hid : Nat) (h : Hart) (j : Nat) (r : Recorded) (x0 : List (Desc × Nat)) (x1 : State)
    {s₁ : State} {y₁ : List (List (List Exact))} (hn : (operandVals hid h j r x0 x1) = .ok (s₁, y₁))
    (hm : Memory.wf x1.mem = true) : Memory.wf s₁.mem = true := by
  induction x0 generalizing x1 s₁ y₁  with
  | nil => grind [operandVals, bind_ok, pure_ok, wf_of_ringVals, wf_of_tileOperand]
  | cons x xs ih => grind [operandVals, bind_ok, pure_ok, wf_of_ringVals, wf_of_tileOperand]

theorem wf_of_gradSector (p : Perm) (h : Hart) (j : Nat) (b : GBuf) (a : Nat) (s : State) (m : Map GSec) {s₁ : State}
    {y₁ : Map GSec} (hn : (gradSector p h j b a s m) = .ok (s₁, y₁)) (hm : Memory.wf s.mem = true) :
    Memory.wf s₁.mem = true := by
  unfold gradSector at hn
  simp only [] at hn
  grind [bind_ok, pure_ok, throw_ok, map_ok, wf_of_unitLoc]

theorem wf_of_gradSectors (p : Perm) (h : Hart) (j : Nat) (b : GBuf) (cells : List (Nat × Nat)) (s : State)
    (m : Map GSec) {s₁ : State} {y₁ : Map GSec} (hn : (gradSectors p h j b cells s m) = .ok (s₁, y₁))
    (hm : Memory.wf s.mem = true) : Memory.wf s₁.mem = true := by
  simp only [gradSectors] at hn
  split at hn
  · grind [throw_ok]
  · exact wf_foldlM_fst (fun x a y e w => wf_of_gradSector (hn := e) (hm := w)) hn hm

theorem wf_of_gradStore (s : State) (h : Hart) (j : Nat) (m : Map GSec) {s₁ : State}
    (hn : (gradStore s h j m) = .ok s₁) (hm : Memory.wf s.mem = true) : Memory.wf s₁.mem = true := by
  refine wf_foldlM ?_ hn hm
  grind [wf_putSector]

theorem wf_of_gradTargets (h : Hart) (j : Nat) (map : List (BitVec 256)) (r : Recorded) (x0 : List Contribution)
    (x1 : State) (x2 : Map GSec) {s₁ : State} {y₁ : Map GSec} {y₂ : List (Contribution × GBuf)}
    (hn : (gradTargets h j map r x0 x1 x2) = .ok (s₁, y₁, y₂)) (hm : Memory.wf x1.mem = true) : Memory.wf s₁.mem =
    true := by
  induction x0 generalizing x1 x2 s₁ y₁ y₂ with
  | nil => grind [gradTargets]
  | cons x xs ih =>
    simp only [gradTargets] at hn
    grind [wf_of_gradSectors, bind_ok, pure_ok, throw_ok]

theorem wf_of_applyRecord (s : State) (hid : Nat) (h : Hart) (j : Nat) (map : List (BitVec 256)) (spoilt : Option Nat)
    (r : Recorded) {s₁ : State} {y₁ : Flags} (hn : (applyRecord s hid h j map spoilt r) = .ok (s₁, y₁))
    (hm : Memory.wf s.mem = true) : Memory.wf s₁.mem = true := by
  rw [applyRecord] at hn
  obtain ⟨⟨t, vals⟩, e, hn⟩ := bind_ok.mp hn
  have w := wf_of_operandVals (hn := e) (hm := hm)
  clear e
  dsimp only at hn
  split at hn
  · exact (throw_bind_ok.mp hn).elim
  · next dst _ =>
    obtain ⟨_, e, hn⟩ := bind_ok.mp hn
    cases e
    cases dst with
    | none =>
      obtain ⟨_, e, hn⟩ := bind_ok.mp hn
      cases e
      obtain ⟨⟨u, m, ts⟩, e, hn⟩ := bind_ok.mp hn
      obtain ⟨z, e4, hn⟩ := bind_ok.mp hn
      cases hn
      exact wf_of_gradStore (hn := e4) (hm := wf_of_gradTargets (hn := e) (hm := w))
    | some b =>
      obtain ⟨⟨_, _⟩, e2, hn⟩ := bind_ok.mp hn
      obtain ⟨⟨u, m, ts⟩, e, hn⟩ := bind_ok.mp hn
      obtain ⟨z, e4, hn⟩ := bind_ok.mp hn
      cases hn
      exact wf_of_gradStore (hn := e4) (hm := wf_of_gradTargets (hn := e)
        (hm := wf_of_gradSectors (hn := e2) (hm := w)))

theorem wf_passRecord (s : State) (hid : Nat) (h : Hart) (j n : Nat) (fl : Flags) (hm : Memory.wf s.mem = true) :
    Memory.wf (State.passRecord s hid h j n fl).mem = true := by
  grind [State.passRecord, modHart_mem, setLease_mem, wf_of_record]

theorem wf_of_execSpatulaRecord (s : State) {s' : State} (hn : (execSpatulaRecord s) = .next s')
    (hm : Memory.wf s.mem = true) : Memory.wf s'.mem = true := by
  obtain ⟨h, -, hn⟩ := withHart_next hn
  have h1 := fun h x => wf_stopSpatula s s.focus.hart h x hm
  dsimp only at hn
  repeat' split at hn
  all_goals grind [wf_of_record, wf_of_applyRecord, wf_passRecord, reverseEnd_mem]

/-! ### Machine/Jobs.lean -/
theorem wf_of_jobLoc (s : State) (j : Job) (p : Perm) (va : Dword) {s₁ : State} {y₁ : Nat} {y₂ : Loc}
    (hn : (State.jobLoc s j p va) = .ok (s₁, y₁, y₂)) (hm : Memory.wf s.mem = true) : Memory.wf s₁.mem = true := by
  grind [State.jobLoc, wf_settle, crossed_mem]

theorem wf_of_issuerRead (s : State) (i : Issuer) (va : Dword) (n : Nat) {s₁ : State} {y₁ : Nat}
    (hn : (State.issuerRead s i va n) = .ok (s₁, y₁)) (hm : Memory.wf s.mem = true) : Memory.wf s₁.mem = true := by
  grind [State.issuerRead, wf_settle, crossed_mem]

theorem wf_of_tensorSector (s : State) (ctx stack : Nat) (h : TensorHandle) (dpa : Nat) {s₁ : State} {y₁ : Opened}
    (hn : (State.tensorSector s ctx stack h dpa) = .ok (s₁, y₁)) (hm : Memory.wf s.mem = true) : Memory.wf s₁.mem =
    true := by
  grind [State.tensorSector, wf_settle, wf_recall, wf_of_hold]

theorem wf_of_tensorOpen (s : State) (ctx stack : Nat) (h : TensorHandle) (x0 : List Nat) {s₁ : State}
    {y₁ : Map Opened} (hn : (State.tensorOpen s ctx stack h x0) = .ok (s₁, y₁)) (hm : Memory.wf s.mem = true) :
    Memory.wf s₁.mem = true := by
  induction x0 generalizing s s₁ y₁ with
  | nil =>
    simp only [State.tensorOpen] at hn
    grind
  | cons x xs ih =>
    simp only [State.tensorOpen, bind_ok] at hn
    grind [bind_ok, pure_ok, throw_ok, wf_of_tensorSector]

theorem wf_of_tensorRead (s : State) (ctx stack : Nat) (r : TensorReq) {s₁ : State} {y₁ : List Sector}
    (hn : (State.tensorRead s ctx stack r) = .ok (s₁, y₁)) (hm : Memory.wf s.mem = true) : Memory.wf s₁.mem =
    true := by
  grind [State.tensorRead, bind_ok, pure_ok, wf_of_tensorOpen]

theorem wf_of_members (s : State) (i : Issuer) (j : JobSpec) {s₁ : State} {y₁ : Members}
    (hn : (State.members s i j) = .ok (s₁, y₁)) (hm : Memory.wf s.mem = true) : Memory.wf s₁.mem = true := by
  unfold State.members at hn
  simp only [bind_ok] at hn
  grind [bind_ok, pure_ok, throw_ok, map_ok, wf_of_issuerRead]

/-- A job's issue hands on only states that keep the form. Its rules follow the steps of `State.issueJob`. -/
def Issues (x : Except Stop (Option (State × Job))) : Prop := ∀ t j, x = .ok (some (t, j)) → Memory.wf t.mem = true

theorem issues_throw {α : Type} {e : Stop} {f : α → Except Stop (Option (State × Job))} : Issues
    ((throw e : Except Stop α) >>= f) :=
  fun _ _ hn => (throw_bind_ok.mp hn).elim

theorem issues_bind {α : Type} {x : Except Stop α} {f : α → Except Stop (Option (State × Job))}
    (hf : ∀ a, x = .ok a → Issues (f a)) :
    Issues (x >>= f) := fun t j hn => by
  obtain ⟨a, e, hn⟩ := bind_ok.mp hn
  exact hf a e t j hn

theorem issues_bind_of {α : Type} {P : α → Prop} {x : Except Stop α} {f : α → Except Stop (Option (State × Job))}
    (hx : ∀ a, x = .ok a → P a) (hf : ∀ a, P a → Issues (f a)) : Issues (x >>= f) := issues_bind fun a e => hf a
      (hx a e)

theorem issues_ite {p : Prop} [Decidable p] {x y : Except Stop (Option (State × Job))} (hx : Issues x) (hy : Issues y)
    :
    Issues (if p then x else y) := by
  split
  · exact hx
  · exact hy

theorem issues_pure {s : State} {j : Job} (w : Memory.wf s.mem = true) : Issues (pure (some (s, j))) := fun t i hn
    => by
  cases hn
  exact w

theorem issues_none : Issues (pure none) := fun t i hn => by cases hn

theorem members_ok {s : State} {i : Issuer} {j : JobSpec} (w : Memory.wf s.mem = true) (a : State × Option Members)
    (e : (s.members i j).map (fun x => (x.1, some x.2)) = .ok a) : Memory.wf a.1.mem = true := by
  obtain ⟨y, hy, rfl⟩ := map_ok.mp e
  exact wf_of_members (hn := hy) (hm := w)

theorem issues_issueJob {s : State} {i : Issuer} {j : JobSpec} {bar : Option Dword} (w : Memory.wf s.mem = true) :
    Issues (State.issueJob s i j bar) := by
  rw [State.issueJob]
  cases j.misaligned with
  | some a => exact issues_throw
  | none =>
    dsimp only
    refine issues_ite issues_throw (issues_ite (issues_bind_of (P := fun x => Memory.wf x.1.mem = true) (members_ok w)
      fun x w => ?_) (issues_bind_of (P := fun x => Memory.wf x.1.mem = true) (by rintro a ⟨⟩; exact w) fun x w
      => ?_))
    all_goals
      repeat' first
        | exact issues_throw
        | exact issues_none
        | exact issues_pure w
        | refine issues_ite ?_ ?_
        | refine issues_bind fun _ _ => ?_
        | split

theorem wf_of_issueJob (s : State) (i : Issuer) (j : JobSpec) (bar : Option Dword) {s₁ : State} {y₁ : Job}
    (hn : (State.issueJob s i j bar) = .ok (some (s₁, y₁))) (hm : Memory.wf s.mem = true) : Memory.wf s₁.mem =
    true := by
  exact issues_issueJob hm _ _ hn

theorem wf_of_issueRows {hid : Nat} {h : Hart} {c : Command}
    {spec : State → Issuer → Nat → Except Stop (State × JobSpec)}
    {js : List Nat} {s s' : State} {ys : List Job} (hn : issueRows hid h c spec js s = .ok (some (s', ys)))
      (w : Memory.wf s.mem = true)
    (hf : ∀ s i j t x, spec s i j = .ok (t, x) → Memory.wf s.mem = true → Memory.wf t.mem = true) : Memory.wf s'.mem =
      true := by
  induction js generalizing s s' ys with
  | nil => grind [issueRows]
  | cons j js ih =>
    simp only [issueRows, bind_ok] at hn
    grind [wf_of_issueJob, bind_ok, pure_ok, Option.map_eq_some_iff]

theorem register_mem (s : State) (j : Job) : (State.register s j).mem = s.mem := by
  grind [State.register]

theorem wf_of_jobTurn {t : Template} {s s' : State} {spec : Command → State → Issuer → Nat → Except Stop
    (State × JobSpec)}
    {register : State → Job → State} (hn : jobTurn t s spec register = .next s') (w : Memory.wf s.mem = true)
    (hf : ∀ c s i j t x, spec c s i j = .ok (t, x) → Memory.wf s.mem = true → Memory.wf t.mem = true)
    (hr : ∀ s j, Memory.wf s.mem = true → Memory.wf (register s j).mem = true) : Memory.wf s'.mem = true := by
  refine wf_of_engineOp hn w (fun hid h c => ?_)
  have := @wf_of_issueRows hid h c (spec c)
  have hfold := @wf_foldl _ register hr
  grind [WfTurn, hold, modHart_mem]

theorem wf_of_jobOp {t : Template} {s s' : State} {spec : Command → State → Issuer → Nat → Except Stop
    (State × JobSpec)}
    (hn : jobOp t s spec = .next s') (w : Memory.wf s.mem = true)
    (hf : ∀ c s i j t x, spec c s i j = .ok (t, x) → Memory.wf s.mem = true → Memory.wf t.mem = true) :
      Memory.wf s'.mem = true :=
  wf_of_jobTurn hn w hf (fun s j w => w)

theorem wf_of_execJcopy (t : Template) (s : State) {s' : State} (hn : (execJcopy t s) = .next s')
    (hm : Memory.wf s.mem = true) : Memory.wf s'.mem = true := by
  exact wf_of_jobOp hn hm (by grind [countAligned])

theorem wf_of_execJfill (t : Template) (s : State) {s' : State} (hn : (execJfill t s) = .next s')
    (hm : Memory.wf s.mem = true) : Memory.wf s'.mem = true := by
  exact wf_of_jobOp hn hm (by grind [countAligned])

theorem wf_of_execJpref (t : Template) (s : State) {s' : State} (hn : (execJpref t s) = .next s')
    (hm : Memory.wf s.mem = true) : Memory.wf s'.mem = true := by
  exact wf_of_jobOp hn hm (by grind [countAligned])

theorem wf_of_cardSpec (opc : Nat) (c : Command) (s : State) (i : Issuer) (j : Nat) {s₁ : State} {y₁ : JobSpec}
    (hn : (cardSpec opc c s i j) = .ok (s₁, y₁)) (hm : Memory.wf s.mem = true) : Memory.wf s₁.mem = true := by
  grind [cardSpec, wf_of_issuerRead]

theorem wf_of_execJcopy2 (t : Template) (s : State) {s' : State} (hn : (execJcopy2 t s) = .next s')
    (hm : Memory.wf s.mem = true) : Memory.wf s'.mem = true := by
  exact wf_of_jobOp hn hm (fun c s i j t x e w => wf_of_cardSpec (hn := e) (hm := w))

theorem wf_of_execJgath (t : Template) (s : State) {s' : State} (hn : (execJgath t s) = .next s')
    (hm : Memory.wf s.mem = true) : Memory.wf s'.mem = true := by
  exact wf_of_jobOp hn hm (fun c s i j t x e w => wf_of_cardSpec (hn := e) (hm := w))

theorem wf_of_execJscat (t : Template) (s : State) {s' : State} (hn : (execJscat t s) = .next s')
    (hm : Memory.wf s.mem = true) : Memory.wf s'.mem = true := by
  exact wf_of_jobOp hn hm (fun c s i j t x e w => wf_of_cardSpec (hn := e) (hm := w))

theorem wf_of_execJred (t : Template) (s : State) {s' : State} (hn : (execJred t s) = .next s')
    (hm : Memory.wf s.mem = true) : Memory.wf s'.mem = true := by
  exact wf_of_jobOp hn hm (fun c s i j t x e w => wf_of_cardSpec (hn := e) (hm := w))

theorem wf_of_execJrecode (t : Template) (s : State) {s' : State} (hn : (execJrecode t s) = .next s')
    (hm : Memory.wf s.mem = true) : Memory.wf s'.mem = true := by
  exact wf_of_jobOp hn hm (fun c s i j t x e w => wf_of_cardSpec (hn := e) (hm := w))

theorem wf_of_execJtens (t : Template) (s : State) {s' : State} (hn : (execJtens t s) = .next s')
    (hm : Memory.wf s.mem = true) : Memory.wf s'.mem = true := by
  exact wf_of_jobOp hn hm (fun c s i j t x e w => wf_of_cardSpec (hn := e) (hm := w))

theorem tellMembers_mem (s : State) (key reason frank mask : Nat) : (State.tellMembers s key reason frank mask).mem =
    s.mem := by
  grind [State.tellMembers]

theorem abortCollective_mem (s : State) (key reason frank : Nat) : (State.abortCollective s key reason frank).mem =
    s.mem := by
  grind [State.abortCollective, tellMembers_mem]

theorem joinCollective_mem (s : State) (j : Job) (m : Members) : (State.joinCollective s j m).mem = s.mem := by
  grind [State.joinCollective, abortCollective_mem]

theorem wf_registerMember (s : State) (j : Job) (hm : Memory.wf s.mem = true) :
    Memory.wf (State.registerMember s j).mem = true := by
  grind [State.registerMember, wf_of_members, register_mem, joinCollective_mem]

theorem wf_of_execJcoll (t : Template) (s : State) {s' : State} (hn : (execJcoll t s) = .next s')
    (hm : Memory.wf s.mem = true) : Memory.wf s'.mem = true := by
  exact wf_of_jobTurn hn hm (fun c s i j t x e w => wf_of_cardSpec (hn := e) (hm := w))
    (fun s j w => wf_registerMember _ _ w)

theorem modJob_mem (s : State) (id : Nat) (f : Job → Job) : (State.modJob s id f).mem = s.mem := by
  grind [State.modJob]

theorem wf_of_execJobStart (s : State) {s' : State} (hn : (execJobStart s) = .next s') (hm : Memory.wf s.mem = true) :
    Memory.wf s'.mem = true := by
  grind [execJobStart, modJob_mem]

theorem wf_settleJob (s : State) (j : Job) (a : Dword) (hm : Memory.wf s.mem = true) :
    Memory.wf (State.settleJob s j a).mem = true := by
  grind [State.settleJob, wf_settle, wf_recall, wf_of_jobLoc]

theorem wf_stopJob (s : State) (id : Nat) (j : Job) (x : Stop) (hm : Memory.wf s.mem = true) :
    Memory.wf (State.stopJob s id j x).mem = true := by
  unfold State.stopJob
  grind [wf_absentRecord, modJob_mem, wf_settleJob]

theorem wf_of_jobRaw (s : State) (j : Job) (dpa : Nat) (va : Dword) {s₁ : State} {y₁ : Nat} {y₂ : Loc}
    (hn : (State.jobRaw s j dpa va) = .ok (s₁, y₁, y₂)) (hm : Memory.wf s.mem = true) : Memory.wf s₁.mem = true := by
  grind [State.jobRaw, wf_settle, wf_writePast, crossed_mem]

theorem wf_of_jobBarrier (s : State) (j : Job) {s₁ : State} {y₁ : Nat} {y₂ : Loc}
    (hn : (State.jobBarrier s j) = .ok (some (s₁, y₁, y₂))) (hm : Memory.wf s.mem = true) : Memory.wf s₁.mem =
    true := by
  grind [State.jobBarrier, wf_of_jobRaw, map_ok]

theorem wf_of_jobArrive (s : State) (id : Nat) (j : Job) (a : BarAct) {s₁ : State} {y₁ : Option Cause}
    (hn : (State.jobArrive s id j a) = some (s₁, y₁)) (hm : Memory.wf s.mem = true) : Memory.wf s₁.mem = true := by
  grind [State.jobArrive, wf_of_barrierAct, barrierTook_mem, wf_of_jobBarrier]

theorem wf_of_jobRead (s : State) (j : Job) (va : Dword) {s₁ : State} {y₁ : Sector}
    (hn : (State.jobRead s j va) = .ok (s₁, y₁)) (hm : Memory.wf s.mem = true) : Memory.wf s₁.mem = true := by
  grind [State.jobRead, bind_ok, pure_ok, wf_of_jobLoc]

theorem wf_jobSector (s : State) (j : Job) (dpa : Nat) (l : Loc) (x : Sector) (hm : Memory.wf s.mem = true) :
    Memory.wf (State.jobSector s j dpa l x).mem = true := by
  grind [State.jobSector, wf_writeSector, wf_writePast, noteStore_mem, wf_releaseCell]

theorem wf_of_jobPut (s : State) (j : Job) (dst : Dword) (x : Sector) {s₁ : State}
    (hn : (State.jobPut s j dst x) = .ok s₁) (hm : Memory.wf s.mem = true) : Memory.wf s₁.mem = true := by
  grind [State.jobPut, bind_ok, pure_ok, wf_of_jobLoc, wf_jobSector]

theorem wf_of_jobCopy (s : State) (j : Job) (src dst : Dword) {s₁ : State} (hn : (State.jobCopy s j src dst) = .ok s₁)
    (hm : Memory.wf s.mem = true) : Memory.wf s₁.mem = true := by
  grind [State.jobCopy, bind_ok, pure_ok, wf_of_jobRead, wf_of_jobPut]

theorem wf_of_jobStore (s : State) (j : Job) (dst : Dword) (x : Sector) {s₁ : State}
    (hn : (State.jobStore s j dst x) = .ok s₁) (hm : Memory.wf s.mem = true) : Memory.wf s₁.mem = true := by
  grind [State.jobStore, bind_ok, pure_ok, wf_of_jobLoc, wf_jobSector]

theorem wf_of_jobFill (s : State) (j : Job) (dst : Dword) {s₁ : State} (hn : (State.jobFill s j dst) = .ok s₁)
    (hm : Memory.wf s.mem = true) : Memory.wf s₁.mem = true := by
  unfold State.jobFill at hn
  simp only [] at hn
  grind [bind_ok, pure_ok, throw_ok, map_ok, wf_of_jobLoc, wf_jobSector, wf_of_jobStore]

theorem wf_of_jobReduce (s : State) (j : Job) (src dst : Dword) {s₁ : State}
    (hn : (State.jobReduce s j src dst) = .ok s₁) (hm : Memory.wf s.mem = true) : Memory.wf s₁.mem = true := by
  grind [State.jobReduce, bind_ok, pure_ok, wf_of_jobLoc, wf_of_jobRead, wf_jobSector]

theorem wf_of_jobRecode (s : State) (j : Job) (src dst : Dword) {s₁ : State}
    (hn : (State.jobRecode s j src dst) = .ok s₁) (hm : Memory.wf s.mem = true) : Memory.wf s₁.mem = true := by
  grind [State.jobRecode, bind_ok, pure_ok, wf_of_jobRead, wf_of_jobStore]

theorem wf_of_jobRow (s : State) (j : Job) (base stride : Dword) (r : Nat) {s₁ : State} {y₁ : Dword}
    (hn : (State.jobRow s j base stride r) = .ok (s₁, y₁)) (hm : Memory.wf s.mem = true) : Memory.wf s₁.mem =
    true := by
  unfold State.jobRow at hn
  simp only [bind_ok] at hn
  grind [bind_ok, pure_ok, throw_ok, map_ok, wf_of_jobLoc]

theorem wf_stopAt (s t : State) (id k : Nat) (j : Job) (x : Stop) (hm : Memory.wf s.mem = true)
    (hm' : Memory.wf t.mem = true) : Memory.wf (State.stopAt s t id k j x).mem = true := by
  grind [State.stopAt, wf_stopJob]

/-- What writing one sector of a job leaves keeps the form. -/
def WfStep : JobStep → Prop
  | .ok s => Memory.wf s.mem = true
  | _ => True

theorem wfStep_jobStepOf {x : Except Stop State} (h : ∀ t, x = .ok t → Memory.wf t.mem = true) : WfStep
    (jobStepOf x) := by
  cases x with
  | error e => trivial
  | ok t => exact h t rfl

theorem wfStep_jobWrite (s : State) (id k : Nat) (j : Job) (w : Memory.wf s.mem = true) : WfStep
    (s.jobWrite id k j) := by
  simp only [State.jobWrite]
  split
  · exact wfStep_jobStepOf (fun t e => wf_of_jobCopy (hn := e) (hm := w))
  · exact wfStep_jobStepOf (fun t e => wf_of_jobCopy (hn := e) (hm := w))
  · refine wfStep_jobStepOf (fun t e => ?_)
    simp only [bind_ok] at e
    grind [wf_of_jobRow, wf_of_jobCopy]
  · refine wfStep_jobStepOf (fun t e => ?_)
    simp only [bind_ok] at e
    grind [wf_of_jobRow, wf_of_jobCopy]
  · exact wfStep_jobStepOf (fun t e => wf_of_jobFill (hn := e) (hm := w))
  · exact wfStep_jobStepOf (fun t e => wf_of_jobReduce (hn := e) (hm := w))
  · refine wfStep_jobStepOf (fun t e => ?_)
    grind [wf_of_jobPut, wf_of_jobStore]
  · exact wfStep_jobStepOf (fun t e => wf_of_jobRecode (hn := e) (hm := w))
  · split
    · split
      · trivial
      · trivial
      · trivial
      · next e =>
        refine wfStep_jobStepOf (fun t e' => wf_of_jobStore (hn := e') (hm := ?_))
        rw [modJob_mem]
        exact wf_of_tensorRead (hn := e) (hm := w)
    · exact wfStep_jobStepOf (fun t e => wf_of_jobStore (hn := e) (hm := w))
  · exact w

theorem wf_of_execJobSectorWrite (s : State) {s' : State} (hn : (execJobSectorWrite s) = .next s')
    (hm : Memory.wf s.mem = true) : Memory.wf s'.mem = true := by
  have hj := fun k j => wfStep_jobWrite s s.focus.unit k j hm
  unfold execJobSectorWrite at hn
  dsimp only at hn
  repeat' split at hn
  all_goals grind [wf_stopAt, WfStep, wf_of_jobArrive, Laws.modJob_mem]

theorem wf_of_writeOutcome (s : State) (j : Job) {s₁ : State} (hn : (State.writeOutcome s j) = .ok s₁)
    (hm : Memory.wf s.mem = true) : Memory.wf s₁.mem = true := by
  grind [State.writeOutcome, wf_storeRaw, wf_of_jobRaw]

theorem wf_endJob (s : State) (id : Nat) (j : Job) (hm : Memory.wf s.mem = true) :
    Memory.wf (State.endJob s id j).mem = true := by
  grind [State.endJob, modHart_mem, wf_nodeDone]

theorem wf_of_execJobComplete (s : State) {s' : State} (hn : (execJobComplete s) = .next s')
    (hm : Memory.wf s.mem = true) : Memory.wf s'.mem = true := by
  unfold execJobComplete at hn
  dsimp only at hn
  repeat' split at hn
  all_goals grind [wf_endJob, wf_stopJob, wf_of_writeOutcome, wf_of_jobArrive, Laws.modJob_mem]

theorem wf_of_execJobResume (s : State) {s' : State} (hn : (execJobResume s) = .next s') (hm : Memory.wf s.mem = true)
    : Memory.wf s'.mem = true := by
  grind [execJobResume, modJob_mem]

theorem wf_of_execJobFaultRaise (s : State) {s' : State} (hn : (execJobFaultRaise s) = .next s')
    (hm : Memory.wf s.mem = true) : Memory.wf s'.mem = true := by
  grind [execJobFaultRaise, wf_takeTrap, modJob_mem]

/-! ### Machine/Queue.lean -/
theorem writeQtbase_mem (s : State) (v : Dword) : (State.writeQtbase s v).mem = s.mem := by
  grind [State.writeQtbase]

theorem wf_psDrain (s : State) (hm : Memory.wf s.mem = true) : Memory.wf (State.psDrain s).mem = true := by
  grind [State.psDrain, wf_psFlush]

theorem wf_writeReg (s : State) (off : Nat) (v : Dword) (hm : Memory.wf s.mem = true) :
    Memory.wf (State.writeReg s off v).mem = true := by
  have h1 : Memory.wf (s.writeQtbase v).mem = true := by rwa [writeQtbase_mem]
  unfold State.writeReg
  dsimp only
  repeat' refine canonical_ite ?_ ?_
  all_goals first | exact hm | exact h1 | exact wf_psDrain _ hm

theorem wf_of_execQtbaseWrite (s : State) {s' : State} (hn : (execQtbaseWrite s) = .next s')
    (hm : Memory.wf s.mem = true) : Memory.wf s'.mem = true := by
  grind [execQtbaseWrite, writeQtbase_mem]

theorem keepQueue_mem (s : State) (q : Nat) (x : HwQueue) : (State.keepQueue s q x).mem = s.mem := by
  grind [State.keepQueue]

theorem wf_doorbell (s : State) (q : Nat) (v : Dword) (hm : Memory.wf s.mem = true) :
    Memory.wf (State.doorbell s q v).mem = true := by
  simp only [State.doorbell]
  grind [wf_setQueue, keepQueue_mem]

theorem wf_of_execDoorbellWrite (s : State) {s' : State} (hn : (execDoorbellWrite s) = .next s')
    (hm : Memory.wf s.mem = true) : Memory.wf s'.mem = true := by
  grind [execDoorbellWrite, wf_doorbell]

theorem wf_of_execRegisterWrite (dpa : Nat) (v : Dword) (s : State) {s' : State}
    (hn : (execRegisterWrite dpa v s) = .next s') (hm : Memory.wf s.mem = true) : Memory.wf s'.mem = true := by
  grind [execRegisterWrite, wf_writeReg]

theorem qcmdEnd_mem (s : State) (status : Nat) : (State.qcmdEnd s status).mem = s.mem := by
  grind [State.qcmdEnd]

theorem wf_of_execQcmdEnable (s : State) {s' : State} (hn : (execQcmdEnable s) = .next s')
    (hm : Memory.wf s.mem = true) : Memory.wf s'.mem = true := by
  unfold execQcmdEnable at hn
  generalize s.sysRead (s.queueDesc s.qid) 64 = d at hn
  grind [qcmdEnd_mem, wf_setQueue]

theorem wf_of_queueCommand {s s' : State} {op : Nat} {f : HwQueue → Option (State × Nat)}
    (hn : queueCommand s op f = .next s')
    (w : Memory.wf s.mem = true) (hf : ∀ x t st, f x = some (t, st) → Memory.wf t.mem = true) : Memory.wf s'.mem =
      true := by
  have hq : ∀ x y, f x = some y → Memory.wf (y.1.qcmdEnd y.2).mem = true := fun x y e => hf x y.1 y.2 e
  have hs : ∀ n, Memory.wf (s.qcmdEnd n).mem = true := fun _ => w
  grind [queueCommand_eq s op f]

theorem wf_of_execQcmdPause (s : State) {s' : State} (hn : (execQcmdPause s) = .next s') (hm : Memory.wf s.mem = true)
    : Memory.wf s'.mem = true := by
  exact wf_of_queueCommand hn hm (by grind [wf_setQueue])

theorem wf_of_execQcmdResume (s : State) {s' : State} (hn : (execQcmdResume s) = .next s')
    (hm : Memory.wf s.mem = true) : Memory.wf s'.mem = true := by
  exact wf_of_queueCommand hn hm (by grind [wf_setQueue])

theorem wf_drainQueue (s : State) (q : Nat) (x : HwQueue) (hm : Memory.wf s.mem = true) :
    Memory.wf (State.drainQueue s q x).mem = true := by
  grind [State.drainQueue, wf_setQueue, wf_drained]

theorem wf_of_execQcmdDrain (s : State) {s' : State} (hn : (execQcmdDrain s) = .next s') (hm : Memory.wf s.mem = true)
    : Memory.wf s'.mem = true := by
  exact wf_of_queueCommand hn hm (by grind [wf_setQueue, wf_drainQueue])

theorem wf_of_execQcmdDisable (s : State) {s' : State} (hn : (execQcmdDisable s) = .next s')
    (hm : Memory.wf s.mem = true) : Memory.wf s'.mem = true := by
  exact wf_of_queueCommand hn hm (by grind [wf_setQueue])

theorem wf_of_execQcmdSkip (s : State) {s' : State} (hn : (execQcmdSkip s) = .next s') (hm : Memory.wf s.mem = true) :
    Memory.wf s'.mem = true := by
  exact wf_of_queueCommand hn hm (by grind [wf_setQueue])

theorem wf_of_execQcmdInvalid (s : State) {s' : State} (hn : (execQcmdInvalid s) = .next s')
    (hm : Memory.wf s.mem = true) : Memory.wf s'.mem = true := by
  grind [execQcmdInvalid, qcmdEnd_mem]

theorem wf_of_execLaunchAdmission (s : State) {s' : State} (hn : (execLaunchAdmission s) = .next s')
    (hm : Memory.wf s.mem = true) : Memory.wf s'.mem = true := by
  grind [execLaunchAdmission, wf_sysWrite, wf_setQueue, keepQueue_mem]

/-! ### Machine/Context.lean -/
theorem ctxcmdEnd_mem (s : State) (status : Nat) : (State.ctxcmdEnd s status).mem = s.mem := by
  grind [State.ctxcmdEnd]

theorem wf_of_execCtxalloc (s : State) {s' : State} (hn : (execCtxalloc s) = .next s') (hm : Memory.wf s.mem = true) :
    Memory.wf s'.mem = true := by
  grind [execCtxalloc, ctxcmdEnd_mem]

theorem wf_of_execCtxfree (s : State) {s' : State} (hn : (execCtxfree s) = .next s') (hm : Memory.wf s.mem = true) :
    Memory.wf s'.mem = true := by
  grind [execCtxfree, modCtx_mem, ctxcmdEnd_mem]

theorem wf_zeroCore (s : State) (c : Nat) (hm : Memory.wf s.mem = true) : Memory.wf (State.zeroCore s c).mem =
    true := by
  exact wf_foldl (fun s w h => wf_releaseCell _ _ _ h) hm

theorem wf_purgeTiles (s : State) (ctx core : Nat) (hm : Memory.wf s.mem = true) :
    Memory.wf (State.purgeTiles s ctx core).mem = true := by
  unfold State.purgeTiles
  exact wf_foldl (fun s x w => by grind [modCore_mem, zeroTile_mem]) hm

theorem wf_purgeCore (s : State) (ctx core : Nat) (hm : Memory.wf s.mem = true) :
    Memory.wf (State.purgeCore s ctx core).mem = true := by
  grind [State.purgeCore, wf_purgeTiles, wf_zeroCore, modCore_mem]

theorem wf_purge (s : State) (ctx : Nat) (hm : Memory.wf s.mem = true) : Memory.wf (State.purge s ctx).mem =
    true := by
  unfold State.purge
  exact wf_foldl (fun s x w => by grind [wf_purgeCore]) hm

theorem wf_of_execPurgeComplete (s : State) {s' : State} (hn : (execPurgeComplete s) = .next s')
    (hm : Memory.wf s.mem = true) : Memory.wf s'.mem = true := by
  grind [execPurgeComplete, ctxcmdEnd_mem, wf_purge]

theorem wf_of_execCtxcmdInvalid (s : State) {s' : State} (hn : (execCtxcmdInvalid s) = .next s')
    (hm : Memory.wf s.mem = true) : Memory.wf s'.mem = true := by
  grind [execCtxcmdInvalid, ctxcmdEnd_mem]

theorem wf_removeHart (s : State) (hid : Nat) (hm : Memory.wf s.mem = true) : Memory.wf (State.removeHart s hid).mem =
    true := by
  unfold State.removeHart
  split
  · exact hm
  · refine wf_refreeze _ _ ?_
    rw [lapse_mem]
    exact wf_foldl (fun s x w => by grind [setPair_mem]) (wf_leaseBack _ _ hm)

theorem wf_abortQueues (s : State) (ctx : Nat) (hm : Memory.wf s.mem = true) :
    Memory.wf (State.abortQueues s ctx).mem = true := by
  unfold State.abortQueues
  exact wf_foldl (fun s x w => by grind [wf_drainQueue]) hm

theorem wf_abortLaunches (s : State) (ctx : Nat) (hm : Memory.wf s.mem = true) :
    Memory.wf (State.abortLaunches s ctx).mem = true := by
  unfold State.abortLaunches
  exact wf_foldl (fun s x w => by grind [wf_finishLaunch, modLaunch_mem, lapse_mem]) hm

theorem wf_abortHarts (s : State) (ctx : Nat) (hm : Memory.wf s.mem = true) : Memory.wf (State.abortHarts s ctx).mem =
    true := by
  unfold State.abortHarts
  exact wf_foldl (fun s x w => by grind [wf_removeHart]) hm

theorem wf_abortJobs (s : State) (ctx : Nat) (hm : Memory.wf s.mem = true) : Memory.wf (State.abortJobs s ctx).mem =
    true := by
  unfold State.abortJobs
  exact wf_foldl (fun s x w => by grind [abortCollective_mem]) hm

theorem abortScopes_mem (s : State) (ctx : Nat) : (State.abortScopes s ctx).mem = s.mem := by
  grind [State.abortScopes, modCtx_mem]

theorem wf_of_execCtxabort (s : State) {s' : State} (hn : (execCtxabort s) = .next s') (hm : Memory.wf s.mem = true) :
    Memory.wf s'.mem = true := by
  grind [execCtxabort, ctxcmdEnd_mem, wf_abortQueues, wf_abortLaunches, wf_abortHarts, wf_abortJobs, abortScopes_mem]

theorem hcmdEnd_mem (s : State) (status : Nat) : (State.hcmdEnd s status).mem = s.mem := by
  grind [State.hcmdEnd]

theorem wf_recordAt (s : State) (l : Loc) (dpa : Nat) (hm : Memory.wf s.mem = true) :
    Memory.wf (State.recordAt s l dpa).1.mem = true := by
  grind [State.recordAt, wf_settle]

theorem wf_suspendedRecord (s : State) (h : Hart) (hm : Memory.wf s.mem = true) :
    Memory.wf (State.suspendedRecord s h).1.mem = true := by
  grind [State.suspendedRecord, wf_recordAt]

theorem wf_of_execHcmdResume (s : State) {s' : State} (hn : (execHcmdResume s) = .next s')
    (hm : Memory.wf s.mem = true) : Memory.wf s'.mem = true := by
  grind [execHcmdResume, resumeTrap_mem, hcmdEnd_mem, wf_suspendedRecord]

theorem wf_of_execHcmdInvalid (s : State) {s' : State} (hn : (execHcmdInvalid s) = .next s')
    (hm : Memory.wf s.mem = true) : Memory.wf s'.mem = true := by
  grind [execHcmdInvalid, hcmdEnd_mem]

/-! ### Machine/Kernel.lean -/
theorem nodeStart_mem (s : State) (id : Nat) (n : Node) (x : Started) : (State.nodeStart s id n x).mem = s.mem := by
  grind [State.nodeStart, modLaunch_mem]

theorem wf_of_execEventSet (s : State) {s' : State} (hn : (execEventSet s) = .next s') (hm : Memory.wf s.mem = true) :
    Memory.wf s'.mem = true := by
  grind [execEventSet, nodeStep, bind_ok, pure_ok, setHart_mem, wf_sysWrite, wf_takeTrap, retire_mem, wf_nodeFail,
    wf_nodeNext]

theorem wf_of_execEventWait (s : State) {s' : State} (hn : (execEventWait s) = .next s') (hm : Memory.wf s.mem = true)
    : Memory.wf s'.mem = true := by
  grind [execEventWait, nodeStep, bind_ok, pure_ok, setHart_mem, wf_takeTrap, retire_mem, wf_nodeFail, wf_nodeNext,
    nodeStart_mem]

theorem wf_of_execEventWaitReread (s : State) {s' : State} (hn : (execEventWaitReread s) = .next s')
    (hm : Memory.wf s.mem = true) : Memory.wf s'.mem = true := by
  grind [execEventWaitReread, modLaunch_mem, wf_nodeDone]

theorem wf_of_execEventMsi (s : State) {s' : State} (hn : (execEventMsi s) = .next s') (hm : Memory.wf s.mem = true) :
    Memory.wf s'.mem = true := by
  grind [execEventMsi, nodeStep, bind_ok, pure_ok, setHart_mem, ctxMsi_mem, wf_takeTrap, retire_mem, wf_nodeFail,
    wf_nodeNext]

theorem wf_of_execCondNode (s : State) {s' : State} (hn : (execCondNode s) = .next s') (hm : Memory.wf s.mem = true) :
    Memory.wf s'.mem = true := by
  grind [execCondNode, nodeStep, bind_ok, pure_ok, setHart_mem, wf_takeTrap, retire_mem, wf_nodeFail, wf_nodeNext]

theorem wf_of_execLoopNode (s : State) {s' : State} (hn : (execLoopNode s) = .next s') (hm : Memory.wf s.mem = true) :
    Memory.wf s'.mem = true := by
  grind [execLoopNode, nodeStep, bind_ok, pure_ok, setHart_mem, wf_takeTrap, retire_mem, modLaunch_mem, wf_nodeFail,
    wf_nodeNext]

theorem wf_of_execSwitchNode (s : State) {s' : State} (hn : (execSwitchNode s) = .next s')
    (hm : Memory.wf s.mem = true) : Memory.wf s'.mem = true := by
  grind [execSwitchNode, nodeStep, bind_ok, pure_ok, setHart_mem, wf_takeTrap, retire_mem, wf_nodeFail, wf_nodeNext]

theorem wf_of_execJobNode (s : State) {s' : State} (hn : (execJobNode s) = .next s') (hm : Memory.wf s.mem = true) :
    Memory.wf s'.mem = true := by
  grind [execJobNode, nodeStep, bind_ok, pure_ok, setHart_mem, wf_takeTrap, retire_mem, wf_nodeFail, wf_of_issueJob,
    wf_registerMember, nodeStart_mem]

theorem wf_of_execKernelNode (s : State) {s' : State} (hn : (execKernelNode s) = .next s')
    (hm : Memory.wf s.mem = true) : Memory.wf s'.mem = true := by
  grind [execKernelNode, nodeStep, bind_ok, pure_ok, setHart_mem, wf_takeTrap, retire_mem, modLaunch_mem, wf_nodeFail,
    nodeStart_mem]

theorem canonical_modCtx {s : State} {c : Nat} {f : Ctx → Ctx} (w : memoryCanonical s) : memoryCanonical
    (s.modCtx c f) :=
  (congrArg Memory.wf (modCtx_mem s c f)).trans w

theorem canonical_sysWrite {s : State} {d n x : Nat} (w : memoryCanonical s) : memoryCanonical
    (s.sysWrite d n x) := wf_sysWrite w ..

theorem canonical_sysPut {s : State} {d : Nat} {bs : List Byte} (w : memoryCanonical s) : memoryCanonical
    (s.sysPut d bs) := wf_sysPut _ _ _ w

theorem wf_writeImage (s : State) (ctx core : Nat) (hm : Memory.wf s.mem = true) :
    Memory.wf (State.writeImage s ctx core).mem = true := by
  change memoryCanonical (State.writeImage s ctx core)
  unfold State.writeImage
  split
  · exact hm
  · exact canonical_modCtx (canonical_foldl (fun s i w => canonical_foldl (fun s i w => canonical_sysPut w)
      (canonical_sysWrite w))
      (canonical_foldl (fun s i w => canonical_sysWrite w)
        (canonical_foldl (fun s i w => canonical_sysWriteSector w) hm)))

theorem wf_fillImage (s : State) (ctx core : Nat) (hm : Memory.wf s.mem = true) :
    Memory.wf (State.fillImage s ctx core).mem = true := by
  unfold State.fillImage
  split
  · exact hm
  · split
    · exact hm
    · exact canonical_modCtx (canonical_foldl (fun s i w => canonical_modCore w)
        (canonical_foldl (fun s i w => canonical_modCore w)
        (canonical_foldl (fun s i w => wf_writeSector w ..) hm)))

theorem wf_takeCore (s : State) (ctx core : Nat) (hm : Memory.wf s.mem = true) :
    Memory.wf (State.takeCore s ctx core).mem = true := by
  grind [State.takeCore, modCore_mem, wf_zeroCore, wf_writeImage]

theorem wf_assignQueues (s : State) (g core : Nat) (stages : List Stage) (slots : List Nat)
    (hm : Memory.wf s.mem = true) : Memory.wf (State.assignQueues s g core stages slots).mem = true := by
  unfold State.assignQueues
  exact wf_foldl (fun s x w => by grind [modCore_mem, wf_setQueue]) hm

theorem wf_launchHarts (s : State) (g : Nat) (l : Launch) (x : Group) (args : List Dword) (grants : List (Nat × Nat))
    (hm : Memory.wf s.mem = true) : Memory.wf (State.launchHarts s g l x args grants).mem = true := by
  unfold State.launchHarts
  exact wf_foldl (fun s x w => by grind [setHart_mem]) hm

theorem wf_placeGroup (s : State) (id : Nat) (l : Launch) (node visit : Nat) (k : Kernel) (args result : Nat)
    (dies cidx sigma : List Nat) (hm : Memory.wf s.mem = true) :
    Memory.wf (State.placeGroup s id l node visit k args result dies cidx sigma).mem = true := by
  change memoryCanonical (State.placeGroup s id l node visit k args result dies cidx sigma)
  unfold State.placeGroup
  extract_lets g cores free grants words s1 x s2 s3 s4 s5 placed
  have w1 : memoryCanonical s1 := canonical_foldl (fun s c w => wf_takeCore _ _ _ w) hm
  have w2 : memoryCanonical s2 := (congrArg Memory.wf (lapse_mem _ _)).trans w1
  have w3 : memoryCanonical s3 := canonical_foldl (fun s p w => canonical_foldl
    (fun s v w => wf_assignQueues _ _ _ _ _ w) w) w2
  have w4 : memoryCanonical s4 := by
    refine canonical_ite w3 ?_
    split
    · exact wf_installPrt _ _ _ _ w3
    · exact w3
  exact wf_fuse _ _ (wf_launchHarts _ _ _ _ _ _ w4)

theorem wf_askCores (s : State) (id : Nat) (l : Launch) (k : Kernel) (hm : Memory.wf s.mem = true) :
    Memory.wf (State.askCores s id l k).mem = true := by
  grind [State.askCores, wf_raiseRequest]

theorem wf_of_execKernelPlacement (s : State) {s' : State} (hn : (execKernelPlacement s) = .next s')
    (hm : Memory.wf s.mem = true) : Memory.wf s'.mem = true := by
  grind [execKernelPlacement, modLaunch_mem, wf_nodeFail, lapse_mem, wf_placeGroup, wf_askCores]

/-! ### Machine/HartSched.lean -/
theorem wf_resumption (s : State) (hid : Nat) (h : Hart) (px : Px) (hm : Memory.wf s.mem = true) :
    Memory.wf (State.resumption s hid h px).mem = true := by
  rw [State.resumption, setHart_mem]
  exact wf_dropLeases _ _ hm

theorem wf_takeEntry (s : State) (hid : Nat) (h : Hart) (g : Group) (px : Px) (d : Reg) (entry : Nat)
    (hm : Memory.wf s.mem = true) : Memory.wf (State.takeEntry s hid h g px d entry).mem = true := by
  grind [State.takeEntry, modGroup_mem, wf_takeTrap, wf_of_rawStruct, wf_stopScalar, wf_resumption]

theorem wf_of_execCursor (px : Px) (d : Reg) (s : State) {s' : State} (hn : (execCursor px d s) = .next s')
    (hm : Memory.wf s.mem = true) : Memory.wf s'.mem = true := by
  grind [execCursor, withRegs_next, setHart_mem, wf_takeTrap, retire_mem, wf_nodeFail, wf_resumption, wf_takeEntry]

theorem wf_of_execCursorWake (s : State) {s' : State} (hn : (execCursorWake s) = .next s')
    (hm : Memory.wf s.mem = true) : Memory.wf s'.mem = true := by
  obtain ⟨h, -, hn⟩ := withHart_next hn
  have woken : ∀ s' g, ((s.wakeHart s.focus.hart h).bind fun s_1 => Option.map (fun g => (s_1, g))
    (look s_1.harts s.focus.hart)) =
      some (s', g) → Memory.wf s'.mem = true := by
    intro s' g e
    obtain ⟨u, eu, e⟩ := Option.bind_eq_some_iff.mp e
    obtain ⟨g', -, e⟩ := Option.map_eq_some_iff.mp e
    cases e
    exact wf_of_wakeHart (hn := eu) (hm := hm)
  have mc := wf_mcTake s s.focus.hart h hm
  extract_lets done at hn
  split at hn
  · cases hn; exact hm
  split at hn
  · split at hn
    · cases hn; exact mc
    · cases hn; exact hm
  split at hn
  · cases hn; exact hm
  split at hn
  · cases hn; exact hm
  · next e =>
    have w := woken _ _ e
    split at hn
    · split at hn
      · next e =>
        have w := wf_of_execCursor (hn := e) (hm := w)
        split at hn
        · cases hn; rw [modHart_mem]; exact w
        · cases hn; exact w
      · exact wf_of_execCursor (hn := hn) (hm := w)
    · cases hn; exact hm

theorem wf_leaveSlot (s : State) (hid : Nat) (st : HartState) (k : SaveKind) (hm : Memory.wf s.mem = true) :
    Memory.wf (State.leaveSlot s hid st k).mem = true := by
  grind [State.leaveSlot, setHart_mem, wf_refreeze, wf_writeFrame, wf_finishAccesses]

theorem wf_of_execNodeb (px : Px) (s : State) {s' : State} (hn : (execNodeb px s) = .next s')
    (hm : Memory.wf s.mem = true) : Memory.wf s'.mem = true := by
  grind [execNodeb, withRegs_next, setHart_mem, wf_takeTrap, retire_mem, wf_nodeFail, wf_resumption, wf_leaveSlot]

theorem wf_of_execYield (px : Px) (s : State) {s' : State} (hn : (execYield px s) = .next s')
    (hm : Memory.wf s.mem = true) : Memory.wf s'.mem = true := by
  grind [execYield, withRegs_next, setHart_mem, wf_takeTrap, retire_mem, wf_nodeFail, wf_resumption, wf_leaveSlot]

theorem wf_writeResults (s : State) (h : Hart) (hm : Memory.wf s.mem = true) :
    Memory.wf (State.writeResults s h).mem = true := by
  unfold State.writeResults
  split
  · exact hm
  · split
    · exact hm
    · exact wf_foldl (fun s i w => wf_foldl (fun s i w => wf_sysWrite w ..) w) hm

theorem wf_groupDone (s : State) (gid : Nat) (hm : Memory.wf s.mem = true) : Memory.wf (State.groupDone s gid).mem =
    true := by
  grind [State.groupDone, wf_nodeDone]

theorem wf_of_execTexit (px : Px) (s : State) {s' : State} (hn : (execTexit px s) = .next s')
    (hm : Memory.wf s.mem = true) : Memory.wf s'.mem = true := by
  grind [execTexit, withRegs_next, setHart_mem, modGroup_mem, wf_takeTrap, retire_mem, wf_finishAccesses, wf_nodeFail,
    wf_removeHart, wf_writeResults, wf_groupDone]

theorem wf_of_execPreemptionDeadline (s : State) {s' : State} (hn : (execPreemptionDeadline s) = .next s')
    (hm : Memory.wf s.mem = true) : Memory.wf s'.mem = true := by
  grind [execPreemptionDeadline, withHart_next, wf_saveWhole]

theorem wf_leaseAgain (s : State) (hid : Nat) (h : Hart) (hm : Memory.wf s.mem = true) :
    Memory.wf (State.leaseAgain s hid h).mem = true := by
  unfold State.leaseAgain
  exact wf_foldl (fun s x w => by grind [setLease_mem]) hm

theorem tableAgain_mem (s : State) (ctx : Nat) : (State.tableAgain s ctx).mem = s.mem := by
  grind [State.tableAgain, modCtx_mem]

theorem wf_brokenFrame (s : State) (hid : Nat) (h : Hart) (hm : Memory.wf s.mem = true) :
    Memory.wf (State.brokenFrame s hid h).mem = true := by
  grind [State.brokenFrame, wf_writeFrameRecord, wf_suspend, wf_of_hold]

theorem wf_restoreHart (s : State) (hid : Nat) (h : Hart) (xcl acl : Nat) (hm : Memory.wf s.mem = true) :
    Memory.wf (State.restoreHart s hid h xcl acl).mem = true := by
  have filled : Memory.wf (if h.cores.any (State.imageRz (h.cores.foldl (fun s c => s.takeCore h.ctx c) s) h.ctx) then
    
    (h.cores.foldl (fun s c => s.takeCore h.ctx c) s) else h.cores.foldl (fun s c => s.fillImage h.ctx c)
      (h.cores.foldl (fun s c => s.takeCore h.ctx c) s)).mem = true := by
    have w1 := wf_foldl (f := fun s c => s.takeCore h.ctx c) (fun s c w => wf_takeCore _ _ _ w) (l := h.cores) hm
    split
    · exact w1
    · exact wf_foldl (fun s c w => wf_fillImage _ _ _ w) w1
  unfold State.restoreHart
  refine wf_fuse _ _ ?_
  dsimp only
  split
  · exact wf_brokenFrame _ _ _ (by rw [lapse_mem, tableAgain_mem]; exact filled)
  · refine wf_refreeze _ _ ?_
    split
    · refine wf_mcTake _ _ _ (wf_leaseAgain _ _ _ ?_)
      rw [setHart_mem, lapse_mem, tableAgain_mem]; exact filled
    · refine wf_leaseAgain _ _ _ ?_
      rw [setHart_mem, lapse_mem, tableAgain_mem]; exact filled

theorem wf_askRoom (s : State) (hid : Nat) (h : Hart) (hm : Memory.wf s.mem = true) :
    Memory.wf (State.askRoom s hid h).mem = true := by
  simp only [State.askRoom]
  grind [wf_raiseRequest]

theorem wf_of_execHartRestore (s : State) {s' : State} (hn : (execHartRestore s) = .next s')
    (hm : Memory.wf s.mem = true) : Memory.wf s'.mem = true := by
  grind [execHartRestore, withHart_next, wf_restoreHart, wf_askRoom]

theorem wf_of_execDieRemapRequest (s : State) {s' : State} (hn : (execDieRemapRequest s) = .next s')
    (hm : Memory.wf s.mem = true) : Memory.wf s'.mem = true := by
  grind [execDieRemapRequest, answer_mem, askGate_mem, wf_of_drain, wf_raiseRequest]

/-! ### Machine/Page.lean -/
theorem sealFrame_mem (s : State) (f key page : Nat) : (State.sealFrame s f key page).mem = s.mem := by
  grind [State.sealFrame]

theorem zeroFrame_mem (s : State) (f : Nat) : (State.zeroFrame s f).mem = s.mem := by
  grind [State.zeroFrame]

theorem wf_releasePage (s : State) (ctx page : Nat) (hm : Memory.wf s.mem = true) :
    Memory.wf (State.releasePage s ctx page).mem = true := by
  unfold State.releasePage
  exact wf_foldl (fun s x w => by grind [wf_releaseCell]) hm

theorem pitEnd_mem (s : State) (status : Nat) : (State.pitEnd s status).mem = s.mem := by
  grind [State.pitEnd]

theorem wf_flushPage (s : State) (page : Nat) (discard : Bool) (hm : Memory.wf s.mem = true) :
    Memory.wf (State.flushPage s page discard).mem = true := by
  unfold State.flushPage
  split
  · exact hm
  · exact wf_foldl (fun s x w => by grind [wf_recall]) hm

theorem wf_installEntry (s : State) (page : Nat) (e : BitVec 128) (zero : Bool) (hm : Memory.wf s.mem = true) :
    Memory.wf (State.installEntry s page e zero).mem = true := by
  grind [State.installEntry, setPit_mem, sealFrame_mem, zeroFrame_mem, wf_releasePage, wf_flushPage]

theorem wf_of_execPitcmdWrite (s : State) {s' : State} (hn : (execPitcmdWrite s) = .next s')
    (hm : Memory.wf s.mem = true) : Memory.wf s'.mem = true := by
  grind [execPitcmdWrite, pitEnd_mem, wf_installEntry]

theorem setHubPass_mem (s : State) (hub : Nat) (p : Option Pass) : (State.setHubPass s hub p).mem = s.mem := by
  grind [State.setHubPass]

theorem wf_moveSector (s : State) (page sector src dst : Nat) (hm : Memory.wf s.mem = true) :
    Memory.wf (State.moveSector s page sector src dst).mem = true := by
  grind [State.moveSector, wf_writeSector]

theorem wf_bringBack (s : State) (page : Nat) (hm : Memory.wf s.mem = true) : Memory.wf (State.bringBack s page).mem =
    true := by
  unfold State.bringBack
  exact wf_foldl (fun s x w => by grind [wf_moveSector]) hm

theorem queuePass_mem (s : State) (page before : Nat) : (State.queuePass s page before).mem = s.mem := by
  grind [State.queuePass]

theorem wf_of_execPitcmdMigrate (s : State) {s' : State} (hn : (execPitcmdMigrate s) = .next s')
    (hm : Memory.wf s.mem = true) : Memory.wf s'.mem = true := by
  grind [execPitcmdMigrate, setPit_mem, sealFrame_mem, pitEnd_mem, wf_bringBack, queuePass_mem]

theorem wf_of_execPitcmdRecode (s : State) {s' : State} (hn : (execPitcmdRecode s) = .next s')
    (hm : Memory.wf s.mem = true) : Memory.wf s'.mem = true := by
  grind [execPitcmdRecode, setPit_mem, pitEnd_mem, queuePass_mem]

theorem wf_of_execPitcmdInvalid (s : State) {s' : State} (hn : (execPitcmdInvalid s) = .next s')
    (hm : Memory.wf s.mem = true) : Memory.wf s'.mem = true := by
  grind [execPitcmdInvalid, pitEnd_mem]

theorem wf_of_execPassStart (s : State) {s' : State} (hn : (execPassStart s) = .next s') (hm : Memory.wf s.mem = true)
    : Memory.wf s'.mem = true := by
  grind [execPassStart, setHubPass_mem]

theorem wf_of_execBackgroundPassStart (s : State) {s' : State} (hn : (execBackgroundPassStart s) = .next s')
    (hm : Memory.wf s.mem = true) : Memory.wf s'.mem = true := by
  grind [execBackgroundPassStart, setPit_mem, setHubPass_mem]

theorem wf_reportPass (s : State) (page sector kind : Nat) (hm : Memory.wf s.mem = true) :
    Memory.wf (State.reportPass s page sector kind).mem = true := by
  grind [State.reportPass, wf_psRecord]

theorem wf_endPass (s : State) (hub : Nat) (p : Pass) (hm : Memory.wf s.mem = true) :
    Memory.wf (State.endPass s hub p).mem = true := by
  grind [State.endPass, setPit_mem, setHubPass_mem, wf_reportPass]

theorem wf_raiseMark (s : State) (hub : Nat) (p : Pass) (k : Nat) (hm : Memory.wf s.mem = true) :
    Memory.wf (State.raiseMark s hub p k).mem = true := by
  grind [State.raiseMark, setPit_mem, wf_endPass]

theorem wf_of_execPassSectorStep (s : State) {s' : State} (hn : (execPassSectorStep s) = .next s')
    (hm : Memory.wf s.mem = true) : Memory.wf s'.mem = true := by
  grind [execPassSectorStep, wf_writeSector, wf_settle, setHubPass_mem, wf_moveSector, wf_reportPass, wf_raiseMark]

theorem wf_of_execPageAbsentReply (a : Access) (s : State) {s' : State} (hn : (execPageAbsentReply a s) = .next s')
    (hm : Memory.wf s.mem = true) : Memory.wf s'.mem = true := by
  grind [execPageAbsentReply, withHart_next, wf_pageAbsent, wf_stopJob]

/-! ### Machine/HostPort.lean -/
theorem setLink_mem (s : State) (n : Nat) (l : Link) : (State.setLink s n l).mem = s.mem := by
  grind [State.setLink]

theorem wf_reserve (s : State) (who key : Nat) (k : HostAccess) (hm : Memory.wf s.mem = true) :
    Memory.wf (State.reserve s who key k).mem = true := by
  cases k <;> exact hm

theorem canonical_writeSector {s : State} {l : Loc} {x : Sector} (w : memoryCanonical s) : memoryCanonical
    (s.writeSector l x) :=
  wf_writeSector w ..

theorem canonical_errors {s : State} {e : Map (List (Nat × BitVec 16))} (w : memoryCanonical s) : memoryCanonical
    { s with errors := e } := w

theorem wf_windowDo {s : State} {k : HostAccess} {old : Nat} {store : Nat → State} (w : Memory.wf s.mem = true)
    (hs : ∀ v, Memory.wf (store v).mem = true) : Memory.wf (windowDo s k old store).1.mem = true := by
  grind [windowDo]

theorem canonical_windowDo {s : State} {k : HostAccess} {old : Nat} {store : Nat → State} (w : memoryCanonical s)
    (hs : ∀ v, memoryCanonical (store v)) : memoryCanonical (windowDo s k old store).1 := wf_windowDo w hs

theorem wf_guardDescs (s t : State) (dpa : Nat) (hm : Memory.wf s.mem = true) (hm' : Memory.wf t.mem = true) :
    Memory.wf (State.guardDescs s t dpa).mem = true := by
  exact canonical_foldl (fun t x w => canonical_ite (wf_sysWrite w ..) w) hm'

theorem wf_hostAt (s : State) (who : Nat) (l : Loc) (dpa : Nat) (k : HostAccess) (hm : Memory.wf s.mem = true) :
    Memory.wf (State.hostAt s who l dpa k).1.mem = true := by
  grind [State.hostAt, wf_storeRaw, wf_reserve, wf_guardDescs]

theorem wf_hostMemory (s : State) (who : Nat) (ctx : Option Nat) (k : HostAccess) (hm : Memory.wf s.mem = true) :
    Memory.wf (State.hostMemory s who ctx k).1.mem = true := by
  grind [State.hostMemory, wf_settle, wf_recall, crossed_mem, wf_hostAt]

theorem wf_setPitData (s : State) (key : Nat) (d : BitVec 2048) (hm : Memory.wf s.mem = true) :
    Memory.wf (State.setPitData s key d).mem = true := by
  unfold State.setPitData
  exact wf_foldl (fun s x w => by grind [setPit_mem]) hm

theorem canonical_sides {s : State} {m : Map (BitVec 152)} (w : memoryCanonical s) : memoryCanonical
    { s with sides := m } := w

theorem wf_putStored (s : State) (key : Nat) (x : Sector) (hm : Memory.wf s.mem = true) :
    Memory.wf (State.putStored s key x).mem = true := by
  have stored : memoryCanonical (if pitFrameKey key then
      { s.setPitData key x.data with sides := putD s.sides (key / 256) 0 (x.bmeta ++ x.tag) }
    else s.writeSector (s.storedLoc (windowFrame key) key) x) :=
    canonical_ite (canonical_sides (wf_setPitData s key x.data hm)) (canonical_writeSector hm)
  exact canonical_errors stored

theorem wf_windowData (s : State) (off : Nat) (k : HostAccess) (hm : Memory.wf s.mem = true) :
    Memory.wf (State.windowData s off k).1.mem = true := by
  change memoryCanonical (State.windowData s off k).1
  unfold State.windowData
  dsimp only
  split
  · exact hm
  · exact canonical_windowDo hm (fun v => canonical_ite hm (canonical_writeSector (canonical_ite hm hm)))

theorem wf_windowSide (s : State) (off : Nat) (k : HostAccess) (hm : Memory.wf s.mem = true) :
    Memory.wf (State.windowSide s off k).1.mem = true := by
  grind [State.windowSide, windowDo, bind_ok, pure_ok, wf_putStored]

theorem wf_doorbellAccess (s : State) (k : HostAccess) (hm : Memory.wf s.mem = true) :
    Memory.wf (State.doorbellAccess s k).1.mem = true := by
  simp only [State.doorbellAccess]
  split <;> grind [wf_doorbell]

theorem wf_registerAccess (s : State) (k : HostAccess) (hm : Memory.wf s.mem = true) :
    Memory.wf (State.registerAccess s k).1.mem = true := by
  simp only [State.registerAccess]
  split <;> grind [wf_writeReg]

theorem wf_handleStore (s : State) (d n v : Nat) (hm : Memory.wf s.mem = true) :
    Memory.wf (State.handleStore s d n v).mem = true := by
  exact wf_setNat hm _ _ _

theorem wf_telemetryAccess (s : State) (k : HostAccess) (hm : Memory.wf s.mem = true) :
    Memory.wf (State.telemetryAccess s k).1.mem = true := by
  simp only [State.telemetryAccess]
  split
  · split
    · exact hm
    · exact hm
  · exact hm

theorem wf_hostMmio (s : State) (k : HostAccess) (hm : Memory.wf s.mem = true) :
    Memory.wf (State.hostMmio s k).1.mem = true := by
  simp only [State.hostMmio]
  repeat' split
  all_goals grind [wf_doorbellAccess, wf_telemetryAccess, wf_registerAccess, wf_handleStore, wf_windowData,
    wf_windowSide]

theorem hostAcquire_mem (s : State) (ctx k : Nat) : (State.hostAcquire s ctx k).mem = s.mem := by
  grind [State.hostAcquire]

theorem wf_of_execApplicationHartAccess (h ctx : Nat) (k : HostAccess) (s : State) {s' : State}
    (hn : (execApplicationHartAccess h ctx k s) = .next s') (hm : Memory.wf s.mem = true) : Memory.wf s'.mem =
    true := by
  grind [execApplicationHartAccess, answer_mem, wf_hostMemory, wf_hostMmio, hostAcquire_mem]

theorem wf_of_execApplicationHartFence (s : State) {s' : State} (hn : (execApplicationHartFence s) = .next s')
    (hm : Memory.wf s.mem = true) : Memory.wf s'.mem = true := by
  injection hn with hn
  exact hn ▸ wf_foldl (fun s k w => by grind [hostAcquire_mem]) hm

theorem wf_domainDo (s : State) (who ctx : Nat) (k : DomainAccess) (hm : Memory.wf s.mem = true) :
    Memory.wf (State.domainDo s who ctx k).1.mem = true := by
  cases k <;> grind [State.domainDo, wf_hostMemory, wf_settle, wf_recall, wf_writeSector, noteStore_mem,
    wf_releaseCell]

theorem wf_of_execDomainAccessArrival (pkg ctx : Nat) (k : DomainAccess) (s : State) {s' : State}
    (hn : (execDomainAccessArrival pkg ctx k s) = .next s') (hm : Memory.wf s.mem = true) : Memory.wf s'.mem =
    true := by
  grind [execDomainAccessArrival, answer_mem, wf_absentRecord, wf_domainDo]

/-! ### Machine/StackDie.lean -/
theorem wf_dieRead (s : State) (n port pca : Nat) (hm : Memory.wf s.mem = true) :
    Memory.wf (State.dieRead s n port pca).1.mem = true := by
  grind [State.dieRead, wf_poisonSector, setStack_mem, wf_correct]

theorem wf_settleDpa (s : State) (dpa : Nat) (hm : Memory.wf s.mem = true) : Memory.wf (State.settleDpa s dpa).mem =
    true := by
  grind [State.settleDpa, wf_settle]

theorem wf_of_doPacket (s : State) (n : Nat) (p : Packet) {s₁ : State} {y₁ : List Sector} {y₂ : Nat}
    (hn : (State.doPacket s n p) = some (s₁, y₁, y₂)) (hm : Memory.wf s.mem = true) : Memory.wf s₁.mem = true := by
  grind [State.doPacket, wf_of_hold, wf_of_tensorRead, wf_putStored, wf_dieRead, wf_settleDpa]

theorem wf_of_performPackets (n : Nat) (x0 : List Nat) (x1 : State) {s₁ : State}
    (hn : (performPackets n x0 x1) = some s₁) (hm : Memory.wf x1.mem = true) : Memory.wf s₁.mem = true := by
  induction x0 generalizing x1 s₁  with
  | nil => grind [performPackets, setStack_mem, wf_of_doPacket]
  | cons x xs ih => grind [performPackets, bind_ok, pure_ok, setStack_mem, wf_of_doPacket]

theorem wf_of_request (s : State) (op : Nat) {s' : State} (hn : (request s op) = .next s')
    (hm : Memory.wf s.mem = true) : Memory.wf s'.mem = true := by
  grind [request, setStack_mem]

theorem wf_of_execPacketReply (s : State) {s' : State} (hn : (execPacketReply s) = .next s')
    (hm : Memory.wf s.mem = true) : Memory.wf s'.mem = true := by
  unfold execPacketReply at hn
  simp only [] at hn
  grind [answer_mem, setStack_mem, wf_of_performPackets]

theorem wf_of_execRefresh (s : State) {s' : State} (hn : (execRefresh s) = .next s') (hm : Memory.wf s.mem = true) :
    Memory.wf s'.mem = true := by
  grind [execRefresh, setStack_mem]

theorem wf_of_execScrubStep (s : State) {s' : State} (hn : (execScrubStep s) = .next s') (hm : Memory.wf s.mem = true)
    : Memory.wf s'.mem = true := by
  grind [execScrubStep, setStack_mem, wf_dieRead]

theorem wf_of_execHeartbeatMissing (s : State) {s' : State} (hn : (execHeartbeatMissing s) = .next s')
    (hm : Memory.wf s.mem = true) : Memory.wf s'.mem = true := by
  grind [execHeartbeatMissing, answer_mem, setStack_mem]

theorem wf_of_execRefreshHandover (s : State) {s' : State} (hn : (execRefreshHandover s) = .next s')
    (hm : Memory.wf s.mem = true) : Memory.wf s'.mem = true := by
  grind [execRefreshHandover, setStack_mem]

theorem wf_of_execHmaskChange (masks : List Dword) (s : State) {s' : State}
    (hn : (execHmaskChange masks s) = .next s') (hm : Memory.wf s.mem = true) : Memory.wf s'.mem = true := by
  grind [execHmaskChange, askGate_mem, refuse_mem]

/-! ### Machine/LinkDom.lean -/
theorem wf_of_execLinkTrainingStart (s : State) {s' : State} (hn : (execLinkTrainingStart s) = .next s')
    (hm : Memory.wf s.mem = true) : Memory.wf s'.mem = true := by
  grind [execLinkTrainingStart, askGate_mem, setLink_mem]

theorem wf_of_execLinkTrainingComplete (s : State) {s' : State} (hn : (execLinkTrainingComplete s) = .next s')
    (hm : Memory.wf s.mem = true) : Memory.wf s'.mem = true := by
  grind [execLinkTrainingComplete, setLink_mem]

theorem wf_of_execLinkTrainingTimeout (s : State) {s' : State} (hn : (execLinkTrainingTimeout s) = .next s')
    (hm : Memory.wf s.mem = true) : Memory.wf s'.mem = true := by
  grind [execLinkTrainingTimeout, setLink_mem]

theorem wf_of_execLinkStepUp (s : State) {s' : State} (hn : (execLinkStepUp s) = .next s')
    (hm : Memory.wf s.mem = true) : Memory.wf s'.mem = true := by
  grind [execLinkStepUp, setLink_mem]

theorem wf_of_execLinkStepDown (s : State) {s' : State} (hn : (execLinkStepDown s) = .next s')
    (hm : Memory.wf s.mem = true) : Memory.wf s'.mem = true := by
  grind [execLinkStepDown, setLink_mem]

theorem wf_of_execLinkRatePolicy (s : State) {s' : State} (hn : (execLinkRatePolicy s) = .next s')
    (hm : Memory.wf s.mem = true) : Memory.wf s'.mem = true := by
  grind [execLinkRatePolicy, askGate_mem, refuse_mem]

theorem wf_of_execFlitReplay (s : State) {s' : State} (hn : (execFlitReplay s) = .next s')
    (hm : Memory.wf s.mem = true) : Memory.wf s'.mem = true := by
  grind [execFlitReplay, wf_of_hold, setLink_mem]

theorem wf_of_execLinkRetrainComplete (s : State) {s' : State} (hn : (execLinkRetrainComplete s) = .next s')
    (hm : Memory.wf s.mem = true) : Memory.wf s'.mem = true := by
  grind [execLinkRetrainComplete, wf_of_hold, setLink_mem]

theorem wf_abortUnreachable (s : State) (hm : Memory.wf s.mem = true) : Memory.wf (State.abortUnreachable s).mem =
    true := by
  unfold State.abortUnreachable
  exact wf_foldl (fun s x w => by grind [abortCollective_mem]) hm

theorem wf_of_execLinkHoldExpiry (s : State) {s' : State} (hn : (execLinkHoldExpiry s) = .next s')
    (hm : Memory.wf s.mem = true) : Memory.wf s'.mem = true := by
  grind [execLinkHoldExpiry, wf_of_hold, setLink_mem, wf_abortUnreachable]

theorem wf_of_execDomainWindowConfig (cfg : WindowCfg) (s : State) {s' : State}
    (hn : (execDomainWindowConfig cfg s) = .next s') (hm : Memory.wf s.mem = true) : Memory.wf s'.mem = true := by
  grind [execDomainWindowConfig, askGate_mem, refuse_mem]

theorem wf_of_readContribution (s : State) (j : Job) (base : Dword) (x0 : Nat) {s₁ : State} {y₁ : List Sector}
    (hn : (State.readContribution s j base x0) = .ok (s₁, y₁)) (hm : Memory.wf s.mem = true) : Memory.wf s₁.mem =
    true := by
  induction x0 generalizing s s₁ y₁ with
  | zero =>
    simp only [State.readContribution] at hn
    grind
  | succ n ih =>
    simp only [State.readContribution, bind_ok, pure_ok] at hn
    grind [bind_ok, pure_ok, throw_ok, wf_of_jobRead]

theorem wf_contribute (s : State) (key rank : Nat) (c : Collective) (xs : List Sector) (hm : Memory.wf s.mem = true) :
    Memory.wf (State.contribute s key rank c xs).mem = true := by
  grind [State.contribute, wf_of_members, abortCollective_mem]

theorem wf_of_execCollectiveContribution (s : State) {s' : State} (hn : (execCollectiveContribution s) = .next s')
    (hm : Memory.wf s.mem = true) : Memory.wf s'.mem = true := by
  unfold execCollectiveContribution at hn
  dsimp only at hn
  repeat' split at hn
  all_goals grind [wf_of_readContribution, wf_stopJob, abortCollective_mem, wf_contribute]

theorem wf_of_execCollectiveTimeout (s : State) {s' : State} (hn : (execCollectiveTimeout s) = .next s')
    (hm : Memory.wf s.mem = true) : Memory.wf s'.mem = true := by
  grind [execCollectiveTimeout, abortCollective_mem]

theorem commitCollective_mem (s : State) (key : Nat) (c : Collective) : (State.commitCollective s key c).mem =
    s.mem := by
  grind [State.commitCollective]

theorem wf_of_execCollectiveAck (s : State) {s' : State} (hn : (execCollectiveAck s) = .next s')
    (hm : Memory.wf s.mem = true) : Memory.wf s'.mem = true := by
  grind [execCollectiveAck, wf_of_members, commitCollective_mem]

theorem wf_deviceBytes (s : State) (x0 : List (Option Nat × Nat × Nat)) (hm : Memory.wf s.mem = true) :
    Memory.wf (State.deviceBytes s x0).1.mem = true := by
  induction x0 generalizing s with
  | nil => exact hm
  | cons x xs ih => grind [State.deviceBytes, wf_settle]

theorem wf_deviceMmio (s : State) (k : HostAccess) (hm : Memory.wf s.mem = true) :
    Memory.wf (State.deviceMmio s k).1.mem = true := by
  grind [State.deviceMmio, wf_doorbellAccess, wf_registerAccess]

theorem ioFault_mem (s : State) (va : Nat) : (State.ioFault s va).mem = s.mem := by
  grind [State.ioFault]

theorem wf_of_execDeviceRead (s : State) {s' : State} (hn : (execDeviceRead s) = .next s')
    (hm : Memory.wf s.mem = true) : Memory.wf s'.mem = true := by
  grind [execDeviceRead, answer_mem, wf_deviceBytes, wf_deviceMmio, ioFault_mem]

theorem wf_deviceRun (s : State) (va data : Nat) (r : Option Nat × Nat × Nat) (hm : Memory.wf s.mem = true) :
    Memory.wf (State.deviceRun s va data r).mem = true := by
  grind [State.deviceRun, wf_settle, wf_storeRaw, wf_guardDescs, ioFault_mem]

theorem wf_of_execDeviceWrite (s : State) {s' : State} (hn : (execDeviceWrite s) = .next s')
    (hm : Memory.wf s.mem = true) : Memory.wf s'.mem = true := by
  have := @wf_foldl
  simp only [execDeviceWrite] at hn
  split at hn
  · grind [ioFault_mem]
  · split at hn
    · grind [ioFault_mem, wf_deviceMmio]
    · injection hn with hn
      exact hn ▸ wf_foldl (fun s r w => wf_deviceRun _ _ _ _ w) hm

theorem wf_of_execCxlBackInvalidation (s : State) {s' : State} (hn : (execCxlBackInvalidation s) = .next s')
    (hm : Memory.wf s.mem = true) : Memory.wf s'.mem = true := by
  grind [execCxlBackInvalidation, wf_writeSector]

/-! ### Machine/Bringup.lean -/
theorem wf_leaveCore (s : State) (core : Nat) (hm : Memory.wf s.mem = true) : Memory.wf (State.leaveCore s core).mem =
    true := by
  grind [State.leaveCore, modCore_mem, wf_zeroCore, wf_writeImage]

theorem wf_remap (s : State) (v : Nat) (d : Option Nat) (hm : Memory.wf s.mem = true) :
    Memory.wf (State.remap s v d).mem = true := by
  simp only [State.remap, lapse_mem]
  exact wf_foldl (fun s x w => wf_leaveCore _ _ w) hm

theorem wf_applyGate (s : State) (g : Gate) (hm : Memory.wf s.mem = true) : Memory.wf (State.applyGate s g).mem =
    true := by
  cases g <;> grind [State.applyGate, wf_remap, setStack_mem, setLink_mem]

theorem wf_of_execQuiesceGateAck (s : State) {s' : State} (hn : (execQuiesceGateAck s) = .next s')
    (hm : Memory.wf s.mem = true) : Memory.wf s'.mem = true := by
  grind [execQuiesceGateAck, answer_mem, wf_applyGate]

theorem wf_of_execWatchSet (cfg : WatchCfg) (s : State) {s' : State} (hn : (execWatchSet cfg s) = .next s')
    (hm : Memory.wf s.mem = true) : Memory.wf s'.mem = true := by
  grind [execWatchSet, askGate_mem, refuse_mem]

theorem wf_of_execRekeyRequest (s : State) {s' : State} (hn : (execRekeyRequest s) = .next s')
    (hm : Memory.wf s.mem = true) : Memory.wf s'.mem = true := by
  grind [execRekeyRequest, askGate_mem, refuse_mem]

theorem wf_configure (s : State) (r : BootRecord) (hm : Memory.wf s.mem = true) :
    Memory.wf (State.configure s r).mem = true := by
  refine wf_foldl (fun s x w => by rwa [setLink_mem]) (wf_foldl (fun s x w => by rwa [setStack_mem]) hm)

theorem wf_of_execTdBoot (r : BootRecord) (signed : Bool) (s : State) {s' : State}
    (hn : (execTdBoot r signed s) = .next s') (hm : Memory.wf s.mem = true) : Memory.wf s'.mem = true := by
  grind [execTdBoot, wf_of_record, wf_configure]

theorem zeroPitOf_mem (s : State) (k : Nat) : (State.zeroPitOf s k).mem = s.mem := by
  grind [State.zeroPitOf]

theorem startApps_mem (s : State) (boot : Dword) : (State.startApps s boot).mem = s.mem := by
  grind [State.startApps]

theorem wf_of_execDieRelease (s : State) {s' : State} (hn : (execDieRelease s) = .next s')
    (hm : Memory.wf s.mem = true) : Memory.wf s'.mem = true := by
  grind [execDieRelease, wf_of_record, zeroPitOf_mem, startApps_mem]

theorem wf_of_execDieReadyTimeout (s : State) {s' : State} (hn : (execDieReadyTimeout s) = .next s')
    (hm : Memory.wf s.mem = true) : Memory.wf s'.mem = true := by
  grind [execDieReadyTimeout]

theorem wf_of_spdmGive (s : State) (a : SpdmAnswer) {s' : State} (hn : (State.spdmGive s a) = .next s')
    (hm : Memory.wf s.mem = true) : Memory.wf s'.mem = true := by
  grind [State.spdmGive]

theorem wf_of_execGetVersion (s : State) {s' : State} (hn : (execGetVersion s) = .next s')
    (hm : Memory.wf s.mem = true) : Memory.wf s'.mem = true := by
  grind [execGetVersion, wf_of_spdmGive]

theorem wf_of_execGetCapabilities (s : State) {s' : State} (hn : (execGetCapabilities s) = .next s')
    (hm : Memory.wf s.mem = true) : Memory.wf s'.mem = true := by
  grind [execGetCapabilities, wf_of_spdmGive]

theorem wf_of_execNegotiateAlgorithms (s : State) {s' : State} (hn : (execNegotiateAlgorithms s) = .next s')
    (hm : Memory.wf s.mem = true) : Memory.wf s'.mem = true := by
  grind [execNegotiateAlgorithms, wf_of_spdmGive]

theorem wf_of_execGetDigests (s : State) {s' : State} (hn : (execGetDigests s) = .next s')
    (hm : Memory.wf s.mem = true) : Memory.wf s'.mem = true := by
  grind [execGetDigests, wf_of_spdmGive]

theorem wf_of_execGetCertificate (s : State) {s' : State} (hn : (execGetCertificate s) = .next s')
    (hm : Memory.wf s.mem = true) : Memory.wf s'.mem = true := by
  grind [execGetCertificate, wf_of_spdmGive]

theorem wf_of_execChallenge (s : State) {s' : State} (hn : (execChallenge s) = .next s') (hm : Memory.wf s.mem = true)
    : Memory.wf s'.mem = true := by
  grind [execChallenge, wf_of_spdmGive]

theorem wf_of_execGetMeasurements (s : State) {s' : State} (hn : (execGetMeasurements s) = .next s')
    (hm : Memory.wf s.mem = true) : Memory.wf s'.mem = true := by
  grind [execGetMeasurements, wf_of_spdmGive]

theorem wf_of_execKeyExchange (s : State) {s' : State} (hn : (execKeyExchange s) = .next s')
    (hm : Memory.wf s.mem = true) : Memory.wf s'.mem = true := by
  grind [execKeyExchange, wf_of_spdmGive]

theorem lowerPermit_mem (s : State) : (State.lowerPermit s).mem = s.mem := by
  grind [State.lowerPermit]

theorem raisePermit_mem (s : State) : (State.raisePermit s).mem = s.mem := by
  grind [State.raisePermit]

theorem wf_of_execPowerTick (s : State) {s' : State} (hn : (execPowerTick s) = .next s') (hm : Memory.wf s.mem = true)
    : Memory.wf s'.mem = true := by
  grind [execPowerTick, lowerPermit_mem, raisePermit_mem]

theorem wf_of_execThermalTrip (s : State) {s' : State} (hn : (execThermalTrip s) = .next s')
    (hm : Memory.wf s.mem = true) : Memory.wf s'.mem = true := by
  injection hn with hn
  rw [← hn]
  exact wf_of (rising_filter (wf_rising hm) _) (fun c hc => wf_listed hm c (List.mem_filter.mp hc).1)

/-! ### Machine/Time.lean -/
theorem wf_of_execEngineDeadlock (s : State) {s' : State} (hn : (execEngineDeadlock s) = .next s')
    (hm : Memory.wf s.mem = true) : Memory.wf s'.mem = true := by
  grind [execEngineDeadlock, withHart_next, modHart_mem, wf_takeTrap]

theorem wf_of_execMcUncorrectable (s : State) {s' : State} (hn : (execMcUncorrectable s) = .next s')
    (hm : Memory.wf s.mem = true) : Memory.wf s'.mem = true := by
  grind [execMcUncorrectable, withHart_next, modHart_mem, wf_mcTake]

/-! ### Machine/Fetch.lean -/
theorem wf_of_fetchWord (s : State) (h : Hart) (va : Dword) {s₁ : State} {y₁ : Word}
    (hn : (State.fetchWord s h va) = .ok (s₁, y₁)) (hm : Memory.wf s.mem = true) : Memory.wf s₁.mem = true := by
  grind [State.fetchWord, bind_ok, pure_ok, wf_of_homeRaw]

theorem wf_of_fetchFrom (s : State) (h : Hart) (ws : List Word) (x0 : Nat) {s₁ : State} {y₁ : Decoded}
    (hn : (State.fetchFrom s h ws x0) = .ok (s₁, y₁)) (hm : Memory.wf s.mem = true) : Memory.wf s₁.mem = true := by
  induction x0 generalizing s s₁ y₁ ws with
  | zero =>
    simp only [State.fetchFrom] at hn
    grind
  | succ n ih =>
    simp only [State.fetchFrom, bind_ok] at hn
    grind [bind_ok, pure_ok, throw_ok, wf_of_fetchWord]

theorem wf_of_fetch (s : State) (h : Hart) {s₁ : State} {y₁ : Decoded} (hn : (State.fetch s h) = .ok (s₁, y₁))
    (hm : Memory.wf s.mem = true) : Memory.wf s₁.mem = true := by
  grind [State.fetch, wf_of_fetchFrom]

theorem wf_of_fetchStop (s : State) (hid : Nat) (h : Hart) (x : Stop) {s' : State}
    (hn : (State.fetchStop s hid h x) = .next s') (hm : Memory.wf s.mem = true) : Memory.wf s'.mem = true := by
  unfold State.fetchStop at hn
  grind [wf_settleStop, wf_takeTrap, exec_pageAbsentReply, wf_of_execPageAbsentReply]

theorem fillL1_mem (s : State) (core dpa : Nat) : (State.fillL1 s core dpa).mem = s.mem := by
  grind [State.fillL1, modCore_mem]

theorem wf_evictLlc (s : State) (dpa : Nat) (hm : Memory.wf s.mem = true) : Memory.wf (State.evictLlc s dpa).mem =
    true := by
  grind [State.evictLlc, wf_settle]

theorem wf_cacheTurn (s : State) (a : CacheAct) (hm : Memory.wf s.mem = true) : Memory.wf (cacheTurn s a).mem =
    true := by
  cases a <;> grind [cacheTurn, fillL1_mem, wf_dropL1, wf_evictLlc, wf_recall]

theorem wf_osTurn (s : State) (a : OsAct) (hm : Memory.wf s.mem = true) : Memory.wf (osTurn s a).mem = true := by
  cases a with
  | map key o => cases o <;> grind [osTurn]
  | _ => grind [osTurn, sendMsi_mem]

theorem upset_mem (s : State) (sector i : Nat) (x : BitVec 16) : (State.upset s sector i x).mem = s.mem := by
  grind [State.upset]

theorem wf_worldTurn (s : State) (a : WorldAct) (hm : Memory.wf s.mem = true) : Memory.wf (worldTurn s a).mem =
    true := by
  cases a <;> grind [worldTurn, upset_mem, setLink_mem, setStack_mem, answer_mem]

theorem wf_landDue (s : State) (hid : Nat) (h : Hart) (hm : Memory.wf s.mem = true) :
    Memory.wf (State.landDue s hid h).mem = true := by
  grind [State.landDue, wf_refreeze, wf_landAll]

theorem wf_clockTurn (s : State) (hm : Memory.wf s.mem = true) : Memory.wf (clockTurn s).mem = true := by
  unfold clockTurn
  exact wf_foldl (fun s x w => by grind [wf_landDue]) hm

theorem wf_of_deferExpired {s s' : State} {hid : Nat} {h : Hart} {o : Out} (hn : deferExpired s hid h o = .next s')
    (w : Memory.wf s.mem = true) (ho : ∀ t, o = .next t → Memory.wf t.mem = true) : Memory.wf s'.mem = true := by
  unfold deferExpired at hn
  repeat' split at hn
  all_goals grind

/-! ### Machine/Exec.lean -/

/-- Every instruction and event keeps the form: one line per arm of `exec`, by the lemma of the
operation that the arm runs. -/
theorem wf_of_exec {i : Instr} {s s' : State} (hn : exec i s = .next s') (w : Memory.wf s.mem = true) :
    Memory.wf s'.mem = true := by
  cases i with
  | add => exact wf_of_op2 (hn := (exec_add ..).symm.trans hn) (hm := w)
  | sub => exact wf_of_op2 (hn := (exec_sub ..).symm.trans hn) (hm := w)
  | and => exact wf_of_op2 (hn := (exec_and ..).symm.trans hn) (hm := w)
  | or => exact wf_of_op2 (hn := (exec_or ..).symm.trans hn) (hm := w)
  | xor => exact wf_of_op2 (hn := (exec_xor ..).symm.trans hn) (hm := w)
  | sll => exact wf_of_op2 (hn := (exec_sll ..).symm.trans hn) (hm := w)
  | srl => exact wf_of_op2 (hn := (exec_srl ..).symm.trans hn) (hm := w)
  | sra => exact wf_of_op2 (hn := (exec_sra ..).symm.trans hn) (hm := w)
  | slt => exact wf_of_op2 (hn := (exec_slt ..).symm.trans hn) (hm := w)
  | sltu => exact wf_of_op2 (hn := (exec_sltu ..).symm.trans hn) (hm := w)
  | mul => exact wf_of_op2 (hn := (exec_mul ..).symm.trans hn) (hm := w)
  | mulh => exact wf_of_op2 (hn := (exec_mulh ..).symm.trans hn) (hm := w)
  | mulhu => exact wf_of_op2 (hn := (exec_mulhu ..).symm.trans hn) (hm := w)
  | div => exact wf_of_op2 (hn := (exec_div ..).symm.trans hn) (hm := w)
  | divu => exact wf_of_op2 (hn := (exec_divu ..).symm.trans hn) (hm := w)
  | rem => exact wf_of_op2 (hn := (exec_rem ..).symm.trans hn) (hm := w)
  | remu => exact wf_of_op2 (hn := (exec_remu ..).symm.trans hn) (hm := w)
  | min => exact wf_of_op2 (hn := (exec_min ..).symm.trans hn) (hm := w)
  | max => exact wf_of_op2 (hn := (exec_max ..).symm.trans hn) (hm := w)
  | minu => exact wf_of_op2 (hn := (exec_minu ..).symm.trans hn) (hm := w)
  | maxu => exact wf_of_op2 (hn := (exec_maxu ..).symm.trans hn) (hm := w)
  | addw => exact wf_of_op2 (hn := (exec_addw ..).symm.trans hn) (hm := w)
  | subw => exact wf_of_op2 (hn := (exec_subw ..).symm.trans hn) (hm := w)
  | clz => exact wf_of_op1 (hn := (exec_clz ..).symm.trans hn) (hm := w)
  | ctz => exact wf_of_op1 (hn := (exec_ctz ..).symm.trans hn) (hm := w)
  | popc => exact wf_of_op1 (hn := (exec_popc ..).symm.trans hn) (hm := w)
  | sext => exact wf_of_op1 (hn := (exec_sext ..).symm.trans hn) (hm := w)
  | zext => exact wf_of_op1 (hn := (exec_zext ..).symm.trans hn) (hm := w)
  | bfx => exact wf_of_op2 (hn := (exec_bfx ..).symm.trans hn) (hm := w)
  | cmov => exact wf_of_rowOp (hn := (exec_cmov ..).symm.trans hn) (hm := w)
  | addi => exact wf_of_opImm (hn := (exec_addi ..).symm.trans hn) (hm := w)
  | andi => exact wf_of_opImm (hn := (exec_andi ..).symm.trans hn) (hm := w)
  | ori => exact wf_of_opImm (hn := (exec_ori ..).symm.trans hn) (hm := w)
  | xori => exact wf_of_opImm (hn := (exec_xori ..).symm.trans hn) (hm := w)
  | slli => exact wf_of_op1 (hn := (exec_slli ..).symm.trans hn) (hm := w)
  | srli => exact wf_of_op1 (hn := (exec_srli ..).symm.trans hn) (hm := w)
  | srai => exact wf_of_op1 (hn := (exec_srai ..).symm.trans hn) (hm := w)
  | slti => exact wf_of_opImm (hn := (exec_slti ..).symm.trans hn) (hm := w)
  | sltiu => exact wf_of_opImm (hn := (exec_sltiu ..).symm.trans hn) (hm := w)
  | lui => exact wf_of_rowOp (hn := (exec_lui ..).symm.trans hn) (hm := w)
  | auipc => exact wf_of_rowOp (hn := (exec_auipc ..).symm.trans hn) (hm := w)
  | fadd32 => exact wf_of_float2 (hn := (exec_fadd32 ..).symm.trans hn) (hm := w)
  | fsub32 => exact wf_of_float2 (hn := (exec_fsub32 ..).symm.trans hn) (hm := w)
  | fmul32 => exact wf_of_float2 (hn := (exec_fmul32 ..).symm.trans hn) (hm := w)
  | fma32 => exact wf_of_floatOp (hn := (exec_fma32 ..).symm.trans hn) (hm := w)
  | fdiv32 => exact wf_of_float2 (hn := (exec_fdiv32 ..).symm.trans hn) (hm := w)
  | fsqrt32 => exact wf_of_floatOp (hn := (exec_fsqrt32 ..).symm.trans hn) (hm := w)
  | fmin32 => exact wf_of_op2 (hn := (exec_fmin32 ..).symm.trans hn) (hm := w)
  | fmax32 => exact wf_of_op2 (hn := (exec_fmax32 ..).symm.trans hn) (hm := w)
  | fcmp32 => exact wf_of_floatOp (hn := (exec_fcmp32 ..).symm.trans hn) (hm := w)
  | fcvtif => exact wf_of_floatOp (hn := (exec_fcvtif ..).symm.trans hn) (hm := w)
  | fcvtfi => exact wf_of_floatOp (hn := (exec_fcvtfi ..).symm.trans hn) (hm := w)
  | fcvtffTo => exact wf_of_floatOp (hn := (exec_fcvtffTo ..).symm.trans hn) (hm := w)
  | fcvtffFrom => exact wf_of_floatOp (hn := (exec_fcvtffFrom ..).symm.trans hn) (hm := w)
  | lb => exact wf_of_scalarLoad (hn := (exec_lb ..).symm.trans hn) (hm := w)
  | lbu => exact wf_of_scalarLoad (hn := (exec_lbu ..).symm.trans hn) (hm := w)
  | lh => exact wf_of_scalarLoad (hn := (exec_lh ..).symm.trans hn) (hm := w)
  | lhu => exact wf_of_scalarLoad (hn := (exec_lhu ..).symm.trans hn) (hm := w)
  | lw => exact wf_of_scalarLoad (hn := (exec_lw ..).symm.trans hn) (hm := w)
  | lwu => exact wf_of_scalarLoad (hn := (exec_lwu ..).symm.trans hn) (hm := w)
  | ld => exact wf_of_scalarLoad (hn := (exec_ld ..).symm.trans hn) (hm := w)
  | sb => exact wf_of_scalarStore (hn := (exec_sb ..).symm.trans hn) (hm := w)
  | sh => exact wf_of_scalarStore (hn := (exec_sh ..).symm.trans hn) (hm := w)
  | sw => exact wf_of_scalarStore (hn := (exec_sw ..).symm.trans hn) (hm := w)
  | sd => exact wf_of_scalarStore (hn := (exec_sd ..).symm.trans hn) (hm := w)
  | bwait => exact wf_of_execBwait (hn := (exec_bwait ..).symm.trans hn) (hm := w)
  | barrive => exact wf_of_execBarrive (hn := (exec_barrive ..).symm.trans hn) (hm := w)
  | bararm => exact wf_of_execBararm (hn := (exec_bararm ..).symm.trans hn) (hm := w)
  | barinit => exact wf_of_execBarinit (hn := (exec_barinit ..).symm.trans hn) (hm := w)
  | beq => exact wf_of_branchOp (hn := (exec_beq ..).symm.trans hn) (hm := w)
  | bne => exact wf_of_branchOp (hn := (exec_bne ..).symm.trans hn) (hm := w)
  | blt => exact wf_of_branchOp (hn := (exec_blt ..).symm.trans hn) (hm := w)
  | bge => exact wf_of_branchOp (hn := (exec_bge ..).symm.trans hn) (hm := w)
  | bltu => exact wf_of_branchOp (hn := (exec_bltu ..).symm.trans hn) (hm := w)
  | bgeu => exact wf_of_branchOp (hn := (exec_bgeu ..).symm.trans hn) (hm := w)
  | jal => exact wf_of_execJal (hn := (exec_jal ..).symm.trans hn) (hm := w)
  | jalr => exact wf_of_execJalr (hn := (exec_jalr ..).symm.trans hn) (hm := w)
  | csrrw => exact wf_of_csrAccess (hn := (exec_csrrw ..).symm.trans hn) (hm := w)
  | csrrs => exact wf_of_csrAccess (hn := (exec_csrrs ..).symm.trans hn) (hm := w)
  | csrrc => exact wf_of_csrAccess (hn := (exec_csrrc ..).symm.trans hn) (hm := w)
  | prtabaWrite => exact wf_of_csrAccess (hn := (exec_prtabaWrite ..).symm.trans hn) (hm := w)
  | dmaskAccess => exact wf_of_csrAccess (hn := (exec_dmaskAccess ..).symm.trans hn) (hm := w)
  | xstatSrseedAccess => exact wf_of_csrAccess (hn := (exec_xstatSrseedAccess ..).symm.trans hn) (hm := w)
  | tapeCsrAccess => exact wf_of_csrAccess (hn := (exec_tapeCsrAccess ..).symm.trans hn) (hm := w)
  | vlset => exact wf_of_execVlset (hn := (exec_vlset ..).symm.trans hn) (hm := w)
  | scopewr => exact wf_of_execScopewr (hn := (exec_scopewr ..).symm.trans hn) (hm := w)
  | scopeinv => exact wf_of_execScopeinv (hn := (exec_scopeinv ..).symm.trans hn) (hm := w)
  | recordOff => exact wf_of_execRecordOff (hn := (exec_recordOff ..).symm.trans hn) (hm := w)
  | recordOn => exact wf_of_execRecordOn (hn := (exec_recordOn ..).symm.trans hn) (hm := w)
  | recordMark => exact wf_of_execRecordMark (hn := (exec_recordMark ..).symm.trans hn) (hm := w)
  | reverse => exact wf_of_execReverse (hn := (exec_reverse ..).symm.trans hn) (hm := w)
  | ecall => exact wf_of_execEcall (hn := (exec_ecall ..).symm.trans hn) (hm := w)
  | ebreak => exact wf_of_execEbreak (hn := (exec_ebreak ..).symm.trans hn) (hm := w)
  | trapret => exact wf_of_execTrapret (hn := (exec_trapret ..).symm.trans hn) (hm := w)
  | wfe => exact wf_of_execWfe (hn := (exec_wfe ..).symm.trans hn) (hm := w)
  | fences => exact wf_of_execFences (hn := (exec_fences ..).symm.trans hn) (hm := w)
  | lsync => exact wf_of_execLsync (hn := (exec_lsync ..).symm.trans hn) (hm := w)
  | drainSpad => exact wf_of_drain (hn := (exec_drainSpad ..).symm.trans hn) (hm := w)
  | drainDev => exact wf_of_drain (hn := (exec_drainDev ..).symm.trans hn) (hm := w)
  | drainDom => exact wf_of_drain (hn := (exec_drainDom ..).symm.trans hn) (hm := w)
  | nodeb => exact wf_of_execNodeb (hn := (exec_nodeb ..).symm.trans hn) (hm := w)
  | yield => exact wf_of_execYield (hn := (exec_yield ..).symm.trans hn) (hm := w)
  | texit => exact wf_of_execTexit (hn := (exec_texit ..).symm.trans hn) (hm := w)
  | cursor => exact wf_of_execCursor (hn := (exec_cursor ..).symm.trans hn) (hm := w)
  | pstep => exact wf_of_execPstep (hn := (exec_pstep ..).symm.trans hn) (hm := w)
  | frd => exact wf_of_execFrd (hn := (exec_frd ..).symm.trans hn) (hm := w)
  | fwr => exact wf_of_execFwr (hn := (exec_fwr ..).symm.trans hn) (hm := w)
  | tmld => exact wf_of_execTmld (hn := (exec_tmld ..).symm.trans hn) (hm := w)
  | tmpli => exact wf_of_execTmpli (hn := (exec_tmpli ..).symm.trans hn) (hm := w)
  | amoadd => exact wf_of_atomic (hn := (exec_amoadd ..).symm.trans hn) (hm := w)
  | amoand => exact wf_of_atomic (hn := (exec_amoand ..).symm.trans hn) (hm := w)
  | amoor => exact wf_of_atomic (hn := (exec_amoor ..).symm.trans hn) (hm := w)
  | amoxor => exact wf_of_atomic (hn := (exec_amoxor ..).symm.trans hn) (hm := w)
  | amomin => exact wf_of_atomic (hn := (exec_amomin ..).symm.trans hn) (hm := w)
  | amomax => exact wf_of_atomic (hn := (exec_amomax ..).symm.trans hn) (hm := w)
  | amominu => exact wf_of_atomic (hn := (exec_amominu ..).symm.trans hn) (hm := w)
  | amomaxu => exact wf_of_atomic (hn := (exec_amomaxu ..).symm.trans hn) (hm := w)
  | amoswap => exact wf_of_atomic (hn := (exec_amoswap ..).symm.trans hn) (hm := w)
  | amocas => exact wf_of_atomic (hn := (exec_amocas ..).symm.trans hn) (hm := w)
  | ldaq => exact wf_of_execLdaq (hn := (exec_ldaq ..).symm.trans hn) (hm := w)
  | strl => exact wf_of_execStrl (hn := (exec_strl ..).symm.trans hn) (hm := w)
  | amofadd => exact wf_of_atomic (hn := (exec_amofadd ..).symm.trans hn) (hm := w)
  | dmsetc => exact wf_of_execDmsetc (hn := (exec_dmsetc ..).symm.trans hn) (hm := w)
  | dred => exact wf_of_execDred (hn := (exec_dred ..).symm.trans hn) (hm := w)
  | dbcast => exact wf_of_execDbcast (hn := (exec_dbcast ..).symm.trans hn) (hm := w)
  | commandFormation =>
    exact wf_of_execCommandFormation (hn := (exec_commandFormation ..).symm.trans hn) (hm := w)
  | pageAbsentReply => exact wf_of_execPageAbsentReply (hn := (exec_pageAbsentReply ..).symm.trans hn) (hm := w)
  | ald => exact wf_of_streamLoad (hn := (exec_ald ..).symm.trans hn) (hm := w)
  | alds => exact wf_of_streamLoad (hn := (exec_alds ..).symm.trans hn) (hm := w)
  | ald2 => exact wf_of_streamLoad (hn := (exec_ald2 ..).symm.trans hn) (hm := w)
  | agath => exact wf_of_streamLoad (hn := (exec_agath ..).symm.trans hn) (hm := w)
  | aldt => exact wf_of_execAldt (hn := (exec_aldt ..).symm.trans hn) (hm := w)
  | aring => exact wf_of_execAring (hn := (exec_aring ..).symm.trans hn) (hm := w)
  | aspx => exact wf_of_streamLoad (hn := (exec_aspx ..).symm.trans hn) (hm := w)
  | aqcfg => exact wf_of_execAqcfg (hn := (exec_aqcfg ..).symm.trans hn) (hm := w)
  | apref => exact wf_of_execApref (hn := (exec_apref ..).symm.trans hn) (hm := w)
  | sst => exact wf_of_stripStore (hn := (exec_sst ..).symm.trans hn) (hm := w)
  | ssts => exact wf_of_stripStore (hn := (exec_ssts ..).symm.trans hn) (hm := w)
  | sst2 => exact wf_of_stripStore (hn := (exec_sst2 ..).symm.trans hn) (hm := w)
  | sscat => exact wf_of_stripStore (hn := (exec_sscat ..).symm.trans hn) (hm := w)
  | sacc => exact wf_of_execSacc (hn := (exec_sacc ..).symm.trans hn) (hm := w)
  | sspx => exact wf_of_stripStore (hn := (exec_sspx ..).symm.trans hn) (hm := w)
  | stag => exact wf_of_execStag (hn := (exec_stag ..).symm.trans hn) (hm := w)
  | feset => exact wf_of_execFeset (hn := (exec_feset ..).symm.trans hn) (hm := w)
  | vadd => exact wf_of_elemOp (hn := (exec_vadd ..).symm.trans hn) (hm := w)
  | vsub => exact wf_of_elemOp (hn := (exec_vsub ..).symm.trans hn) (hm := w)
  | vmul => exact wf_of_elemOp (hn := (exec_vmul ..).symm.trans hn) (hm := w)
  | vfma => exact wf_of_elemOp (hn := (exec_vfma ..).symm.trans hn) (hm := w)
  | vfms => exact wf_of_elemOp (hn := (exec_vfms ..).symm.trans hn) (hm := w)
  | vmin => exact wf_of_elemOp (hn := (exec_vmin ..).symm.trans hn) (hm := w)
  | vmax => exact wf_of_elemOp (hn := (exec_vmax ..).symm.trans hn) (hm := w)
  | vabs => exact wf_of_elemOp (hn := (exec_vabs ..).symm.trans hn) (hm := w)
  | vneg => exact wf_of_elemOp (hn := (exec_vneg ..).symm.trans hn) (hm := w)
  | vdiv => exact wf_of_elemOp (hn := (exec_vdiv ..).symm.trans hn) (hm := w)
  | vsqrt => exact wf_of_elemOp (hn := (exec_vsqrt ..).symm.trans hn) (hm := w)
  | vrsq => exact wf_of_transOp (hn := (exec_vrsq ..).symm.trans hn) (hm := w)
  | vexp => exact wf_of_transOp (hn := (exec_vexp ..).symm.trans hn) (hm := w)
  | vlog => exact wf_of_transOp (hn := (exec_vlog ..).symm.trans hn) (hm := w)
  | vtanh => exact wf_of_transOp (hn := (exec_vtanh ..).symm.trans hn) (hm := w)
  | vsigm => exact wf_of_transOp (hn := (exec_vsigm ..).symm.trans hn) (hm := w)
  | vand => exact wf_of_elemOp (hn := (exec_vand ..).symm.trans hn) (hm := w)
  | vor => exact wf_of_elemOp (hn := (exec_vor ..).symm.trans hn) (hm := w)
  | vxor => exact wf_of_elemOp (hn := (exec_vxor ..).symm.trans hn) (hm := w)
  | vnot => exact wf_of_elemOp (hn := (exec_vnot ..).symm.trans hn) (hm := w)
  | vshl => exact wf_of_elemOp (hn := (exec_vshl ..).symm.trans hn) (hm := w)
  | vshr => exact wf_of_elemOp (hn := (exec_vshr ..).symm.trans hn) (hm := w)
  | vshrr => exact wf_of_elemOp (hn := (exec_vshrr ..).symm.trans hn) (hm := w)
  | vdot2 => exact wf_of_xvOp (hn := (exec_vdot2 ..).symm.trans hn) (w := w)
  | vdot4 => exact wf_of_xvOp (hn := (exec_vdot4 ..).symm.trans hn) (w := w)
  | vsadd => exact wf_of_elemOp (hn := (exec_vsadd ..).symm.trans hn) (hm := w)
  | vssub => exact wf_of_elemOp (hn := (exec_vssub ..).symm.trans hn) (hm := w)
  | vmulh => exact wf_of_elemOp (hn := (exec_vmulh ..).symm.trans hn) (hm := w)
  | vcmp => exact wf_of_xvOp (hn := (exec_vcmp ..).symm.trans hn) (w := w)
  | vsel => exact wf_of_xvOp (hn := (exec_vsel ..).symm.trans hn) (w := w)
  | vclass => exact wf_of_xvOp (hn := (exec_vclass ..).symm.trans hn) (w := w)
  | vslide => exact wf_of_xvOp (hn := (exec_vslide ..).symm.trans hn) (w := w)
  | vperm => exact wf_of_xvOp (hn := (exec_vperm ..).symm.trans hn) (w := w)
  | vzip => exact wf_of_xvOp (hn := (exec_vzip ..).symm.trans hn) (w := w)
  | vunzip => exact wf_of_xvOp (hn := (exec_vunzip ..).symm.trans hn) (w := w)
  | vbcast => exact wf_of_xvOp (hn := (exec_vbcast ..).symm.trans hn) (w := w)
  | vextr => exact wf_of_xvOp (hn := (exec_vextr ..).symm.trans hn) (w := w)
  | vredsum => exact wf_of_xvOp (hn := (exec_vredsum ..).symm.trans hn) (w := w)
  | vredsumo => exact wf_of_xvOp (hn := (exec_vredsumo ..).symm.trans hn) (w := w)
  | vredmax => exact wf_of_xvOp (hn := (exec_vredmax ..).symm.trans hn) (w := w)
  | vredmin => exact wf_of_xvOp (hn := (exec_vredmin ..).symm.trans hn) (w := w)
  | vcvt => exact wf_of_xvOp (hn := (exec_vcvt ..).symm.trans hn) (w := w)
  | vqnt => exact wf_of_elemOp (hn := (exec_vqnt ..).symm.trans hn) (hm := w)
  | vtagr => exact wf_of_xvOp (hn := (exec_vtagr ..).symm.trans hn) (w := w)
  | vtagw => exact wf_of_xvOp (hn := (exec_vtagw ..).symm.trans hn) (w := w)
  | vsexp => exact wf_of_xvOp (hn := (exec_vsexp ..).symm.trans hn) (w := w)
  | vpop => exact wf_of_execVpop (hn := (exec_vpop ..).symm.trans hn) (hm := w)
  | vpush => exact wf_of_execVpush (hn := (exec_vpush ..).symm.trans hn) (hm := w)
  | vldr => exact wf_of_execVldr (hn := (exec_vldr ..).symm.trans hn) (hm := w)
  | vstr => exact wf_of_execVstr (hn := (exec_vstr ..).symm.trans hn) (hm := w)
  | kand => exact wf_of_xvOp (hn := (exec_kand ..).symm.trans hn) (w := w)
  | kor => exact wf_of_xvOp (hn := (exec_kor ..).symm.trans hn) (w := w)
  | knot => exact wf_of_xvOp (hn := (exec_knot ..).symm.trans hn) (w := w)
  | kpopc => exact wf_of_xvOp (hn := (exec_kpopc ..).symm.trans hn) (w := w)
  | kfirst => exact wf_of_xvOp (hn := (exec_kfirst ..).symm.trans hn) (w := w)
  | vrda => exact wf_of_execVrda (hn := (exec_vrda ..).symm.trans hn) (hm := w)
  | vwra => exact wf_of_execVwra (hn := (exec_vwra ..).symm.trans hn) (hm := w)
  | vmov => exact wf_of_xvOp (hn := (exec_vmov ..).symm.trans hn) (w := w)
  | vid => exact wf_of_xvOp (hn := (exec_vid ..).symm.trans hn) (w := w)
  | vseti => exact wf_of_xvOp (hn := (exec_vseti ..).symm.trans hn) (w := w)
  | mlease => exact wf_of_execMlease (hn := (exec_mlease ..).symm.trans hn) (hm := w)
  | mrelease => exact wf_of_execMrelease (hn := (exec_mrelease ..).symm.trans hn) (hm := w)
  | ringcfg => exact wf_of_execRingcfg (hn := (exec_ringcfg ..).symm.trans hn) (hm := w)
  | ringput => exact wf_of_execRingput (hn := (exec_ringput ..).symm.trans hn) (hm := w)
  | ringpop => exact wf_of_execRingpop (hn := (exec_ringpop ..).symm.trans hn) (hm := w)
  | ringqry => exact wf_of_execRingqry (hn := (exec_ringqry ..).symm.trans hn) (hm := w)
  | tmma => exact wf_of_arrayOp (hn := (exec_tmma ..).symm.trans hn) (hm := w)
  | tmmap => exact wf_of_execTmmap (hn := (exec_tmmap ..).symm.trans hn) (hm := w)
  | tzero => exact wf_of_arrayOp (hn := (exec_tzero ..).symm.trans hn) (hm := w)
  | tadd => exact wf_of_tileOp2 (hn := (exec_tadd ..).symm.trans hn) (hm := w)
  | tsub => exact wf_of_tileOp2 (hn := (exec_tsub ..).symm.trans hn) (hm := w)
  | tmul => exact wf_of_tileOp2 (hn := (exec_tmul ..).symm.trans hn) (hm := w)
  | tscl => exact wf_of_tileOp (hn := (exec_tscl ..).symm.trans hn) (hm := w)
  | tbias => exact wf_of_tileOp (hn := (exec_tbias ..).symm.trans hn) (hm := w)
  | tact => exact wf_of_tileOp (hn := (exec_tact ..).symm.trans hn) (hm := w)
  | trsum => exact wf_of_tileOp (hn := (exec_trsum ..).symm.trans hn) (hm := w)
  | tcsum => exact wf_of_tileOp (hn := (exec_tcsum ..).symm.trans hn) (hm := w)
  | trmax => exact wf_of_tileOp (hn := (exec_trmax ..).symm.trans hn) (hm := w)
  | ttrans => exact wf_of_tileOp (hn := (exec_ttrans ..).symm.trans hn) (hm := w)
  | tcvt => exact wf_of_tileOp (hn := (exec_tcvt ..).symm.trans hn) (hm := w)
  | tloada => exact wf_of_execTloada (hn := (exec_tloada ..).symm.trans hn) (hm := w)
  | tcopy => exact wf_of_tileOp (hn := (exec_tcopy ..).symm.trans hn) (hm := w)
  | jcopy => exact wf_of_execJcopy (hn := (exec_jcopy ..).symm.trans hn) (hm := w)
  | jfill => exact wf_of_execJfill (hn := (exec_jfill ..).symm.trans hn) (hm := w)
  | jpref => exact wf_of_execJpref (hn := (exec_jpref ..).symm.trans hn) (hm := w)
  | jcopy2 => exact wf_of_execJcopy2 (hn := (exec_jcopy2 ..).symm.trans hn) (hm := w)
  | jgath => exact wf_of_execJgath (hn := (exec_jgath ..).symm.trans hn) (hm := w)
  | jscat => exact wf_of_execJscat (hn := (exec_jscat ..).symm.trans hn) (hm := w)
  | jred => exact wf_of_execJred (hn := (exec_jred ..).symm.trans hn) (hm := w)
  | jcoll => exact wf_of_execJcoll (hn := (exec_jcoll ..).symm.trans hn) (hm := w)
  | jrecode => exact wf_of_execJrecode (hn := (exec_jrecode ..).symm.trans hn) (hm := w)
  | jtens => exact wf_of_execJtens (hn := (exec_jtens ..).symm.trans hn) (hm := w)
  | hmaskChange => exact wf_of_execHmaskChange (hn := (exec_hmaskChange ..).symm.trans hn) (hm := w)
  | domainWindowConfig =>
    exact wf_of_execDomainWindowConfig (hn := (exec_domainWindowConfig ..).symm.trans hn) (hm := w)
  | tdBoot => exact wf_of_execTdBoot (hn := (exec_tdBoot ..).symm.trans hn) (hm := w)
  | watchSet => exact wf_of_execWatchSet (hn := (exec_watchSet ..).symm.trans hn) (hm := w)
  | registerWrite => exact wf_of_execRegisterWrite (hn := (exec_registerWrite ..).symm.trans hn) (hm := w)
  | illegalOpcode => exact wf_of_execIllegalOpcode (hn := (exec_illegalOpcode ..).symm.trans hn) (hm := w)
  | applicationHartAccess =>
    exact wf_of_execApplicationHartAccess (hn := (exec_applicationHartAccess ..).symm.trans hn) (hm := w)
  | domainAccessArrival =>
    exact wf_of_execDomainAccessArrival (hn := (exec_domainAccessArrival ..).symm.trans hn) (hm := w)
  | scopeChangeInstall =>
    exact wf_of_execScopeChangeInstall (hn := (exec_scopeChangeInstall ..).symm.trans hn) (hm := w)
  | spatulaRecord => exact wf_of_execSpatulaRecord (hn := (exec_spatulaRecord ..).symm.trans hn) (hm := w)
  | wfeTimeout => exact wf_of_execWfeTimeout (hn := (exec_wfeTimeout ..).symm.trans hn) (hm := w)
  | formationFaultRaise =>
    exact wf_of_execFormationFaultRaise (hn := (exec_formationFaultRaise ..).symm.trans hn) (hm := w)
  | commandCompletion =>
    exact wf_of_execCommandCompletion (hn := (exec_commandCompletion ..).symm.trans hn) (hm := w)
  | engineDeadlock => exact wf_of_execEngineDeadlock (hn := (exec_engineDeadlock ..).symm.trans hn) (hm := w)
  | loadDataArrival => exact wf_of_execLoadDataArrival (hn := (exec_loadDataArrival ..).symm.trans hn) (hm := w)
  | loadLanding => exact wf_of_execLoadLanding (hn := (exec_loadLanding ..).symm.trans hn) (hm := w)
  | mcUncorrectable => exact wf_of_execMcUncorrectable (hn := (exec_mcUncorrectable ..).symm.trans hn) (hm := w)
  | leaseGrant => exact wf_of_execLeaseGrant (hn := (exec_leaseGrant ..).symm.trans hn) (hm := w)
  | leaseTimeout => exact wf_of_execLeaseTimeout (hn := (exec_leaseTimeout ..).symm.trans hn) (hm := w)
  | leaseIdleExpiry => exact wf_of_execLeaseIdleExpiry (hn := (exec_leaseIdleExpiry ..).symm.trans hn) (hm := w)
  | tileSpill => exact wf_of_execTileSpill (hn := (exec_tileSpill ..).symm.trans hn) (hm := w)
  | jobStart => exact wf_of_execJobStart (hn := (exec_jobStart ..).symm.trans hn) (hm := w)
  | jobSectorWrite => exact wf_of_execJobSectorWrite (hn := (exec_jobSectorWrite ..).symm.trans hn) (hm := w)
  | jobComplete => exact wf_of_execJobComplete (hn := (exec_jobComplete ..).symm.trans hn) (hm := w)
  | jobResume => exact wf_of_execJobResume (hn := (exec_jobResume ..).symm.trans hn) (hm := w)
  | jobFaultRaise => exact wf_of_execJobFaultRaise (hn := (exec_jobFaultRaise ..).symm.trans hn) (hm := w)
  | ctxalloc => exact wf_of_execCtxalloc (hn := (exec_ctxalloc ..).symm.trans hn) (hm := w)
  | ctxfree => exact wf_of_execCtxfree (hn := (exec_ctxfree ..).symm.trans hn) (hm := w)
  | ctxabort => exact wf_of_execCtxabort (hn := (exec_ctxabort ..).symm.trans hn) (hm := w)
  | ctxcmdInvalid => exact wf_of_execCtxcmdInvalid (hn := (exec_ctxcmdInvalid ..).symm.trans hn) (hm := w)
  | purgeComplete => exact wf_of_execPurgeComplete (hn := (exec_purgeComplete ..).symm.trans hn) (hm := w)
  | hcmdResume => exact wf_of_execHcmdResume (hn := (exec_hcmdResume ..).symm.trans hn) (hm := w)
  | hcmdInvalid => exact wf_of_execHcmdInvalid (hn := (exec_hcmdInvalid ..).symm.trans hn) (hm := w)
  | qcmdEnable => exact wf_of_execQcmdEnable (hn := (exec_qcmdEnable ..).symm.trans hn) (hm := w)
  | qcmdPause => exact wf_of_execQcmdPause (hn := (exec_qcmdPause ..).symm.trans hn) (hm := w)
  | qcmdResume => exact wf_of_execQcmdResume (hn := (exec_qcmdResume ..).symm.trans hn) (hm := w)
  | qcmdDrain => exact wf_of_execQcmdDrain (hn := (exec_qcmdDrain ..).symm.trans hn) (hm := w)
  | qcmdDisable => exact wf_of_execQcmdDisable (hn := (exec_qcmdDisable ..).symm.trans hn) (hm := w)
  | qcmdSkip => exact wf_of_execQcmdSkip (hn := (exec_qcmdSkip ..).symm.trans hn) (hm := w)
  | qcmdInvalid => exact wf_of_execQcmdInvalid (hn := (exec_qcmdInvalid ..).symm.trans hn) (hm := w)
  | qtbaseWrite => exact wf_of_execQtbaseWrite (hn := (exec_qtbaseWrite ..).symm.trans hn) (hm := w)
  | doorbellWrite => exact wf_of_execDoorbellWrite (hn := (exec_doorbellWrite ..).symm.trans hn) (hm := w)
  | launchAdmission => exact wf_of_execLaunchAdmission (hn := (exec_launchAdmission ..).symm.trans hn) (hm := w)
  | kernelNode => exact wf_of_execKernelNode (hn := (exec_kernelNode ..).symm.trans hn) (hm := w)
  | jobNode => exact wf_of_execJobNode (hn := (exec_jobNode ..).symm.trans hn) (hm := w)
  | eventSet => exact wf_of_execEventSet (hn := (exec_eventSet ..).symm.trans hn) (hm := w)
  | eventWait => exact wf_of_execEventWait (hn := (exec_eventWait ..).symm.trans hn) (hm := w)
  | eventWaitReread => exact wf_of_execEventWaitReread (hn := (exec_eventWaitReread ..).symm.trans hn) (hm := w)
  | eventMsi => exact wf_of_execEventMsi (hn := (exec_eventMsi ..).symm.trans hn) (hm := w)
  | condNode => exact wf_of_execCondNode (hn := (exec_condNode ..).symm.trans hn) (hm := w)
  | loopNode => exact wf_of_execLoopNode (hn := (exec_loopNode ..).symm.trans hn) (hm := w)
  | switchNode => exact wf_of_execSwitchNode (hn := (exec_switchNode ..).symm.trans hn) (hm := w)
  | kernelPlacement => exact wf_of_execKernelPlacement (hn := (exec_kernelPlacement ..).symm.trans hn) (hm := w)
  | cursorWake => exact wf_of_execCursorWake (hn := (exec_cursorWake ..).symm.trans hn) (hm := w)
  | preemptionDeadline =>
    exact wf_of_execPreemptionDeadline (hn := (exec_preemptionDeadline ..).symm.trans hn) (hm := w)
  | hartRestore => exact wf_of_execHartRestore (hn := (exec_hartRestore ..).symm.trans hn) (hm := w)
  | dieRemapRequest => exact wf_of_execDieRemapRequest (hn := (exec_dieRemapRequest ..).symm.trans hn) (hm := w)
  | quiesceGateAck => exact wf_of_execQuiesceGateAck (hn := (exec_quiesceGateAck ..).symm.trans hn) (hm := w)
  | pitcmdWrite => exact wf_of_execPitcmdWrite (hn := (exec_pitcmdWrite ..).symm.trans hn) (hm := w)
  | pitcmdMigrate => exact wf_of_execPitcmdMigrate (hn := (exec_pitcmdMigrate ..).symm.trans hn) (hm := w)
  | pitcmdRecode => exact wf_of_execPitcmdRecode (hn := (exec_pitcmdRecode ..).symm.trans hn) (hm := w)
  | pitcmdInvalid => exact wf_of_execPitcmdInvalid (hn := (exec_pitcmdInvalid ..).symm.trans hn) (hm := w)
  | passStart => exact wf_of_execPassStart (hn := (exec_passStart ..).symm.trans hn) (hm := w)
  | backgroundPassStart =>
    exact wf_of_execBackgroundPassStart (hn := (exec_backgroundPassStart ..).symm.trans hn) (hm := w)
  | passSectorStep => exact wf_of_execPassSectorStep (hn := (exec_passSectorStep ..).symm.trans hn) (hm := w)
  | rd => exact wf_of_request (hn := (exec_rd ..).symm.trans hn) (hm := w)
  | wr => exact wf_of_request (hn := (exec_wr ..).symm.trans hn) (hm := w)
  | wrm => exact wf_of_request (hn := (exec_wrm ..).symm.trans hn) (hm := w)
  | trd => exact wf_of_request (hn := (exec_trd ..).symm.trans hn) (hm := w)
  | tagw => exact wf_of_request (hn := (exec_tagw ..).symm.trans hn) (hm := w)
  | mrr => exact wf_of_request (hn := (exec_mrr ..).symm.trans hn) (hm := w)
  | packetReply => exact wf_of_execPacketReply (hn := (exec_packetReply ..).symm.trans hn) (hm := w)
  | refresh => exact wf_of_execRefresh (hn := (exec_refresh ..).symm.trans hn) (hm := w)
  | scrubStep => exact wf_of_execScrubStep (hn := (exec_scrubStep ..).symm.trans hn) (hm := w)
  | heartbeatMissing =>
    exact wf_of_execHeartbeatMissing (hn := (exec_heartbeatMissing ..).symm.trans hn) (hm := w)
  | refreshHandover => exact wf_of_execRefreshHandover (hn := (exec_refreshHandover ..).symm.trans hn) (hm := w)
  | linkTrainingStart =>
    exact wf_of_execLinkTrainingStart (hn := (exec_linkTrainingStart ..).symm.trans hn) (hm := w)
  | linkTrainingComplete =>
    exact wf_of_execLinkTrainingComplete (hn := (exec_linkTrainingComplete ..).symm.trans hn) (hm := w)
  | linkTrainingTimeout =>
    exact wf_of_execLinkTrainingTimeout (hn := (exec_linkTrainingTimeout ..).symm.trans hn) (hm := w)
  | linkStepUp => exact wf_of_execLinkStepUp (hn := (exec_linkStepUp ..).symm.trans hn) (hm := w)
  | linkStepDown => exact wf_of_execLinkStepDown (hn := (exec_linkStepDown ..).symm.trans hn) (hm := w)
  | linkRatePolicy => exact wf_of_execLinkRatePolicy (hn := (exec_linkRatePolicy ..).symm.trans hn) (hm := w)
  | flitReplay => exact wf_of_execFlitReplay (hn := (exec_flitReplay ..).symm.trans hn) (hm := w)
  | linkRetrainComplete =>
    exact wf_of_execLinkRetrainComplete (hn := (exec_linkRetrainComplete ..).symm.trans hn) (hm := w)
  | linkHoldExpiry => exact wf_of_execLinkHoldExpiry (hn := (exec_linkHoldExpiry ..).symm.trans hn) (hm := w)
  | collectiveContribution =>
    exact wf_of_execCollectiveContribution (hn := (exec_collectiveContribution ..).symm.trans hn) (hm := w)
  | collectiveTimeout =>
    exact wf_of_execCollectiveTimeout (hn := (exec_collectiveTimeout ..).symm.trans hn) (hm := w)
  | collectiveAck => exact wf_of_execCollectiveAck (hn := (exec_collectiveAck ..).symm.trans hn) (hm := w)
  | deviceRead => exact wf_of_execDeviceRead (hn := (exec_deviceRead ..).symm.trans hn) (hm := w)
  | deviceWrite => exact wf_of_execDeviceWrite (hn := (exec_deviceWrite ..).symm.trans hn) (hm := w)
  | dieRelease => exact wf_of_execDieRelease (hn := (exec_dieRelease ..).symm.trans hn) (hm := w)
  | dieReadyTimeout => exact wf_of_execDieReadyTimeout (hn := (exec_dieReadyTimeout ..).symm.trans hn) (hm := w)
  | rekeyRequest => exact wf_of_execRekeyRequest (hn := (exec_rekeyRequest ..).symm.trans hn) (hm := w)
  | getVersion => exact wf_of_execGetVersion (hn := (exec_getVersion ..).symm.trans hn) (hm := w)
  | getCapabilities => exact wf_of_execGetCapabilities (hn := (exec_getCapabilities ..).symm.trans hn) (hm := w)
  | negotiateAlgorithms =>
    exact wf_of_execNegotiateAlgorithms (hn := (exec_negotiateAlgorithms ..).symm.trans hn) (hm := w)
  | getDigests => exact wf_of_execGetDigests (hn := (exec_getDigests ..).symm.trans hn) (hm := w)
  | getCertificate => exact wf_of_execGetCertificate (hn := (exec_getCertificate ..).symm.trans hn) (hm := w)
  | challenge => exact wf_of_execChallenge (hn := (exec_challenge ..).symm.trans hn) (hm := w)
  | getMeasurements => exact wf_of_execGetMeasurements (hn := (exec_getMeasurements ..).symm.trans hn) (hm := w)
  | keyExchange => exact wf_of_execKeyExchange (hn := (exec_keyExchange ..).symm.trans hn) (hm := w)
  | powerTick => exact wf_of_execPowerTick (hn := (exec_powerTick ..).symm.trans hn) (hm := w)
  | thermalTrip => exact wf_of_execThermalTrip (hn := (exec_thermalTrip ..).symm.trans hn) (hm := w)
  | applicationHartFence =>
    exact wf_of_execApplicationHartFence (hn := (exec_applicationHartFence ..).symm.trans hn) (hm := w)
  | accessPerformed => exact wf_of_execAccessPerformed (hn := (exec_accessPerformed ..).symm.trans hn) (hm := w)
  | cxlBackInvalidation =>
    exact wf_of_execCxlBackInvalidation (hn := (exec_cxlBackInvalidation ..).symm.trans hn) (hm := w)

/-! ### Machine/Fetch.lean -/
theorem wf_of_scalarTurn {s s' : State} {hid : Nat} {defer : Bool} (hn : scalarTurn s hid defer = .next s')
    (w : Memory.wf s.mem = true) : Memory.wf s'.mem = true := by
  unfold scalarTurn at hn
  split at hn
  · cases hn; exact w
  split at hn
  · cases hn; exact w
  split at hn
  · cases hn; exact wf_mcTake _ _ _ w
  split at hn
  · cases hn; exact w
  refine wf_of_deferExpired hn w (fun t ht => ?_)
  split at ht
  · exact wf_of_fetchStop (hn := ht) (hm := w)
  · next e => exact wf_of_exec ht (wf_of_fetch (hn := e) (hm := w))
  · next e =>
    cases ht
    exact wf_takeTrap _ _ _ (wf_of_fetch (hn := e) (hm := w))
  · next e =>
    cases ht
    exact wf_of_fetch (hn := e) (hm := w)

theorem wf_of_engineTurn {s s' : State} {hid : Nat} {e : Eng} {defer : Bool} {row unit : Nat}
    (hn : engineTurn s hid e defer row unit = .next s') (w : Memory.wf s.mem = true) : Memory.wf s'.mem = true := by
  unfold engineTurn at hn
  split at hn
  · cases hn; exact w
  dsimp only at hn
  split at hn
  · cases hn; exact w
  split at hn
  · cases hn; exact w
  exact wf_of_deferExpired hn w (fun t ht => wf_of_exec ht w)

theorem wf_of_perform {s s' : State} {a : Act} (hn : perform s a = .next s') (w : Memory.wf s.mem = true) :
    Memory.wf s'.mem = true := by
  cases a with
  | scalar hid defer => exact wf_of_scalarTurn hn w
  | engine hid e defer row unit => exact wf_of_engineTurn hn w
  | event i f =>
    simp only [perform] at hn
    split at hn
    · exact wf_of_exec hn w
    · cases hn; exact w
  | cache c =>
    cases hn
    split
    · exact wf_cacheTurn _ _ w
    · exact w
  | os o =>
    cases hn
    exact wf_osTurn _ _ w
  | world x =>
    cases hn
    exact wf_worldTurn _ _ w
  | clock =>
    cases hn
    exact wf_clockTurn _ w

theorem nextAct_mem (s : State) : (nextAct s).2.mem = s.mem := by
  unfold nextAct
  split <;> rfl

/-- Settles O57: every function that a step runs keeps the form, by the lemmas above, one per function. -/
theorem memoryCanonicalKept : Obligations.MemoryCanonicalKept := by
  unfold Obligations.MemoryCanonicalKept
  intro s s' w hn
  exact wf_of_perform hn (by rw [nextAct_mem]; exact w)

/-- Settles O58: memory after reset lists no byte. -/
theorem resetMemoryCanonical : Obligations.ResetMemoryCanonical := by
  unfold Obligations.ResetMemoryCanonical
  rfl

end Sys2Proof.MemoryForm
end

section
/-! PROOFS. The words of instructions and templates: decoding what is encoded. -/

namespace Sys2Proof.Coding

open Sys2Proof Sys2Proof.Machine Sys2Proof.Claim Sys2Proof.Laws

-- One proof is checked at a time: this keeps the check of the whole text within its memory.
set_option Elab.async false

/-- A field of a word, read off its number. -/
theorem field (w : Word) (s : Nat) {n : Nat} (v : BitVec n) (h : w.toNat / 2 ^ s % 2 ^ n = v.toNat) :
    w.extractLsb' s n = v := by
  apply BitVec.eq_of_toNat_eq
  rw [BitVec.extractLsb'_toNat, Nat.shiftRight_eq_div_pow, h]

theorem field_toNat (w : Word) (s n : Nat) {v : Nat} (h : w.toNat / 2 ^ s % 2 ^ n = v) :
    (w.extractLsb' s n).toNat = v := by
  rw [BitVec.extractLsb'_toNat, Nat.shiftRight_eq_div_pow, h]

/-- A field of bits that the opcode fixes. -/
theorem fixed (w : Word) (s n k : Nat) (h : w.toNat / 2 ^ s % 2 ^ n = k) : w.extractLsb' s n = BitVec.ofNat n k :=
  field w s _ (by rw [BitVec.toNat_ofNat, ← h, Nat.mod_mod])

/-- A field of reserved bits, all zero. -/
theorem rest (w : Word) (s n : Nat) (h : w.toNat / 2 ^ s % 2 ^ n = 0) : w.extractLsb' s n = 0#n :=
    field w s 0#n (by simpa using h)

theorem pxOk_false {px : Px} : pxOk px false = true ↔ pxOk px true = true ∧ px.valx = none := by
  simp [pxOk]

/-- The number that `packFields` puts into a word. -/
def fieldSum (base : Nat) (fs : List (Nat × Nat)) : Nat := fs.foldl (fun acc f => acc + f.1 * 2 ^ f.2) base

theorem packFields_eq (base : Nat) (fs : List (Nat × Nat)) :
    packFields base fs = BitVec.ofNat 32 (fieldSum base fs) := rfl

theorem fieldSum_nil (base : Nat) : fieldSum base [] = base := by
  rw [fieldSum, List.foldl_nil]

theorem fieldSum_cons (base v o : Nat) (fs : List (Nat × Nat)) :
    fieldSum base ((v, o) :: fs) = fieldSum (base + v * 2 ^ o) fs := by
  rw [fieldSum, List.foldl_cons, fieldSum]

theorem fieldSum_add (x y : Nat) (fs : List (Nat × Nat)) : fieldSum (x + y) fs = x + fieldSum y fs := by
  induction fs generalizing y with
  | nil => simp only [fieldSum_nil]
  | cons f fs ih => rw [fieldSum_cons, fieldSum_cons, Nat.add_assoc, ih]

/-- A word's fields stand below bit 23, under its class and its op6. -/
theorem fieldSum_split (base : Nat) (fs : List (Nat × Nat)) :
    fieldSum base fs = base / 2 ^ 23 * 2 ^ 23 + fieldSum (base % 2 ^ 23) fs := by
  rw [← fieldSum_add, Nat.mul_comm, Nat.div_add_mod]

theorem finishDecode_ok {px : Px} {w : Word} {i : Instr} (n : Nat) (hp : pxOk px true = true) (h :
    decodeWord px w = .ok i) :
    finishDecode px w n = .instr i n := by
  unfold finishDecode
  rw [h]
  split
  · next e => cases e; rfl
  · next e => cases e; rw [if_pos hp]
  · next e => cases e
  · next e => cases e

/-- The two words that may precede an instruction. -/
theorem prefix_fields (k : Nat) (hk : k < 8) (x : PxBits) :
    let v : Word := BitVec.ofNat 32 (0xE0000000 + k * 2 ^ 26 + x.toNat)
    v.extractLsb' 29 3 = 7#3 ∧ (v.extractLsb' 26 3).toNat = k ∧ v.extractLsb' 0 26 = x := by
  intro v
  have hv : v.toNat = 0xE0000000 + k * 2 ^ 26 + x.toNat := by
    simp only [v, BitVec.toNat_ofNat]
    have := x.isLt
    omega
  clear_value v
  refine ⟨field v 29 7#3 ?_, field_toNat v 26 3 ?_, field v 0 x ?_⟩
  · simp only [BitVec.toNat_ofNat]; have := x.isLt; omega
  · have := x.isLt; omega
  · have := x.isLt; omega

theorem decode_pxWords (px : Px) {w : Word} (hw : w.extractLsb' 29 3 ≠ 7#3) :
    decode (pxWords px ++ [w]) = finishDecode px w (pxWords px ++ [w]).length := by
  obtain ⟨diep, valx⟩ := px
  have hd : ∀ x : PxBits, ∃ v : Word, BitVec.ofNat 32 (0xE4000000 + x.toNat) = v ∧ v.extractLsb' 29 3 = 7#3 ∧
      (v.extractLsb' 26 3).toNat = 1 ∧ v.extractLsb' 0 26 = x := fun x => ⟨_, rfl, prefix_fields 1 (by decide) x⟩
  have hv : ∀ x : PxBits, ∃ v : Word, BitVec.ofNat 32 (0xE0000000 + x.toNat) = v ∧ v.extractLsb' 29 3 = 7#3 ∧
      (v.extractLsb' 26 3).toNat = 0 ∧ v.extractLsb' 0 26 = x := fun x => ⟨_, rfl, prefix_fields 0 (by decide) x⟩
  cases diep with
  | none =>
    cases valx with
    | none => simp [pxWords, decode, hw]
    | some y =>
      obtain ⟨v, e, h29, h26, h0⟩ := hv y
      simp [pxWords, decode, decodeAfterPrefix, e, h29, h26, h0, hw]
  | some x =>
    obtain ⟨u, ed, d29, d26, d0⟩ := hd x
    cases valx with
    | none => simp [pxWords, decode, decodeAfterPrefix, ed, d29, d26, d0, hw]
    | some y =>
      obtain ⟨v, e, h29, h26, h0⟩ := hv y
      simp [pxWords, decode, decodeAfterPrefix, ed, d29, d26, d0, e, h29, h26, h0]

theorem decode_asm {i : Instr} {px : Px} {base : Nat} {fs : List (Nat × Nat)} {ws : List Word} (h :
    asm px base fs = some ws)
    (hp : pxOk px true = true) (hb : base < 2 ^ 30) (hf : fieldSum (base % 2 ^ 23) fs < 2 ^ 23)
    (hd : ∀ w : Word, w.toNat % 2 ^ 23 = fieldSum (base % 2 ^ 23) fs →
      (w.extractLsb' 29 3).toNat = base / 2 ^ 29 → (w.extractLsb' 23 6).toNat = base / 2 ^ 23 % 64 →
        decodeWord px w = .ok i) :
    decode ws = .instr i ws.length := by
  have hw : (packFields base fs).toNat = base / 2 ^ 23 * 2 ^ 23 + fieldSum (base % 2 ^ 23) fs := by
    rw [packFields_eq, BitVec.toNat_ofNat, fieldSum_split]
    omega
  cases h
  generalize packFields base fs = w at hw ⊢
  have h29 : (w.extractLsb' 29 3).toNat = base / 2 ^ 29 := field_toNat w 29 3 (by omega)
  rw [decode_pxWords px (fun e => by rw [e] at h29; simp at h29; omega)]
  exact finishDecode_ok _ hp (hd w (by omega) h29 (field_toNat w 23 6 (by omega)))

/-- The encoded words of an instruction decode to it. -/
def Decodes (i : Instr) : Prop :=
  ∀ ws : List Word, Instr.wellFormed i = true → encode i = some ws → decode ws = .instr i ws.length

/-! ## The forms of scalar words (R110 to R115): each class of fields once, for all the operations that share it -/

theorem decodes_threeRegisters {op : Instr} (px : Px) (d a b : Reg) (hmem : op ∈ [.add px d a b, .sub px d a b, .and
    px d a b, .or px d a b, .xor px d a b, .sll px d a b, .srl px d a b, .sra px d a b, .slt px d a b, .sltu px d a b,
    .mul px d a b, .mulh px d a b, .mulhu px d a b, .div px d a b, .divu px d a b, .rem px d a b, .remu px d a b, .min
    px d a b, .max px d a b, .minu px d a b, .maxu px d a b, .addw px d a b, .subw px d a b, .cmov px d a b, .fmin32
    px d a b, .fmax32 px d a b]) : Decodes op := by
  intro ws hwf henc
  simp only [List.mem_cons, List.not_mem_nil, or_false] at hmem
  casesm* _ ∨ _
  all_goals
    subst hmem
    simp [Instr.wellFormed, pxOk_false] at hwf
    refine decode_asm henc (by simp [hwf]) (by decide) (by simp only [fieldSum_cons, fieldSum_nil]; omega)
      (fun v hv he hop => ?_)
    simp only [fieldSum_cons, fieldSum_nil] at hv
    simp [decodeWord, decodeSa, carriesValx, chk, he, hop, hwf, field v 18 d (by omega),
      field v 13 a (by omega), field v 8 b (by omega), rest v 0 8 (by omega)]

theorem decodes_twoRegisters {op : Instr} (px : Px) (d a : Reg) (hmem : op ∈ [.clz px d a, .ctz px d a, .popc px d a,
    .bararm px d a]) : Decodes op := by
  intro ws hwf henc
  simp only [List.mem_cons, List.not_mem_nil, or_false] at hmem
  casesm* _ ∨ _
  all_goals
    subst hmem
    simp [Instr.wellFormed, pxOk_false] at hwf
    refine decode_asm henc (by simp [hwf]) (by decide) (by simp only [fieldSum_cons, fieldSum_nil]; omega)
      (fun v hv he hop => ?_)
    simp only [fieldSum_cons, fieldSum_nil] at hv
    simp [decodeWord, decodeSa, decodeSm, carriesValx, chk, he, hop, hwf, field v 18 d (by omega),
      field v 13 a (by omega), rest v 0 13 (by omega)]

theorem decodes_extend {op : Instr} (px : Px) (d a : Reg) (w : BitVec 2) (hmem : op ∈ [.sext px d a w, .zext px d a
    w]) : Decodes op := by
  intro ws hwf henc
  simp only [List.mem_cons, List.not_mem_nil, or_false] at hmem
  casesm* _ ∨ _
  all_goals
    subst hmem
    simp [Instr.wellFormed, pxOk_false] at hwf
    refine decode_asm henc (by simp [hwf]) (by decide) (by simp only [fieldSum_cons, fieldSum_nil]; omega)
      (fun v hv he hop => ?_)
    simp only [fieldSum_cons, fieldSum_nil] at hv
    simp [decodeWord, decodeSa, carriesValx, chk, he, hop, hwf, field v 18 d (by omega),
      field v 13 a (by omega), rest v 2 11 (by omega), field v 0 w (by omega)]

theorem decodes_extractField {px : Px} {d a b : Reg} {x : BitVec 1} : Decodes (.bfx px d a b x) := by
  intro ws hwf henc
  simp [Instr.wellFormed, pxOk_false] at hwf
  refine decode_asm henc (by simp [hwf]) (by decide) (by simp only [fieldSum_cons, fieldSum_nil]; omega)
    (fun v hv he hop => ?_)
  simp only [fieldSum_cons, fieldSum_nil] at hv
  simp [decodeWord, decodeSa, carriesValx, chk, he, hop, hwf, field v 18 d (by omega),
    field v 13 a (by omega), field v 8 b (by omega), rest v 1 7 (by omega), field v 0 x (by omega)]

theorem decodes_imm13 {op : Instr} (px : Px) (d a : Reg) (i : BitVec 13) (hmem : op ∈ [.addi px d a i, .andi px d a i,
    .ori px d a i, .xori px d a i, .slti px d a i, .sltiu px d a i, .sb px d a i, .sh px d a i, .sw px d a i, .sd px d
    a i, .jalr px d a i]) : Decodes op := by
  intro ws hwf henc
  simp only [List.mem_cons, List.not_mem_nil, or_false] at hmem
  casesm* _ ∨ _
  all_goals
    subst hmem
    simp [Instr.wellFormed] at hwf
    refine decode_asm henc (by simp [hwf]) (by decide) (by simp only [fieldSum_cons, fieldSum_nil]; omega)
      (fun v hv he hop => ?_)
    simp only [fieldSum_cons, fieldSum_nil] at hv
    simp [decodeWord, decodeSa, decodeSm, carriesValx, chk, he, hop, field v 18 d (by omega),
      field v 13 a (by omega), field v 0 i (by omega)]

theorem decodes_shift {op : Instr} (px : Px) (d a : Reg) (h : BitVec 6) (hmem : op ∈ [.slli px d a h, .srli px d a h,
    .srai px d a h]) : Decodes op := by
  intro ws hwf henc
  simp only [List.mem_cons, List.not_mem_nil, or_false] at hmem
  casesm* _ ∨ _
  all_goals
    subst hmem
    simp [Instr.wellFormed] at hwf
    refine decode_asm henc (by simp [hwf]) (by decide) (by simp only [fieldSum_cons, fieldSum_nil]; omega)
      (fun v hv he hop => ?_)
    simp only [fieldSum_cons, fieldSum_nil] at hv
    simp [decodeWord, decodeSa, carriesValx, chk, he, hop, hwf, field v 18 d (by omega),
      field v 13 a (by omega), rest v 6 7 (by omega), field v 0 h (by omega)]

theorem decodes_upper {op : Instr} (px : Px) (d : Reg) (u : BitVec 18) (hmem : op ∈ [.lui px d u, .auipc px d u]) :
    Decodes op := by
  intro ws hwf henc
  simp only [List.mem_cons, List.not_mem_nil, or_false] at hmem
  casesm* _ ∨ _
  all_goals
    subst hmem
    simp [Instr.wellFormed, pxOk_false] at hwf
    refine decode_asm henc (by simp [hwf]) (by decide) (by simp only [fieldSum_cons, fieldSum_nil]; omega)
      (fun v hv he hop => ?_)
    simp only [fieldSum_cons, fieldSum_nil] at hv
    simp [decodeWord, decodeSa, carriesValx, chk, he, hop, hwf, field v 18 d (by omega),
      field v 0 u (by omega)]

theorem decodes_float3 {op : Instr} (px : Px) (d a b : Reg) (s : BitVec 1) (m : BitVec 3) (hmem : op ∈ [.fadd32 px d a
    b s m, .fsub32 px d a b s m, .fmul32 px d a b s m, .fma32 px d a b s m, .fdiv32 px d a b s m]) : Decodes op := by
  intro ws hwf henc
  simp only [List.mem_cons, List.not_mem_nil, or_false] at hmem
  casesm* _ ∨ _
  all_goals
    subst hmem
    simp [Instr.wellFormed, pxOk_false] at hwf
    refine decode_asm henc (by simp [hwf]) (by decide) (by simp only [fieldSum_cons, fieldSum_nil]; omega)
      (fun v hv he hop => ?_)
    simp only [fieldSum_cons, fieldSum_nil] at hv
    simp [decodeWord, decodeSa, carriesValx, chk, he, hop, hwf, field v 18 d (by omega),
      field v 13 a (by omega), field v 8 b (by omega), rest v 4 4 (by omega), field v 3 s (by omega), field v 0 m
      (by omega)]

theorem decodes_floatSqrt {px : Px} {d a : Reg} {s : BitVec 1} {m : BitVec 3} : Decodes (.fsqrt32 px d a s m) := by
  intro ws hwf henc
  simp [Instr.wellFormed, pxOk_false] at hwf
  refine decode_asm henc (by simp [hwf]) (by decide) (by simp only [fieldSum_cons, fieldSum_nil]; omega)
    (fun v hv he hop => ?_)
  simp only [fieldSum_cons, fieldSum_nil] at hv
  simp [decodeWord, decodeSa, carriesValx, chk, he, hop, hwf, field v 18 d (by omega),
    field v 13 a (by omega), rest v 4 9 (by omega), field v 3 s (by omega), field v 0 m (by omega)]

theorem decodes_floatCompare {px : Px} {d a b : Reg} {p : BitVec 3} : Decodes (.fcmp32 px d a b p) := by
  intro ws hwf henc
  simp [Instr.wellFormed, pxOk_false] at hwf
  refine decode_asm henc (by simp [hwf]) (by decide) (by simp only [fieldSum_cons, fieldSum_nil]; omega)
    (fun v hv he hop => ?_)
  simp only [fieldSum_cons, fieldSum_nil] at hv
  simp [decodeWord, decodeSa, carriesValx, chk, he, hop, hwf, field v 18 d (by omega),
    field v 13 a (by omega), field v 8 b (by omega), rest v 3 5 (by omega), field v 0 p (by omega)]

theorem decodes_floatInt {op : Instr} (px : Px) (d a : Reg) (k : BitVec 2) (m : BitVec 3) (hmem : op ∈ [.fcvtif px d a
    k m, .fcvtfi px d a k m]) : Decodes op := by
  intro ws hwf henc
  simp only [List.mem_cons, List.not_mem_nil, or_false] at hmem
  casesm* _ ∨ _
  all_goals
    subst hmem
    simp [Instr.wellFormed, pxOk_false] at hwf
    refine decode_asm henc (by simp [hwf]) (by decide) (by simp only [fieldSum_cons, fieldSum_nil]; omega)
      (fun v hv he hop => ?_)
    simp only [fieldSum_cons, fieldSum_nil] at hv
    simp [decodeWord, decodeSa, carriesValx, chk, he, hop, hwf, field v 18 d (by omega),
      field v 13 a (by omega), rest v 5 8 (by omega), field v 3 k (by omega), field v 0 m (by omega)]

theorem decodes_narrowTo {px : Px} {d a : Reg} {s : BitVec 1} {f : BitVec 5} {m : BitVec 3} : Decodes (.fcvtffTo px d
    a s f m) := by
  intro ws hwf henc
  simp [Instr.wellFormed, pxOk_false] at hwf
  refine decode_asm henc (by simp [hwf]) (by decide) (by simp only [fieldSum_cons, fieldSum_nil]; omega)
    (fun v hv he hop => ?_)
  simp only [fieldSum_cons, fieldSum_nil] at hv
  simp [decodeWord, decodeSa, carriesValx, he, hop, hwf, field v 18 d (by omega),
    field v 13 a (by omega), rest v 10 3 (by omega), field v 9 s (by omega), rest v 8 1 (by omega), field v 3 f (by
    omega), field v 0 m (by omega)]

theorem decodes_narrowFrom {px : Px} {d a : Reg} {f : BitVec 5} {m : BitVec 3} : Decodes (.fcvtffFrom px d a f m) := by
  intro ws hwf henc
  simp [Instr.wellFormed, pxOk_false] at hwf
  refine decode_asm henc (by simp [hwf]) (by decide) (by simp only [fieldSum_cons, fieldSum_nil]; omega)
    (fun v hv he hop => ?_)
  simp only [fieldSum_cons, fieldSum_nil] at hv
  simp [decodeWord, decodeSa, carriesValx, he, hop, hwf, field v 18 d (by omega),
    field v 13 a (by omega), rest v 10 3 (by omega), fixed v 8 1 1 (by omega), fixed v 8 5 1
    (by omega), field v 3 f (by omega), field v 0 m (by omega)]

theorem decodes_load {op : Instr} (px : Px) (d a : Reg) (c : BitVec 5) (o : BitVec 8) (hmem : op ∈ [.lb px d a c o,
    .lbu px d a c o, .lh px d a c o, .lhu px d a c o, .lw px d a c o, .lwu px d a c o, .ld px d a c o]) : Decodes op
    := by
  intro ws hwf henc
  simp only [List.mem_cons, List.not_mem_nil, or_false] at hmem
  casesm* _ ∨ _
  all_goals
    subst hmem
    simp [Instr.wellFormed] at hwf
    refine decode_asm henc (by simp [hwf]) (by decide) (by simp only [fieldSum_cons, fieldSum_nil]; omega)
      (fun v hv he hop => ?_)
    simp only [fieldSum_cons, fieldSum_nil] at hv
    simp [decodeWord, decodeSm, carriesValx, chkLand, he, hop, hwf, field v 18 d (by omega),
      field v 13 a (by omega), field v 8 c (by omega), field v 0 o (by omega)]

theorem decodes_bwait {px : Px} {a : Reg} {p : BitVec 1} : Decodes (.bwait px a p) := by
  intro ws hwf henc
  simp [Instr.wellFormed, pxOk_false] at hwf
  refine decode_asm henc (by simp [hwf]) (by decide) (by simp only [fieldSum_cons, fieldSum_nil]; omega)
    (fun v hv he hop => ?_)
  simp only [fieldSum_cons, fieldSum_nil] at hv
  simp [decodeWord, decodeSm, carriesValx, chk, he, hop, hwf, rest v 18 5 (by omega),
    field v 13 a (by omega), rest v 1 12 (by omega), field v 0 p (by omega)]

theorem decodes_barrive {px : Px} {d a : Reg} {n : BitVec 8} : Decodes (.barrive px d a n) := by
  intro ws hwf henc
  simp [Instr.wellFormed, pxOk_false] at hwf
  refine decode_asm henc (by simp [hwf]) (by decide) (by simp only [fieldSum_cons, fieldSum_nil]; omega)
    (fun v hv he hop => ?_)
  simp only [fieldSum_cons, fieldSum_nil] at hv
  simp [decodeWord, decodeSm, carriesValx, chk, he, hop, hwf, field v 18 d (by omega),
    field v 13 a (by omega), rest v 8 5 (by omega), field v 0 n (by omega)]

theorem decodes_barinit {px : Px} {a : Reg} {n : BitVec 8} {k : BitVec 5} : Decodes (.barinit px a n k) := by
  intro ws hwf henc
  simp [Instr.wellFormed, pxOk_false] at hwf
  refine decode_asm henc (by simp [hwf]) (by decide) (by simp only [fieldSum_cons, fieldSum_nil]; omega)
    (fun v hv he hop => ?_)
  simp only [fieldSum_cons, fieldSum_nil] at hv
  simp [decodeWord, decodeSm, carriesValx, chk, he, hop, hwf, rest v 18 5 (by omega),
    field v 13 a (by omega), field v 5 n (by omega), field v 0 k (by omega)]

theorem decodes_branch {op : Instr} (px : Px) (x y : Reg) (i : BitVec 13) (hmem : op ∈ [.beq px x y i, .bne px x y i,
    .blt px x y i, .bge px x y i, .bltu px x y i, .bgeu px x y i]) : Decodes op := by
  intro ws hwf henc
  simp only [List.mem_cons, List.not_mem_nil, or_false] at hmem
  casesm* _ ∨ _
  all_goals
    subst hmem
    simp [Instr.wellFormed] at hwf
    refine decode_asm henc (by simp [hwf]) (by decide) (by simp only [fieldSum_cons, fieldSum_nil]; omega)
      (fun v hv he hop => ?_)
    simp only [fieldSum_cons, fieldSum_nil] at hv
    simp [decodeWord, decodeSm, carriesValx, chk, he, hop, field v 18 x (by omega),
      field v 13 y (by omega), field v 0 i (by omega)]

theorem decodes_jal {px : Px} {d : Reg} {j : BitVec 18} : Decodes (.jal px d j) := by
  intro ws hwf henc
  simp [Instr.wellFormed, pxOk_false] at hwf
  refine decode_asm henc (by simp [hwf]) (by decide) (by simp only [fieldSum_cons, fieldSum_nil]; omega)
    (fun v hv he hop => ?_)
  simp only [fieldSum_cons, fieldSum_nil] at hv
  simp [decodeWord, decodeSm, carriesValx, chk, he, hop, hwf, field v 18 d (by omega),
    field v 0 j (by omega)]

theorem decodes_csr {op : Instr} (px : Px) (d a : Reg) (c : BitVec 12) (hmem : op ∈ [.csrrw px d a c, .csrrs px d a c,
    .csrrc px d a c]) : Decodes op := by
  intro ws hwf henc
  simp only [List.mem_cons, List.not_mem_nil, or_false] at hmem
  casesm* _ ∨ _
  all_goals
    subst hmem
    simp [Instr.wellFormed, pxOk_false] at hwf
    refine decode_asm henc (by simp [hwf]) (by decide) (by simp only [fieldSum_cons, fieldSum_nil]; omega)
      (fun v hv he hop => ?_)
    simp only [fieldSum_cons, fieldSum_nil] at hv
    simp [decodeWord, decodeSm, carriesValx, chk, chkCsr, he, hop, hwf, field v 18 d (by omega),
      field v 13 a (by omega), rest v 12 1 (by omega), field v 0 c (by omega)]

theorem decodes_vlset {px : Px} {d a : Reg} {w : BitVec 3} : Decodes (.vlset px d a w) := by
  intro ws hwf henc
  simp [Instr.wellFormed, pxOk_false] at hwf
  refine decode_asm henc (by simp [hwf]) (by decide) (by simp only [fieldSum_cons, fieldSum_nil]; omega)
    (fun v hv he hop => ?_)
  simp only [fieldSum_cons, fieldSum_nil] at hv
  simp [decodeWord, decodeSm, carriesValx, chk, he, hop, hwf, field v 18 d (by omega),
    field v 13 a (by omega), rest v 3 10 (by omega), field v 0 w (by omega)]

theorem decodes_scopewr {px : Px} {d a : Reg} {n : BitVec 1} {e : BitVec 5} : Decodes (.scopewr px d a n e) := by
  intro ws hwf henc
  simp [Instr.wellFormed, pxOk_false] at hwf
  refine decode_asm henc (by simp [hwf]) (by decide) (by simp only [fieldSum_cons, fieldSum_nil]; omega)
    (fun v hv he hop => ?_)
  simp only [fieldSum_cons, fieldSum_nil] at hv
  simp [decodeWord, decodeSm, carriesValx, chk, he, hop, hwf, field v 18 d (by omega),
    field v 13 a (by omega), rest v 6 7 (by omega), field v 5 n (by omega), field v 0 e (by omega)]

theorem decodes_scopeinv {px : Px} {d : Reg} {n : BitVec 1} {e : BitVec 5} : Decodes (.scopeinv px d n e) := by
  intro ws hwf henc
  simp [Instr.wellFormed, pxOk_false] at hwf
  refine decode_asm henc (by simp [hwf]) (by decide) (by simp only [fieldSum_cons, fieldSum_nil]; omega)
    (fun v hv he hop => ?_)
  simp only [fieldSum_cons, fieldSum_nil] at hv
  simp [decodeWord, decodeSm, carriesValx, chk, he, hop, hwf, field v 18 d (by omega),
    rest v 6 12 (by omega), field v 5 n (by omega), field v 0 e (by omega)]

theorem decodes_bare {op : Instr} (px : Px) (hmem : op ∈ [.recordOff px, .ebreak px, .trapret px, .wfe px, .lsync px,
    .drainSpad px, .nodeb px, .yield px, .texit px]) : Decodes op := by
  intro ws hwf henc
  simp only [List.mem_cons, List.not_mem_nil, or_false] at hmem
  casesm* _ ∨ _
  all_goals
    subst hmem
    simp [Instr.wellFormed, pxOk_false] at hwf
    refine decode_asm henc (by simp [hwf]) (by decide) (by simp only [fieldSum_nil]; omega)
      (fun v hv he hop => ?_)
    simp only [fieldSum_nil] at hv
    simp [decodeWord, decodeSm, carriesValx, chk, he, hop, hwf, rest v 0 23 (by omega)]

theorem decodes_bareOne {op : Instr} (px : Px) (hmem : op ∈ [.recordOn px, .drainDev px]) : Decodes op := by
  intro ws hwf henc
  simp only [List.mem_cons, List.not_mem_nil, or_false] at hmem
  casesm* _ ∨ _
  all_goals
    subst hmem
    simp [Instr.wellFormed, pxOk_false] at hwf
    refine decode_asm henc (by simp [hwf]) (by decide) (by simp only [fieldSum_nil]; omega)
      (fun v hv he hop => ?_)
    simp only [fieldSum_nil] at hv
    simp [decodeWord, decodeSm, carriesValx, he, hop, hwf, fixed v 0 23 1 (by
      omega)]

theorem decodes_bareTwo {op : Instr} (px : Px) (hmem : op ∈ [.recordMark px, .drainDom px]) : Decodes op := by
  intro ws hwf henc
  simp only [List.mem_cons, List.not_mem_nil, or_false] at hmem
  casesm* _ ∨ _
  all_goals
    subst hmem
    simp [Instr.wellFormed, pxOk_false] at hwf
    refine decode_asm henc (by simp [hwf]) (by decide) (by simp only [fieldSum_nil]; omega)
      (fun v hv he hop => ?_)
    simp only [fieldSum_nil] at hv
    simp [decodeWord, decodeSm, carriesValx, he, hop, hwf, fixed v 0 23 2 (by
      omega)]

theorem decodes_reverse {px : Px} {a : Reg} : Decodes (.reverse px a) := by
  intro ws hwf henc
  simp [Instr.wellFormed, pxOk_false] at hwf
  refine decode_asm henc (by simp [hwf]) (by decide) (by simp only [fieldSum_cons, fieldSum_nil]; omega)
    (fun v hv he hop => ?_)
  simp only [fieldSum_cons, fieldSum_nil] at hv
  simp [decodeWord, decodeSm, carriesValx, chk, he, hop, hwf, rest v 18 5 (by omega),
    field v 13 a (by omega), rest v 0 13 (by omega)]

theorem decodes_ecall {px : Px} {n : BitVec 12} : Decodes (.ecall px n) := by
  intro ws hwf henc
  simp [Instr.wellFormed, pxOk_false] at hwf
  refine decode_asm henc (by simp [hwf]) (by decide) (by simp only [fieldSum_cons, fieldSum_nil]; omega)
    (fun v hv he hop => ?_)
  simp only [fieldSum_cons, fieldSum_nil] at hv
  simp [decodeWord, decodeSm, carriesValx, chk, he, hop, hwf, rest v 12 11 (by omega),
    field v 0 n (by omega)]

theorem decodes_fences {px : Px} {k : BitVec 5} : Decodes (.fences px k) := by
  intro ws hwf henc
  simp [Instr.wellFormed, pxOk_false] at hwf
  refine decode_asm henc (by simp [hwf]) (by decide) (by simp only [fieldSum_cons, fieldSum_nil]; omega)
    (fun v hv he hop => ?_)
  simp only [fieldSum_cons, fieldSum_nil] at hv
  simp [decodeWord, decodeSm, carriesValx, chk, he, hop, hwf, rest v 5 18 (by omega),
    field v 0 k (by omega)]

theorem decodes_panel {op : Instr} (px : Px) (d : Reg) (hmem : op ∈ [.cursor px d, .pstep px d]) : Decodes op := by
  intro ws hwf henc
  simp only [List.mem_cons, List.not_mem_nil, or_false] at hmem
  casesm* _ ∨ _
  all_goals
    subst hmem
    simp [Instr.wellFormed, pxOk_false] at hwf
    refine decode_asm henc (by simp [hwf]) (by decide) (by simp only [fieldSum_cons, fieldSum_nil]; omega)
      (fun v hv he hop => ?_)
    simp only [fieldSum_cons, fieldSum_nil] at hv
    simp [decodeWord, decodeSm, carriesValx, chk, he, hop, hwf, field v 18 d (by omega),
      rest v 0 18 (by omega)]

theorem decodes_future {op : Instr} (px : Px) (d a : Reg) (i : BitVec 5) (hmem : op ∈ [.frd px d a i, .fwr px d a i])
    : Decodes op := by
  intro ws hwf henc
  simp only [List.mem_cons, List.not_mem_nil, or_false] at hmem
  casesm* _ ∨ _
  all_goals
    subst hmem
    simp [Instr.wellFormed, pxOk_false] at hwf
    refine decode_asm henc (by simp [hwf]) (by decide) (by simp only [fieldSum_cons, fieldSum_nil]; omega)
      (fun v hv he hop => ?_)
    simp only [fieldSum_cons, fieldSum_nil] at hv
    simp [decodeWord, decodeSm, carriesValx, chk, he, hop, hwf, field v 18 d (by omega),
      field v 13 a (by omega), rest v 5 8 (by omega), field v 0 i (by omega)]

theorem decodes_tmld {px : Px} {a : Reg} {c : BitVec 3} {f : BitVec 6} {n : BitVec 4} : Decodes (.tmld px a c f n) := by
  intro ws hwf henc
  simp [Instr.wellFormed, pxOk_false] at hwf
  refine decode_asm henc (by simp [hwf]) (by decide) (by simp only [fieldSum_cons, fieldSum_nil]; omega)
    (fun v hv he hop => ?_)
  simp only [fieldSum_cons, fieldSum_nil] at hv
  simp [decodeWord, decodeSm, carriesValx, chk, he, hop, hwf, rest v 18 5 (by omega),
    field v 13 a (by omega), field v 10 c (by omega), field v 4 f (by omega), field v 0 n (by omega)]

theorem decodes_atomic {op : Instr} (px : Px) (d a : Reg) (w o : BitVec 2) (k : BitVec 5) (hmem : op ∈ [.amoadd px d a
    w o k, .amoand px d a w o k, .amoor px d a w o k, .amoxor px d a w o k, .amomin px d a w o k, .amomax px d a w o
    k, .amominu px d a w o k, .amomaxu px d a w o k, .amoswap px d a w o k, .amocas px d a w o k]) : Decodes op := by
  intro ws hwf henc
  simp only [List.mem_cons, List.not_mem_nil, or_false] at hmem
  casesm* _ ∨ _
  all_goals
    subst hmem
    simp [Instr.wellFormed, pxOk_false] at hwf
    refine decode_asm henc (by simp [hwf]) (by decide) (by simp only [fieldSum_cons, fieldSum_nil]; omega)
      (fun v hv he hop => ?_)
    simp only [fieldSum_cons, fieldSum_nil] at hv
    simp [decodeWord, decodeSm, carriesValx, chk, he, hop, hwf, field v 18 d (by omega),
      field v 13 a (by omega), field v 11 w (by omega), field v 9 o (by omega), rest v 5 4 (by omega), field v 0 k
      (by omega)]

theorem decodes_ldaq {px : Px} {d a : Reg} {w : BitVec 2} {k : BitVec 5} : Decodes (.ldaq px d a w k) := by
  intro ws hwf henc
  simp [Instr.wellFormed, pxOk_false] at hwf
  refine decode_asm henc (by simp [hwf]) (by decide) (by simp only [fieldSum_cons, fieldSum_nil]; omega)
    (fun v hv he hop => ?_)
  simp only [fieldSum_cons, fieldSum_nil] at hv
  simp [decodeWord, decodeSm, carriesValx, chk, he, hop, hwf, field v 18 d (by omega),
    field v 13 a (by omega), field v 11 w (by omega), fixed v 5 6 16 (by omega), field v 0 k (by omega)]

theorem decodes_strl {px : Px} {d a : Reg} {w : BitVec 2} {k : BitVec 5} : Decodes (.strl px d a w k) := by
  intro ws hwf henc
  simp [Instr.wellFormed, pxOk_false] at hwf
  refine decode_asm henc (by simp [hwf]) (by decide) (by simp only [fieldSum_cons, fieldSum_nil]; omega)
    (fun v hv he hop => ?_)
  simp only [fieldSum_cons, fieldSum_nil] at hv
  simp [decodeWord, decodeSm, carriesValx, chk, he, hop, hwf, field v 18 d (by omega),
    field v 13 a (by omega), field v 11 w (by omega), fixed v 5 6 32 (by omega), field v 0 k (by omega)]

theorem decodes_amofadd {px : Px} {d a : Reg} {o : BitVec 2} {k : BitVec 5} : Decodes (.amofadd px d a o k) := by
  intro ws hwf henc
  simp [Instr.wellFormed, pxOk_false] at hwf
  refine decode_asm henc (by simp [hwf]) (by decide) (by simp only [fieldSum_cons, fieldSum_nil]; omega)
    (fun v hv he hop => ?_)
  simp only [fieldSum_cons, fieldSum_nil] at hv
  simp [decodeWord, decodeSm, carriesValx, chk, he, hop, hwf, field v 18 d (by omega),
    field v 13 a (by omega), rest v 11 2 (by omega), field v 9 o (by omega), rest v 5 4 (by omega), field v 0 k (by
    omega)]

theorem decodes_dmsetc {px : Px} {a : Reg} {z : BitVec 1} : Decodes (.dmsetc px a z) := by
  intro ws hwf henc
  simp [Instr.wellFormed, pxOk_false] at hwf
  refine decode_asm henc (by simp [hwf]) (by decide) (by simp only [fieldSum_cons, fieldSum_nil]; omega)
    (fun v hv he hop => ?_)
  simp only [fieldSum_cons, fieldSum_nil] at hv
  simp [decodeWord, decodeSm, carriesValx, chk, he, hop, hwf, rest v 18 5 (by omega),
    field v 13 a (by omega), rest v 1 12 (by omega), field v 0 z (by omega)]

theorem decodes_dred {px : Px} {d a : Reg} {o : BitVec 3} : Decodes (.dred px d a o) := by
  intro ws hwf henc
  simp [Instr.wellFormed, pxOk_false] at hwf
  refine decode_asm henc (by simp [hwf]) (by decide) (by simp only [fieldSum_cons, fieldSum_nil]; omega)
    (fun v hv he hop => ?_)
  simp only [fieldSum_cons, fieldSum_nil] at hv
  simp [decodeWord, decodeSm, carriesValx, chk, he, hop, hwf, field v 18 d (by omega),
    field v 13 a (by omega), rest v 3 10 (by omega), field v 0 o (by omega)]

theorem decodes_dbcast {px : Px} {d a : Reg} {r : BitVec 3} : Decodes (.dbcast px d a r) := by
  intro ws hwf henc
  simp [Instr.wellFormed, pxOk_false] at hwf
  refine decode_asm henc (by simp [hwf]) (by decide) (by simp only [fieldSum_cons, fieldSum_nil]; omega)
    (fun v hv he hop => ?_)
  simp only [fieldSum_cons, fieldSum_nil] at hv
  simp [decodeWord, decodeSm, carriesValx, chk, he, hop, hwf, field v 18 d (by omega),
    field v 13 a (by omega), rest v 3 10 (by omega), field v 0 r (by omega)]

theorem template_round (t : Template) : templateOfList (wordsOfTemplate t) = some t := by
  have word : ∀ fs : List (Nat × Nat), fieldSum 0 fs < 2 ^ 32 → (packFields 0 fs).toNat = fieldSum 0 fs :=
    fun fs h => by
    rw [packFields_eq, BitVec.toNat_ofNat, Nat.mod_eq_of_lt h]
  obtain ⟨opc, mod, cw, fmt, d, a, b, cmask, cscal, wait, seten, setsl, land, len, imm⟩ := t
  simp only [wordsOfTemplate, templateOfList, templateOfWords, Option.some.injEq]
  have h1 := word [(seten.toNat, 31), (setsl.toNat, 28), (land.toNat, 20), (len.toNat, 0)] (by
    simp only [fieldSum_cons, fieldSum_nil]; omega)
  have h2 := word [(a.toNat, 24), (b.toNat, 16), (cmask.toNat, 13), (cscal.toNat, 8), (wait.toNat, 0)] (by
    simp only [fieldSum_cons, fieldSum_nil]; omega)
  have h3 := word [(opc.toNat, 24), (mod.toNat, 16), (cw.toNat, 13), (fmt.toNat, 8), (d.toNat, 0)] (by
    simp only [fieldSum_cons, fieldSum_nil]; omega)
  simp only [fieldSum_cons, fieldSum_nil] at h1 h2 h3
  generalize packFields 0 _ = w1 at h1 ⊢
  generalize packFields 0 _ = w2 at h2 ⊢
  generalize packFields 0 _ = w3 at h3 ⊢
  rw [field w3 24 opc (by omega), field w3 16 mod (by omega), field w3 13 cw (by omega), field w3 8 fmt (by omega),
    field w3 0 d (by omega), field w2 24 a (by omega), field w2 16 b (by omega), field w2 13 cmask (by omega),
    field w2 8 cscal (by omega), field w2 0 wait (by omega), field w1 31 seten (by omega), field w1 28 setsl (by omega),
    field w1 20 land (by omega), field w1 0 len (by omega)]

theorem decodes_tmpli {c : BitVec 3} {n : BitVec 6} {w0 w1 w2 w3 : Word} : Decodes (.tmpli c n w0 w1 w2 w3) := by
  intro ws hwf henc
  simp [Instr.wellFormed] at hwf
  have hv : (packFields 0xe8000000 [(c.toNat, 23), (n.toNat, 17)]).toNat = 0xe8000000 + c.toNat * 2 ^ 23 + n.toNat * 2
    ^ 17 := by
    rw [packFields_eq, BitVec.toNat_ofNat, fieldSum_cons, fieldSum_cons, fieldSum_nil]
    omega
  cases henc
  generalize packFields 0xe8000000 [(c.toNat, 23), (n.toNat, 17)] = v at hv ⊢
  have he : v.extractLsb' 29 3 = 7#3 := fixed v 29 3 7 (by omega)
  have hk : (v.extractLsb' 26 3).toNat = 2 := field_toNat v 26 3 (by omega)
  simp [decode, decodeTmpli, he, hk, hwf, field v 23 c (by omega), field v 17 n (by omega), rest v 0 17 (by omega)]

theorem ok_of_chk {ok : Bool} {i j : Instr} (h : chk ok i = .ok j) : i = j := by
  unfold chk at h
  split at h
  · exact Except.ok.inj h
  · cases h

theorem ok_of_chkLand {c : Reg} {i j : Instr} (h : chkLand c i = .ok j) : i = j := by
  unfold chkLand at h
  split at h
  · exact Except.ok.inj h
  · cases h

theorem ok_of_chkCsr {px : Px} {w : Word} {ok : Bool} {i j : Instr} (h : chkCsr px w ok i = .ok j) :
    i = j ∨ .illegalOpcode px w = j := by
  unfold chkCsr at h
  split at h
  · exact .inl (ok_of_chk h)
  · exact .inr (Except.ok.inj h)

/-- Of the scalar words, only an opcode outside the table names the undefined instruction, with
its word. -/
theorem illegal_of_decodeSa {px p : Px} {w u : Word} (h : decodeSa px w = .ok (.illegalOpcode p u)) :
    p = px ∧ u = w := by
  unfold decodeSa at h
  split at h
  case h_53 => split_ifs at h <;> cases h
  case h_54 => cases h; exact ⟨rfl, rfl⟩
  all_goals cases ok_of_chk h

/-- Of the memory and system words, an opcode outside the table and an undefined CSR do so. -/
theorem illegal_of_decodeSm {px p : Px} {w u : Word} (h : decodeSm px w = .ok (.illegalOpcode p u)) :
    p = px ∧ u = w := by
  unfold decodeSm at h
  split at h
  case h_24 | h_25 | h_26 =>
    obtain h | h := ok_of_chkCsr h
    · cases h
    · cases h; exact ⟨rfl, rfl⟩
  case h_30 | h_38 => split_ifs at h <;> cases h
  case h_63 => cases h; exact ⟨rfl, rfl⟩
  all_goals first
    | cases ok_of_chk h
    | cases ok_of_chkLand h

theorem illegal_of_decodeWord {px p : Px} {w u : Word} (h : decodeWord px w = .ok (.illegalOpcode p u)) :
    p = px ∧ u = w := by
  unfold decodeWord at h
  dsimp only at h
  split at h
  · cases h; exact ⟨rfl, rfl⟩
  split at h
  · exact illegal_of_decodeSa h
  split at h
  · exact illegal_of_decodeSm h
  split at h
  · cases h
  · cases h; exact ⟨rfl, rfl⟩

theorem decodes_illegalOpcode {px : Px} {w : Word} : Decodes (.illegalOpcode px w) := by
  intro ws hwf henc
  cases henc
  simp only [Instr.wellFormed, illegalWord] at hwf
  split at hwf
  · next e =>
    have hw : w.extractLsb' 29 3 ≠ 7#3 := by simpa using hwf
    rw [decode_pxWords px hw, finishDecode, e]
    obtain ⟨rfl, rfl⟩ := illegal_of_decodeWord e
    rfl
  · cases hwf

theorem decodes_commandFormation {px : Px} {e : Eng} {tix : BitVec 6} {tok : BitVec 4} {fsel : BitVec 3} {val :
    BitVec 16} :
    Decodes (.commandFormation px e tix tok fsel val) := by
  intro ws hwf henc
  have hp : pxOk px true = true := hwf
  obtain ⟨v, hv, rfl⟩ : ∃ v : Word, v.toNat =
      eclsOf e * 2 ^ 29 + tix.toNat * 2 ^ 23 + tok.toNat * 2 ^ 19 + fsel.toNat * 2 ^ 16 + val.toNat ∧
        pxWords px ++ [v] = ws := by
    refine ⟨packFields 0 [(eclsOf e, 29), (tix.toNat, 23), (tok.toNat, 19), (fsel.toNat, 16), (val.toNat, 0)], ?_,
      Option.some.inj henc⟩
    have : eclsOf e < 7 := by cases e <;> decide
    rw [packFields_eq, BitVec.toNat_ofNat, fieldSum_cons, fieldSum_cons, fieldSum_cons, fieldSum_cons, fieldSum_cons,
      fieldSum_nil]
    omega
  have he : (v.extractLsb' 29 3).toNat = eclsOf e :=
    field_toNat v 29 3 (by cases e <;> simp only [eclsOf] at hv ⊢ <;> omega)
  rw [decode_pxWords px (fun h => by rw [h] at he; cases e <;> cases he)]
  refine finishDecode_ok _ hp ?_
  have fields : v.extractLsb' 23 6 = tix ∧ v.extractLsb' 19 4 = tok ∧ v.extractLsb' 16 3 = fsel ∧
    v.extractLsb' 0 16 = val :=
    ⟨field v 23 tix (by omega), field v 19 tok (by omega), field v 16 fsel (by omega), field v 0 val (by omega)⟩
  cases e <;> simp [decodeWord, carriesValx, he, eclsOf, engOfEcls, fields]

theorem decodes (i : Instr) : Decodes i := by
  cases i
  case add px d a b | sub px d a b | and px d a b | or px d a b | xor px d a b | sll px d a b | srl px d a b | sra
      px d a b | slt px d a b | sltu px d a b | mul px d a b | mulh px d a b | mulhu px d a b | div px d a b | divu
      px d a b | rem px d a b | remu px d a b | min px d a b | max px d a b | minu px d a b | maxu px d a b | addw
      px d a b | subw px d a b | cmov px d a b | fmin32 px d a b | fmax32 px d a b =>
    exact decodes_threeRegisters px d a b (by simp)
  case clz px d a | ctz px d a | popc px d a | bararm px d a =>
    exact decodes_twoRegisters px d a (by simp)
  case sext px d a w | zext px d a w =>
    exact decodes_extend px d a w (by simp)
  case bfx => exact decodes_extractField
  case addi px d a i | andi px d a i | ori px d a i | xori px d a i | slti px d a i | sltiu px d a i | sb px d a i |
      sh px d a i | sw px d a i | sd px d a i | jalr px d a i =>
    exact decodes_imm13 px d a i (by simp)
  case slli px d a h | srli px d a h | srai px d a h =>
    exact decodes_shift px d a h (by simp)
  case lui px d u | auipc px d u =>
    exact decodes_upper px d u (by simp)
  case fadd32 px d a b s m | fsub32 px d a b s m | fmul32 px d a b s m | fma32 px d a b s m | fdiv32 px d a b s m =>
    exact decodes_float3 px d a b s m (by simp)
  case fsqrt32 => exact decodes_floatSqrt
  case fcmp32 => exact decodes_floatCompare
  case fcvtif px d a k m | fcvtfi px d a k m =>
    exact decodes_floatInt px d a k m (by simp)
  case fcvtffTo => exact decodes_narrowTo
  case fcvtffFrom => exact decodes_narrowFrom
  case lb px d a c o | lbu px d a c o | lh px d a c o | lhu px d a c o | lw px d a c o | lwu px d a c o | ld px d a
      c o =>
    exact decodes_load px d a c o (by simp)
  case bwait => exact decodes_bwait
  case barrive => exact decodes_barrive
  case barinit => exact decodes_barinit
  case beq px x y i | bne px x y i | blt px x y i | bge px x y i | bltu px x y i | bgeu px x y i =>
    exact decodes_branch px x y i (by simp)
  case jal => exact decodes_jal
  case csrrw px d a c | csrrs px d a c | csrrc px d a c =>
    exact decodes_csr px d a c (by simp)
  case vlset => exact decodes_vlset
  case scopewr => exact decodes_scopewr
  case scopeinv => exact decodes_scopeinv
  case recordOff px | ebreak px | trapret px | wfe px | lsync px | drainSpad px | nodeb px | yield px | texit px =>
    exact decodes_bare px (by simp)
  case recordOn px | drainDev px =>
    exact decodes_bareOne px (by simp)
  case recordMark px | drainDom px =>
    exact decodes_bareTwo px (by simp)
  case reverse => exact decodes_reverse
  case ecall => exact decodes_ecall
  case fences => exact decodes_fences
  case cursor px d | pstep px d =>
    exact decodes_panel px d (by simp)
  case frd px d a i | fwr px d a i =>
    exact decodes_future px d a i (by simp)
  case tmld => exact decodes_tmld
  case amoadd px d a w o k | amoand px d a w o k | amoor px d a w o k | amoxor px d a w o k | amomin px d a w o k |
      amomax px d a w o k | amominu px d a w o k | amomaxu px d a w o k | amoswap px d a w o k | amocas px d a w o k
      =>
    exact decodes_atomic px d a w o k (by simp)
  case ldaq => exact decodes_ldaq
  case strl => exact decodes_strl
  case amofadd => exact decodes_amofadd
  case dmsetc => exact decodes_dmsetc
  case dred => exact decodes_dred
  case dbcast => exact decodes_dbcast
  case tmpli => exact decodes_tmpli
  case commandFormation => exact decodes_commandFormation
  case illegalOpcode => exact decodes_illegalOpcode
  all_goals exact fun ws _ henc => (Option.some_ne_none ws henc.symm).elim

/-- An operation of an engine has its template's words and none of its own. -/
theorem wordless_of_template {e : Eng} {k : BitVec 8} {f : Template → Instr} {t : Template}
    (hwf : (t.opc == k && templateOk e t) = true) (hd : ∀ t : Template,
      decodeTemplate e { t with opc := k } = some (f { t with opc := k })) :
    wordless (f t) := by
  have hk : t.opc = k := by simpa using (Bool.and_eq_true_iff.mp hwf).1
  subst hk
  exact .inr (.inr (.inr (.inr (.inr (.inr ⟨e, t, hd t⟩)))))

theorem exists_encode (i : Instr) (hwf : Instr.wellFormed i = true) (hw : ¬ wordless i) :
    ∃ ws, encode i = some ws := by
  cases i
  case ald | alds | ald2 | agath | aldt | aring | aspx | aqcfg | apref | sst | ssts | sst2 | sscat | sacc | sspx |
      stag | feset | vadd | vsub | vmul | vfma | vfms | vmin | vmax | vabs | vneg | vdiv | vsqrt | vrsq | vexp |
      vlog | vtanh | vsigm | vand | vor | vxor | vnot | vshl | vshr | vshrr | vdot2 | vdot4 | vsadd | vssub | vmulh
      | vcmp | vsel | vclass | vslide | vperm | vzip | vunzip | vbcast | vextr | vredsum | vredsumo | vredmax |
      vredmin | vcvt | vqnt | vtagr | vtagw | vsexp | vpop | vpush | vldr | vstr | kand | kor | knot | kpopc |
      kfirst | vrda | vwra | vmov | vid | vseti | mlease | mrelease | ringcfg | ringput | ringpop | ringqry | tmma |
      tmmap | tzero | tadd | tsub | tmul | tscl | tbias | tact | trsum | tcsum | trmax | ttrans | tcvt | tloada |
      tcopy | jcopy | jfill | jpref | jcopy2 | jgath | jscat | jred | jcoll | jrecode | jtens =>
    exact (hw (wordless_of_template hwf fun _ => rfl)).elim
  case hmaskChange | domainWindowConfig | tdBoot | watchSet | registerWrite | applicationHartAccess |
      domainAccessArrival | scopeChangeInstall | spatulaRecord | wfeTimeout | engineDeadlock | loadDataArrival |
      loadLanding | mcUncorrectable | leaseGrant | leaseTimeout | leaseIdleExpiry | tileSpill | jobStart |
      jobSectorWrite | jobComplete | jobResume | jobFaultRaise | ctxalloc | ctxfree | ctxabort | ctxcmdInvalid |
      purgeComplete | hcmdResume | hcmdInvalid | qcmdEnable | qcmdPause | qcmdResume | qcmdDrain | qcmdDisable |
      qcmdSkip | qcmdInvalid | qtbaseWrite | doorbellWrite | launchAdmission | kernelNode | jobNode | eventSet |
      eventWait | eventWaitReread | eventMsi | condNode | loopNode | switchNode | kernelPlacement | cursorWake |
      preemptionDeadline | hartRestore | dieRemapRequest | quiesceGateAck | pitcmdWrite | pitcmdMigrate |
      pitcmdRecode | pitcmdInvalid | passStart | backgroundPassStart | passSectorStep | rd | wr | wrm | trd | tagw |
      mrr | packetReply | refresh | scrubStep | heartbeatMissing | refreshHandover | linkTrainingStart |
      linkTrainingComplete | linkTrainingTimeout | linkStepUp | linkStepDown | linkRatePolicy | flitReplay |
      linkRetrainComplete | linkHoldExpiry | collectiveContribution | collectiveTimeout | collectiveAck | deviceRead
      | deviceWrite | dieRelease | dieReadyTimeout | rekeyRequest | getVersion | getCapabilities |
      negotiateAlgorithms | getDigests | getCertificate | challenge | getMeasurements | keyExchange | powerTick |
      thermalTrip | applicationHartFence | accessPerformed | cxlBackInvalidation =>
    exact (hw (.inl rfl)).elim
  case formationFaultRaise => exact (hw (.inr (.inl rfl))).elim
  case commandCompletion => exact (hw (.inr (.inr (.inl rfl)))).elim
  case pageAbsentReply => exact (hw (.inr (.inr (.inr (.inl ⟨_, rfl⟩))))).elim
  case prtabaWrite => exact (hw (.inr (.inr (.inr (.inr (.inl ⟨_, _, _, _, .inl rfl⟩)))))).elim
  case dmaskAccess => exact (hw (.inr (.inr (.inr (.inr (.inl ⟨_, _, _, _, .inr rfl⟩)))))).elim
  case xstatSrseedAccess => exact (hw (.inr (.inr (.inr (.inr (.inr (.inl ⟨_, _, _, _, _, .inl rfl⟩))))))).elim
  case tapeCsrAccess => exact (hw (.inr (.inr (.inr (.inr (.inr (.inl ⟨_, _, _, _, _, .inr rfl⟩))))))).elim
  all_goals exact ⟨_, rfl⟩

/-! ## Templates: the table of each class names what its opcodes decode to -/

theorem decodeTemplate_eq_none {e : Eng} {t : Template} (h : t.opc.toNat ∉ (opcodes e).map (·.1)) :
    decodeTemplate e t = none := by
  delta decodeTemplate decodeTemplate.match_1
  generalize t.opc.toNat = n at h ⊢
  cases e
  all_goals
    simp only [opcodes, numbered, List.zipIdx_cons, List.zipIdx_nil, List.map_cons, List.map_nil, List.cons_append,
      List.nil_append, List.mem_cons, List.not_mem_nil, or_false, Nat.reduceAdd, not_or] at h
    simp only [h, dite_false]

theorem templateForm_eq_none {e : Eng} {t : Template} (h : t.opc.toNat ∉ (opcodes e).map (·.1)) :
    templateForm e t = none := by
  cases e
  all_goals
    simp only [opcodes, numbered, List.zipIdx_cons, List.zipIdx_nil, List.map_cons, List.map_nil, List.cons_append,
      List.nil_append, Nat.reduceAdd, List.mem_cons, List.not_mem_nil, or_false, not_or] at h
    simp only [templateForm, formLd, formXv, formMx, formSt, formJb]
    split
  any_goals omega
  all_goals rfl

theorem templateOk_eq_false {e : Eng} {t : Template} (h : t.opc.toNat ∉ (opcodes e).map (·.1)) :
    templateOk e t = false := by
  rw [templateOk, templateForm_eq_none h]

theorem decodeTemplate_of_mem {e : Eng} {t : Template} {x : Nat × (Template → Instr)} (hx : x ∈ opcodes e)
    (h : t.opc.toNat = x.1) : decodeTemplate e t = some (x.2 t) := by
  delta decodeTemplate
  generalize t.opc.toNat = n at h ⊢
  subst h
  cases e
  all_goals
    simp only [opcodes, numbered, List.zipIdx_cons, List.zipIdx_nil, List.map_cons, List.map_nil, List.cons_append,
      List.nil_append, List.mem_cons, List.not_mem_nil, or_false, Nat.reduceAdd] at hx
    casesm* _ ∨ _
  all_goals
    subst hx
    rfl

theorem wellFormed_of_mem {e : Eng} {t : Template} {x : Nat × (Template → Instr)} (ht : templateOk e t = true)
    (hx : x ∈ opcodes e) (h : t.opc.toNat = x.1) : (x.2 t).wellFormed = true := by
  have hopc : ∀ k : Nat, t.opc.toNat = k → (t.opc == BitVec.ofNat 8 k) = true := fun k h => by
    rw [← h, BitVec.ofNat_toNat, BitVec.setWidth_eq]; exact beq_self_eq_true _
  cases e
  all_goals
    simp only [opcodes, numbered, List.zipIdx_cons, List.zipIdx_nil, List.map_cons, List.map_nil, List.cons_append,
      List.nil_append, List.mem_cons, List.not_mem_nil, or_false, Nat.reduceAdd] at hx
    casesm* _ ∨ _
  all_goals
    subst hx
    exact Bool.and_eq_true_iff.mpr ⟨hopc _ h, ht⟩

/-- A valid template has an opcode of its class's table. -/
theorem mem_opcodes_of_templateOk {e : Eng} {t : Template} (ht : templateOk e t = true) :
    ∃ x ∈ opcodes e, x.1 = t.opc.toNat := by
  by_contra hx
  rw [templateOk_eq_false fun h => hx (List.mem_map.mp h)] at ht
  cases ht

/-- Settles O55: each form of words is read back field by field, for all the operations that share it, and a valid
template by its class's table. -/
theorem encodeDecode : Obligations.EncodeDecode := by
  unfold Obligations.EncodeDecode
  refine ⟨exists_encode, fun i ws hwf h => decodes i ws hwf h, template_round, fun e t =>
    ⟨fun x hx h => decodeTemplate_of_mem hx h, fun ht => ?_,
      fun h => ⟨decodeTemplate_eq_none h, templateOk_eq_false h⟩⟩⟩
  obtain ⟨x, hx, h⟩ := mem_opcodes_of_templateOk ht
  exact ⟨x, hx, h.symm, wellFormed_of_mem ht hx h.symm⟩

end Sys2Proof.Coding
end

section
/-! PROOFS. Integer immediate and one-source forms (R90, R125, R126). -/

namespace Sys2Proof.ScalarForms

open Sys2Proof Sys2Proof.Machine Sys2Proof.Claim Sys2Proof.Laws Sys2Proof.Scalar

-- One proof is checked at a time: this keeps the check of the whole text within its memory.
set_option Elab.async false

section
variable {s : State} {hid : Nat} {h : Hart} {px : Px}

/-- An instruction that runs beside some registers runs beside fewer. -/
theorem runs_of_subset {regs regs' : List Nat} (r : Runs s px regs hid h) (hs : regs' ⊆ regs) :
    Runs s px regs' hid h := by
  obtain ⟨hf, hl, hp, hr⟩ := r
  exact ⟨hf, hl, hp, List.any_eq_false.mpr fun n hn => List.any_eq_false.mp hr n (hs hn)⟩

theorem withHart_of_runs {regs : List Nat} (r : Runs s px regs hid h) (f : Nat → Hart → Out) :
    withHart s f = f hid h := by
  obtain ⟨rfl, hl, -, -⟩ := r
  exact withHart_some hl f

/-- An instruction of the form d := f(a) that runs writes f of each active row's operand. -/
theorem exec_of_op1 {i : Instr} {d a : Reg} {f : Dword → Dword} {v : Nat → Dword}
    (r : Runs s px [d.toNat, a.toNat] hid h) (hi : exec i s = op1 s px d a f) (hf : ∀ j, f (h.reg j a.toNat) = v j) :
    exec i s = goes (rowsWritten s hid h px d v) := by
  rw [hi, op1, rowOp, withRegs_of_runs r, rowsWritten, funext hf]

/-- An instruction of the form d := f(a, imm13) that runs. -/
theorem exec_of_opImm {i : Instr} {d a : Reg} {im : BitVec 13} {f : Dword → Dword → Dword} {v : Nat → Dword}
    (r : Runs s px [d.toNat, a.toNat] hid h) (hi : exec i s = opImm s px d a im f)
    (hf : ∀ j, f (h.reg j a.toNat) (pxImm px im) = v j) : exec i s = goes (rowsWritten s hid h px d v) := by
  rw [hi, opImm, rowOp, withRegs_of_runs r, rowsWritten, funext hf]

/-- An instruction that reads no register and writes d runs. -/
theorem exec_of_rowOp {i : Instr} {d : Reg} {f : Hart → Nat → Dword} {v : Nat → Dword}
    (r : Runs s px [d.toNat] hid h) (hi : exec i s = rowOp s px [] d.toNat f) (hf : ∀ j, f h j = v j) :
    exec i s = goes (rowsWritten s hid h px d v) := by
  rw [hi, rowOp, withRegs_of_runs r, rowsWritten, funext hf]

end

/-! ## The functions of one operand as arithmetic (R125, R126) -/

theorem add_eq_ofInt (x y : Dword) : x + y = BitVec.ofInt 64 (x.toInt + y.toInt) :=
  BitVec.eq_of_toInt_eq (by rw [BitVec.toInt_add, BitVec.toInt_ofInt])

theorem shl_eq_ofNat (x : Dword) (n : Nat) : x <<< n = BitVec.ofNat 64 (x.toNat * 2 ^ n) :=
  BitVec.eq_of_toNat_eq (by rw [BitVec.toNat_shiftLeft, BitVec.toNat_ofNat, Nat.shiftLeft_eq])

theorem shr_eq_ofNat (x : Dword) (n : Nat) : x >>> n = BitVec.ofNat 64 (x.toNat / 2 ^ n) := by
  apply BitVec.eq_of_toNat_eq
  rw [BitVec.toNat_ushiftRight, BitVec.toNat_ofNat, Nat.shiftRight_eq_div_pow,
    Nat.mod_eq_of_lt ((Nat.div_le_self _ _).trans_lt x.isLt)]

theorem sar_eq_ofInt (x : Dword) (n : Nat) : x.sshiftRight n = BitVec.ofInt 64 (x.toInt / 2 ^ n) := by
  rw [BitVec.sshiftRight, Int.shiftRight_eq_div_pow, Nat.cast_pow, Nat.cast_ofNat]

theorem upper_eq_ofInt (u : BitVec 18) : upper u = BitVec.ofInt 64 (u.toInt * 2 ^ 13) := by
  rw [upper, BitVec.signExtend, shl_eq_ofNat]
  apply BitVec.eq_of_toNat_eq
  rw [BitVec.toNat_ofNat, BitVec.toNat_ofInt, BitVec.toNat_ofInt]
  omega

theorem log2_eq_of_bounds {x n : Nat} (hlo : 2 ^ n ≤ x) (hhi : x < 2 ^ (n + 1)) : Nat.log2 x = n := by
  have hx : x ≠ 0 := (Nat.two_pow_pos n).trans_le hlo |>.ne'
  exact Nat.le_antisymm (Nat.lt_succ_iff.mp ((Nat.log2_lt hx).mpr hhi)) ((Nat.le_log2 hx).mpr hlo)

theorem leadingZeros_eq {x n : Nat} (hx : x < 2 ^ n) :
    leadingZeros x n = if x = 0 then n else n - 1 - Nat.log2 x := by
  induction n with
  | zero => simp [leadingZeros]
  | succ n ih =>
    rw [leadingZeros]
    by_cases hlo : 2 ^ n ≤ x
    · rw [if_pos (Nat.testBit_of_two_pow_le_and_two_pow_add_one_gt hlo hx), log2_eq_of_bounds hlo hx,
        if_neg ((Nat.two_pow_pos n).trans_le hlo).ne', Nat.add_sub_cancel, Nat.sub_self]
    · have hlt := not_le.mp hlo
      rw [Nat.testBit_lt_two_pow hlt, if_neg Bool.false_ne_true, ih hlt]
      split
      · exact Nat.add_comm _ _
      · next h0 => have := (Nat.log2_lt h0).mpr hlt; omega

theorem leadingZeros_eq_clz64 (x : Dword) : leadingZeros x.toNat 64 = clz64 x := by
  rw [leadingZeros_eq x.isLt, clz64]
  simp only [BitVec.toNat_eq, BitVec.ofNat_eq_ofNat, BitVec.toNat_ofNat, Nat.zero_mod]

theorem trailingZeros_eq (x n : Nat) : trailingZeros x n = ((List.range n).find? (fun k => x.testBit k)).getD n := by
  induction n generalizing x with
  | zero => rfl
  | succ n ih =>
    rw [trailingZeros, List.range_succ_eq_map, List.find?_cons]
    cases x.testBit 0 with
    | true => rfl
    | false =>
      rw [if_neg Bool.false_ne_true, ih, List.find?_map]
      simp only [Function.comp_def, Nat.testBit_succ]
      cases (List.range n).find? _ <;> simp [Nat.add_comm]

theorem bitCount_eq (x n : Nat) : bitCount x n = (List.range n).countP (fun k => x.testBit k) := by
  induction n generalizing x with
  | zero => rfl
  | succ n ih =>
    rw [bitCount, List.range_succ_eq_map, List.countP_cons, List.countP_map, ih, Nat.testBit_zero, Nat.add_comm]
    simp only [Function.comp_def, Nat.testBit_succ, decide_eq_true_eq]
    congr 1
    split <;> omega

theorem signedOf_toNat {n : Nat} (v : BitVec n) : signedOf n v.toNat = v.toInt := by
  rcases n.eq_zero_or_pos with rfl | hn
  · rw [BitVec.eq_nil v]; rfl
  have hp : 2 ^ n = 2 * 2 ^ (n - 1) := by rw [← pow_succ', Nat.sub_add_cancel hn]
  have hlt : 2 * v.toNat < 2 ^ n ↔ v.toNat < 2 ^ (n - 1) := by omega
  simp only [signedOf, BitVec.toInt_eq_toNat_cond, hlt, Nat.cast_pow, Nat.cast_ofNat]

theorem sextTo_eq (w : BitVec 2) (x : Dword) : sextTo w x = (x.setWidth (8 * 2 ^ w.toNat)).signExtend 64 := by
  rw [sextTo, narrowBits, BitVec.signExtend, ← signedOf_toNat, BitVec.toNat_setWidth]

/-- R126: BFX takes nothing at length 0, and extends the field otherwise. -/
theorem bitField_eq (sg : BitVec 1) (x y : Dword) : bitField (sg == 1) x y =
    let len := y.toNat / 256 % 64
    let f := (x >>> (y.toNat % 64)).setWidth len
    if len = 0 then 0 else if sg = 1 then f.signExtend 64 else f.zeroExtend 64 := by
  have hp : bits y.toNat 5 0 = y.toNat % 64 := by simp [bits]
  have hn : bits y.toNat 13 8 = y.toNat / 256 % 64 := rfl
  have hf : x.toNat / 2 ^ (y.toNat % 64) % 2 ^ (y.toNat / 256 % 64) =
      ((x >>> (y.toNat % 64)).setWidth (y.toNat / 256 % 64)).toNat := by
    rw [BitVec.toNat_setWidth, BitVec.toNat_ushiftRight, Nat.shiftRight_eq_div_pow]
  simp only [bitField, hp, hn, hf, signedOf_toNat, BitVec.ofNat_toNat, beq_iff_eq]
  rfl

/-- Settles O2: each form is a function of its operands that the lemmas above give in arithmetic. -/
theorem integerImmediateResults : Obligations.IntegerImmediateResults := by
  unfold Obligations.IntegerImmediateResults
  intro s hid h px d a b i sh u wc sg r _ x y w k n
  have ra : Runs s px [d.toNat, a.toNat] hid h := runs_of_subset r (by simp)
  have rd : Runs s px [d.toNat] hid h := runs_of_subset r (by simp)
  exact ⟨exec_of_opImm ra (exec_addi ..) (fun _ => add_eq_ofInt _ _),
    exec_of_opImm ra (exec_andi ..) (fun _ => rfl),
    exec_of_opImm ra (exec_ori ..) (fun _ => rfl),
    exec_of_opImm ra (exec_xori ..) (fun _ => rfl),
    exec_of_opImm ra (exec_slti ..) (fun _ => flag64_slt_eq_oneIf _ _),
    exec_of_opImm ra (exec_sltiu ..) (fun _ => flag64_ult_eq_oneIf _ _),
    exec_of_op1 ra (exec_slli ..) (fun _ => shl_eq_ofNat _ _),
    exec_of_op1 ra (exec_srli ..) (fun _ => shr_eq_ofNat _ _),
    exec_of_op1 ra (exec_srai ..) (fun _ => sar_eq_ofInt _ _),
    exec_of_rowOp rd (exec_lui ..) (fun _ => upper_eq_ofInt u),
    exec_of_rowOp rd (exec_auipc ..) (fun _ => by rw [upper_eq_ofInt]),
    exec_of_op1 ra (exec_clz ..) (fun _ => by rw [leadingZeros_eq_clz64]),
    exec_of_op1 ra (exec_ctz ..) (fun _ => by rw [trailingZeros_eq]; rfl),
    exec_of_op1 ra (exec_popc ..) (fun _ => by rw [bitCount_eq]; rfl),
    exec_of_op1 ra (exec_sext ..) (fun _ => sextTo_eq _ _),
    exec_of_op1 ra (exec_zext ..) (fun _ => rfl),
    exec_of_op2 r (exec_bfx ..) (fun _ => bitField_eq _ _ _)⟩

end Sys2Proof.ScalarForms
end

section
/-! PROOFS. A float instruction that fails its statement (R127). -/

namespace Sys2Proof.ScalarFloat

open Sys2Proof Sys2Proof.Machine Sys2Proof.Claim Sys2Proof.Laws Sys2Proof.Scalar

-- One proof is checked at a time: this keeps the check of the whole text within its memory.
set_option Elab.async false

/-- A hart on one core with s1 = 0, s2 = +∞ and s3 = NaN as FP32 codes. -/
def nanHart : Hart :=
  Hart.launch { ctx := 1, group := 0, coord := 0, stage := 0, cores := [0], slot := 0, frame := 0, prio := 0 } 0
    (Csrs.launch 1 1 1 1 0 0 0) ((RowRegs.zero.set false 2 0x7F800000).set false 3 0x7FC00000) []

/-- The machine after reset with that hart as its hart 0. -/
def nanState : State := { State.reset with harts := [(0, nanHart)] }

/-- XSTAT of hart 0 in the state that an instruction leaves. -/
def xstatAfter : Out → Option Flags
  | .next t => (look t.harts 0).map (·.csr.xstat)
  | _ => none

def plainPx : Px := { diep := none, valx := none }

/-- FMA32 of 0, ∞ and NaN gives NaN before it multiplies, and sets no flag. -/
theorem xstat_fma32_nan : xstatAfter (exec (.fma32 plainPx 3 1 2 0 0) nanState) = some 0 := by
  decide +kernel

/-- Refutes O3: FMA32 of 0, ∞ and a NaN addend sets no flag, where the product's NV is asked for. -/
theorem not_scalarFloatResults : ¬ Obligations.ScalarFloatResults := by
  unfold Obligations.ScalarFloatResults
  intro hall
  have r : Runs nanState plainPx [3, 1, 2] 0 nanHart := ⟨rfl, rfl, rfl, rfl⟩
  obtain ⟨-, -, -, hfma, -⟩ := hall nanState 0 nanHart plainPx 3 1 2 0 0 0 0 0 r
  have hx := xstat_fma32_nan
  rw [hfma] at hx
  exact absurd hx (by decide +kernel)

end Sys2Proof.ScalarFloat
end

section
/-! PROOFS. Jumps, loads and stores (R109, R128 to R131, R134). -/

namespace Sys2Proof.ScalarMemory

open Sys2Proof Sys2Proof.Machine Sys2Proof.Claim Sys2Proof.Laws Sys2Proof.Scalar Sys2Proof.ScalarForms

-- One proof is checked at a time: this keeps the check of the whole text within its memory.
set_option Elab.async false

section
variable {s : State} {hid : Nat} {h : Hart} {px : Px}

/-! ## Jumps (R134) -/

section
variable {d a : Reg} {k : BitVec 13}

/-- A JALR on whose target the active rows agree, of which row j is the lowest. -/
theorem execJalr_of_agree (r : Runs s px [d.toNat, a.toNat] hid h) {j : Nat} {js : List Nat} (ha : h.active px = j ::
    js)
    {target : Dword} (ht : ∀ i ∈ h.active px, h.reg i a.toNat + pxImm px k = target) :
    execJalr px d a k s = if target.toNat % 4 ≠ 0 then
        goes (s.takeTrap hid (scalarInfo h 1 .misaligned j (some target)))
      else
        goes (s.setHart hid ((h.setRegs (h.active px) d.toNat (fun _ => nextPc h px)).retireTo s.now target)) := by
  have hj : h.reg j a.toNat + pxImm px k = target := ht j (by rw [ha]; exact List.mem_cons_self)
  have hfind : js.find? (fun i => h.reg i a.toNat + pxImm px k != target) = none :=
    List.find?_eq_none.mpr fun i hi => by simp [ht i (by rw [ha]; exact List.mem_cons_of_mem _ hi)]
  rw [execJalr, withRegs_of_runs r]
  simp only [ha, hj, hfind]

theorem execJalr_nil (r : Runs s px [d.toNat, a.toNat] hid h) (ha : h.active px = []) :
    execJalr px d a k s = goes (retired s hid h px) := by
  rw [execJalr, withRegs_of_runs r]
  simp only [ha]
  rfl

/-- A JALR on whose register two active rows differ raises DIE_DIVERGENT_BRANCH for an active row. -/
theorem execJalr_diverges (r : Runs s px [d.toNat, a.toNat] hid h) {m n : Nat} (hm : m ∈ h.active px)
    (hn : n ∈ h.active px) (hne : h.reg m a.toNat ≠ h.reg n a.toNat) :
    ∃ j ∈ h.active px,
      execJalr px d a k s = goes (s.takeTrap hid (scalarInfo h 1 .dieDivergentBranch j none)) := by
  rw [execJalr, withRegs_of_runs r]
  cases ha : h.active px with
  | nil => rw [ha] at hm; exact absurd hm List.not_mem_nil
  | cons j js =>
    rw [ha] at hm hn
    dsimp only
    cases hfind : js.find? (fun i => h.reg i a.toNat + pxImm px k != h.reg j a.toNat + pxImm px k) with
    | some i => exact ⟨i, List.mem_cons_of_mem _ (List.mem_of_find?_eq_some hfind), rfl⟩
    | none =>
      have agree : ∀ i ∈ j :: js, h.reg i a.toNat = h.reg j a.toNat :=
        List.forall_mem_cons.mpr ⟨rfl, fun i hi => by simpa using List.find?_eq_none.mp hfind i hi⟩
      exact absurd ((agree m hm).trans (agree n hn).symm) hne

end

/-! ## Loads (R128, R129, R131) -/

section
variable {d a : Reg} {c : BitVec 5} {o : BitVec 8} {n : Nat} {sg : Bool} {acc : List (Nat × Nat)}
  {va : Nat → Dword}

/-- A load whose lowest row's address is no multiple of its size raises MISALIGNED there. -/
theorem checkRows_misaligned {p : Perm} {j : Nat} {js : List Nat} (hm : (va j).toNat % n ≠ 0) :
    s.checkRows h p n n va (j :: js) = .error (.cause .misaligned j (some (va j))) := by
  rw [State.checkRows, State.issueCheck, if_pos hm]
  rfl

theorem stopScalar_misaligned {cls row : Nat} {x : Option Dword} :
    s.stopScalar hid h cls (.cause .misaligned row x) = s.takeTrap hid (scalarInfo h cls .misaligned row x) := rfl

theorem scalarLoad_misaligned (r : Runs s px [d.toNat, a.toNat] hid h) {j : Nat} {js : List Nat}
    (ha : h.active px = j :: js)
    (hm : (rowAddr h px a.toNat (pxLoadOffset px o * BitVec.ofNat 64 n) j).toNat % n ≠ 0) :
    scalarLoad s px d a c o n sg = goes (s.takeTrap hid (scalarInfo h 1 .misaligned j
      (some (rowAddr h px a.toNat (pxLoadOffset px o * BitVec.ofNat 64 n) j)))) := by
  rw [scalarLoad, withRegs_of_runs r]
  simp only [ha, checkRows_misaligned hm, stopScalar_misaligned]

theorem scalarStore_misaligned (r : Runs s px [d.toNat, a.toNat] hid h) {i : BitVec 13} {j : Nat} {js : List Nat}
    (ha : h.active px = j :: js)
    (hm : (rowAddr h px a.toNat (pxImm px i * BitVec.ofNat 64 n) j).toNat % n ≠ 0) :
    scalarStore s px d a i n = goes (s.takeTrap hid (scalarInfo h 1 .misaligned j
      (some (rowAddr h px a.toNat (pxImm px i * BitVec.ofNat 64 n) j)))) := by
  rw [scalarStore, withRegs_of_runs r]
  simp only [ha, checkRows_misaligned hm, stopScalar_misaligned]

/-- An interlocked load at once. -/
theorem scalarLoad_at_once (r : Runs s px [d.toNat, a.toNat] hid h) {s' : State} {locs : List (Nat × Loc)}
    (hd : s'.defer = s.defer) (hne : acc ≠ [])
    (hc : s.checkRows h .r n n (rowAddr h px a.toNat (pxLoadOffset px o * BitVec.ofNat 64 n)) (h.active px) = .ok acc)
    (hh : s.homeRows h .plain (rowAddr h px a.toNat (pxLoadOffset px o * BitVec.ofNat 64 n)) acc = .ok (s', locs))
    (hdef : s.defer = false) (hahead : h.accessAhead n acc = false) :
    scalarLoad s px d a 0 o n sg = goes (s'.retire hid (locs.foldl (fun g y =>
      g.setReg y.1 d.toNat (extLoad n sg (s'.readRaw y.2 n))) h) px) := by
  rw [scalarLoad, withRegs_of_runs r]
  simp [hc, hh, hdef, hd, hahead, hne]

/-- An interlocked load that the plan defers. -/
theorem scalarLoad_deferred (r : Runs s px [d.toNat, a.toNat] hid h) {s' : State} {locs : List (Nat × Loc)}
    (hd : s'.defer = s.defer) (hne : acc ≠ [])
    (hc : s.checkRows h .r n n (rowAddr h px a.toNat (pxLoadOffset px o * BitVec.ofNat 64 n)) (h.active px) = .ok acc)
    (hh : s.homeRows h .plain (rowAddr h px a.toNat (pxLoadOffset px o * BitVec.ofNat 64 n)) acc = .ok (s', locs))
    (hdef : s.defer = true) :
    scalarLoad s px d a 0 o n sg = goes (s'.retire hid { h with
      order := h.order + 1
      loads := h.loads ++ loadEntries s' h acc (rowAddr h px a.toNat (pxLoadOffset px o * BitVec.ofNat 64 n)) d.toNat
        n sg 0 } px) := by
  rw [scalarLoad, withRegs_of_runs r]
  simp [hc, hh, hdef, hd, hne]

/-- A timed load with an entry of the Trivet left. -/
theorem scalarLoad_timed (r : Runs s px [d.toNat, a.toNat] hid h) (hne : acc ≠ [])
    (hc : s.checkRows h .r n n (rowAddr h px a.toNat (pxLoadOffset px o * BitVec.ofNat 64 n)) (h.active px) = .ok acc)
    (ht : c.toNat ≠ 0) (hu : h.trivetUsed < 64) :
    scalarLoad s px d a c o n sg = goes (s.retire hid { h with
      loads := h.loads ++ loadEntries s h acc (rowAddr h px a.toNat (pxLoadOffset px o * BitVec.ofNat 64 n)) d.toNat
        n sg (8 * c.toNat)
      order := h.order + 1 } px) := by
  rw [scalarLoad, withRegs_of_runs r]
  simp [hc, hne, ht, Nat.not_le.mpr hu]

end

theorem rowAddr_toNat (h : Hart) (px : Px) (a : Nat) (off : Dword) (j : Nat) : (rowAddr h px a off j).toNat =
    ((h.reg j a).toNat + off.toNat + j * (h.stride px).toNat) % 2 ^ 64 := by
  simp only [rowAddr, BitVec.toNat_add, BitVec.toNat_mul, BitVec.toNat_ofNat]
  rw [Nat.mod_mul_mod]
  omega

end

/-- Settles O7. -/
theorem jumpResults : Obligations.JumpResults := by
  unfold Obligations.JumpResults
  intro s hid h px d a i k target r link linked
  refine ⟨?_, fun hne ht hal => ?_, execJalr_nil r, fun ⟨m, hm, n, hn, hne⟩ => execJalr_diverges r hm hn hne⟩
  · rw [exec_jal, execJal, withRegs_of_runs (runs_of_subset r (by simp))]
    rfl
  · obtain ⟨j, js, ha⟩ := List.exists_cons_of_ne_nil hne
    rw [exec_jalr, execJalr_of_agree r ha ht, if_neg (not_not.mpr hal)]
    rfl

/-- Settles O10: the check of the lowest active row stops the access before any row's. -/
theorem misalignedTraps : Obligations.MisalignedTraps := by
  unfold Obligations.MisalignedTraps
  intro s hid h px d a i o j js r ha up la sa
  refine ⟨scalarLoad_misaligned r ha, scalarLoad_misaligned r ha, scalarLoad_misaligned r ha,
    scalarLoad_misaligned r ha,
    scalarLoad_misaligned r ha, scalarStore_misaligned r ha, scalarStore_misaligned r ha, scalarStore_misaligned r ha,
    fun target ht hm => ?_⟩
  rw [exec_jalr, execJalr_of_agree r ha ht, if_pos hm]

/-- Settles O8. -/
theorem loadResults : Obligations.LoadResults := by
  unfold Obligations.LoadResults
  refine ⟨fun h px a off j => rowAddr_toNat .., ?_, ?_⟩
  · intro s s' hid h px d a o acc locs r hd hne va gives
    have load {e : Instr} {n : Nat} {sg : Bool} (he : exec e s = scalarLoad s px d a 0 o n sg) : gives e n sg :=
      fun hc hh => ⟨fun hdef hahead => he.trans (scalarLoad_at_once r hd hne hc hh hdef hahead),
        fun hdef => he.trans (scalarLoad_deferred r hd hne hc hh hdef)⟩
    exact ⟨load (exec_lb ..), load (exec_lbu ..), load (exec_lh ..), load (exec_lhu ..), load (exec_lw ..),
      load (exec_lwu ..), load (exec_ld ..)⟩
  · intro s hid h px d a c o acc r h4 hne hu va hc
    refine ⟨_, _, (exec_ld ..).trans (scalarLoad_timed r hne hc (by omega) hu), look_put_same .., rfl, rfl,
      fun _ => rfl, ?_⟩
    have hland : 8 * c.toNat ≠ 0 := by omega
    simp only [Hart.retire, Hart.retireTo, loadEntries, hland, if_false]
    rfl

/-! ## Stores (R130, R131) -/

/-- Two states hold the same stored sectors. -/
def SameCells (s t : State) : Prop := t.mem = s.mem ∧ t.sides = s.sides

theorem SameCells.trans {s t u : State} (h : SameCells s t) (h' : SameCells t u) : SameCells s u :=
  ⟨h'.1.trans h.1, h'.2.trans h.2⟩

theorem SameCells.foldl {α : Type} {f : State → α → State} (hf : ∀ s x, SameCells s (f s x)) (xs : List α) (s : State) :
    SameCells s (xs.foldl f s) := by
  induction xs generalizing s with
  | nil => exact ⟨rfl, rfl⟩
  | cons x xs ih => exact (hf s x).trans (ih _)

theorem sameCells_noteWrite (s : State) (k : Nat) : SameCells s (s.noteWrite k) := by
  unfold State.noteWrite
  split <;> exact ⟨rfl, rfl⟩

theorem sameCells_noteStore (s : State) (dpa : Nat) (l : Loc) : SameCells s (s.noteStore dpa l) := by
  unfold State.noteStore
  dsimp only
  split_ifs <;> exact ⟨rfl, rfl⟩

theorem sameCells_dropL1 (s : State) (cores : List Nat) (dpa : Nat) : SameCells s (s.dropL1 cores dpa) :=
  SameCells.foldl (fun s c => by split <;> exact ⟨rfl, rfl⟩) cores s

theorem sameCells_dropL2 (s : State) (cores : List Nat) (key : Nat) : SameCells s (s.dropL2 cores key) := by
  unfold State.dropL2
  split
  · exact ⟨rfl, rfl⟩
  · exact SameCells.foldl (by exact fun s c => ⟨rfl, rfl⟩) cores s

theorem sameCells_writeFar (s : State) (cores : List Nat) (l : Loc) : SameCells s (s.writeFar cores l) := by
  unfold State.writeFar
  split
  · exact sameCells_dropL2 ..
  · exact ⟨rfl, rfl⟩

theorem sameCells_patchL1 (s : State) (core dpa : Nat) (l : Loc) (f : Sector → Sector) :
    SameCells s (s.patchL1 core dpa l f) := by
  unfold State.patchL1
  split
  · exact ⟨rfl, rfl⟩
  split
  · unfold State.modL1
    split <;> exact ⟨rfl, rfl⟩
  · exact sameCells_dropL1 ..

/-- What a store does to the caches of its core leaves the stored sectors alone. -/
theorem sameCells_writeThrough (s : State) (h : Hart) (row dpa : Nat) (l : Loc) (f : Sector → Sector) :
    SameCells s (s.writeThrough h row dpa l f) := by
  unfold State.writeThrough
  dsimp only
  split
  · exact ⟨rfl, rfl⟩
  have hl : SameCells s _ := (sameCells_dropL1 s (h.cores.filter (fun c => c != h.coreOf row)) dpa).trans
    (sameCells_patchL1 _ (h.coreOf row) dpa l f)
  split
  · exact hl
  · exact hl.trans (sameCells_writeFar ..)

theorem length_bytesOfNat (x n : Nat) : (bytesOfNat x n).length = n := by
  induction n generalizing x with
  | zero => rfl
  | succ n ih => rw [bytesOfNat, List.length_cons, ih]

theorem getElem_bytesOfNat (x n k : Nat) (hk : k < (bytesOfNat x n).length) :
    (bytesOfNat x n)[k] = BitVec.ofNat 8 (x / 256 ^ k) := by
  induction n generalizing x k with
  | zero => exact absurd hk (Nat.not_lt_zero k)
  | succ n ih =>
    cases k with
    | zero => simp [bytesOfNat]
    | succ k => simp only [bytesOfNat, List.getElem_cons_succ, ih, Nat.div_div_eq_div_mul, pow_succ']

theorem getByte_setNat_inside (m : Memory) (a n x : Nat) {k : Nat} (hk : k < n) :
    getByte (setNat m a n x) (a + k) = BitVec.ofNat 8 (x / 256 ^ k) := by
  rw [setNat, getByte_setBytes, dif_pos ⟨Nat.le_add_right a k, by rw [length_bytesOfNat]; omega⟩, getElem_bytesOfNat,
    Nat.add_sub_cancel_left]

theorem getByte_setNat_outside (m : Memory) (a n x : Nat) {k : Nat} (hk : k < a ∨ a + n ≤ k) :
    getByte (setNat m a n x) k = getByte m k := by
  rw [setNat, getByte_setBytes, dif_neg (by rw [length_bytesOfNat]; omega)]

/-- A raw store at a location seen as it is stored, inside a sector that is not ZERO. -/
theorem storeRaw_plain (s : State) {l : Loc} (dpa n x : Nat) (hxf : l.xf = .plain) (ht : tagCls (s.tagAt l.key) ≠ 0) :
    (s.storeRaw dpa l n x).mem = setNat s.mem l.key n x ∧ (s.storeRaw dpa l n x).sides = s.sides := by
  have hw : s.writeRaw l n x = { s.noteWrite l.key with mem := setNat s.mem l.key n x } := by
    rw [State.writeRaw, if_neg ht, if_pos hxf]
  rw [State.storeRaw, hw]
  obtain ⟨hm, hs⟩ := sameCells_noteStore { s.noteWrite l.key with mem := setNat s.mem l.key n x } dpa l
  exact ⟨hm, hs.trans (sameCells_noteWrite s l.key).2⟩

section
variable {s s' : State} {hid : Nat} {h : Hart} {px : Px} {d a : Reg} {i : BitVec 13} {n : Nat}
  {acc : List (Nat × Nat)} {locs : List (Nat × Loc)}

/-- A store at once. -/
theorem scalarStore_at_once (r : Runs s px [d.toNat, a.toNat] hid h) (hd : s'.defer = s.defer) (hne : acc ≠ [])
    (hc : s.checkRows h .w n n (rowAddr h px a.toNat (pxImm px i * BitVec.ofNat 64 n)) (h.active px) = .ok acc)
    (hh : s.homeRows h .write (rowAddr h px a.toNat (pxImm px i * BitVec.ofNat 64 n)) acc = .ok (s', locs))
    (hdef : s.defer = false) (hahead : h.accessAhead n acc = false) :
    scalarStore s px d a i n = goes ((storeLocs s' h (dpaOf acc) (fun j => h.reg j d.toNat) n locs).retire hid
      h.markStored px) := by
  rw [scalarStore, withRegs_of_runs r]
  simp [hc, hh, hdef, hd, hahead, hne]

/-- A store that the plan defers. -/
theorem scalarStore_deferred (r : Runs s px [d.toNat, a.toNat] hid h) (hd : s'.defer = s.defer) (hne : acc ≠ [])
    (hc : s.checkRows h .w n n (rowAddr h px a.toNat (pxImm px i * BitVec.ofNat 64 n)) (h.active px) = .ok acc)
    (hh : s.homeRows h .write (rowAddr h px a.toNat (pxImm px i * BitVec.ofNat 64 n)) acc = .ok (s', locs))
    (hdef : s.defer = true) :
    scalarStore s px d a i n = goes (s'.retire hid { h.markStored with
      order := h.order + 1
      stores := h.stores ++ acc.map (fun y =>
        { row := y.1, unit := none, cluster := 0,
          addr := rowAddr h px a.toNat (pxImm px i * BitVec.ofNat 64 n) y.1, dpa := y.2, size := n,
          val := h.reg y.1 d.toNat, vec := none, order := h.order }) } px) := by
  rw [scalarStore, withRegs_of_runs r]
  simp [hc, hh, hdef, hd, hne]

end

/-- Settles O9. -/
theorem storeResults : Obligations.StoreResults := by
  unfold Obligations.StoreResults
  refine ⟨?_, fun s l dpa n x _ hxf ht => ?_⟩
  · intro s s' hid h px d a i acc locs r hd hne va gives
    have store {e : Instr} {n : Nat} (he : exec e s = scalarStore s px d a i n) : gives e n :=
      fun hc hh => ⟨fun hdef hahead => he.trans (scalarStore_at_once r hd hne hc hh hdef hahead),
        fun hdef => he.trans (scalarStore_deferred r hd hne hc hh hdef)⟩
    exact ⟨store (exec_sb ..), store (exec_sh ..), store (exec_sw ..), store (exec_sd ..)⟩
  · obtain ⟨hm, hs⟩ := storeRaw_plain s dpa n x hxf ht
    refine ⟨fun k hk => ?_, fun b hb => ?_, hs, fun h row => sameCells_writeThrough ..⟩
    · rw [hm, getByte_setNat_inside _ _ _ _ hk]
    · rw [hm, getByte_setNat_outside _ _ _ _ hb]

end Sys2Proof.ScalarMemory
end

section
/-! PROOFS. Atomics, LDAQ and STRL (R243 to R245). -/

namespace Sys2Proof.ScalarAtomic

open Sys2Proof Sys2Proof.Machine Sys2Proof.Claim Sys2Proof.Laws Sys2Proof.Scalar Sys2Proof.ScalarForms
  Sys2Proof.ScalarMemory

-- One proof is checked at a time: this keeps the check of the whole text within its memory.
set_option Elab.async false

section
variable {s s' : State} {hid : Nat} {h : Hart} {px : Px} {d a : Reg} {o : BitVec 2} {k : BitVec 5} {n : Nat}
  {acc : List (Nat × Nat)} {locs : List (Nat × Loc)}

/-- A scoped operation that has not waited yet goes on under the entry's contents, where its rows may use the entry. -/
theorem scopedOp_ready {k : Nat} {rows : List Nat} {va : Nat → Option Dword} {rel ready : Bool}
    {perform : Option Scope → Out} (hd : s.defer = false) (hw : h.wait.fenceOn k = none)
    (hp : s.scopePending h.ctx k = false) (hr : s.scopeRows h k rows = none) (hready : ready = true) :
    scopedOp s hid h k rows va rel ready perform = perform (s.contents h.ctx k) := by
  simp [scopedOp, hw, hp, hr, hready, hd]

/-- An atomic that is ordered and waits for nothing. -/
theorem atomic_performs {op : AmoOp} (r : Runs s px [d.toNat, d.toNat + 1, a.toNat] hid h) (hd : s.defer = false)
    (hne : acc ≠ []) (hw : h.wait.fenceOn k.toNat = none) (hp : s.scopePending h.ctx k.toNat = false)
    (hr : s.scopeRows h k.toNat (h.active px) = none) (hrel : o.getLsbD 1 = true → h.releaseReady = true)
    (hc : s.checkRows h .rw n n (rowAddr h px a.toNat 0) (h.active px) = .ok acc) (ha : h.accessAhead n acc = false)
    (hh : s.homeRows h .syncWrite (rowAddr h px a.toNat 0) acc = .ok (s', locs)) :
    let r := amoRows s' op n (fun j => (h.reg j d.toNat).toNat) (fun j => (h.reg j (d.toNat + 1)).toNat)
      (amoList acc locs)
    let g := r.2.1.foldl (fun g y => g.setReg y.1 d.toNat (extLoad n (op != .fadd) y.2)) h.markStored
    let t := if o.getLsbD 0 = true then r.1.acquire h (h.active px) k.toNat (s.contents h.ctx k.toNat) else r.1
    atomic s px op d a n o k =
      goes (t.retire hid { g with csr := { g.csr with xstat := g.csr.xstat ||| r.2.2 } } px) := by
  have hready : (!h.accessAhead n acc && (!orderReleases o || h.releaseReady)) = true := by
    rw [ha, orderReleases]
    cases ho : o.getLsbD 1 with
    | false => rfl
    | true => rw [hrel ho]; rfl
  have hregs : Runs s px (if op = .cas then [d.toNat, d.toNat + 1, a.toNat] else [d.toNat, a.toNat]) hid h := by
    split
    · exact r
    · exact runs_of_subset r (by simp)
  rw [atomic]
  dsimp only
  rw [withRegs_of_runs hregs]
  simp only [hc, List.isEmpty_iff, hne, if_false, scopedOp_ready hd hw hp hr hready, hh]
  rfl

/-- An acquiring load whose rows may use the entry and that waits for nothing. -/
theorem execLdaq_performs {wc : BitVec 2} (r : Runs s px [d.toNat, a.toNat] hid h) (hd : s.defer = false) (hne :
    acc ≠ [])
    (hw : h.wait.fenceOn k.toNat = none) (hp : s.scopePending h.ctx k.toNat = false)
    (hr : s.scopeRows h k.toNat (h.active px) = none)
    (hc : s.checkRows h .r (amoBytes wc) (amoBytes wc) (rowAddr h px a.toNat 0) (h.active px) = .ok acc)
    (ha : h.accessAhead (amoBytes wc) acc = false)
    (hh : s.homeRows h .sync (rowAddr h px a.toNat 0) acc = .ok (s', locs)) :
    execLdaq px d a wc k s = goes ((s'.acquire h (h.active px) k.toNat (s.contents h.ctx k.toNat)).retire hid
      (locs.foldl (fun g y => g.setReg y.1 d.toNat (extLoad (amoBytes wc) true (s'.readRaw y.2 (amoBytes wc)))) h) px)
        := by
  have hready : (!h.accessAhead (amoBytes wc) acc) = true := by rw [ha]; rfl
  rw [execLdaq]
  dsimp only
  rw [withRegs_of_runs r]
  simp only [hc, List.isEmpty_iff, hne, if_false, scopedOp_ready hd hw hp hr hready, hh]

/-- A releasing store whose earlier accesses are performed. -/
theorem execStrl_performs {wc : BitVec 2} (r : Runs s px [d.toNat, a.toNat] hid h) (hd : s.defer = false) (hne :
    acc ≠ [])
    (hw : h.wait.fenceOn k.toNat = none) (hp : s.scopePending h.ctx k.toNat = false)
    (hr : s.scopeRows h k.toNat (h.active px) = none)
    (hc : s.checkRows h .w (amoBytes wc) (amoBytes wc) (rowAddr h px a.toNat 0) (h.active px) = .ok acc)
    (hrel : h.releaseReady = true)
    (hh : s.homeRows h .syncWrite (rowAddr h px a.toNat 0) acc = .ok (s', locs)) :
    execStrl px d a wc k s = goes ((storeHome s' (dpaOf acc) (fun j => h.reg j d.toNat) (amoBytes wc) locs).retire hid
      h.markStored px) := by
  rw [execStrl]
  dsimp only
  rw [withRegs_of_runs r]
  simp only [hc, List.isEmpty_iff, hne, if_false, scopedOp_ready hd hw hp hr hrel, hh]

end

theorem signedOf_of_lt {n z : Nat} (hz : z < 2 ^ n) : signedOf n z = (BitVec.ofNat n z).toInt := by
  rw [← signedOf_toNat, BitVec.toNat_ofNat, Nat.mod_eq_of_lt hz]

/-- Settles O11. -/
theorem atomicResults : Obligations.AtomicResults := by
  unfold Obligations.AtomicResults
  refine ⟨?_, ?_, fun _ _ _ => rfl, fun _ _ _ _ _ _ _ => ⟨rfl, rfl⟩, ?_⟩
  · intro s s' hid h px d a wc o k acc locs r _ hd hne hw hp hr hrel va reg reg1 gives n
    have performs {e : Instr} {op : AmoOp} {n : Nat} (he : exec e s = atomic s px op d a n o k) : gives e op n :=
      fun hc ha hh => he.trans (atomic_performs r hd hne hw hp hr hrel hc ha hh)
    exact ⟨performs (exec_amoadd ..), performs (exec_amoand ..), performs (exec_amoor ..), performs (exec_amoxor ..),
      performs (exec_amomin ..), performs (exec_amomax ..), performs (exec_amominu ..), performs (exec_amomaxu ..),
      performs (exec_amoswap ..), performs (exec_amocas ..), performs (exec_amofadd ..)⟩
  · intro w v x y _ hv hx z
    refine ⟨rfl, rfl, rfl, rfl, ?_, ?_, ?_, ?_, rfl, rfl⟩
    · simp only [amoNew, signedOf_of_lt hv, signedOf_of_lt hx]
      rfl
    · simp only [amoNew, signedOf_of_lt hv, signedOf_of_lt hx]
      rfl
    · simp only [amoNew, Nat.min_def]
    · simp only [amoNew, Nat.max_def]
  · intro s s' hid h px d a wc k acc locs r hd hne hw hp hr va n
    exact ⟨fun hc ha hh => execLdaq_performs r hd hne hw hp hr hc ha hh,
      fun hc hrel hh => execStrl_performs r hd hne hw hp hr hc hrel hh⟩

end Sys2Proof.ScalarAtomic
end

section
/-! PROOFS. CSR instructions, die rows, calls and traps (R104, R135 to R142, R261, R262). -/

namespace Sys2Proof.ScalarSystem

open Sys2Proof Sys2Proof.Machine Sys2Proof.Claim Sys2Proof.Laws Sys2Proof.Scalar Sys2Proof.ScalarForms

-- One proof is checked at a time: this keeps the check of the whole text within its memory.
set_option Elab.async false

section
variable {s : State} {hid : Nat} {h : Hart} {px : Px} {d a : Reg} {n j : Nat} {js : List Nat} {op : CsrOp}

/-! ## CSR instructions on the other CSRs (R104, R135, R138) -/

/-- A CSR instruction that need not wait and has a = s0, in its set or clear form, only reads. -/
theorem csrAccess_reads (r : Runs s px [d.toNat, a.toNat] hid h) (hact : h.active px = j :: js) (hn : n ≠ csrDmask)
    (hwait : h.csrWaits n = false) (hw : csrWrites op a = false) :
    csrAccess s px op d a n =
      goes (s.retire hid (h.setRegs (h.active px) d.toNat (fun _ => s.csrValue h n)) px) := by
  rw [csrAccess, withRegs_of_runs r]
  simp [hn, hact, hwait, hw]

/-- One that writes does so, where the CSR takes the new value and the privilege allows it. -/
theorem csrAccess_writes (r : Runs s px [d.toNat, a.toNat] hid h) (hact : h.active px = j :: js) (hn : n ≠ csrDmask)
    (hwait : h.csrWaits n = false) (hw : csrWrites op a = true) (hpriv : csrHOnly n = true → h.priv = true)
    {new : Dword} (hnew : csrNew op (s.csrValue h n) (h.reg j a.toNat) = new) (hrej : csrReject n new = none)
    {s' : State} {g : Hart}
    (hput : csrWrite s hid (h.setRegs (h.active px) d.toNat (fun _ => s.csrValue h n)) j n new = .ok (s', g)) :
    csrAccess s px op d a n = goes (s'.retire hid g px) := by
  have hp : (csrHOnly n && !h.priv) = false := by
    cases hh : csrHOnly n with
    | false => rfl
    | true => rw [hpriv hh]; rfl
  rw [hact] at hput
  rw [csrAccess, withRegs_of_runs r]
  simp only [hn, if_false, hact, hwait, hw, hp, hnew, hrej, hput, Bool.not_true, Bool.false_eq_true]

theorem setRegs_ctx (h : Hart) (rows : List Nat) (n : Nat) (f : Nat → Dword) : (h.setRegs rows n f).ctx = h.ctx := by
  unfold Hart.setRegs
  induction rows generalizing h with
  | nil => rfl
  | cons j js ih => exact ih _

/-- PRTABA 0 selects the default table. -/
theorem csrWrite_prtaba_zero (j : Nat) : csrWrite s hid h j csrPrtaba 0 =
    .ok (s.modCtx h.ctx (fun y => { y with prtaba := 0, prt := none }), h.csrStore csrPrtaba 0) := rfl

/-- Another address installs the table that stands there. -/
theorem csrWrite_prtaba_table {j : Nat} {x : Dword} (hx : x ≠ 0) {s' : State} {b : Nat}
    (hraw : s.rawStruct h j 1024 256 4 x = .ok (s', b)) : csrWrite s hid h j csrPrtaba x =
    .ok (s'.installPrt h.ctx x (bytesOfNat b 1024), h.csrStore csrPrtaba x) := by
  rw [csrWrite, if_pos rfl, prtabaStore, if_neg hx, hraw]
  rfl

theorem csrWrite_plain (hp : n ≠ csrPrtaba) (ht : n ≠ 0x023) (j : Nat) (x : Dword) :
    csrWrite s hid h j n x = .ok (s, h.csrStore n x) := by
  rw [csrWrite, if_neg hp, if_neg ht]

/-- The write of a CSR that is neither PRTABA nor TAPEN. -/
theorem csrAccess_puts (r : Runs s px [d.toNat, a.toNat] hid h) (hact : h.active px = j :: js) (hn : n ≠ csrDmask)
    (hp : n ≠ csrPrtaba) (ht : n ≠ 0x023)
    (hwait : h.csrWaits n = false) (hw : csrWrites op a = true) (hpriv : csrHOnly n = true → h.priv = true)
    {new : Dword} (hnew : csrNew op (s.csrValue h n) (h.reg j a.toNat) = new) (hrej : csrReject n new = none) :
    csrAccess s px op d a n = goes (s.retire hid
      ((h.setRegs (h.active px) d.toNat (fun _ => s.csrValue h n)).csrStore n new) px) := by
  exact csrAccess_writes r hact hn hwait hw hpriv hnew hrej (csrWrite_plain hp ht ..)

theorem csrAccess_unprivileged (r : Runs s px [d.toNat, a.toNat] hid h) (hact : h.active px = j :: js)
    (hn : n ≠ csrDmask) (hwait : h.csrWaits n = false) (hw : csrWrites op a = true) (hh : csrHOnly n = true)
    (hu : h.priv = false) :
    csrAccess s px op d a n = goes (s.takeTrap hid (scalarInfo h 1 .privilege j none)) := by
  rw [csrAccess, withRegs_of_runs r]
  simp [hn, hact, hwait, hw, hh, hu]

theorem csrReject_of_rz {x : Dword} (hx : x &&& csrRz n ≠ 0) : csrReject n x = some .reservedField := by
  rw [csrReject, if_pos (by simpa using hx)]

theorem csrAccess_reserved (r : Runs s px [d.toNat, a.toNat] hid h) (hact : h.active px = j :: js)
    (hn : n ≠ csrDmask) (hwait : h.csrWaits n = false) (hpriv : csrHOnly n = true → h.priv = true)
    (hx : h.reg j a.toNat &&& csrRz n ≠ 0) :
    csrAccess s px .rw d a n = goes (s.takeTrap hid (scalarInfo h 1 .reservedField j none)) := by
  have hp : (csrHOnly n && !h.priv) = false := by
    cases hh : csrHOnly n with
    | false => rfl
    | true => rw [hpriv hh]; rfl
  have hw : csrWrites .rw a = true := rfl
  rw [csrAccess, withRegs_of_runs r]
  simp only [hn, if_false, hact, hwait, hw, hp, csrNew, csrReject_of_rz hx, Bool.not_true, Bool.false_eq_true]

end

theorem csr_toNat_ne {c : BitVec 12} {k : Nat} (h : c ≠ BitVec.ofNat 12 k) : c.toNat ≠ k := fun e =>
  h (by rw [← e, BitVec.ofNat_toNat, BitVec.setWidth_eq])

/-- Settles O12. -/
theorem csrResults : Obligations.CsrResults := by
  unfold Obligations.CsrResults
  refine ⟨?_, ?_⟩
  · intro s hid h px d a c j js r hact h3 h23 h40 hwait hpriv old x g put
    have hn : c.toNat ≠ csrDmask := csr_toNat_ne h3
    have writes {e : Instr} {op : CsrOp} (he : exec e s = csrAccess s px op d a c.toNat) (hw : csrWrites op a = true)
        (hrej : csrReject c.toNat (csrNew op old x) = none) : exec e s = put (csrNew op old x) :=
      he.trans (csrAccess_puts r hact hn (csr_toNat_ne h40) (csr_toNat_ne h23) hwait hw hpriv rfl hrej)
    have r0 : Runs s px [d.toNat, (0 : Reg).toNat] hid h := by
      obtain ⟨hf, hl, hp, hr⟩ := r
      have hd : h.pending d.toNat = false := by simpa using (List.any_eq_false.mp hr d.toNat (by simp))
      exact ⟨hf, hl, hp, by simp [List.any_cons, hd]; rfl⟩
    exact ⟨writes (exec_csrrw ..) rfl, fun ha => writes (exec_csrrs ..) (csrWrites_of_ne ha),
      fun ha => writes (exec_csrrc ..) (csrWrites_of_ne ha),
      (exec_csrrs ..).trans (csrAccess_reads r0 hact hn hwait (csrWrites_s0 (by decide) rfl)),
      (exec_csrrc ..).trans (csrAccess_reads r0 hact hn hwait (csrWrites_s0 (by decide) rfl))⟩
  · intro s hid h px d a c j js r hact h3 hwait
    exact ⟨csrAccess_unprivileged r hact (csr_toNat_ne h3) hwait rfl, csrAccess_reserved r hact (csr_toNat_ne h3) hwait⟩

/-- Settles O13. -/
theorem specialCsrResults : Obligations.SpecialCsrResults := by
  unfold Obligations.SpecialCsrResults
  intro s hid h px d a c j js r x old
  have rej : csrReject csrPrtaba x = none := by simp [csrReject, csrPrtaba, csrRz]
  have hp : ∀ {n : Nat}, csrHOnly n = false → csrHOnly n = true → h.priv = true := fun h0 h1 =>
    absurd (h0.symm.trans h1) Bool.false_ne_true
  refine ⟨fun hact hpriv hx => ?_, fun hact hpriv hx => ?_, fun hact hc hidle hrej => ?_,
    fun hact hc hmx hrej => ?_, fun hact hmx hrej => ?_⟩
  · rw [← setRegs_ctx h (h.active px) d.toNat (fun _ => s.csrValue h csrPrtaba)]
    exact (exec_prtabaWrite ..).trans (csrAccess_writes (op := .rw) r hact (by decide) rfl rfl (fun _ => hpriv) hx
      (hx ▸ rej)
      (csrWrite_prtaba_zero j))
  · intro g s' b hraw
    rw [← setRegs_ctx h (h.active px) d.toNat (fun _ => s.csrValue h csrPrtaba)]
    exact (exec_prtabaWrite ..).trans (csrAccess_writes r hact (by decide) rfl rfl (fun _ => hpriv) rfl rej
      (csrWrite_prtaba_table hx hraw))
  · rw [exec_xstatSrseedAccess, execXstatSrseedAccess]
    have hwait : h.csrWaits c.toNat = false := by
      rcases hc with rfl | rfl <;> simp [Hart.csrWaits, hidle, csrXstat, csrSrseed]
    rcases hc with rfl | rfl <;>
      exact csrAccess_puts r hact (by decide) (by decide) (by decide) hwait rfl (hp rfl) rfl hrej
  · rw [exec_tapeCsrAccess, execTapeCsrAccess]
    have hwait : h.csrWaits c.toNat = false := by
      rcases hc with rfl | rfl | rfl <;> simp [Hart.csrWaits, hmx, csrXstat, csrSrseed]
    rcases hc with rfl | rfl | rfl <;>
      exact csrAccess_puts r hact (by decide) (by decide) (by decide) hwait rfl (hp rfl) rfl hrej
  · have hwait : h.csrWaits 0x023 = false := by simp [Hart.csrWaits, hmx, csrXstat, csrSrseed]
    exact (exec_tapeCsrAccess ..).trans (csrAccess_writes (op := .rw) r hact (by decide) hwait rfl (hp rfl) rfl hrej
      rfl)

/-! ## Lengths, reductions over the rows and traps (R139, R142, R261, R262, R264) -/

/-- VL counts up to the elements of a register at the container. -/
theorem vlMax_vlenb (h : Hart) {w : BitVec 3} :
    vlMax h.vlenb w = if w = 0 then 512 * h.csr.xcl else 512 * h.csr.xcl / 2 ^ w.toNat := by
  rw [vlMax, Hart.vlenb]
  split
  · omega
  · next hw =>
    have hpos : 0 < w.toNat := Nat.pos_of_ne_zero fun h0 => hw (BitVec.eq_of_toNat_eq h0)
    obtain ⟨k, hk⟩ := Nat.exists_eq_succ_of_ne_zero hpos.ne'
    rw [hk, Nat.succ_sub_one, pow_succ, show 512 * h.csr.xcl = 256 * h.csr.xcl * 2 by omega,
      Nat.mul_div_mul_right _ _ Nat.zero_lt_two]

/-- Settles O16. -/
theorem dieRowResults : Obligations.DieRowResults := by
  unfold Obligations.DieRowResults
  intro s hid h px d a w o k j js r hact _ _ x most n
  have hn : Nat.min (x j).toNat (vlMax h.vlenb w) = n := by rw [vlMax_vlenb]
  refine ⟨?_, ?_, fun hk => ?_, fun hk => ?_⟩
  · rw [exec_vlset, execVlset, withRegs_of_runs r]
    simp only [hact]
    rw [hn]
  · rw [exec_dred, execDred, withRegs_of_runs r, rowsWritten]
    simp only [hact]
    rfl
  · rw [exec_dbcast, execDbcast, withHart_of_runs r, if_neg (Nat.not_le.mpr hk), withRegs_of_runs r, rowsWritten]
  · rw [exec_dbcast, execDbcast, withHart_of_runs r, if_pos hk]

/-- A record of the scalar pipeline without SKIP sends the hart back to the record's pc, and to the wait that the trap
broke off where it goes back to the held one. -/
theorem resumeTrap_scalar {s : State} {hid y : Nat} {h : Hart} {after : Dword} (heng : bits y 12 10 = 0)
    (hskip : bitOf y 17 = false) : s.resumeTrap hid h y after false = s.setHart hid
      { h with traps := h.traps.drop 1, priv := false, state := .running, pc := BitVec.ofNat 64 (bits y 127 64)
               wait := if BitVec.ofNat 64 (bits y 127 64) = h.held.1 then h.held.2 else .none } := by
  have hjob : s.trappedJob hid y = none := by rw [State.trappedJob, heng]; rfl
  simp only [State.resumeTrap, hjob, Hart.resume, heng, hskip, engOfCode]
  rfl

/-- Settles O17. -/
theorem callResults : Obligations.CallResults := by
  unfold Obligations.CallResults
  refine ⟨fun s hid h px n w r => ⟨?_, ?_, ?_⟩,
    fun s s' hid h px y r => ⟨fun hu => ?_, fun hpriv hraw hrz heng hskip => ?_⟩⟩
  · rw [exec_ecall, execEcall, withRegs_of_runs r]
    rfl
  · rw [exec_ebreak, execEbreak, withRegs_of_runs r]
    rfl
  · obtain ⟨rfl, hl, -, -⟩ := r
    rw [exec_illegalOpcode, execIllegalOpcode, withHart_some hl]
  · rw [exec_trapret, execTrapret, withRegs_of_runs r, hu]
    rfl
  · intro pc wait
    have hwait : (if pc = (h.retire s'.now px).held.1 then (h.retire s'.now px).held.2 else .none) = wait := by
      rcases htr : h.traps with _ | ⟨t, ts⟩ <;> simp [wait, Hart.held, Hart.retire, Hart.retireTo, htr]
    rw [exec_trapret, execTrapret, withRegs_of_runs r, hpriv]
    simp only [Bool.not_true, Bool.false_eq_true, if_false, hraw, hrz, resumeTrap_scalar heng hskip]
    rw [← hwait]
    rfl

/-- Settles O18. -/
theorem trapEntry : Obligations.TrapEntry := by
  unfold Obligations.TrapEntry
  refine ⟨?_, ?_⟩
  · intro s hid h i l dpa hl hu hvec hmc hloc a t
    have hvec' : (h.csr.trapvec != 0 && i.cause != .mcUncorrectable) = true := by
      rw [bne_iff_ne.mpr hvec, bne_iff_ne.mpr hmc]
      rfl
    simp only [State.takeTrap, hl, hu, hloc, hvec', Bool.false_eq_true, if_false, if_true]
    rfl
  · intro s hid h i hl hframe
    rcases hframe with hpriv | hloc
    · simp only [State.takeTrap, hl, hpriv, if_true]
    · cases hpriv : h.priv with
      | true => simp only [State.takeTrap, hl, hpriv, if_true]
      | false => simp only [State.takeTrap, hl, hpriv, hloc, Bool.false_eq_true, if_false]

end Sys2Proof.ScalarSystem
end

section
/-! PROOFS. The trap record (R264). -/

namespace Sys2Proof.TrapRecordForm

open Sys2Proof Sys2Proof.Machine Sys2Proof.Claim Sys2Proof.Laws

-- One proof is checked at a time: this keeps the check of the whole text within its memory.
set_option Elab.async false

/-- The sum that puts the command indices into the third and fourth words of a record. -/
def indexSum (acc : Nat) (idx : List (BitVec 16 × Nat)) : Nat :=
  idx.foldl (fun acc x => acc + x.1.toNat * 2 ^ (128 + 16 * x.2)) acc

theorem indexSum_nil (acc : Nat) : indexSum acc [] = acc := by
  rw [indexSum, List.foldl_nil]

theorem indexSum_cons (acc : Nat) (i : BitVec 16) (k : Nat) (idx : List (BitVec 16 × Nat)) :
    indexSum acc ((i, k) :: idx) = indexSum (acc + i.toNat * 2 ^ (128 + 16 * k)) idx := by
  rw [indexSum, List.foldl_cons, indexSum]

theorem vector_six (idx : Vector (BitVec 16) 6) : idx = #v[idx[0], idx[1], idx[2], idx[3], idx[4], idx[5]] := by
  refine Vector.ext fun i hi => ?_
  match i, hi with
  | 0, _ | 1, _ | 2, _ | 3, _ | 4, _ | 5, _ => rfl

theorem zipIdx_six (idx : Vector (BitVec 16) 6) : idx.toList.zipIdx =
    [(idx[0], 0), (idx[1], 1), (idx[2], 2), (idx[3], 3), (idx[4], 4), (idx[5], 5)] :=
  congrArg (fun v : Vector (BitVec 16) 6 => v.toList.zipIdx) (vector_six idx)

/-- What a record's number is the sum of, with the bits that are at most 1. -/
theorem trapRecord_toNat (r : TrapRecord) : r.toNat =
    r.cause.toNat + r.eng.toNat * 2 ^ 10 + r.av.toNat * 2 ^ 13 + r.progress.toNat * 2 ^ 14
    + r.async.toNat * 2 ^ 15 + r.nested.toNat * 2 ^ 16 + r.skip.toNat * 2 ^ 17
    + r.status.toNat * 2 ^ 32 + r.pc.toNat * 2 ^ 64
    + (0 + r.idx[0].toNat * 2 ^ (128 + 16 * 0) + r.idx[1].toNat * 2 ^ (128 + 16 * 1)
      + r.idx[2].toNat * 2 ^ (128 + 16 * 2) + r.idx[3].toNat * 2 ^ (128 + 16 * 3)
      + r.idx[4].toNat * 2 ^ (128 + 16 * 4) + r.idx[5].toNat * 2 ^ (128 + 16 * 5))
    + r.addr.toNat * 2 ^ 256 + r.rows.toNat * 2 ^ 320 + r.tix.toNat * 2 ^ 328 + r.cls.toNat * 2 ^ 334
    + r.ctxid.toNat * 2 ^ 384 + r.vcore.toNat * 2 ^ 400 + r.slot.toNat * 2 ^ 408 + r.cycle.toNat * 2 ^ 448 ∧
    r.av.toNat ≤ 1 ∧ r.progress.toNat ≤ 1 ∧ r.async.toNat ≤ 1 ∧ r.nested.toNat ≤ 1 ∧ r.skip.toNat ≤ 1 := by
  refine ⟨?_, Bool.toNat_le _, Bool.toNat_le _, Bool.toNat_le _, Bool.toNat_le _, Bool.toNat_le _⟩
  rw [TrapRecord.toNat, zipIdx_six, ← indexSum]
  simp only [indexSum_cons, indexSum_nil]

theorem bitOf_eq {n k : Nat} {b : Bool} (h : n / 2 ^ k % 2 = b.toNat) : bitOf n k = b := by
  rw [bitOf, Nat.testBit_eq_decide_div_mod_eq, h]
  cases b <;> rfl

section
variable (r : TrapRecord)

/-- The first word of a record. -/
theorem trapRecord_word0 : bits r.toNat 9 0 = r.cause.toNat ∧ bits r.toNat 12 10 = r.eng.toNat ∧
    bitOf r.toNat 13 = r.av ∧ bitOf r.toNat 14 = r.progress ∧ bitOf r.toNat 15 = r.async ∧
    bitOf r.toNat 16 = r.nested ∧ bitOf r.toNat 17 = r.skip ∧ bits r.toNat 31 18 = 0 ∧
    bits r.toNat 63 32 = r.status.toNat := by
  obtain ⟨hn, hav, hprogress, hasync, hnested, hskip⟩ := trapRecord_toNat r
  generalize r.toNat = n at hn ⊢
  refine ⟨?_, ?_, bitOf_eq ?_, bitOf_eq ?_, bitOf_eq ?_, bitOf_eq ?_, bitOf_eq ?_, ?_, ?_⟩
  any_goals simp only [bits]
  all_goals omega

/-- Its pc and its command indices. -/
theorem trapRecord_words1to3 : bits r.toNat 127 64 = r.pc.toNat ∧
    (∀ (e : Nat) (he : e < 6), bits r.toNat (143 + 16 * e) (128 + 16 * e) = r.idx[e].toNat) ∧
    bits r.toNat 255 224 = 0 := by
  obtain ⟨hn, hav, hprogress, hasync, hnested, hskip⟩ := trapRecord_toNat r
  generalize r.toNat = n at hn ⊢
  refine ⟨?_, fun e he => ?_, ?_⟩
  · simp only [bits]
    omega
  · interval_cases e <;> simp only [bits] <;> omega
  · simp only [bits]
    omega

/-- Its address and what locates the command. -/
theorem trapRecord_words4to5 : bits r.toNat 319 256 = r.addr.toNat ∧ bits r.toNat 327 320 = r.rows.toNat ∧
    bits r.toNat 333 328 = r.tix.toNat ∧ bits r.toNat 336 334 = r.cls.toNat ∧ bits r.toNat 383 337 = 0 := by
  obtain ⟨hn, hav, hprogress, hasync, hnested, hskip⟩ := trapRecord_toNat r
  generalize r.toNat = n at hn ⊢
  refine ⟨?_, ?_, ?_, ?_, ?_⟩
  all_goals
    simp only [bits]
    omega

/-- Its context, core and slot, and the cycle. -/
theorem trapRecord_words6to7 : bits r.toNat 395 384 = r.ctxid.toNat ∧ bits r.toNat 399 396 = 0 ∧
    bits r.toNat 406 400 = r.vcore.toNat ∧ bitOf r.toNat 407 = false ∧ bits r.toNat 409 408 = r.slot.toNat ∧
    bits r.toNat 447 410 = 0 ∧ bits r.toNat 511 448 = r.cycle.toNat := by
  obtain ⟨hn, hav, hprogress, hasync, hnested, hskip⟩ := trapRecord_toNat r
  generalize r.toNat = n at hn ⊢
  refine ⟨?_, ?_, ?_, bitOf_eq ?_, ?_, ?_, ?_⟩
  all_goals
    simp only [bits, Bool.toNat_false]
    omega

end

/-- Settles O19: a record's fields are read back word by word. -/
theorem trapRecordFields : Obligations.TrapRecordFields := by
  unfold Obligations.TrapRecordFields
  intro s h i r
  obtain ⟨hcause, heng, hav, hprogress, hasync, hnested, hskip, hrz18, hstatus⟩ := trapRecord_word0 (s.trapRecord h i)
  obtain ⟨hpc, hidx, hrz224⟩ := trapRecord_words1to3 (s.trapRecord h i)
  obtain ⟨haddr, hrows, htix, hcls, hrz337⟩ := trapRecord_words4to5 (s.trapRecord h i)
  obtain ⟨hctx, hrz396, hcore, hrz407, hslot, hrz410, hcycle⟩ := trapRecord_words6to7 (s.trapRecord h i)
  have heach : ∀ e, e < 6 → bits r (143 + 16 * e) (128 + 16 * e) =
      (if e = i.eng then i.idx.getD (h.curIdx e) else (h.idx[e]?).getD 0).toNat := fun e he => by
    rw [hidx e he]
    simp only [State.trapRecord, Vector.getElem_setIfInBounds, Vector.getElem?_eq_getElem he, Option.getD_some,
      eq_comm (a := i.eng)]
    split
    · next hei => rw [hei]
    · rfl
  refine ⟨hcause.trans (BitVec.toNat_ofNat ..), heng.trans (BitVec.toNat_ofNat ..), hav, hprogress, hasync, hnested,
    hskip,
    hrz18, hstatus, hpc, haddr, hrows.trans (BitVec.toNat_ofNat ..), htix, hcls.trans (BitVec.toNat_ofNat ..),
    hctx.trans (BitVec.toNat_ofNat ..), hcore.trans (BitVec.toNat_ofNat ..), hslot.trans (BitVec.toNat_ofNat ..),
    hcycle.trans (BitVec.toNat_ofNat ..), heach, hrz224, hrz337, hrz396, hrz407, hrz410⟩

end Sys2Proof.TrapRecordForm
end

section
/-! PROOFS. Waits, scope entries, tasks and recording (R143 to R149, R226 to R232, R240 to R249). -/

namespace Sys2Proof.ScalarWaits

open Sys2Proof Sys2Proof.Machine Sys2Proof.Claim Sys2Proof.Laws Sys2Proof.Scalar Sys2Proof.ScalarForms
  Sys2Proof.ScalarAtomic

-- One proof is checked at a time: this keeps the check of the whole text within its memory.
set_option Elab.async false

/-! ## Joins and fences (R149, R240 to R242, R300) -/

section
variable {s : State} {hid : Nat} {h : Hart} {px : Px}

/-- A DRAIN of a space that no job of the hart writes, before it has waited. -/
theorem drain_ends {space : Nat} (r : Runs s px [] hid h)
    (hq : (h.queue .jb).any (fun c => c.fault.isNone && c.done.isNone) = false) (hw : h.wait = .none)
    (hquiet : s.drains h ((h.active px).map h.coreOf) s.nextJob space = false) :
    drain s px space = goes ((((h.active px).map h.coreOf).foldl State.dropJobCopies s).retire hid h px) := by
  rw [drain, withRegs_of_runs r, hw]
  simp only [hq, hquiet, Bool.false_eq_true, if_false]

end

/-- Settles O20. -/
theorem joinResults : Obligations.JoinResults := by
  unfold Obligations.JoinResults
  intro s hid h px k t r
  refine ⟨fun he => ?_, fun he hw => ?_, fun hw ht => ?_, fun hd => ?_, fun hd => ?_, fun hd hw hp hr hrel hj => ?_,
    fun hq hw => ?_⟩
  · rw [exec_wfe, execWfe, withRegs_of_runs r, if_pos he]
  · rw [exec_wfe, execWfe, withRegs_of_runs r, he, hw]
    rfl
  · rw [exec_wfeTimeout, execWfeTimeout, withHart_of_runs r, hw]
    exact if_pos ht
  · rw [exec_lsync, execLsync, withRegs_of_runs r, if_pos hd, retired]
  · rw [exec_lsync, execLsync, withRegs_of_runs r, hd]
    rfl
  · have hready : (h.releaseReady && s.jobsDone hid h) = true := by rw [hrel, hj]; rfl
    rw [exec_fences, execFences, withRegs_of_runs r,
      scopedOp_ready hd (by rw [hw]; rfl) hp hr hready]
  · exact ⟨drain_ends r hq hw, drain_ends r hq hw, drain_ends r hq hw⟩

/-! ## Scope entries (R246 to R249) -/

section
variable {s : State} {hid : Nat} {h : Hart} {px : Px} {d : Reg} {nb : Bool} {k : Nat} {news : List (Option Scope)}

/-- No operation is in flight on a scope entry, and no rewrite is queued on it. -/
def ScopeFree (s : State) (ctx k : Nat) : Prop := (s.scopeEntry ctx k).pending = [] ∧ s.flight ctx k = 0

theorem scopeFree_iff (s : State) (ctx k : Nat) :
    ((s.scopeEntry ctx k).pending.isEmpty && s.flight ctx k == 0) = true ↔ ScopeFree s ctx k := by
  rw [Bool.and_eq_true, List.isEmpty_iff, beq_iff_eq, ScopeFree]

theorem rewriteScope_free (hfree : ScopeFree s h.ctx k) : rewriteScope s px hid h d nb k news =
    goes ((s.setScope h.ctx k { s.scopeEntry h.ctx k with cur := news.getLastD (s.scopeEntry h.ctx k).cur }).retire hid
      (h.setRegs (h.active px) d.toNat (fun _ => 0)) px) := by
  rw [rewriteScope]
  exact if_pos ((scopeFree_iff ..).mpr hfree)

theorem rewriteScope_busy (hbusy : ¬ ScopeFree s h.ctx k) : rewriteScope s px hid h d true k news =
    goes (s.retire hid (h.setRegs (h.active px) d.toNat (fun _ => 0x183)) px) := by
  rw [rewriteScope]
  exact (if_neg (fun hf => hbusy ((scopeFree_iff ..).mp hf))).trans (if_pos rfl)

theorem rewriteScope_waits (hbusy : ¬ ScopeFree s h.ctx k) : rewriteScope s px hid h d false k news =
    goes ((s.setScope h.ctx k { s.scopeEntry h.ctx k with
      pending := (s.scopeEntry h.ctx k).pending ++ news.map (fun n => { hart := hid, new := n }) }).setHart hid
      { h with wait := .scope k false }) := by
  rw [rewriteScope]
  exact (if_neg (fun hf => hbusy ((scopeFree_iff ..).mp hf))).trans (if_neg Bool.false_ne_true)

theorem execScopewr_rewrites {a : Reg} {n : BitVec 1} {e : BitVec 5} {j : Nat} {js : List Nat} {s' : State}
    (r : Runs s px [d.toNat, a.toNat] hid h) (hact : h.active px = j :: js) (hw : h.wait = .none)
    (hdesc : s.scopeDescs h (fun r => h.reg r a.toNat) (j :: js) = .ok (s', news)) :
    execScopewr px d a n e s = rewriteScope s' px hid h d (n == 1) e.toNat news := by
  rw [execScopewr, withRegs_of_runs r, hact, hw]
  simp only [hdesc]

theorem execScopeinv_rewrites {a : Reg} {n : BitVec 1} {e : BitVec 5} {j : Nat} {js : List Nat}
    (r : Runs s px [d.toNat, a.toNat] hid h) (hact : h.active px = j :: js) (hw : h.wait = .none) :
    execScopeinv px d n e s = rewriteScope s px hid h d (n == 1) e.toNat ((j :: js).map (fun _ => none)) := by
  rw [execScopeinv, withRegs_of_runs (runs_of_subset r (by simp)), hact, hw]

theorem getLastD_map_none (j : Nat) (js : List Nat) (x : Option Scope) :
    ((j :: js).map (fun _ => (none : Option Scope))).getLastD x = none := by
  rw [List.getLastD_eq_getLast?, List.getLast?_map]
  cases hl : (j :: js).getLast? with
  | none => exact absurd (List.getLast?_eq_none_iff.mp hl) (List.cons_ne_nil j js)
  | some _ => rfl

end

/-- Settles O21. -/
theorem scopeResults : Obligations.ScopeResults := by
  unfold Obligations.ScopeResults
  refine ⟨?_, fun s s' h j y va hraw hill => ?_, ?_⟩
  · intro s s' hid h px d a n e j js news r hact hw eo en free answer busy waits
    refine ⟨fun hdesc => ⟨fun hfree => ?_, fun hbusy => ⟨?_, ?_⟩⟩, fun hfree => ?_, fun hbusy => ⟨?_, ?_⟩⟩
    · exact (exec_scopewr ..).trans ((execScopewr_rewrites r hact hw hdesc).trans (rewriteScope_free hfree))
    · exact (exec_scopewr ..).trans ((execScopewr_rewrites r hact hw hdesc).trans (rewriteScope_busy hbusy))
    · exact (exec_scopewr ..).trans ((execScopewr_rewrites r hact hw hdesc).trans (rewriteScope_waits hbusy))
    · refine (exec_scopeinv ..).trans ((execScopeinv_rewrites r hact hw).trans ((rewriteScope_free hfree).trans ?_))
      rw [getLastD_map_none]
    · exact (exec_scopeinv ..).trans ((execScopeinv_rewrites r hact hw).trans (rewriteScope_busy hbusy))
    · exact (exec_scopeinv ..).trans ((execScopeinv_rewrites r hact hw).trans (rewriteScope_waits hbusy))
  · rw [State.scopeDescs, hraw]
    simp only [Except.bind, bind, hill, Bool.false_eq_true, if_false]
    rfl
  · intro s r rest ctx k hp hf
    rw [exec_scopeChangeInstall, execScopeChangeInstall]
    simp only [ctx, k] at hp hf
    simp only [hp, hf, ne_eq, not_true_eq_false, if_false]
    rfl

/-! ## Tasks (R143 to R148) -/

/-- Settles O25. -/
theorem taskResults : Obligations.TaskResults := by
  unfold Obligations.TaskResults
  intro s hid h px d g e r hq
  have r0 : Runs s px [] hid h := runs_of_subset r (by simp)
  refine ⟨fun hp hl => ?_, fun hr => ?_, fun hg hx => ?_, fun hg hx hn he => ?_, fun hg hx he => ?_,
    fun rt hl hj => ?_⟩
  · rw [exec_nodeb, execNodeb, withRegs_of_runs r0, hq, hl, hp]
    rfl
  · rw [exec_yield, execYield, withRegs_of_runs r0, hq]
    simp only [hr]
    rfl
  · rw [exec_cursor, execCursor, withRegs_of_runs r, hq]
    simp only [hg, hx]
    rfl
  · rw [exec_cursor, execCursor, withRegs_of_runs r, hq]
    simp only [hg, hx, hn, he]
    rfl
  · rw [exec_cursor, execCursor, withRegs_of_runs r, hq]
    simp only [hg, hx, he]
    cases s.nextEntry h <;> rfl
  · intro s' hs'
    simp only [s'] at hs'
    rw [exec_texit, execTexit, withRegs_of_runs rt, hq, hl, hj]
    simp only [List.isEmpty_nil, Bool.not_true, Bool.or_self, Bool.false_eq_true, if_false, hs', bne_self_eq_false]
    rfl

/-! ## Recording and reversal (R226, R227, R232) -/

theorem recordOp_runs {s : State} {hid : Nat} {h : Hart} {px : Px} {j : Nat} {js : List Nat} {f : Nat → Hart → Nat →
    Out}
    (r : Runs s px [] hid h) (hact : h.active px = j :: js) (hmx : h.awaits .mx = false) :
    recordOp px s f = f hid h j := by
  rw [recordOp, withRegs_of_runs r]
  simp only [hact, hmx, Bool.false_eq_true, if_false]

/-- Settles O27. -/
theorem recordResults : Obligations.RecordResults := by
  unfold Obligations.RecordResults
  intro s s' hid h px a j js y m r hact hmx hw va first start
  have r0 : Runs s px [] hid h := runs_of_subset r (by simp)
  refine ⟨(exec_recordOff ..).trans (recordOp_runs r0 hact hmx), (exec_recordMark ..).trans (recordOp_runs r0 hact hmx),
    fun hroom hraw hbad => ?_, fun hlease hal hmap => ?_⟩
  · rw [exec_recordOn, execRecordOn, recordOp_runs r0 hact hmx, if_neg (Nat.not_lt.mpr hroom)]
    simp only [hraw, hbad, Bool.false_eq_true, if_false]
  · have hwrite : (if h.csr.revAct then { h.csr with recording := false }
        else { h.csr with recording := false, revAct := true, revNext := h.csr.tapen - 1 } : Csrs) = start.csr := by
      simp only [start, first]
      cases h.csr.revAct <;> rfl
    have hstart : ({ h with csr := if h.csr.revAct then { h.csr with recording := false }
        else { h.csr with recording := false, revAct := true, revNext := h.csr.tapen - 1 }, wait := .none } :
          Hart) = start := by
      rw [hwrite, ← hw]
    dsimp only at hwrite hstart
    simp only [va] at hal hmap
    rw [exec_reverse, execReverse, withRegs_of_runs r, hw, hact]
    simp only [hmx, hlease, hal, ne_eq, not_true_eq_false, Bool.false_eq_true, if_false]
    rw [hstart, hwrite]
    simp only [hmap]
    exact ⟨fun hlt => if_neg (Nat.not_le.mpr hlt), fun hle => if_pos hle⟩

end Sys2Proof.ScalarWaits
end

section
/-! PROOFS. The counts of a barrier object (R252, R359 to R361). -/

namespace Sys2Proof.BarrierObject

open Sys2Proof Sys2Proof.Machine Sys2Proof.Claim Sys2Proof.Laws

-- One proof is checked at a time: this keeps the check of the whole text within its memory.
set_option Elab.async false

/-- The object that `barrierNext` leaves: three counts and the two bits above them replaced. -/
def barrierPut (x expb arrb arra : Nat) (phase err : Bool) : Nat :=
  replaceBits (replaceBits (replaceBits (replaceBits x 0 32 expb) 32 32 arrb) 80 16 arra) 96 2
    (phase.toNat + 2 * err.toNat)

theorem testBit_replaceBits (x lo w y i : Nat) : (replaceBits x lo w y).testBit i =
    if i < lo then x.testBit i else if i < lo + w then y.testBit (i - lo) else x.testBit i := by
  have hz : replaceBits x lo w y = 2 ^ (lo + w) * (x / 2 ^ (lo + w)) + (2 ^ lo * (y % 2 ^ w) + x % 2 ^ lo) := by
    rw [replaceBits, Nat.mul_comm (2 ^ (lo + w)), Nat.mul_comm (2 ^ lo)]
    omega
  have hlo : x % 2 ^ lo < 2 ^ lo := Nat.mod_lt _ (Nat.two_pow_pos lo)
  have hmid : 2 ^ lo * (y % 2 ^ w) + x % 2 ^ lo < 2 ^ (lo + w) := by
    have hy : y % 2 ^ w + 1 ≤ 2 ^ w := Nat.mod_lt _ (Nat.two_pow_pos w)
    calc 2 ^ lo * (y % 2 ^ w) + x % 2 ^ lo < 2 ^ lo * (y % 2 ^ w) + 2 ^ lo := Nat.add_lt_add_left hlo _
      _ = 2 ^ lo * (y % 2 ^ w + 1) := by rw [Nat.mul_add, Nat.mul_one]
      _ ≤ 2 ^ lo * 2 ^ w := Nat.mul_le_mul_left _ hy
      _ = 2 ^ (lo + w) := (pow_add 2 lo w).symm
  rw [hz, Nat.testBit_two_pow_mul_add _ hmid, Nat.testBit_two_pow_mul_add _ hlo, Nat.testBit_mod_two_pow,
    Nat.testBit_mod_two_pow, Nat.testBit_div_two_pow]
  by_cases h1 : i < lo
  · simp [h1, Nat.lt_add_right w h1]
  · by_cases h2 : i < lo + w
    · simp [h1, h2, Nat.sub_lt_left_of_lt_add (not_lt.mp h1) h2]
    · simp [h1, h2, Nat.sub_add_cancel (not_lt.mp h2)]

theorem testBit_bits (x hi lo i : Nat) :
    (bits x hi lo).testBit i = (decide (i < hi + 1 - lo) && x.testBit (lo + i)) := by
  rw [bits, Nat.testBit_mod_two_pow, Nat.testBit_div_two_pow, Nat.add_comm i lo]

/-- A field that a replacement does not touch. -/
theorem bits_replaceBits_other (x y : Nat) {lo w hi l : Nat} (h : hi < lo ∨ lo + w ≤ l) :
    bits (replaceBits x lo w y) hi l = bits x hi l := by
  refine Nat.eq_of_testBit_eq fun i => ?_
  rw [testBit_bits, testBit_bits, testBit_replaceBits]
  by_cases hi' : i < hi + 1 - l
  · rcases h with h | h
    · rw [if_pos (by omega)]
    · rw [if_neg (by omega), if_neg (by omega)]
  · simp [hi']

/-- The field that a replacement puts. -/
theorem bits_replaceBits_same (x lo w y : Nat) {hi : Nat} (h : hi + 1 = lo + w) :
    bits (replaceBits x lo w y) hi lo = y % 2 ^ w := by
  refine Nat.eq_of_testBit_eq fun i => ?_
  rw [testBit_bits, testBit_replaceBits, Nat.testBit_mod_two_pow, h, Nat.add_sub_cancel_left, Nat.add_sub_cancel_left,
    if_neg (Nat.not_lt.mpr (Nat.le_add_right lo i))]
  by_cases hi' : i < w
  · simp [hi']
  · simp [hi']

theorem barrierPut_counts (x expb arrb arra : Nat) (phase err : Bool) :
    let y := barrierPut x expb arrb arra phase err
    bits y 31 0 = expb % 2 ^ 32 ∧ bits y 63 32 = arrb % 2 ^ 32 ∧ bits y 79 64 = bits x 79 64 ∧
      bits y 95 80 = arra % 2 ^ 16 ∧ bits y 255 98 = bits x 255 98 := by
  simp only [barrierPut]
  refine ⟨?_, ?_, ?_, ?_, ?_⟩
  · rw [bits_replaceBits_other _ _ (by decide), bits_replaceBits_other _ _ (by decide),
      bits_replaceBits_other _ _ (by decide), bits_replaceBits_same x 0 32 expb rfl]
  · rw [bits_replaceBits_other _ _ (by decide), bits_replaceBits_other _ _ (by decide),
      bits_replaceBits_same _ 32 32 arrb rfl]
  · rw [bits_replaceBits_other _ _ (by decide), bits_replaceBits_other _ _ (by decide),
      bits_replaceBits_other _ _ (by decide), bits_replaceBits_other _ _ (by decide)]
  · rw [bits_replaceBits_other _ _ (by decide), bits_replaceBits_same _ 80 16 arra rfl]
  · rw [bits_replaceBits_other _ _ (by decide), bits_replaceBits_other _ _ (by decide),
      bits_replaceBits_other _ _ (by decide), bits_replaceBits_other _ _ (by decide)]

theorem barrierPut_bits (x expb arrb arra : Nat) (phase err : Bool) :
    let y := barrierPut x expb arrb arra phase err
    bitOf y 96 = phase ∧ bitOf y 97 = err := by
  have h96 : bitOf (barrierPut x expb arrb arra phase err) 96 = (phase.toNat + 2 * err.toNat).testBit 0 := by
    rw [barrierPut, bitOf, testBit_replaceBits, if_neg (by decide), if_pos (by decide)]
  have h97 : bitOf (barrierPut x expb arrb arra phase err) 97 = (phase.toNat + 2 * err.toNat).testBit 1 := by
    rw [barrierPut, bitOf, testBit_replaceBits, if_neg (by decide), if_pos (by decide)]
  refine ⟨h96.trans ?_, h97.trans ?_⟩
  · cases phase <;> cases err <;> rfl
  · cases phase <;> cases err <;> rfl

/-- Settles O23. -/
theorem barrierCounts : Obligations.BarrierCounts := by
  unfold Obligations.BarrierCounts
  intro x b _ expb arrb expa arra excess meet r y
  have hexcess : r.2.2 = true ↔ excess := by
    simp only [r, barrierNext, Bool.or_eq_true, Bool.and_eq_true, bne_iff_ne, decide_eq_true_eq, excess]
    rfl
  have hflip : r.2.1 = true ↔ excess ∨ meet := by
    rw [← hexcess]
    simp only [r, barrierNext, Bool.or_eq_true, Bool.and_eq_true, bne_iff_ne, decide_eq_true_eq, beq_iff_eq, meet,
      and_assoc]
    rfl
  have hy : y = barrierPut x (if r.2.1 then 0 else expb) (if r.2.1 then 0 else arrb) (if r.2.1 then 0 else arra)
      (bitOf x 96 != r.2.1) (bitOf x 97 || b.err || r.2.2) := rfl
  have harra : r.2.1 = false → arra < 2 ^ 16 := fun hf => by
    have hn : ¬ excess := fun he => by rw [hflip.mpr (.inl he)] at hf; cases hf
    have he : expa < 2 ^ 16 := Nat.mod_lt _ (by decide)
    simp only [excess] at hn
    omega
  obtain ⟨h1, h2, h3, h4, h5⟩ := barrierPut_counts x (if r.2.1 then 0 else expb) (if r.2.1 then 0 else arrb)
    (if r.2.1 then 0 else arra) (bitOf x 96 != r.2.1) (bitOf x 97 || b.err || r.2.2)
  obtain ⟨h6, h7⟩ := barrierPut_bits x (if r.2.1 then 0 else expb) (if r.2.1 then 0 else arrb)
    (if r.2.1 then 0 else arra) (bitOf x 96 != r.2.1) (bitOf x 97 || b.err || r.2.2)
  rw [← hy] at h1 h2 h3 h4 h5 h6 h7
  refine ⟨hflip, hexcess, h3, fun hf => ?_, fun hf => ?_, ?_, h5⟩
  · rw [hf] at h1 h2 h4 h6
    exact ⟨h1, h2, h4, by rw [h6]; cases bitOf x 96 <;> rfl⟩
  · rw [hf] at h1 h2 h4 h6
    exact ⟨h1, h2, h4.trans (Nat.mod_eq_of_lt (harra hf)), by rw [h6]; cases bitOf x 96 <;> rfl⟩
  · rw [h7, Bool.or_eq_true, Bool.or_eq_true, hexcess, or_assoc]

end Sys2Proof.BarrierObject
end

section
/-! PROOFS. Operations of memory keep every hart as it is. -/

namespace Sys2Proof.HartsKept

open Sys2Proof Sys2Proof.Machine Sys2Proof.Claim Sys2Proof.Laws Sys2Proof.MemoryForm

-- One proof is checked at a time: this keeps the check of the whole text within its memory.
set_option Elab.async false

/-- Two states have the same harts. -/
def SameHarts (s t : State) : Prop := t.harts = s.harts

theorem SameHarts.trans {s t u : State} (h : SameHarts s t) (h' : SameHarts t u) : SameHarts s u := Eq.trans h' h

theorem SameHarts.foldl {α : Type} {f : State → α → State} (hf : ∀ s x, SameHarts s (f s x)) (xs : List α) (s : State) :
    SameHarts s (xs.foldl f s) := by
  induction xs generalizing s with
  | nil => rfl
  | cons x xs ih => exact (hf s x).trans (ih _)

theorem sameHarts_noteWrite (s : State) (k : Nat) : SameHarts s (s.noteWrite k) := by
  unfold State.noteWrite
  split <;> rfl

theorem sameHarts_writeSector (s : State) (l : Loc) (x : Sector) : SameHarts s (s.writeSector l x) :=
  sameHarts_noteWrite ..

theorem sameHarts_writeRaw (s : State) (l : Loc) (n x : Nat) : SameHarts s (s.writeRaw l n x) := by
  unfold State.writeRaw
  split_ifs
  · exact sameHarts_writeSector ..
  · exact sameHarts_noteWrite ..
  · exact sameHarts_writeSector ..

theorem sameHarts_noteStore (s : State) (dpa : Nat) (l : Loc) : SameHarts s (s.noteStore dpa l) := by
  unfold State.noteStore
  dsimp only
  split_ifs <;> rfl

theorem sameHarts_storeRaw (s : State) (dpa : Nat) (l : Loc) (n x : Nat) : SameHarts s (s.storeRaw dpa l n x) :=
  (sameHarts_writeRaw s l n x).trans (sameHarts_noteStore ..)

theorem sameHarts_dropL1 (s : State) (cores : List Nat) (dpa : Nat) : SameHarts s (s.dropL1 cores dpa) :=
  SameHarts.foldl (fun s c => by split <;> rfl) cores s

theorem sameHarts_dropL2 (s : State) (cores : List Nat) (key : Nat) : SameHarts s (s.dropL2 cores key) := by
  unfold State.dropL2
  split
  · rfl
  · exact SameHarts.foldl (by exact fun s c => rfl) cores s

theorem sameHarts_writeFar (s : State) (cores : List Nat) (l : Loc) : SameHarts s (s.writeFar cores l) := by
  unfold State.writeFar
  split
  · exact sameHarts_dropL2 ..
  · rfl

theorem sameHarts_countFound (s : State) (k : Nat) (u : Bool) : SameHarts s (s.countFound k u) := by
  unfold State.countFound
  split <;> rfl

theorem sameHarts_sysWrite (s : State) (dpa n x : Nat) : SameHarts s (s.sysWrite dpa n x) := by
  unfold State.sysWrite
  split
  · exact sameHarts_writeRaw ..
  · rfl

theorem sameHarts_psWriteOne (s : State) : SameHarts s s.psWriteOne := by
  unfold State.psWriteOne
  split
  · next n r rest _ _ =>
    have hput : ∀ a n x, SameHarts s (State.sysWrite { s with psWait := rest, psSeq := s.psSeq + 1 } a n x) :=
      fun a n x => sameHarts_sysWrite { s with psWait := rest, psSeq := s.psSeq + 1 } a n x
    dsimp only
    split
    · split
      · exact hput _ _ _
      · exact hput _ _ _
    · rfl
  · rfl

theorem sameHarts_psFlush (k : Nat) (s : State) : SameHarts s (psFlush k s) := by
  induction k generalizing s with
  | zero => rfl
  | succ k ih => exact (sameHarts_psWriteOne s).trans (ih _)

theorem sameHarts_psRecord (s : State) (r : PsRecord) : SameHarts s (s.psRecord r) :=
  sameHarts_psFlush (s.psWait.length + 1) { s with psWait := s.psWait ++ [r] }

theorem sameHarts_poisonSector (s : State) (k page : Nat) : SameHarts s (s.poisonSector k page) :=
  sameHarts_psRecord { s with
    sides := putD s.sides (k / 256) 0 ((s.side k).extractLsb' 24 128 ++ mkTag clsPoison
      (tagFmt ((s.side k).extractLsb' 0 24))
      (tagCw ((s.side k).extractLsb' 0 24)) (tagSexp ((s.side k).extractLsb' 0 24)))
    errors := del s.errors (k / 256) } _

theorem sameHarts_correct (s : State) (k : Nat) : SameHarts s (s.correct k) := by
  unfold State.correct
  dsimp only
  split
  · rfl
  · exact sameHarts_writeSector ..

theorem sameHarts_settle (s : State) (l : Loc) (dpa : Nat) : SameHarts s (s.settle l dpa) := by
  unfold State.settle
  split
  · rfl
  split
  · exact (sameHarts_countFound ..).trans (sameHarts_poisonSector ..)
  · exact (sameHarts_countFound ..).trans (sameHarts_correct ..)
  · exact sameHarts_correct ..

theorem sameHarts_recall (s : State) (dpa : Nat) : SameHarts s (s.recall dpa) := by
  unfold State.recall
  split
  · rfl
  refine SameHarts.foldl (fun s a => ?_) (lineSectors dpa) { s with dirty := del s.dirty (dpa / 1024) }
  split
  · split
    · exact sameHarts_settle ..
    · rfl
  · rfl

theorem sameHarts_crossed (s : State) (l : Loc) : SameHarts s (s.crossed l) := by
  unfold State.crossed
  split
  · rfl
  split <;> rfl

theorem sameHarts_home {s t : State} {h : Hart} {row dpa : Nat} {va : Dword} {u : Use} {l : Loc}
    (e : s.home h row dpa va u = .ok (t, l)) : SameHarts s t := by
  unfold State.home at e
  split at e
  · cases e
  · cases e
  · cases e
  split at e
  · dsimp only at e
    have hdrop := fun (k : Nat) => (sameHarts_dropL1 s (h.cores.filter (fun c => c != h.coreOf row)) dpa).trans
      (sameHarts_dropL2 _ (h.cores.filter (fun c => c / 16 != h.coreOf row / 16)) k)
    split at e
    · cases e; exact hdrop _
    · cases e; exact (hdrop _).trans ((sameHarts_settle ..).trans (sameHarts_crossed ..))
  · cases e; exact (sameHarts_settle ..).trans (sameHarts_crossed ..)
  · split at e
    · cases e
    · cases e
      exact (sameHarts_dropL1 ..).trans ((sameHarts_recall ..).trans ((sameHarts_writeFar ..).trans
        ((sameHarts_settle ..).trans (sameHarts_crossed ..))))

theorem sameHarts_homeRaw {s t : State} {h : Hart} {row dpa : Nat} {va : Dword} {u : Use} {l : Loc}
    (e : s.homeRaw h row dpa va u = .ok (t, l)) : SameHarts s t := by
  unfold State.homeRaw at e
  obtain ⟨⟨t', l'⟩, hh, e⟩ := bind_ok.mp e
  dsimp only at e
  split at e
  · cases e
  split at e
  · cases e
  · cases e
    exact sameHarts_home hh

theorem sameHarts_homeRows {s t : State} {h : Hart} {u : Use} {va : Nat → Dword} {acc : List (Nat × Nat)}
    {locs : List (Nat × Loc)} (e : s.homeRows h u va acc = .ok (t, locs)) : SameHarts s t := by
  induction acc generalizing s locs with
  | nil => cases e; rfl
  | cons y ys ih =>
    obtain ⟨⟨s1, l⟩, hh, e⟩ := bind_ok.mp e
    obtain ⟨⟨s2, rest⟩, hrest, e⟩ := bind_ok.mp e
    cases e
    exact (sameHarts_homeRaw hh).trans (ih hrest)

theorem sameHarts_cellRows {s t : State} {h : Hart} {u : Use} {va : Nat → Dword} {acc : List (Nat × Nat)}
    {rows : List AmoRow} (e : s.cellRows h u va acc = .ok (t, rows)) : SameHarts s t := by
  induction acc generalizing s rows with
  | nil => cases e; rfl
  | cons y ys ih =>
    obtain ⟨⟨s1, l⟩, hh, e⟩ := bind_ok.mp e
    dsimp only at e
    split at e
    · cases e
    obtain ⟨⟨s2, rest⟩, hrest, e⟩ := bind_ok.mp e
    cases e
    exact (sameHarts_home hh).trans (ih hrest)

theorem sameHarts_releaseCell (s : State) (ctx cell : Nat) : SameHarts s (s.releaseCell ctx cell) := by
  unfold State.releaseCell
  dsimp only
  split
  · rfl
  · exact SameHarts.foldl (by exact fun s w => rfl) _ _

end Sys2Proof.HartsKept
end

section
/-! PROOFS. Barrier objects and future cells (R250 to R254). -/

namespace Sys2Proof.ScalarObjects

open Sys2Proof Sys2Proof.Machine Sys2Proof.Claim Sys2Proof.Laws Sys2Proof.Scalar Sys2Proof.ScalarForms
  Sys2Proof.HartsKept

-- One proof is checked at a time: this keeps the check of the whole text within its memory.
set_option Elab.async false

/-! ## Look-ups in the harts after a waking (R252, R254) -/

theorem look_map {α : Type} (m : Map α) (f : Nat × α → Nat × α) (g : α → α) (hf : ∀ k x, f (k, x) = (k, g x)) (k :
    Nat) :
    look (m.map f) k = (look m k).map g := by
  induction m with
  | nil => rfl
  | cons c m ih =>
    obtain ⟨j, x⟩ := c
    rw [List.map_cons, hf, look, look, ih]
    split <;> rfl

theorem look_wakeContext (s : State) (ctx hid : Nat) : look (s.wakeContext ctx).harts hid =
    (look s.harts hid).map (fun g => if g.ctx = ctx then { g with event := true } else g) :=
  look_map _ _ _ (fun k x => by dsimp only; split <;> rfl) hid

theorem look_releaseBwaits (s : State) (key hid : Nat) : look (s.releaseBwaits key).harts hid =
    (look s.harts hid).map (fun g => { g with
      wait := g.wait.flipped key
      traps := g.traps.map (fun t => { t with wait := t.wait.flipped key }) }) :=
  look_map _ _ _ (fun _ _ => rfl) hid

/-! ## Barrier objects (R250 to R252, R361, R362) -/

section
variable {s s' : State} {hid : Nat} {h : Hart} {px : Px} {d a : Reg} {j dpa : Nat} {l : Loc} {b : Nat → BarAct}
  {rel : Bool} {va : Nat → Dword}

/-- The state in which a row's access to an object takes its place in the cycle. -/
abbrev tookPlace (s : State) (h : Hart) (j dpa : Nat) : State := s.barrierTook (h.barrierPlaces [(j, dpa)])

/-- A counting instruction of one row that meets nothing ahead and comes late enough in the cycle acts on the object. -/
theorem barrierInstr_acts (hdown : rel = true → s.releaseDown h = none) (hrel : rel = true → h.releaseReady = true)
    (hahead : h.accessAhead 32 [(j, dpa)] = false) (hmay : s.barrierMay (h.barrierPlaces [(j, dpa)]) = true)
    (hhome : s.homeRows h .syncWrite va [(j, dpa)] = .ok (s', [(j, l)])) {t : State} {g : Hart}
    (hact : (tookPlace s' h j dpa).barrierAct h.ctx (h.coreOf j) (.core (h.coreOf j)) dpa l (b j) = some (t, none))
    (hg : look t.harts hid = some g) :
    barrierInstr s px hid h va rel b [(j, dpa)] = goes (t.retire hid g.markStored px) := by
  have hdown' : (if rel = true then s.releaseDown h else none) = none := by
    split
    · next hr => exact hdown hr
    · rfl
  have hgo : ((rel && !h.releaseReady) || h.accessAhead 32 [(j, dpa)] || !s.barrierMay (h.barrierPlaces [(j, dpa)])) =
      false := by
    rw [hahead, hmay]
    cases hr : rel with
    | false => rfl
    | true => rw [hrel hr]; rfl
  have hacts : barrierActs (tookPlace s' h j dpa) h b (amoList [(j, dpa)] [(j, l)]) = some (t, none) := by
    simp only [amoList, List.zip_cons_cons, List.zip_nil_right, List.map_cons, List.map_nil, barrierActs, hact]
    rfl
  rw [barrierInstr]
  simp only [hdown', List.isEmpty_cons, Bool.false_eq_true, if_false, hgo, hhome, hacts, hg]

/-- Where the counts do not meet, the object takes them. -/
theorem barrierAct_counts {ctx core : Nat} {ag : Agent} {x : BarAct} (hrz : barrierRz (s.readRaw l 32) = false)
    (hflip : (barrierNext (s.readRaw l 32) x).2.1 = false) :
    s.barrierAct ctx core ag dpa l x = some (s.storeRaw dpa l 32 (barrierNext (s.readRaw l 32) x).1, none) := by
  simp only [State.barrierAct, hrz, hflip, Bool.false_eq_true, if_false, Bool.not_false, if_true]

/-- Where they meet, with no excess, the object flips, for a member of its scope. -/
theorem barrierAct_flips {ctx core : Nat} {ag : Agent} {x : BarAct} (hrz : barrierRz (s.readRaw l 32) = false)
    (hflip : (barrierNext (s.readRaw l 32) x).2.1 = true) (hovr : (barrierNext (s.readRaw l 32) x).2.2 = false)
    (hp : s.scopePending ctx (barrierScope (s.readRaw l 32)) = false)
    (hm : s.scopeCheck ctx (barrierScope (s.readRaw l 32)) ag = none) :
    s.barrierAct ctx core ag dpa l x = some (((s.storeRaw dpa l 32 (barrierNext (s.readRaw l 32) x).1).releaseBwaits
      (objectKey core dpa)).wakeContext ctx, none) := by
  simp only [State.barrierAct, hrz, hflip, hovr, hp, hm, Bool.false_eq_true, if_false, Bool.not_true,
    Option.isSome_none]

/-- The hart that counts, after the flip that it makes. -/
theorem look_flipped {t : State} {ctx key : Nat} (hl : look t.harts hid = some h) (hctx : h.ctx = ctx)
    (hw : h.wait = .none) : look ((t.releaseBwaits key).wakeContext ctx).harts hid = some { h with
      event := true, traps := h.traps.map (fun t => { t with wait := t.wait.flipped key }) } := by
  have hkeep : h.wait.flipped key = h.wait := by rw [hw]; rfl
  rw [look_wakeContext, look_releaseBwaits, hl, Option.map_some, Option.map_some, hkeep, if_pos hctx]

end

theorem look_after_home {s s' : State} {hid : Nat} {h g : Hart} {u : Use} {va : Nat → Dword} {acc : List (Nat × Nat)}
    {locs : List (Nat × Loc)} (hl : look s.harts hid = some h) (e : s.homeRows g u va acc = .ok (s', locs)) :
    look s'.harts hid = some h := by
  rw [← hl, sameHarts_homeRows e]

/-- Settles O22. -/
theorem barrierResults : Obligations.BarrierResults := by
  unfold Obligations.BarrierResults
  intro s s' hid h px d a n k p j dpa l r hact va place o x key cur member reaches counts
  have ra : Runs s px [a.toNat] hid h := runs_of_subset r (by simp)
  have hl : look s.harts hid = some h := by obtain ⟨-, hl, -, -⟩ := r; exact hl
  -- BARARM and BARRIVE, once their own checks are done
  have counting {e : Instr} {rel : Bool} {b : Nat → BarAct}
      (he : s.barrierRows h .rw va [j] = .ok [(j, dpa)] → exec e s = barrierInstr s px hid h va rel b [(j, dpa)])
      (hdown : rel = true → s.releaseDown h = none) (hrel : rel = true → h.releaseReady = true) : counts e (b j) := by
    rintro ⟨hrows, hahead, hmay, hhome⟩ hw hrz
    have hlo : look (o.storeRaw dpa l 32 (barrierNext x (b j)).1).harts hid = some h := by
      rw [← look_after_home hl hhome]
      exact congrArg (look · hid) (sameHarts_storeRaw ..)
    refine ⟨fun hflip => ?_, fun hflip hovr hp hm => ?_⟩
    · exact (he hrows).trans (barrierInstr_acts hdown hrel hahead hmay hhome (barrierAct_counts hrz hflip) hlo)
    · exact (he hrows).trans (barrierInstr_acts hdown hrel hahead hmay hhome (barrierAct_flips hrz hflip hovr hp hm)
        (look_flipped hlo rfl hw))
  refine ⟨?_, fun hd => counting (rel := false) (b := fun j => { expb := (h.reg j d.toNat).toNat }) (fun hrows => ?_)
      (fun e => absurd e Bool.false_ne_true) (fun e => absurd e Bool.false_ne_true),
    fun hrel hdown => counting (rel := true)
      (b := fun j => { arrb := (h.reg j d.toNat).toNat % 2 ^ 32, arra := n.toNat }) (fun hrows => ?_)
      (fun _ => hdown) (fun _ => hrel), ?_, fun sc hw => ?_⟩
  · rintro ⟨hrows, hahead, hmay, hhome⟩ hp hr
    rw [exec_barinit, execBarinit, withRegs_of_runs ra, hact]
    simp only [va, place] at hrows hmay hhome
    simp only [hrows, hp, hahead, hmay, hr, hhome]
    rfl
  · rw [exec_bararm, execBararm, withRegs_of_runs r, hact]
    simp only [va] at hrows
    simp only [hrows, List.find?_cons, List.find?_nil, ge_iff_le, Nat.not_le.mpr hd, decide_false]
    rfl
  · rw [exec_barrive, execBarrive, withRegs_of_runs r, hact]
    simp only [va] at hrows
    simp only [hrows]
    rfl
  · rintro ⟨hrows, hahead, hmay, hhome⟩ hw hrz hm
    have hcheck : o.bwaitCheck h j x = none := by rw [State.bwaitCheck, hrz]; exact hm
    simp only [va, place, o, x] at hrows hmay hhome hcheck
    have hphase {v : Bool} (hb : (bitOf x 96 == p.getLsbD 0) = v) : execBwait px a p s =
        if v = true then goes (o.setHart hid { h with wait := .bwait [key] [(barrierScope x, cur)] })
        else goes (o.bwaitReturn hid h px [(barrierScope x, cur)]) := by
      simp only [x, o, place] at hb
      rw [execBwait, withRegs_of_runs ra, hw, hact]
      simp only [hrows, hahead, hmay, hhome, amoList, List.zip_cons_cons, List.zip_nil_right, List.map_cons,
        List.map_nil, List.findSome?_cons, List.findSome?_nil, hcheck, List.filter_cons, List.filter_nil, hb]
      cases v <;> rfl
    refine ⟨fun hne => ?_, fun heq => ?_⟩
    · rw [exec_bwait, hphase (beq_eq_false_iff_ne.mpr hne), if_neg Bool.false_ne_true, State.bwaitReturn, hact]
      rfl
    · rw [exec_bwait, hphase (beq_iff_eq.mpr heq), if_pos rfl]
  · rw [exec_bwait, execBwait, withRegs_of_runs ra, hw]
    simp only [State.bwaitReturn, hact, List.foldl_cons, List.foldl_nil]

/-- Settles O24. -/
theorem futureResults : Obligations.FutureResults := by
  unfold Obligations.FutureResults
  intro s s' hid h px d a i j dpa l r hact va row
  have hl : look s.harts hid = some h := by obtain ⟨-, hl, -, -⟩ := r; exact hl
  refine ⟨fun hrows hahead hcells hfull => ?_, fun hrows hrel hdown hcells => ?_⟩
  · simp only [va] at hrows hcells
    have hempty : [row].filter (fun r => decide (tagCls (s'.tagAt r.loc.key) = clsFempty)) = [] := by
      simp [row, hfull, clsFfull, clsFempty]
    rw [exec_frd, execFrd, withRegs_of_runs r, hact]
    simp only [hrows, hahead, hcells, hempty]
    rfl
  · intro x t t'
    have hcell : fillCells (s'.setHart hid h.markStored) h i.toNat (fun j => h.reg j d.toNat) [row] =
        if tagCls x.tag = clsFempty then t.releaseCell h.ctx (keepKey (h.coreOf j) dpa) else t := rfl
    have hkept : SameHarts (s'.setHart hid h.markStored)
        (if tagCls x.tag = clsFempty then t.releaseCell h.ctx (keepKey (h.coreOf j) dpa) else t) := by
      split
      · exact (sameHarts_writeSector ..).trans (sameHarts_releaseCell ..)
      · exact sameHarts_writeSector ..
    have hlook : look t'.harts hid = some { h.markStored with event := true } := by
      rw [look_wakeContext, hkept, State.setHart, look_put_same, Option.map_some,
        if_pos (show h.markStored.ctx = h.ctx from rfl)]
    simp only [va] at hrows hcells
    rw [exec_fwr, execFwr, withRegs_of_runs r, hact]
    simp only [hrows, hrel, hdown, hcells, hcell, List.isEmpty_cons, Bool.not_true, Bool.false_eq_true, if_false]
    rw [hlook]

end Sys2Proof.ScalarObjects
end

section
/-! PROOFS. Steps, reset and the words of the examples. -/

namespace Sys2Proof.Steps

open Sys2Proof Sys2Proof.Machine Sys2Proof.Claim Sys2Proof.Laws Sys2Proof.Scalar

-- One proof is checked at a time: this keeps the check of the whole text within its memory.
set_option Elab.async false

/-- Settles O56: each word is decoded by evaluation. -/
theorem decodeWords : Obligations.DecodeWords := by
  unfold Obligations.DecodeWords
  exact ⟨rfl, rfl, rfl, rfl, rfl, rfl, rfl, rfl, rfl⟩

theorem getD_replicate_zero {α : Type} [Zero α] (m n : Nat) :
    ((Vector.replicate m (0 : α))[n]?).getD 0 = 0 := by
  rw [Vector.getElem?_replicate]
  split <;> rfl

/-- A row of a launched hart, and one beyond its span, reads as zeros. -/
theorem launch_row (p : Place) (entry : Dword) (csr : Csrs) (tm : Map Template) (j : Nat) :
    (Hart.launch p entry csr RowRegs.zero tm).row j = RowRegs.zero := by
  rw [Hart.row, Hart.launch, List.getD_eq_getElem?_getD, List.getElem?_replicate]
  split <;> rfl

theorem zero_get (n : Nat) : RowRegs.zero.get false n = 0 := by
  simp only [RowRegs.get, RowRegs.zero, Bool.false_and, Bool.false_eq_true, getD_replicate_zero, ite_self]

/-- Settles O54. -/
theorem resetState : Obligations.ResetState := by
  unfold Obligations.ResetState
  refine ⟨fun n => ⟨rfl, rfl, rfl, rfl, rfl, rfl, rfl, rfl, rfl, rfl, rfl⟩, rfl, rfl, rfl, ?_⟩
  intro p entry xcl acl trows tvec trec prt tm h
  refine ⟨rfl, rfl, rfl, List.length_replicate, fun j n => ?_, fun e => ?_, fun n => getD_replicate_zero 8 n,
    rfl, rfl, rfl, rfl, rfl, rfl, rfl, rfl⟩
  · rw [Hart.reg, launch_row]
    exact ⟨zero_get n, fun x => rfl⟩
  · cases e <;> rfl

/-! ## What a step runs (R17, R78, R79, R93, R99, R106) -/

section
variable {s : State} {hid : Nat} {h : Hart} {defer : Bool} {rest : List Act}

/-- The state in which the plan's next act is performed. -/
abbrev planned (s : State) (rest : List Act) : State := { s with plan := rest, tick := s.tick + 1 }

theorem step_of_plan {a : Act} (hp : s.plan = a :: rest) : step s = perform (planned s rest) a := by
  rw [step, stepWith, nextAct, hp]

theorem deferExpired_not {o : Out} (he : s.expired h = false) : deferExpired s hid h o = o := by
  simp only [deferExpired, he, Bool.not_false, if_true]

/-- The state in which a hart's scalar pipeline fetches. -/
abbrev fetching (s : State) (hid : Nat) (h : Hart) (defer : Bool) : State :=
  { s with focus := { Focus.reset with hart := hid }, defer := defer }.setHart hid { h with lastIssue := some s.now }

/-- A step of a scalar pipeline that may take an instruction. -/
theorem scalarTurn_fetches (hl : look s.harts hid = some h) (hup : s.hartUp h = true) (hmc : h.mcPending = false)
    (hmay : s.sieveMay h = true) (he : s.expired h = false) {t : State} {d : Decoded}
    (hf : (fetching s hid h defer).fetch { h with lastIssue := some s.now } = .ok (t, d)) :
    scalarTurn s hid defer = match d with
      | .instr i _ => exec i t
      | .trap c => .next (t.takeTrap hid (scalarInfo { h with lastIssue := some s.now } 0 c 0 none))
      | .more => .next t := by
  have he' : (fetching s hid h defer).expired { h with lastIssue := some s.now } = false := he
  have hmc' : (h.mcPending && h.state == .running && !s.stopped h && !s.expired h) = false := by
    rw [hmc]
    rfl
  rw [scalarTurn, hl]
  simp only [hup, hmc', hmay, Bool.not_true, Bool.false_eq_true, if_false]
  refine (deferExpired_not he').trans ?_
  simp only [hf]
  cases d <;> rfl

/-- A fetch of one word that decodes by itself. -/
theorem fetch_of_word {t : State} {w : Word} {i : Instr} {n : Nat} (hw : s.fetchWord h h.pc = .ok (t, w))
    (hd : decode [w] = .instr i n) : s.fetch h = .ok (t, .instr i n) := by
  have hpc : h.pc + BitVec.ofNat 64 (4 * ([] : List Word).length) = h.pc := by simp
  rw [State.fetch, State.fetchFrom, hpc, hw]
  simp only [bind, Except.bind, List.nil_append, hd]
  rfl

/-- The state in which an engine's operation runs. -/
abbrev engineAt (s : State) (hid : Nat) (e : Eng) (defer : Bool) (row unit : Nat) : State :=
  { s with focus := { Focus.reset with hart := hid, eng := e, sub := row, unit := unit }, defer := defer }

/-- A step of an engine whose queue or late command has something to do. -/
theorem engineTurn_runs {e : Eng} {row unit : Nat} {i : Instr} (hl : look s.harts hid = some h)
    (hstop : s.stopped h = false) (hup : s.hartUp h = true) (he : s.expired h = false) (hhead : h.headStep e = some i) :
    engineTurn s hid e defer row unit = exec i (engineAt s hid e defer row unit) := by
  have hgo : ((engineAt s hid e defer row unit).stopped h || !(engineAt s hid e defer row unit).hartUp h) = false :=
    (congrArg₂ (fun a b => a || !b) hstop hup : (s.stopped h || !s.hartUp h) = false)
  rw [engineTurn, hl]
  dsimp only
  rw [hgo, if_neg Bool.false_ne_true, hhead]
  exact deferExpired_not he

end

/-- The bytes of a number that was read from memory. -/
theorem extractLsb'_getNat (m : Memory) (a : Nat) {k : Nat} (hk : k < 4) :
    (BitVec.ofNat 32 (getNat m a 4)).extractLsb' (8 * k) 8 = getByte m (a + k) := by
  have hn : getNat m a 4 = (getByte m a).toNat + 256 *
    ((getByte m (a + 1)).toNat + 256 * ((getByte m (a + 1 + 1)).toNat +
      256 * ((getByte m (a + 1 + 1 + 1)).toNat + 256 * 0))) := rfl
  apply BitVec.eq_of_toNat_eq
  rw [BitVec.extractLsb'_toNat, BitVec.toNat_ofNat, hn, Nat.shiftRight_eq_div_pow]
  interval_cases k
  all_goals
    simp only [Nat.add_assoc, Nat.reduceAdd, Nat.add_zero]
    omega

/-- Settles O53. -/
theorem stepRunsDecoded : Obligations.StepRunsDecoded := by
  unfold Obligations.StepRunsDecoded
  refine ⟨?_, fun s s' h va dpa l hxf hcheck hhome => ?_⟩
  · intro s s' hid h e defer i n row unit rest f hl at_ g t u
    refine ⟨fun hp hup hmc hmay he => ?_, fun hp hstop hup he => ?_, fun hp hi hup => ?_⟩
    · have turn {d : Decoded} (hf : t.fetch g = .ok (s', d)) :=
        (step_of_plan hp).trans (scalarTurn_fetches (s := planned s rest) (hid := hid) (defer :=
          defer) hl hup hmc hmay he hf)
      exact ⟨fun hf => turn hf, fun w hw hd => turn (fetch_of_word hw hd), fun c hf => turn hf⟩
    · have turn {i : Instr} (hhead : h.headStep e = some i) : step s = exec i u :=
        (step_of_plan hp).trans (engineTurn_runs (s := planned s rest) hl hstop hup he hhead)
      refine ⟨fun hlate => turn (by rw [Hart.headStep, if_pos hlate]), fun c cs hq hlate => ?_⟩
      have head : h.headStep e = if c.fault.isSome then some .formationFaultRaise
          else if c.done.isSome then some .commandCompletion else decodeTemplate e c.t := by
        rw [Hart.headStep, hlate, hq]
        rfl
      exact ⟨fun hf => turn (head.trans (if_pos hf)),
        fun hf hd => turn (head.trans (by rw [hf, hd]; rfl)),
        fun hf hd ht => turn (head.trans (by rw [hf, hd, ← ht]; rfl))⟩
    · refine (step_of_plan hp).trans ?_
      have hgo : (isStep i && (planned s rest).stepUp i f) = true := by
        rw [hi]
        exact hup
      exact if_pos hgo
  · refine ⟨BitVec.ofNat 32 (s'.readRaw l 4), ?_, fun htag k hk => ?_⟩
    · rw [State.fetchWord, hcheck]
      simp only [bind, Except.bind, hhome]
      rfl
    · have ht : tagCls (s'.tagOf l) ≠ 0 := by
        rw [State.tagOf, hxf]
        exact htag
      rw [State.readRaw, if_neg ht, if_pos hxf, extractLsb'_getNat _ _ hk]

end Sys2Proof.Steps
end

section
/-! PROOFS. Templates and formation (R79 to R92, R108, R140). -/

namespace Sys2Proof.Formation

open Sys2Proof Sys2Proof.Machine Sys2Proof.Claim Sys2Proof.Laws Sys2Proof.Scalar Sys2Proof.ScalarForms

-- One proof is checked at a time: this keeps the check of the whole text within its memory.
set_option Elab.async false

/-! ## Templates (R85, R92, R140) -/

theorem tmldCount_eq (n : BitVec 4) : tmldCount n = if n = 0 then 16 else n.toNat := by
  simp only [tmldCount, beq_iff_eq]

theorem find_bad_template_none {e : Eng} {ts : List Template} (h : ∀ t ∈ ts, slotOk e t = true) :
    ts.zipIdx.find? (fun y => !slotOk e y.1) = none := by
  rw [List.find?_eq_none]
  intro y hy
  rw [h y.1 (List.fst_mem_of_mem_zipIdx hy)]
  decide

/-! ## Formation (R79, R80, R87, R88, R108) -/

/-- A template whose patch is formed is the patched one, where a field is selected. -/
theorem patched_of_formTemplate {e : Eng} {t u : Template} {px : Px} {tok : BitVec 4} {f : BitVec 3} {v : BitVec 16}
    (hf : f ≠ 0) (h : formTemplate e t px tok f v = .ok u) :
    u = patchTemplate t f.toNat (patchValue px v) px.valx.isSome := by
  have hf' : (f == 0) = false := beq_eq_false_iff_ne.mpr hf
  unfold formTemplate at h
  simp only [hf', Bool.false_and, Bool.false_eq_true, if_false, ite_eq_iff, reduceCtorEq, and_false, or_false,
    false_or, Except.ok.injEq] at h
  obtain ⟨-, -, -, -, -, h⟩ := h
  exact h.symm

/-- Settles O28. -/
theorem formationResults : Obligations.FormationResults := by
  unfold Obligations.FormationResults
  refine ⟨?_, ?_, ?_⟩
  · intro s s' hid h px a c f n6 n w0 w1 w2 w3 e j js y r hact heng k ts
    refine ⟨fun hraw hok => ?_, fun hp hok => ?_⟩
    · have hk : tmldCount n = k := tmldCount_eq n
      rw [exec_tmld, execTmld, withRegs_of_runs r]
      simp only [hact, heng, hk, hraw, templatesOf]
      simp only [show (List.range k).map (fun i => templateOfNat (y / 2 ^ (128 * i))) = ts from rfl,
        find_bad_template_none hok]
    · rw [exec_tmpli, execTmpli, withHart_of_runs r]
      simp only [hp, heng, hok, Bool.false_eq_true, if_false, if_true]
  · intro s hid h px e tix tok fsel v hf hl hp hh hq t queued
    subst hf
    have hroom : (h.halted || decide (64 ≤ (h.queue e).length)) = false := by
      rw [hh, decide_eq_false (Nat.not_le.mpr hq)]; rfl
    refine ⟨fun u hu hs => ?_, fun k hk => ?_⟩
    · rw [exec_commandFormation, execCommandFormation, withHart_some hl]
      simp only [hp, hroom, t] at hu hs ⊢
      simp only [hu, hs, queued, Hart.dispatch, hh, Hart.command, Option.isSome_none, Bool.or_self,
        Bool.false_eq_true, if_false]
    · rw [exec_commandFormation, execCommandFormation, withHart_some hl]
      simp only [hp, hroom, t] at hk ⊢
      simp only [hk, queued, Hart.dispatch, hh, Hart.command, Option.isSome_some, Bool.false_or, Bool.false_eq_true,
        if_false]
  · intro e t px tok v
    refine ⟨fun h0 f => ?_, fun h0 hx hv => ?_, fun h0 he ht f => ?_, fun h0 he hx => ?_, fun u hx hu => ?_,
      fun u hu => ?_⟩
    · simp only [formTemplate, h0, beq_self_eq_true, if_true]
    · have hv' : (BitVec.zeroExtend 32 v != 0) = true := by
        rw [bne_iff_ne]; intro h; exact hv (by bv_omega)
      simp only [formTemplate, beq_eq_false_iff_ne.mpr h0, patchValue, hx, beq_self_eq_true, hv', Bool.and_self,
        Bool.false_eq_true, if_false, if_true]
    · have ht' : (e == .jb && tok != 0) = true := by rw [he, bne_iff_ne.mpr ht]; rfl
      simp only [formTemplate, beq_eq_false_iff_ne.mpr h0, ht', Bool.true_or, Bool.false_eq_true, if_false, if_true]
      split <;> rfl
    · have he' : (e == .jb) = false := beq_eq_false_iff_ne.mpr he
      simp only [formTemplate, beq_eq_false_iff_ne.mpr h0, he', hx, patchValue, beq_self_eq_true, Option.any_none,
        Bool.false_and, Bool.or_self, Bool.false_eq_true, if_false, if_true]
      rfl
    · obtain rfl := patched_of_formTemplate (by decide) hu
      have himm : (BitVec.zeroExtend 32 v).extractLsb' 0 16 = v := by
        apply BitVec.eq_of_toNat_eq
        have := v.isLt
        simp only [BitVec.extractLsb'_toNat, BitVec.truncate_eq_setWidth, BitVec.toNat_setWidth, Nat.shiftRight_zero]
        omega
      refine ⟨rfl, ?_⟩
      have hlong : px.valx.isSome = false := by rw [hx]; rfl
      rw [hlong]
      show t.imm.extractLsb' 16 16 ++ (patchValue px v).extractLsb' 0 16 = t.imm.extractLsb' 16 16 ++ v
      simp only [patchValue, hx, himm]
    · obtain rfl := patched_of_formTemplate (by decide) hu
      refine ⟨rfl, ?_⟩
      show (patchValue px v).extractLsb' 0 8 = _
      apply BitVec.eq_of_toNat_eq
      have := v.isLt
      cases hx : px.valx <;>
        simp only [patchValue, hx, BitVec.extractLsb'_toNat, BitVec.toNat_append, BitVec.truncate_eq_setWidth,
          BitVec.toNat_setWidth, Nat.shiftRight_zero]
      · omega
      · rw [Nat.shiftLeft_eq, Nat.mul_comm, ← Nat.two_pow_add_eq_or_of_lt v.isLt]
        omega

end Sys2Proof.Formation
end

section
/-! PROOFS. Queues and contexts (R311 to R313, R321 to R329). -/

namespace Sys2Proof.SchedulerQueues

open Sys2Proof Sys2Proof.Machine Sys2Proof.Claim Sys2Proof.Laws

-- One proof is checked at a time: this keeps the check of the whole text within its memory.
set_option Elab.async false

/-! ## What a package write leaves -/

/-- A raw write of the package leaves everything but memory, its side-band and error marks, host reservations and the
LLC's copy alone. -/
theorem sysWrite_eq (s : State) (dpa n x : Nat) :
    s.sysWrite dpa n x = { s with
      mem := (s.sysWrite dpa n x).mem, sides := (s.sysWrite dpa n x).sides, errors := (s.sysWrite dpa n x).errors,
      hostRes := (s.sysWrite dpa n x).hostRes, llc := (s.sysWrite dpa n x).llc } := by
  unfold State.sysWrite
  split
  · exact writeRaw_eq s _ _ _
  · rfl

@[simp] theorem wqueues_sysWrite (s : State) (dpa n x : Nat) : (s.sysWrite dpa n x).wqueues = s.wqueues := by
  rw [sysWrite_eq]

theorem wqueues_setQueue (s : State) (q : Nat) (x : HwQueue) :
    (s.setQueue q x).wqueues = if x.state = .disabled then del s.wqueues q else put s.wqueues q x := by
  simp only [State.setQueue, State.writeBack, wqueues_sysWrite]

theorem look_setQueue {s : State} {q : Nat} {x : HwQueue} (h : x.state ≠ .disabled) :
    look (s.setQueue q x).wqueues q = some x := by
  rw [wqueues_setQueue, if_neg h, look_put_same]

theorem drained_of_look {s : State} {q : Nat} {x : HwQueue} (hl : look s.wqueues q = some x) (hx :
    x.state = .draining) :
    s.drained q = if s.queueRuns q then s else s.setQueue q { x with state := .disabled } := by
  unfold State.drained
  cases h : s.queueRuns q <;> simp [hl, hx]

/-! ## Queue commands (R329) -/

theorem queueCommand_moves {s : State} {op : Nat} {f : HwQueue → Option (State × Nat)} {x : HwQueue} {t : State} {n :
    Nat}
    (ho : s.qcmdIs op = true) (hl : look s.wqueues s.qid = some x) (hf : f x = some (t, n)) :
    queueCommand s op f = .next (t.qcmdEnd n) := by
  simp only [queueCommand, ho, State.queueNow, hl, Option.bind_some, hf, Bool.not_true, Bool.false_eq_true, if_false]

theorem queueCommand_unlisted {s : State} {op : Nat} {f : HwQueue → Option (State × Nat)} {x : HwQueue}
    (ho : s.qcmdIs op = true) (hl : look s.wqueues s.qid = some x) (hf : f x = none) :
    queueCommand s op f = .next (s.qcmdEnd 2) := by
  simp only [queueCommand, ho, State.queueNow, hl, Option.bind_some, hf, Bool.not_true, Bool.false_eq_true, if_false]

theorem queueCommand_disabled {s : State} {op : Nat} {f : HwQueue → Option (State × Nat)}
    (ho : s.qcmdIs op = true) (hl : look s.wqueues s.qid = none) : queueCommand s op f = .next (s.qcmdEnd 2) := by
  simp only [queueCommand, ho, State.queueNow, hl, Option.bind_none, Bool.not_true, Bool.false_eq_true, if_false]

/-- A queue with no live copy takes ENABLE only (R329). -/
theorem disabled_moves {s : State} (hl : look s.wqueues s.qid = none) :
    let d := s.sysRead (s.queueDesc s.qid) 64
    (s.qcmdIs 1 = true → queueDescBad d = false → s.live (queueOf d).ctx = true →
      exec .qcmdEnable s = goes ((s.setQueue s.qid (queueOf d)).qcmdEnd 0)) ∧
    (s.qcmdIs 1 = true → queueDescBad d = true → exec .qcmdEnable s = goes (s.qcmdEnd 1)) ∧
    (s.qcmdIs 1 = true → queueDescBad d = false → s.live (queueOf d).ctx = false →
      exec .qcmdEnable s = goes (s.qcmdEnd 3)) := by
  refine ⟨fun h1 hb hc => ?_, fun h1 hb => ?_, fun h1 hb hc => ?_⟩
  all_goals simp only [exec_qcmdEnable, execQcmdEnable, h1, State.queueNow, hl, hb, Bool.not_true, Bool.false_eq_true,
    if_false, if_true]
  · simp only [hc, Bool.not_true, Bool.false_eq_true, if_false]
  · simp only [hc, Bool.not_false, if_true]

theorem drain_moves {s : State} {x : HwQueue} (ho : s.qcmdIs 4 = true) (hl : look s.wqueues s.qid = some x) :
    (x.state = .active ∨ x.state = .paused ∨ x.state = .error →
      exec .qcmdDrain s = .next ((s.drainQueue s.qid x).qcmdEnd 0)) ∧
    (x.state = .draining ∨ x.state = .disabled → exec .qcmdDrain s = .next (s.qcmdEnd 2)) := by
  refine ⟨fun hx => ?_, fun hx => ?_⟩
  · refine queueCommand_moves ho hl ?_
    rcases hx with hx | hx | hx <;> simp only [hx]
  · refine queueCommand_unlisted ho hl ?_
    rcases hx with hx | hx <;> simp only [hx]

/-- Settles O44. -/
theorem queueStateMoves : Obligations.QueueStateMoves := by
  unfold Obligations.QueueStateMoves
  intro s q ends moves d
  refine ⟨fun hl => ?_, rfl, rfl, rfl, fun x hl => ?_, fun k x hk hr => ?_⟩
  · obtain ⟨h1, h2, h3⟩ := disabled_moves hl
    exact ⟨h1, h2, h3, fun h => queueCommand_disabled h hl, fun h => queueCommand_disabled h hl,
      fun h => queueCommand_disabled h hl, fun h => queueCommand_disabled h hl, fun h => queueCommand_disabled h hl⟩
  · refine ⟨fun h => ?_, fun h => ⟨fun hx => ?_, fun hx => ?_⟩, fun h => ⟨fun hx => ?_, fun hx => ?_, fun hp he => ?_⟩,
      fun h => ⟨fun hx => ?_, (drain_moves h hl).2⟩, fun h => ⟨fun hx => ⟨fun hr => ?_, fun hr => ?_⟩, fun hp he => ?_⟩,
      fun h => ⟨fun hx => ?_, fun hx => ?_⟩, fun hx hr => ?_, wqueues_setQueue _ _ _⟩
    · simp only [ends, exec_qcmdEnable, execQcmdEnable, h, State.queueNow, show look s.wqueues s.qid = some x from hl,
        Bool.not_true, Bool.false_eq_true, if_false]
    · exact queueCommand_moves h hl (if_pos hx)
    · exact queueCommand_unlisted h hl (if_neg hx)
    · exact queueCommand_moves h hl (by simp only [hx, q])
    · exact queueCommand_moves h hl (by simp only [hx, q])
    · refine queueCommand_unlisted h hl ?_
      cases hs : x.state <;> simp_all only [ne_eq, not_true_eq_false]
    · have hd := drained_of_look (look_setQueue (s := s) (q := q) (x := { x with state := .draining }) (by simp)) rfl
      refine ⟨fun hr => ?_, fun hr => ?_⟩
      · rw [if_pos hr] at hd
        exact ((drain_moves h hl).1 hx).trans (by rw [State.drainQueue, hd])
      · rw [if_neg (by rw [hr]; decide)] at hd
        exact ((drain_moves h hl).1 hx).trans (by rw [State.drainQueue, hd])
    · refine queueCommand_moves h hl ?_
      rcases hx with hx | hx <;> simp only [hx, show s.queueRuns s.qid = false from hr] <;> rfl
    · refine queueCommand_moves h hl ?_
      rcases hx with hx | hx <;> simp only [hx, show s.queueRuns s.qid = true from hr] <;> rfl
    · refine queueCommand_unlisted h hl ?_
      cases hs : x.state <;> simp_all only [ne_eq, not_true_eq_false]
    · exact queueCommand_moves h hl (if_pos hx)
    · exact queueCommand_unlisted h hl (if_neg hx)
    · rw [drained_of_look hl hx, if_neg (by rw [hr]; decide)]
  · simp only [exec_launchAdmission, execLaunchAdmission, hk]

/-! ## Command registers (R4, R311, R321, R323) -/

/-- An operand of twelve bits leaves the BUSY bit of a command that completes with STATUS 0 clear. -/
theorem cmdBusy_cmdDone_zero (r : Dword) : cmdBusy (cmdDone r 0 ctxcmdOperand) = false := by
  simp only [cmdBusy, cmdDone, ctxcmdOperand, BitVec.getLsbD_or, BitVec.getLsbD_and, Nat.zero_mul]
  rw [show BitVec.getLsbD (0xFFF : Dword) 55 = false by decide, Bool.and_false]
  decide

theorem cmdDone_zero_low (r : Dword) : (cmdDone r 0 ctxcmdOperand).extractLsb' 0 12 = r.extractLsb' 0 12 := by
  apply BitVec.eq_of_getLsbD_eq
  intro i hi
  have hm : BitVec.getLsbD (0xFFF : Dword) i = true := by
    rw [show (0xFFF : Dword) = BitVec.ofNat 64 (2 ^ 12 - 1) from rfl, BitVec.getLsbD_ofNat, Nat.testBit_two_pow_sub_one]
    simp only [hi, decide_true, Bool.and_true, decide_eq_true_eq]; omega
  simp only [cmdDone, ctxcmdOperand, Nat.zero_mul, BitVec.getLsbD_extractLsb', hi, Nat.zero_add, BitVec.getLsbD_or,
    BitVec.getLsbD_and]
  rw [hm]
  simp

theorem ofNat_low_identifier (x i : Nat) :
    (BitVec.ofNat 64 (x * 2 ^ 12 + i)).extractLsb' 0 12 = BitVec.ofNat 12 i := by
  apply BitVec.eq_of_toNat_eq
  simp only [BitVec.extractLsb'_toNat, BitVec.toNat_ofNat, Nat.shiftRight_zero]
  omega

theorem regWrite_qcmd_undefined {s : State} {v : Dword} (hb : cmdBusy s.regs.qcmd = false) (ho :
    cmdOp v = 0 ∨ 6 < cmdOp v) :
    s.writeReg 0 v = { s with regs := { s.regs with qcmd := (v &&& 0xFFFF) ||| 0x100000000000000 } } := by
  have h : (decide (cmdOp v = 0) || decide (qcmdKind.last < cmdOp v)) = true := by
    rw [Bool.or_eq_true, decide_eq_true_eq, decide_eq_true_eq]; exact ho
  have hc : cmdWrite qcmdKind s.regs.qcmd v = (v &&& 0xFFFF) ||| 0x100000000000000 := by
    rw [cmdWrite, hb, if_neg (by decide), if_pos h]; rfl
  simp only [State.writeReg, regQcmd, if_true, hc]

/-- A write within the register block reaches the register at its offset (R323). -/
theorem registerWrite_reaches (s : State) {off : Nat} (v : Dword) (h : off < 4096) :
    exec (.registerWrite (0xF0000000000 + off) v) s = goes (s.writeReg off v) := by
  have h1 : (decide (regBlock ≤ 0xF0000000000 + off) && decide (0xF0000000000 + off < regBlock + 4096)) = true := by
    rw [Bool.and_eq_true, decide_eq_true_eq, decide_eq_true_eq, regBlock]; omega
  have h2 : 0xF0000000000 + off - regBlock = off := by rw [regBlock]; omega
  rw [exec_registerWrite, execRegisterWrite, if_pos h1, h2]

/-! ## Doorbells and contexts (R311 to R313, R328) -/

theorem doorbell_tail {s : State} {q : Nat} {x : HwQueue} {v : Dword} (hl : look s.wqueues q = some x)
    (hx : x.state = .active ∨ x.state = .paused ∨ x.state = .error) (hv : v.toNat < 2 ^ 32)
    (ht : v.extractLsb' 0 32 ≠ x.tail) (h1 : (v.extractLsb' 0 32 - x.tail).toNat ≤ 2 ^ x.logn)
    (h2 : (v.extractLsb' 0 32 - x.head).toNat ≤ 2 ^ x.logn) :
    s.doorbell q v = s.keepQueue q { x with tail := v.extractLsb' 0 32 } := by
  have hz : (v.extractLsb' 32 32 != 0) = false := by
    have h0 : v.extractLsb' 32 32 = 0 := by
      apply BitVec.eq_of_toNat_eq
      rw [BitVec.extractLsb'_toNat, Nat.shiftRight_eq_div_pow, Nat.div_eq_of_lt hv]
      rfl
    rw [h0]; rfl
  rcases hx with hx | hx | hx <;>
    simp only [State.doorbell, hl, hz, hx, ht, decide_eq_false (Nat.not_lt.mpr h1), decide_eq_false (Nat.not_lt.mpr h2),
      Bool.or_self, Bool.false_eq_true, if_false]

/-- CTXALLOC with an identifier, a descriptor that can be read and no fault in it (R311). -/
theorem exec_ctxalloc_new {s : State} {i : Nat} {l : Loc} (h1 : s.ctxcmdIs 1 = true) (hi : s.freeCtx = some i)
    (hl : s.sysLoc s.regs.ctxdesc.toNat = some l) (hb : ctxDescBad (s.readRaw l 64) = false) :
    exec .ctxalloc s = goes (State.ctxcmdEnd { s with
      ctxs := put s.ctxs i (ctxOf (s.readRaw l 64)), lastCtx := i,
      regs := { s.regs with ctxcmd := BitVec.ofNat 64 (bits s.regs.ctxcmd.toNat 63 12 * 2 ^ 12 + i) } } 0) := by
  simp only [exec_ctxalloc, execCtxalloc, h1, hi, hl, hb, Bool.not_true, Bool.false_eq_true, if_false]

theorem exec_ctxabort_live {s : State} {c : Ctx} (hl : look s.ctxs s.ctxcmdId = some c) (h3 : s.ctxcmdIs 3 = true)
    (hc : c.purging = false) :
    let t := ((((s.abortQueues s.ctxcmdId).abortLaunches s.ctxcmdId).abortHarts s.ctxcmdId).abortJobs
      s.ctxcmdId).abortScopes
      s.ctxcmdId
    exec .ctxabort s = if t.jobs.any (fun x => decide (x.2.ctx = s.ctxcmdId)) then .next t else .next (t.ctxcmdEnd 0)
      := by
  have hlive : s.live s.ctxcmdId = true := by simp only [State.live, hl, hc, Bool.not_false]
  simp only [exec_ctxabort, execCtxabort, h3, hlive, Bool.not_true, Bool.false_eq_true, if_false]

/-- HCMD RESUME reads the record of the suspended hart that it names (R321). -/
theorem exec_hcmdResume_reads {s : State} {hid : Nat} {h : Hart} (hb : cmdBusy s.regs.hcmd = true)
    (ho : cmdOp s.regs.hcmd = 1) (hz : cmdRz s.regs.hcmd hcmdOperand 0 = false) (hh : s.hcmdHart = some (hid, h)) :
    (∀ t, s.suspendedRecord h = (t, none) → exec .hcmdResume s = goes (t.hcmdEnd 3)) ∧
    (∀ t y, s.suspendedRecord h = (t, some y) → exec .hcmdResume s =
      if bitOf y 15 || recordRz y then .next (t.hcmdEnd 3)
      else .next ((t.resumeTrap hid { h with lastProgress := t.now } y
        (t.instrAfter h (BitVec.ofNat 64 (bits y 127 64))) (bitOf y 16)).hcmdEnd 0)) := by
  refine ⟨fun t ht => ?_, fun t y ht => ?_⟩ <;>
    simp only [exec_hcmdResume, execHcmdResume, hb, ho, hz, hh, ht, decide_true, Bool.and_self, Bool.not_false,
      Bool.not_true,
      Bool.false_eq_true, if_false]

/-- Settles O45. -/
theorem schedulerCommandResults : Obligations.SchedulerCommandResults := by
  unfold Obligations.SchedulerCommandResults
  refine ⟨fun s x => ?_, fun s c => ?_⟩
  · intro ends
    refine ⟨fun hb hz => ?_, fun v hb ho => ?_, fun hq => ?_, fun hq => ?_, fun hu hl hx hv => ?_,
      fun off v h => registerWrite_reaches s v h, fun k hk => ?_⟩
    · simp only [ends, exec_qcmdInvalid, execQcmdInvalid, hb, show cmdRz s.regs.qcmd qcmdOperand 0 = true from hz,
        Bool.or_true, Bool.and_self, if_true]
    · rw [← regWrite_qcmd_undefined hb ho]
      exact registerWrite_reaches s (off := 0) v (by decide)
    · simp only [exec_qtbaseWrite, execQtbaseWrite, State.writeQtbase, State.queuesDisabled, hq, List.isEmpty_nil,
        if_true]
    · simp only [exec_qtbaseWrite, execQtbaseWrite, State.writeQtbase, State.queuesDisabled,
        List.isEmpty_eq_false_iff.mpr hq,
        Bool.false_eq_true, if_false]
    · intro t ht h1 h2
      rw [exec_doorbellWrite, execDoorbellWrite, Nat.mod_eq_of_lt hu, doorbell_tail hl hx hv ht h1 h2]
      rfl
    · intro r y hr
      simp only [r] at hr
      simp only [exec_launchAdmission, execLaunchAdmission, hk, hr]
      rfl
  · intro id
    refine ⟨fun i l h1 hi hl hb => ?_, fun hl => ⟨fun h2 hc hw hp => ?_, fun h2 hc => ?_, fun h3 hc => ?_⟩,
      fun hb hz => ?_,
      fun hid h t hb ho hz hh => ?_, fun hb hz => ?_⟩
    · refine ⟨_, exec_ctxalloc_new h1 hi hl hb, look_put_same _ _ _, rfl, fun k hk => look_put_other _ _ hk,
        cmdBusy_cmdDone_zero _, fun _ => ?_, rfl⟩
      exact (cmdDone_zero_low _).trans (ofNat_low_identifier _ _)
    · simp only [exec_ctxfree, execCtxfree, h2, show look s.ctxs s.ctxcmdId = some c from hl, hc, id,
        show s.holdsWork s.ctxcmdId = false from hw, show s.holdsPages s.ctxcmdId = false from hp, Bool.not_true,
        Bool.false_eq_true, if_false]
    · simp only [exec_purgeComplete, execPurgeComplete, show look s.ctxs s.ctxcmdId = some c from hl, h2, hc,
        Bool.and_self,
        if_true, id]
    · intro t
      refine ⟨fun ⟨x, hm, hx⟩ => ?_, fun hj => ?_⟩
      · rw [exec_ctxabort_live hl h3 hc, if_pos (List.any_eq_true.mpr ⟨x, hm, decide_eq_true hx⟩)]
      · rw [exec_ctxabort_live hl h3 hc, if_neg]
        rw [List.any_eq_true]
        rintro ⟨x, hm, hx⟩
        exact hj x hm (of_decide_eq_true hx)
    · simp only [exec_ctxcmdInvalid, execCtxcmdInvalid, hb, show cmdRz s.regs.ctxcmd ctxcmdOperand 0 = true from hz,
        Bool.or_true, Bool.and_self, if_true]
    · obtain ⟨hn, hsome⟩ := exec_hcmdResume_reads hb ho hz hh
      refine ⟨hn t, fun y hy => ⟨fun hbad => ?_, fun h1 h2 => ?_⟩⟩
      · rw [hsome t y hy, if_pos (by rw [Bool.or_eq_true]; exact hbad)]
      · rw [hsome t y hy, if_neg (by rw [h1, h2]; decide)]
    · simp only [exec_hcmdInvalid, execHcmdInvalid, hb, hz, Bool.or_true, Bool.and_self, if_true]

end Sys2Proof.SchedulerQueues
end

section
/-! PROOFS. The graph walk: a statement that a request for cores fails (R347, R356). -/

namespace Sys2Proof.GraphWalk

open Sys2Proof Sys2Proof.Machine Sys2Proof.Claim Sys2Proof.Laws

-- One proof is checked at a time: this keeps the check of the whole text within its memory.
set_option Elab.async false

/-- A kernel of a die span of nine, one more than a package has dies. -/
def wideKernel : Kernel := { Kernel.program with d := 9 }

/-- A launch with that kernel in CHECKED at node 0, and with an EVENT WAIT node that it waits for. -/
def wideLaunch : Launch :=
  { queue := 0, ctx := 0, prio := 0, done := 0, doneVal := 0, args := 0, serial := false, next := none, counts := [],
    visits := 1, started := [.checked 0 0 wideKernel 0 0, .waiting 64 0 1 0], waitFor := none, fail := none }

/-- The machine after reset with that launch, which has asked for cores (R356). -/
def askingState : State :=
  { State.reset with launches := [(0, wideLaunch)], requests := [{ by_ := .launch 0, harts := [], launches := [] }] }

/-- The requests for cores in the state that a step leaves. -/
def requestsAfter : Out → Option (List Request)
  | .next t => some t.requests
  | _ => none

/-- The launch that fails by its die span asks for no cores any more. -/
theorem requests_kernelPlacement_wide : requestsAfter (exec .kernelPlacement askingState) = some [] := by
  decide +kernel

/-- Refutes O46: a kernel whose die span exceeds the dies in service fails with code 4, and its launch's request for
cores lapses with it, which the statement leaves standing. -/
theorem not_graphResults : ¬ Obligations.GraphResults := by
  unfold Obligations.GraphResults
  intro hall
  obtain ⟨-, hchecked⟩ := hall askingState askingState wideLaunch 0 (nodeOf 0)
  obtain ⟨-, hplace⟩ := hchecked rfl
  obtain ⟨-, hwide⟩ := hplace 0 0 wideKernel 0 0 rfl
  have hr := requests_kernelPlacement_wide
  rw [hwide (by decide +kernel)] at hr
  exact absurd hr (by decide +kernel)

end Sys2Proof.GraphWalk
end

section
/-! PROOFS. Page service: a statement that a store in flight fails (R304, R374). -/

namespace Sys2Proof.PagePass

open Sys2Proof Sys2Proof.Machine Sys2Proof.Claim Sys2Proof.Laws

-- One proof is checked at a time: this keeps the check of the whole text within its memory.
set_option Elab.async false

/-- A store of eight bytes in flight to the first sector of page 256. -/
def flightStore : StoreEntry :=
  { row := 0, unit := none, cluster := 0, addr := 0, dpa := 256 * 65536, size := 8, val := 0, vec := none, order := 0 }

/-- The placed program's hart with that store in flight. -/
def storingHart : Hart := { Hart.program with stores := [flightStore] }

/-- The machine after reset with that hart, and with a recoding pass of page 256 at work on hub 0. -/
def passState : State :=
  { State.reset with
    harts := [(0, storingHart)]
    passCur := State.reset.passCur.setIfInBounds 0 (some { page := 256, background := false, before := 1 }) }

/-- The watermark of a page in the state that a step leaves. -/
def watermarkAfter (page : Nat) : Out → Option Nat
  | .next t => some (pitWmark (t.pitEntry page))
  | _ => none

/-- The pass waits for the store: its watermark stays. -/
theorem watermark_passSectorStep_storing : watermarkAfter 256 (exec .passSectorStep passState) = some 0 := by
  decide +kernel

/-- Refutes O47: a recoding pass waits for a store in flight to its sector, where the statement raises the watermark. -/
theorem not_pageResults : ¬ Obligations.PageResults := by
  unfold Obligations.PageResults
  intro hall
  obtain ⟨-, -, -, -, -, -, hstep⟩ := hall passState
  obtain ⟨-, hrecode⟩ := hstep { page := 256, background := false, before := 1 } rfl
  have hw := watermark_passSectorStep_storing
  rw [hrecode (by decide +kernel) (by decide +kernel)] at hw
  exact absurd hw (by decide +kernel)

end Sys2Proof.PagePass
end

section
/-! PROOFS. Requests to the base dies, refresh and scrub (R383 to R390). -/

namespace Sys2Proof.BaseDies

open Sys2Proof Sys2Proof.Machine Sys2Proof.Claim Sys2Proof.Laws

-- One proof is checked at a time: this keeps the check of the whole text within its memory.
set_option Elab.async false

/-! ## Requests to a base die (R383, R384) -/

theorem mem_freeTags (x : Stack) (port t : Nat) :
    t ∈ x.freeTags port ↔ t < 8 ∧ ∀ q ∈ x.packets, q.port = port → q.tag ≠ t := by
  simp only [Stack.freeTags, List.mem_filter, List.mem_range, Bool.not_eq_true', List.any_eq_false, Bool.and_eq_true,
    beq_iff_eq, not_and, ne_eq]

theorem send_free {x : Stack} {p : Packet} (hw : ∀ q ∈ x.waiting, q.port ≠ p.port) (ht : p.tag < 8)
    (hf : ∀ q ∈ x.packets, q.port = p.port → q.tag ≠ p.tag) : x.send p = { x with packets := x.packets ++ [p] } := by
  have hw' : x.waiting.any (fun q => q.port == p.port) = false := by
    simpa only [List.any_eq_false, beq_iff_eq] using hw
  have hm : p.tag ∈ x.freeTags p.port := (mem_freeTags x p.port p.tag).mpr ⟨ht, hf⟩
  rw [Stack.send, if_neg (by rw [hw']; decide)]
  cases hfree : x.freeTags p.port with
  | nil => rw [hfree] at hm; cases hm
  | cons t ts => rw [hfree] at hm; simp only [List.contains_eq_mem, hm, decide_true, if_true]

theorem send_full {x : Stack} {p : Packet} (h : ∀ t, t < 8 → ∃ q ∈ x.packets, q.port = p.port ∧ q.tag = t) :
    x.send p = { x with waiting := x.waiting ++ [p] } := by
  have hf : x.freeTags p.port = [] := by
    rw [List.eq_nil_iff_forall_not_mem]
    intro t ht
    obtain ⟨h8, hn⟩ := (mem_freeTags x p.port t).mp ht
    obtain ⟨q, hq, hp, htag⟩ := h t h8
    exact hn q hq hp htag
  rw [Stack.send]
  split
  · rfl
  · rw [hf]

theorem sendNext_none {x : Stack} {port : Nat} (tag : Nat) (h : ∀ q ∈ x.waiting, q.port ≠ port) :
    x.sendNext port tag = x := by
  have hn : x.waiting.find? (fun q => q.port == port) = none := by
    simpa only [List.find?_eq_none, beq_iff_eq] using h
  rw [Stack.sendNext, hn]

/-- A request with the opcode of its name, on a port that takes it, with the data that it carries (R384). -/
theorem request_sends {s : State} {op : Nat} (hn : s.focus.unit < 12) (ho : (s.focus.val.extractLsb' 61 3).toNat = op)
    (hp : if op = 3 then s.focus.sub = 64 else s.focus.sub < 64)
    (hc : (op = 1 ∨ op = 2 ∨ op = 4) → s.focus.data ≠ []) :
    request s op = goes (s.setStack s.focus.unit ((s.stack s.focus.unit).send
      { port := s.focus.sub, tag := (s.focus.val.extractLsb' 58 3).toNat, op := op,
        pca := (s.focus.val.extractLsb' 36 22).toNat, arg := s.focus.val.extractLsb' 0 32,
        data := s.focus.data.headD zeroSector, req := s.focus.req, performed := false, reply := [], status := 0 }))
          := by
  have h1 : ¬ 11 < s.focus.unit := by omega
  have h2 : (if op = 3 then decide (¬ s.focus.sub = 64) else decide (63 < s.focus.sub)) = false := by
    by_cases h : op = 3
    · rw [if_pos h] at hp ⊢; exact decide_eq_false (not_not.mpr hp)
    · rw [if_neg h] at hp ⊢; exact decide_eq_false (by omega)
  have h3 : ((decide (op = 1) || decide (op = 2) || decide (op = 4)) && s.focus.data.isEmpty) = false := by
    by_cases h : op = 1 ∨ op = 2 ∨ op = 4
    · rw [List.isEmpty_eq_false_iff.mpr (hc h), Bool.and_false]
    · simp only [not_or] at h
      simp only [h, decide_false, Bool.or_self, Bool.false_and]
  rw [request, if_neg]
  · rfl
  · simp only [Bool.or_eq_true, decide_eq_true_eq, h1, h2, h3, hdrOp, ho, ne_eq, not_true_eq_false, or_self,
      Bool.false_eq_true, not_false_eq_true]

/-! ## Replies (R383) -/

/-- The reply to the oldest packet, which nothing comes before. -/
theorem packetReply_first {s s' : State} {p q : Packet} {rest reply : List _} {st : Nat}
    (hp : (s.stack s.focus.unit).packets = p :: rest) (hport : p.port = s.focus.sub) (htag :
      p.tag = s.focus.val.toNat % 8)
    (hnew : p.performed = false) (hdo : s.doPacket s.focus.unit p = some (s', reply, st)) :
    let t := s'.setStack s.focus.unit ((s'.stack s.focus.unit).performed 0 reply st)
    (t.stack s.focus.unit).packets[0]? = some q →
    exec .packetReply s = goes ((t.setStack s.focus.unit (Stack.sendNext
      { t.stack s.focus.unit with packets := (t.stack s.focus.unit).packets.eraseIdx 0 } s.focus.sub
        (s.focus.val.toNat % 8))).answer
        (3000 + s.focus.unit * 128 + s.focus.sub) (.packet q.header q.reply)) := by
  intro t hq
  have hfind : (s.stack s.focus.unit).packets.findIdx?
      (fun p => p.port == s.focus.sub && p.tag == s.focus.val.toNat % 8) = some 0 := by
    rw [hp, List.findIdx?_cons, hport, htag, beq_self_eq_true, beq_self_eq_true]; rfl
  have hperf : performPackets s.focus.unit [0] s = some t := by
    simp only [performPackets, hp, List.getElem?_cons_zero, hnew, hdo, Bool.false_eq_true, if_false]
    rfl
  simp only [exec_packetReply, execPacketReply, hfind, List.range_zero, List.filter_nil, List.nil_append, hperf, hq]
  rfl

/-- Settles O48. -/
theorem stackResults : Obligations.StackResults := by
  unfold Obligations.StackResults
  intro s s' n x v request
  have hrequest : ∀ i op carries, exec i s = Machine.request s op → (op = 1 ∨ op = 2 ∨ op = 4 → carries = true) →
      request i op carries := by
    intro i op carries hi hc hn ho hp hd p
    have hs := request_sends hn ho hp (fun h => hd (hc h))
    refine ⟨fun hw hf => ?_, fun hfull => ?_⟩
    · rw [hi, hs]
      exact congrArg (fun y => goes (s.setStack n y)) (send_free hw (BitVec.isLt _) hf)
    · rw [hi, hs]
      exact congrArg (fun y => goes (s.setStack n y)) (send_full hfull)
  refine ⟨hrequest _ 0 _ rfl (by decide), hrequest _ 1 _ rfl (by decide), hrequest _ 2 _ rfl (by decide),
    hrequest _ 3 _ rfl (by decide), hrequest _ 4 _ rfl (by decide), hrequest _ 5 _ rfl (by decide),
    fun p rest reply st hp hport htag hnew hdo => ?_, fun port tag => ⟨sendNext_none tag, fun q hq => ?_⟩, fun hn => ?_⟩
  · intro t y q hq
    exact packetReply_first hp hport htag hnew hdo hq
  · rw [Stack.sendNext, hq]
  · have hmod : s.focus.unit % 12 = n := Nat.mod_eq_of_lt hn
    refine ⟨?_, fun ht => ?_, ?_, fun ht hr hnow => ?_, fun ms => ⟨fun hm => ?_, fun hm => ?_⟩⟩
    · rw [exec_refresh, execRefresh, hmod]
    · have ht' : (s.stack n).takeover = false := ht
      simp only [exec_scrubStep, execScrubStep, hmod, ht', Bool.false_eq_true, if_false]
      rfl
    · rw [exec_heartbeatMissing, execHeartbeatMissing, hmod]
      rfl
    · have hdue : ((s.stack n).takeover && (s.stack n).restarted && s.now % trefi == 0) = true := by
        rw [show (s.stack n).takeover = true from ht, show (s.stack n).restarted = true from hr,
          show trefi = 3666 from rfl,
          hnow]
        rfl
      simp only [exec_refreshHandover, execRefreshHandover, hmod, hdue, if_true]
      rfl
    · rw [exec_hmaskChange, execHmaskChange, hm, decide_eq_false (by omega : ¬ 11 < s.focus.unit)]
      rfl
    · rw [exec_hmaskChange, execHmaskChange, hm, Bool.not_false, Bool.or_true]
      rfl

end Sys2Proof.BaseDies
end

section
/-! PROOFS. The hash masks as a linear map (R379, R380). -/

namespace Sys2Proof.HashMap

open Sys2Proof Sys2Proof.Machine Sys2Proof.Claim Sys2Proof.Laws

-- One proof is checked at a time: this keeps the check of the whole text within its memory.
set_option Elab.async false

/-! ## Parity is linear -/

theorem parity_succ (n x : Nat) : parity (n + 1) x = xor (parity n x) (x.testBit n) := by
  simp only [parity, bitsSet, List.range_succ, List.filter_append, List.length_append]
  cases h : x.testBit n
  · simp [h]
  · simp only [List.filter_cons, h, if_true, List.filter_nil, List.length_singleton, Bool.xor_true]
    generalize ((List.range n).filter _).length = k
    rw [Bool.eq_iff_iff]
    simp only [beq_iff_eq, Bool.not_eq_true', beq_eq_false_iff_ne]
    omega

theorem parity_xor (n x y : Nat) : parity n (x ^^^ y) = xor (parity n x) (parity n y) := by
  induction n with
  | zero => rfl
  | succ n ih =>
    rw [parity_succ, parity_succ, parity_succ, ih, Nat.testBit_xor]
    cases parity n x <;> cases parity n y <;> cases x.testBit n <;> cases y.testBit n <;> rfl

/-- A sum without carries is an exclusive or. -/
theorem mul_pow_add_eq_xor (up : Nat) {k r : Nat} (h : r < 2 ^ k) : up * 2 ^ k + r = up * 2 ^ k ^^^ r := by
  rw [Nat.mul_comm, Nat.two_pow_add_eq_or_of_lt h]
  apply Nat.eq_of_testBit_eq
  intro i
  rw [Nat.testBit_or, Nat.testBit_xor, Nat.testBit_two_pow_mul]
  by_cases hi : k ≤ i
  · rw [Nat.testBit_lt_two_pow (h.trans_le (Nat.pow_le_pow_right (by decide) hi)), Bool.or_false, Bool.xor_false]
  · simp only [hi, decide_false, Bool.false_and, Bool.false_or, Bool.false_xor]

/-! ## Numbers made of bits -/

/-- A number with the bits that a test gives of the elements of a list, from bit k on. -/
def packBits {α : Type} (c : α × Nat → Bool) (xs : List (α × Nat)) (a : Nat) : Nat :=
  xs.foldl (fun acc m => if c m then acc + 2 ^ m.2 else acc) a

theorem testBit_packBits {α : Type} (c : α × Nat → Bool) (xs : List α) {k a : Nat} (ha : a < 2 ^ k) (i : Nat) :
    (packBits c (xs.zipIdx k) a).testBit i =
      if i < k then a.testBit i else ((xs[i - k]?).map (fun m => c (m, i))).getD false := by
  induction xs generalizing k a with
  | nil =>
    by_cases hi : i < k
    · rw [if_pos hi]; rfl
    · rw [if_neg hi]
      exact Nat.testBit_lt_two_pow (ha.trans_le (Nat.pow_le_pow_right (by decide) (Nat.le_of_not_lt hi)))
  | cons m xs ih =>
    have hk : a.testBit k = false := Nat.testBit_lt_two_pow ha
    have hb : (if c (m, k) then a + 2 ^ k else a) < 2 ^ (k + 1) := by
      rw [Nat.pow_succ]; split <;> omega
    have hstep : packBits c ((m :: xs).zipIdx k) a = packBits c (xs.zipIdx (k + 1))
      (if c (m, k) then a + 2 ^ k else a) := rfl
    rw [hstep, ih hb]
    by_cases hi : i < k
    · rw [if_pos (Nat.lt_succ_of_lt hi), if_pos hi]
      split
      · rw [Nat.add_comm, Nat.testBit_two_pow_add_gt hi]
      · rfl
    · rw [if_neg hi]
      by_cases he : i = k
      · subst he
        rw [if_pos (Nat.lt_succ_self _), Nat.sub_self]
        simp only [List.getElem?_cons_zero, Option.map_some, Option.getD_some]
        cases hc : c (m, i)
        · rw [if_neg (by decide), hk]
        · rw [if_pos rfl, Nat.add_comm, Nat.testBit_two_pow_add_eq, hk]; rfl
      · have hlt : k < i := Nat.lt_of_le_of_ne (Nat.le_of_not_lt hi) (Ne.symm he)
        rw [if_neg (by omega), show i - k = (i - (k + 1)) + 1 by omega, List.getElem?_cons_succ]

theorem foldl_shifted {α : Type} (c : α × Nat → Bool) (xs : List (α × Nat)) (a : Nat) :
    xs.foldl (fun acc m => if c m then acc + 2 ^ (8 + m.2) else acc) (2 ^ 8 * a) = 2 ^ 8 * packBits c xs a := by
  induction xs generalizing a with
  | nil => rfl
  | cons m xs ih =>
    have hstep : (if c m then 2 ^ 8 * a + 2 ^ (8 + m.2) else 2 ^ 8 * a) = 2 ^ 8 * (if c m then a + 2 ^ m.2 else a) := by
      split
      · rw [Nat.pow_add, Nat.mul_add]
      · rfl
    simp only [packBits, List.foldl_cons] at ih ⊢
    rw [hstep, ih]

/-! ## Accepted masks (R379, R380) -/

theorem masksOk_length {ms : List Dword} (h : masksOk ms = true) : ms.length = 6 := by
  simp only [masksOk, Bool.and_eq_true, beq_iff_eq] at h
  exact h.1

/-- The low fourteen bits of mask i are bit 8 + i alone. -/
theorem mask_low {ms : List Dword} (h : masksOk ms = true) {i : Nat} {m : Dword} (hm : ms[i]? = some m) :
    m.toNat % 2 ^ 14 = 2 ^ (8 + i) := by
  simp only [masksOk, Bool.and_eq_true, List.all_eq_true] at h
  obtain ⟨-, hall⟩ := h
  obtain ⟨⟨-, h0⟩, h8⟩ := hall (m, i) (List.mk_mem_zipIdx_iff_getElem?.mpr hm)
  have e0 : m.toNat % 2 ^ 8 = 0 := by
    have := congrArg BitVec.toNat (beq_iff_eq.mp h0)
    rwa [BitVec.extractLsb'_toNat, Nat.shiftRight_zero] at this
  have e8 : m.toNat / 2 ^ 8 % 2 ^ 6 = 2 ^ i := by
    simpa only [BitVec.extractLsb'_toNat, Nat.shiftRight_eq_div_pow, beq_iff_eq] using h8
  rw [Nat.pow_add]
  omega

/-- An accepted mask i reads bit 8 + i of the low fourteen bits, and the bits above. -/
theorem parity_mask {ms : List Dword} (h : masksOk ms = true) {i : Nat} {m : Dword} (hm : ms[i]? = some m) (up :
    Nat) {l : Nat}
    (hl : l < 64) :
    parity 36 ((up * 2 ^ 14 + l * 2 ^ 8) &&& m.toNat) = xor (l.testBit i) (parity 36 (up * 2 ^ 14 &&& m.toNat)) := by
  have hi : i < 6 := by rw [← masksOk_length h]; exact (List.getElem?_eq_some_iff.mp hm).1
  have hr : l * 2 ^ 8 < 2 ^ 14 := by omega
  have hlow : l * 2 ^ 8 &&& m.toNat = (l.testBit i).toNat * 2 ^ (8 + i) := by
    calc l * 2 ^ 8 &&& m.toNat
        = (l * 2 ^ 8 &&& m.toNat) % 2 ^ 14 := (Nat.mod_eq_of_lt (Nat.lt_of_le_of_lt Nat.and_le_left hr)).symm
      _ = l * 2 ^ 8 % 2 ^ 14 &&& m.toNat % 2 ^ 14 := Nat.and_mod_two_pow
      _ = l * 2 ^ 8 &&& 2 ^ (8 + i) := by rw [Nat.mod_eq_of_lt hr, mask_low h hm]
      _ = (l.testBit i).toNat * 2 ^ (8 + i) := by
        rw [Nat.and_two_pow, Nat.testBit_mul_two_pow, Nat.add_sub_cancel_left]
        simp
  have hp : parity 36 ((l.testBit i).toNat * 2 ^ (8 + i)) = l.testBit i := by
    cases l.testBit i
    · rw [Bool.toNat_false, Nat.zero_mul]; decide
    · rw [Bool.toNat_true, Nat.one_mul]
      interval_cases i <;> decide
  rw [mul_pow_add_eq_xor up hr, Nat.and_xor_distrib_right, parity_xor, hlow, hp, Bool.xor_comm]

/-! ## The map of a stack (R378, R379) -/

theorem csel_testBit (x : Stack) (sla i : Nat) :
    (x.csel sla).testBit i = ((x.hmask[i]?).map (fun m => parity 36 (sla &&& m.toNat))).getD false := by
  have h := testBit_packBits (fun m : Dword × Nat => parity 36 (sla &&& m.1.toNat)) x.hmask (k := 0) (a :=
    0) (by decide) i
  rw [if_neg (Nat.not_lt_zero i), Nat.sub_zero] at h
  exact h

/-- The pseudo-channel of a sector: the low six bits of its number, exclusive-or that of the bits above. -/
theorem csel_low {x : Stack} (h : masksOk x.hmask = true) (up : Nat) {l : Nat} (hl : l < 64) :
    x.csel (up * 2 ^ 14 + l * 2 ^ 8) = l ^^^ x.csel (up * 2 ^ 14) := by
  apply Nat.eq_of_testBit_eq
  intro i
  rw [Nat.testBit_xor, csel_testBit, csel_testBit]
  cases hm : x.hmask[i]? with
  | none =>
    have hi : 6 ≤ i := by rw [← masksOk_length h]; exact List.getElem?_eq_none_iff.mp hm
    rw [Nat.testBit_lt_two_pow (hl.trans_le (show 2 ^ 6 ≤ 2 ^ i from Nat.pow_le_pow_right (by decide) hi))]
    rfl
  | some m => exact parity_mask h hm up hl

theorem csel_lt {x : Stack} (h : masksOk x.hmask = true) (sla : Nat) : x.csel sla < 2 ^ 6 := by
  apply Nat.lt_pow_two_of_testBit
  intro i hi
  rw [csel_testBit, List.getElem?_eq_none_iff.mpr (by rw [masksOk_length h]; exact hi)]
  rfl

theorem slaOf_eq {x : Stack} (h : masksOk x.hmask = true) {port pca : Nat} (hport : port < 64) (hpca : pca < 2 ^ 22) :
    x.slaOf port pca = pca * 2 ^ 14 + (port ^^^ x.csel (pca * 2 ^ 14)) * 2 ^ 8 := by
  have hlow : x.slaOf port pca = pca * 2 ^ 14 + 2 ^ 8 *
      packBits (fun m => xor (bitOf port m.2) (parity 36 (pca * 2 ^ 14 &&& m.1.toNat))) x.hmask.zipIdx 0 := by
    rw [← foldl_shifted, Nat.mul_zero, Stack.slaOf, Nat.mod_eq_of_lt hpca]
  have hbits : packBits (fun m => xor (bitOf port m.2) (parity 36 (pca * 2 ^ 14 &&& m.1.toNat))) x.hmask.zipIdx 0 =
      port ^^^ x.csel (pca * 2 ^ 14) := by
    apply Nat.eq_of_testBit_eq
    intro i
    rw [testBit_packBits _ x.hmask (k := 0) (by decide), if_neg (Nat.not_lt_zero i), Nat.sub_zero, Nat.testBit_xor,
      csel_testBit]
    cases hm : x.hmask[i]? with
    | none =>
      have hi : 6 ≤ i := by rw [← masksOk_length h]; exact List.getElem?_eq_none_iff.mp hm
      rw [Nat.testBit_lt_two_pow (hport.trans_le (show 2 ^ 6 ≤ 2 ^ i from Nat.pow_le_pow_right (by decide) hi))]
      rfl
    | some m => rfl
  rw [hlow, hbits, Nat.mul_comm (2 ^ 8)]

/-! ## Counting a frame's sectors -/

/-- The 256 sectors of a frame, in four runs of 64. -/
theorem range_256 : List.range 256 = (List.range 4).flatMap (fun u => (List.range 64).map (fun l => 64 * u + l)) := by
  decide +kernel

theorem length_filter_eq {q n : Nat} (h : q < n) : ((List.range n).filter (fun l => l == q)).length = 1 := by
  rw [← List.count_eq_length_filter]
  exact List.count_eq_one_of_mem List.nodup_range (List.mem_range.mpr h)

/-- Settles O49. -/
theorem hashMasks : Obligations.HashMasks := by
  unfold Obligations.HashMasks
  refine ⟨fun n => rfl, by decide, fun x hx => ⟨fun up i j hi hj he => ?_, fun f p hp => ?_,
    fun port pca hport hpca => ?_⟩⟩
  · rw [csel_low hx up hi, csel_low hx up hj] at he
    exact Nat.xor_left_injective he
  · have hrun : ∀ u ∈ List.range 4, (((List.range 64).map (fun l => 64 * u + l)).filter
        (fun j => x.csel (f * 2 ^ 16 + j * 2 ^ 8) == p)).length = 1 := by
      intro u _
      have hq : p ^^^ x.csel ((4 * f + u) * 2 ^ 14) < 64 := Nat.xor_lt_two_pow (n := 6) hp (csel_lt hx _)
      rw [List.filter_map, List.length_map, ← length_filter_eq hq]
      congr 1
      apply List.filter_congr
      intro l hl
      have haddr : f * 2 ^ 16 + (64 * u + l) * 2 ^ 8 = (4 * f + u) * 2 ^ 14 + l * 2 ^ 8 := by ring
      simp only [Function.comp_apply, haddr, csel_low hx _ (List.mem_range.mp hl)]
      rw [Bool.eq_iff_iff, beq_iff_eq, beq_iff_eq]
      constructor
      · rintro rfl; rw [Nat.xor_assoc, Nat.xor_self, Nat.xor_zero]
      · rintro rfl; rw [Nat.xor_assoc, Nat.xor_self, Nat.xor_zero]
    rw [range_256, List.filter_flatMap, List.length_flatMap, List.map_congr_left hrun]
    rfl
  · have hq : port ^^^ x.csel (pca * 2 ^ 14) < 64 := Nat.xor_lt_two_pow (n := 6) hport (csel_lt hx _)
    rw [slaOf_eq hx hport hpca, csel_low hx pca hq, Nat.xor_assoc, Nat.xor_self, Nat.xor_zero]
    exact ⟨rfl, by omega⟩

end Sys2Proof.HashMap
end

section
/-! PROOFS. Links and collectives (R398 to R405). -/

namespace Sys2Proof.LinkSteps

open Sys2Proof Sys2Proof.Machine Sys2Proof.Claim Sys2Proof.Laws

-- One proof is checked at a time: this keeps the check of the whole text within its memory.
set_option Elab.async false

/-! ## Times and states of a link (R398, R399) -/

theorem is_iff (l : Link) (x : LinkState) : l.is x = true ↔ l.state = x := beq_iff_eq

theorem holdWindow_eq (n : Nat) : holdWindow n = if n < 18 then 1880 else 188 := by
  rw [holdWindow]
  split <;> rfl

theorem mayStep_iff (l : Link) (now : Nat) : l.mayStep now = true ↔ ∀ t, l.stepAt = some t → 94000 ≤ now - t := by
  unfold Link.mayStep
  cases l.stepAt with
  | none => simp
  | some t =>
    simp only [decide_eq_true_eq, Option.some.injEq, forall_eq']
    exact Iff.rfl

theorem stoodFor_iff (since : Option Nat) (ns now : Nat) :
    stoodFor since ns now = true ↔ ∃ t, since = some t ∧ cyclesOf ns ≤ now - t := by
  cases since <;> simp [stoodFor]

theorem held_of_hold {l : Link} (h : l.state = .hold) (now : Nat) :
    l.held now = { l with holdns := l.holdns + BitVec.ofNat 64 ((now - l.since) * 1000 / 940) } := by
  rw [Link.held, Link.holdTime, if_pos h, nsOf]

theorem ratePressed_iff (s : State) (n : Nat) (l : Link) :
    s.ratePressed n l = true ↔ ∃ lo hi, Gate.rates n lo hi ∈ s.gates ∧ hi.toNat < l.rate.toNat := by
  simp only [State.ratePressed, List.any_eq_true]
  constructor
  · rintro ⟨g, hg, h⟩
    cases g with
    | rates m lo hi =>
      simp only [Bool.and_eq_true, decide_eq_true_eq] at h
      obtain ⟨rfl, hlt⟩ := h
      exact ⟨lo, hi, hg, hlt⟩
    | _ => cases h
  · rintro ⟨lo, hi, hg, hlt⟩
    exact ⟨_, hg, by simp only [hlt, decide_true, Bool.and_self]⟩

/-- LINK_STEP_DOWN of an ACTIVE link whose last step is long enough ago (R399). -/
theorem linkStepDown_steps {s : State} (ha : (s.link s.focus.unit).state = .active)
    (hm : (s.link s.focus.unit).mayStep s.now = true)
    (h : ((s.link s.focus.unit).minRate.toNat < (s.link s.focus.unit).rate.toNat ∧
        ∃ t, (s.link s.focus.unit).lowSince = some t ∧ 94000 ≤ s.now - t) ∨
      ∃ lo hi, Gate.rates s.focus.unit lo hi ∈ s.gates ∧ hi.toNat < (s.link s.focus.unit).rate.toNat) :
    exec .linkStepDown s = goes (s.setLink s.focus.unit
      ((s.link s.focus.unit).stepTo ((s.link s.focus.unit).rate - 1) s.now)) := by
  have hb : ((stoodFor (s.link s.focus.unit).lowSince 100000 s.now &&
      decide ((s.link s.focus.unit).minRate.toNat < (s.link s.focus.unit).rate.toNat)) ||
      s.ratePressed s.focus.unit (s.link s.focus.unit)) = true := by
    rw [Bool.or_eq_true, Bool.and_eq_true, stoodFor_iff, decide_eq_true_eq, ratePressed_iff, and_comm]
    exact h
  simp only [exec_linkStepDown, execLinkStepDown, (is_iff _ _).mpr ha, hm, hb, Bool.and_self, if_true]

/-- FLIT_REPLAY of an ACTIVE link (R398). -/
theorem flitReplay_counts {s : State} (ha : (s.link s.focus.unit).state = .active) :
    let l := s.link s.focus.unit
    let recent := s.now :: l.recent.filter (fun t => decide (s.now - t < 940))
    let replayed : Link := { l with flits := l.flits + 1, replays := l.replays + 1, recent := recent }
    exec .flitReplay s = goes (s.setLink s.focus.unit
      (if 64 < recent.length then { replayed.enter .hold s.now with recent := [] } else replayed)) := by
  simp only [exec_flitReplay, execFlitReplay, (is_iff _ _).mpr ha, Bool.not_true, Bool.false_eq_true, if_false]
  rfl

/-! ## Collectives (R404, R405) -/

theorem late_iff (c : Collective) (now : Nat) : c.late now = true ↔ ∃ t, c.started = some t ∧
    t + 940 * c.timeout ≤ now := by
  have h : cyclesOf (1000 * c.timeout) = 940 * c.timeout := by rw [cyclesOf]; omega
  unfold Collective.late
  cases c.started <;> simp [h]

/-- A collecting member reads its contribution (R405). -/
theorem collectiveContribution_reads {s s' : State} {c : Collective} {j : Job} {k rank : Nat} {xs : List Sector}
    (hv : s.focus.val = 0) (hj : look s.jobs s.focus.unit = some j) (hc : j.coll = some (k, rank))
    (hk : look s.colls k = some c) (hs : j.state = .collecting) (hg : look c.got rank = none)
    (hr : s.readContribution j j.src (collSource c.kind c.members c.n0 rank c.root) = .ok (s', xs)) :
    exec .collectiveContribution s =
      if decide (c.kind % 2 = 0) && !readsAs j.reader xs then goes (s'.abortCollective k 5 rank)
      else goes (s'.contribute k rank c (if c.kind % 2 = 0 then xs.map j.typed else xs)) := by
  have hv0 : s.focus.val.toNat = 0 := by rw [hv]; rfl
  simp only [exec_collectiveContribution, execCollectiveContribution, hv0, hj, hc, hk, hs, hg, hr, ne_eq,
    not_true_eq_false,
    decide_false, Option.isSome_none, Bool.or_self, Bool.false_eq_true, if_false]

/-- An acknowledgement that is in time and new (R405). -/
theorem collectiveAck_takes {s : State} {c : Collective} (hk : look s.colls s.focus.unit = some c) (he : c.ended = none)
    (hs : c.sent = true) (hl : c.late s.now = false) (hm : s.focus.sub < c.members) (ha : s.focus.sub ∉ c.acked) :
    exec .collectiveAck s =
      if c.acked.length + 1 = c.members then goes (s.commitCollective s.focus.unit { c with acked := s.focus.sub ::
        c.acked })
      else goes { s with colls := put s.colls s.focus.unit { c with acked := s.focus.sub :: c.acked } } := by
  have hc : c.acked.contains s.focus.sub = false := by
    rw [List.contains_eq_mem]; exact decide_eq_false ha
  simp only [exec_collectiveAck, execCollectiveAck, hk, he, hs, hl, hc, decide_eq_false (Nat.not_le.mpr hm),
    Option.isSome_none, Bool.not_true, Bool.or_self, Bool.false_eq_true, if_false, List.length_cons]

/-- Settles O50. -/
theorem linkResults : Obligations.LinkResults := by
  unfold Obligations.LinkResults
  refine ⟨fun s => ?_, fun s s' c => ?_⟩
  · intro n l now gets enter held window recent replayed
    have hwindow : holdWindow n = window := holdWindow_eq n
    refine ⟨fun hs => ?_, fun hs => ?_, fun hs => ⟨fun ht => ?_, fun ht => ?_⟩,
      fun hs => ⟨fun hm => ⟨fun hr hh => ?_, fun hd => ?_⟩, fun hr => ?_, fun hr => ?_⟩,
      fun hs => ⟨fun ht => ?_, fun ht => ?_⟩, fun h1 h2 => ?_, fun h => ?_⟩
    · simp only [exec_linkTrainingStart, execLinkTrainingStart, show (s.link s.focus.unit).state = .down from hs]
      rfl
    · simp only [exec_linkTrainingStart, execLinkTrainingStart, show (s.link s.focus.unit).state = .failed from hs]
      rfl
    · have hc : (l.is .training && decide (s.now - l.since < cyclesOf 1000000)) = true := by
        rw [Bool.and_eq_true, is_iff, decide_eq_true_eq]; exact ⟨hs, ht⟩
      rw [exec_linkTrainingComplete, execLinkTrainingComplete, if_pos hc]
      rfl
    · have hc : (l.is .training && decide (cyclesOf 1000000 ≤ s.now - l.since)) = true := by
        rw [Bool.and_eq_true, is_iff, decide_eq_true_eq]; exact ⟨hs, ht⟩
      rw [exec_linkTrainingTimeout, execLinkTrainingTimeout, if_pos hc]
      rfl
    · have hc : (l.is .active && l.mayStep s.now && stoodFor l.highSince 10000 s.now &&
          decide (l.rate.toNat < l.maxRate.toNat)) = true := by
        rw [Bool.and_eq_true, Bool.and_eq_true, Bool.and_eq_true, is_iff, mayStep_iff, stoodFor_iff, decide_eq_true_eq]
        exact ⟨⟨⟨hs, hm⟩, hh⟩, hr⟩
      rw [exec_linkStepUp, execLinkStepUp, if_pos hc]
      rfl
    · exact linkStepDown_steps hs ((mayStep_iff _ _).mpr hm) hd
    · rw [flitReplay_counts hs, if_neg (Nat.not_lt.mpr hr)]
    · rw [flitReplay_counts hs, if_pos hr]
      rfl
    · have hc : (l.is .hold && decide (s.now - l.since < holdWindow n)) = true := by
        rw [Bool.and_eq_true, is_iff, decide_eq_true_eq, hwindow]; exact ⟨hs, ht⟩
      rw [exec_linkRetrainComplete, execLinkRetrainComplete, if_pos hc, held_of_hold hs]
      rfl
    · have hc : (l.is .hold && decide (holdWindow n ≤ s.now - l.since)) = true := by
        rw [Bool.and_eq_true, is_iff, decide_eq_true_eq, hwindow]; exact ⟨hs, ht⟩
      rw [exec_linkHoldExpiry, execLinkHoldExpiry, if_pos hc, held_of_hold hs]
      rfl
    · rw [exec_linkRatePolicy, execLinkRatePolicy, decide_eq_true h1, decide_eq_true h2]
      rfl
    · have hc : (decide (s.focus.sub ≤ s.focus.val.toNat) && decide (s.focus.val.toNat ≤ 2)) = false := by
        rw [Bool.and_eq_false_iff, decide_eq_false_iff_not, decide_eq_false_iff_not, Nat.not_le, Nat.not_le]; exact h
      rw [exec_linkRatePolicy, execLinkRatePolicy, hc]
      rfl
  · intro key
    refine ⟨fun j k rank xs hv hj hc hk hs hg hr => ⟨fun h => ?_, fun he hn => ?_⟩,
      fun hk he => ⟨fun t ht hl => ?_, fun hs ht hm ha => ?_⟩⟩
    · rw [collectiveContribution_reads hv hj hc hk hs hg hr, if_neg]
      rcases h with h | h <;> simp [h]
    · rw [collectiveContribution_reads hv hj hc hk hs hg hr, if_pos (by rw [hn, decide_eq_true he]; rfl)]
    · simp only [exec_collectiveTimeout, execCollectiveTimeout, show look s.colls s.focus.unit = some c from hk, he,
        (late_iff c s.now).mpr ⟨t, ht, hl⟩, Option.isNone_none, Bool.and_self, if_true]
      rfl
    · have hlate : c.late s.now = false := by
        rw [Bool.eq_false_iff, ne_eq, late_iff]
        rintro ⟨t, hst, hle⟩
        exact absurd (ht t hst) (Nat.not_lt.mpr hle)
      intro d
      refine ⟨fun hlast => ?_, fun hmore => ?_⟩
      · rw [collectiveAck_takes hk he hs hlate hm ha, if_pos hlast]
      · rw [collectiveAck_takes hk he hs hlate hm ha, if_neg hmore]

end Sys2Proof.LinkSteps
end

section
/-! PROOFS. Accesses from outside (R280, R287 to R291, R402, R406, R407). -/

namespace Sys2Proof.OutsideAccess

open Sys2Proof Sys2Proof.Machine Sys2Proof.Claim Sys2Proof.Laws

-- One proof is checked at a time: this keeps the check of the whole text within its memory.
set_option Elab.async false

/-! ## What an outside access meets (R280, R287, R407) -/

/-- Traffic counted on a link changes no sector's tag. -/
theorem tagAt_crossed (s : State) (l : Loc) (k : Nat) : (s.crossed l).tagAt k = s.tagAt k := by
  unfold State.crossed
  split
  · rfl
  · split <;> rfl

theorem hostView_stored {s : State} {l : Loc} (k : HostAccess) (h :
    isCxlKey l.key = false ∨ look s.llc (l.key / 256) = none) :
    s.hostView l k = l := by
  have hc : (if isCxlKey l.key then look s.llc (l.key / 256) else none) = none := by
    rcases h with h | h
    · rw [h]; rfl
    · rw [h, ite_self]
  unfold State.hostView
  simp only [hc]

theorem hostView_copied {s : State} {l : Loc} {y : Sector} (d n : Nat) (h : isCxlKey l.key = true)
    (hy : look s.llc (l.key / 256) = some y) : s.hostView l (.load d n) = { l with xf := .copied y } := by
  unfold State.hostView
  rw [if_pos h, hy]

theorem hostView_other (s : State) (l : Loc) {k : HostAccess} (h : hostAtomic k = true ∨ hostWrites k = true) :
    s.hostView l k = l := by
  unfold State.hostView
  cases k with
  | load d n => rcases h with h | h <;> cases h
  | _ => rfl

/-- An access whose sector neither the recall nor its tag faults is performed (R280, R288). -/
theorem hostMemory_performs {s : State} {who : Nat} {ctx : Option Nat} {k : HostAccess} {l : Loc}
    (hl : s.dpaLoc ctx 0 (s.localDpa (hostDpa k)) = .ok l)
    (hr : hostAtomic k = true → s.recallFinds (s.localDpa (hostDpa k)) = false) :
    let d := s.localDpa (hostDpa k)
    let u := (if hostAtomic k && isHbm d then s.recall d else s).settle l d
    rawFault (u.tagAt l.key) = none → (hostWrites k = true → (u.crossed l).rawBarred d l = false) →
    s.hostMemory who ctx k = (u.crossed l).hostAt who l d k := by
  intro d u hf hb
  have hfound : (hostAtomic k && s.recallFinds d) = false := by
    cases ha : hostAtomic k
    · rfl
    · exact hr ha
  have hbar : (hostWrites k && (u.crossed l).rawBarred d l) = false := by
    cases hw : hostWrites k
    · rfl
    · exact hb hw
  simp only [d, u] at hfound hbar hf ⊢
  simp only [State.hostMemory, hl, hfound, tagAt_crossed, hf, hbar, Bool.false_eq_true, if_false]

/-- An access of an application hart to memory goes on where its link holds nothing and it acquires nothing (R280). -/
theorem applicationHartAccess_memory {s : State} {l : Loc} {who ctx : Nat} {k : HostAccess} (hd : hostDpa k < cxlEnd)
    (hok : hostOk k = true) (hl : s.dpaLoc none 0 (s.localDpa (hostDpa k)) = .ok l) (ha : hostAcquires k = false) :
    exec (.applicationHartAccess who ctx k) s =
      goes ((State.hostMemory { s with asids := put s.asids (who % 64) ctx } (who % 64) none k).1.answer (who % 64)
        (State.hostMemory { s with asids := put s.asids (who % 64) ctx } (who % 64) none k).2) := by
  have hheld : s.hostHeld k = false := by rw [State.hostHeld, hl]
  simp only [exec_applicationHartAccess, execApplicationHartAccess, hheld, hok, ha, Nat.not_le.mpr hd, Bool.and_false,
    Bool.false_and, Bool.not_true, Bool.false_eq_true, if_false]

theorem hostOk_load {dpa n : Nat} (hn : n = 1 ∨ n = 2 ∨ n = 4 ∨ n = 8) (hd : dpa % n = 0) :
    hostOk (.load dpa n) = true := by
  simp only [hostOk, hostDpa, hostSize, hd, beq_self_eq_true, Bool.and_true]
  rcases hn with rfl | rfl | rfl | rfl <;> rfl

theorem hostOk_store {dpa n : Nat} (v : Dword) (hn : n = 1 ∨ n = 2 ∨ n = 4 ∨ n = 8) (hd : dpa % n = 0) :
    hostOk (.store dpa n v) = true := by
  simp only [hostOk, hostDpa, hostSize, hd, beq_self_eq_true, Bool.and_true]
  rcases hn with rfl | rfl | rfl | rfl <;> rfl

theorem hostOk_atomic {dpa n : Nat} (hn : n = 4 ∨ n = 8) (hd : dpa % n = 0) :
    (∀ op v, hostOk (.amo op dpa n v false false) = true) ∧ hostOk (.lr dpa n false false) = true := by
  simp only [hostOk, hostDpa, hostSize, hd, beq_self_eq_true, Bool.and_true]
  rcases hn with rfl | rfl <;> exact ⟨fun _ _ => rfl, rfl⟩

/-! ## What each access does at its location -/

theorem hostAt_load {s : State} {l l' : Loc} {who d dpa n : Nat} (hv : s.hostView l (.load dpa n) = l') :
    s.hostAt who l d (.load dpa n) = (s, .bytes (bytesOfNat (s.readRaw l' n) n)) := by
  unfold State.hostAt
  rw [hv]
  rfl

theorem hostAt_store (s : State) (l : Loc) (who d dpa n v : Nat) :
    s.hostAt who l d (.store dpa n (BitVec.ofNat 64 v)) =
      (s.guardDescs (s.storeRaw d l n (v % 2 ^ 64 % 2 ^ (8 * n))) d, .bytes []) := rfl

theorem hostAt_amo (s : State) (l : Loc) (who d dpa n v : Nat) (op : HostAmo) :
    s.hostAt who l d (.amo op dpa n (BitVec.ofNat 64 v) false false) =
      (((amoNew (hostAmoOp op) n (s.readRaw l n) (v % 2 ^ 64 % 2 ^ (8 * n)) 0).1.map
          (fun y => s.guardDescs (s.storeRaw d l n y) d)).getD s, .bytes (bytesOfNat (s.readRaw l n) n)) := by
  have hat : s.hostAt who l d (.amo op dpa n (BitVec.ofNat 64 v) false false) =
      match (amoNew (hostAmoOp op) n (s.readRaw l n) (v % 2 ^ 64 % 2 ^ (8 * n)) 0).1 with
      | none => (s, .bytes (bytesOfNat (s.readRaw l n) n))
      | some y => (s.guardDescs (s.storeRaw d l n y) d, .bytes (bytesOfNat (s.readRaw l n) n)) := by
    unfold State.hostAt
    rw [hostView_other s l (.inl rfl)]
    rfl
  rw [hat]
  cases (amoNew (hostAmoOp op) n (s.readRaw l n) (v % 2 ^ 64 % 2 ^ (8 * n)) 0).1 <;> rfl

theorem hostAt_lr (s : State) (l : Loc) (who d dpa n : Nat) :
    s.hostAt who l d (.lr dpa n false false) =
      ({ s with hostRes := put s.hostRes who (l.key / 256) }, .bytes (bytesOfNat (s.readRaw l n) n)) := by
  unfold State.hostAt
  rw [hostView_other s l (.inl rfl)]
  rfl

/-! ## Fences of application harts (R280, R291) -/

/-- Acquires at entries of which one at least names the peer leave the LLC empty; others leave everything as it is. -/
theorem foldl_hostAcquire (h : Nat) (ks : List Nat) (s : State) :
    ks.foldl (fun s k => s.hostAcquire (s.hostCtx h) k) s =
      if ∃ k ∈ ks, s.scopeNamesPeer k (s.contents (s.hostCtx h) k) = true then { s with llc := [] } else s := by
  induction ks generalizing s with
  | nil => simp only [List.foldl_nil, List.not_mem_nil, false_and, exists_false, if_false]
  | cons k ks ih =>
    rw [List.foldl_cons, ih]
    cases hk : s.scopeNamesPeer k (s.contents (s.hostCtx h) k)
    · have hs : s.hostAcquire (s.hostCtx h) k = s := by rw [State.hostAcquire, hk, Bool.false_and, if_neg (by decide)]
      simp only [hs, List.mem_cons, exists_eq_or_imp, hk, Bool.false_eq_true, false_or]
    · have hs : s.hostAcquire (s.hostCtx h) k = { s with llc := [] } := by
        rw [State.hostAcquire, hk, Bool.true_and]
        split
        · rfl
        · next he =>
          have hnil : s.llc = [] := by simpa using he
          rw [← hnil]
      have hany : ∃ j ∈ k :: ks, s.scopeNamesPeer j (s.contents (s.hostCtx h) j) = true := ⟨k, List.mem_cons_self, hk⟩
      rw [if_pos hany, hs, ite_self]

/-! ## Devices (R407) -/

/-- An aligned access of at most eight bytes is one run. -/
theorem deviceRuns_aligned {va n : Nat} (hn : n = 1 ∨ n = 2 ∨ n = 4 ∨ n = 8) (hd : va % n = 0) :
    deviceRuns va n = [(va, 0, n)] := by
  have hfit : va % 256 + n ≤ 256 ∧ 0 < n := by rcases hn with rfl | rfl | rfl | rfl <;> omega
  have hone : (va % 256 + n + 255) / 256 = 1 := by omega
  have hlo : Nat.max va (va / 256 * 256 + 256 * 0) = va := Nat.max_eq_left (by omega)
  have hhi : Nat.min (va + n) (va / 256 * 256 + 256 * (0 + 1)) = va + n := Nat.min_eq_left (by omega)
  simp only [deviceRuns, hone, List.range_one, List.map_cons, List.map_nil, hlo, hhi, Nat.sub_self,
    Nat.add_sub_cancel_left]

theorem deviceRead_run {s : State} {l : Loc} {dpa n : Nat} (hn : n = 1 ∨ n = 2 ∨ n = 4 ∨ n = 8)
    (hd : s.focus.val.toNat % n = 0) (hs : s.focus.sub = n) (ha :
      s.ioAddr s.focus.unit s.focus.val.toNat false = some dpa)
    (hc : dpa < cxlEnd) (hl : s.deviceLoc dpa = some l) (hr : deviceReply ((s.settle l dpa).tagAt l.key) = none) :
    exec .deviceRead s = goes ((s.settle l dpa).answer (1000 + s.focus.unit % 1000)
      (.bytes (bytesOfNat ((s.settle l dpa).readRaw l n) n))) := by
  have hmin : Nat.min s.focus.sub 4096 = n := by rw [hs]; rcases hn with rfl | rfl | rfl | rfl <;> rfl
  have hruns : s.ioRuns s.focus.unit s.focus.val.toNat n false = [(some dpa, 0, n)] := by
    simp only [State.ioRuns, deviceRuns_aligned hn hd, List.map_cons, List.map_nil, ha]
  simp only [exec_deviceRead, execDeviceRead, ha, if_neg (Nat.not_le.mpr hc), hmin, hruns, State.deviceBytes,
    Option.bind_some,
    hl, Option.map_some, hr, List.append_nil]
  rfl

theorem deviceWrite_run {s : State} {l : Loc} {dpa n : Nat} {y : Sector} {ys : List Sector}
    (hn : n = 1 ∨ n = 2 ∨ n = 4 ∨ n = 8) (hd : s.focus.val.toNat % n = 0) (hs : s.focus.sub = n)
    (ha : s.ioAddr s.focus.unit s.focus.val.toNat true = some dpa) (hc : dpa < cxlEnd) (hl : s.deviceLoc dpa = some l)
    (hr : deviceReply ((s.settle l dpa).tagAt l.key) = none) (hy : s.focus.data = y :: ys) :
    exec .deviceWrite s = goes ((s.settle l dpa).guardDescs
      ((s.settle l dpa).storeRaw dpa l n (y.data.toNat % 2 ^ (8 * n))) dpa) := by
  have hmin : Nat.min s.focus.sub (Nat.min 4096 (256 * (ys.length + 1))) = n := by
    rw [hs]
    exact Nat.min_eq_left (Nat.le_min.mpr (by rcases hn with rfl | rfl | rfl | rfl <;> omega))
  have hruns : s.ioRuns s.focus.unit s.focus.val.toNat n true = [(some dpa, 0, n)] := by
    simp only [State.ioRuns, deviceRuns_aligned hn hd, List.map_cons, List.map_nil, ha]
  have hdata (acc : Nat) :
      (y.data.toNat + 2 ^ 2048 * acc) / 2 ^ (8 * 0) % 2 ^ (8 * n) = y.data.toNat % 2 ^ (8 * n) := by
    have hdvd : 2 ^ (8 * n) ∣ 2 ^ 2048 * acc :=
      (Nat.pow_dvd_pow 2 (by rcases hn with rfl | rfl | rfl | rfl <;> omega)).mul_right acc
    rw [Nat.mul_zero, Nat.pow_zero, Nat.div_one, Nat.add_mod, Nat.mod_eq_zero_of_dvd hdvd, Nat.add_zero, Nat.mod_mod]
  simp only [exec_deviceWrite, execDeviceWrite, ha, if_neg (Nat.not_le.mpr hc), hmin, hruns, List.foldl_cons,
    List.foldl_nil,
    State.deviceRun, Option.bind_some, hl, Option.map_some, hr, hy, List.length_cons, List.foldr_cons, hdata]

/-- Settles O51. -/
theorem outsideAccessResults : Obligations.OutsideAccessResults := by
  unfold Obligations.OutsideAccessResults
  intro s l who ctx dpa n v hn hdvd h d a answers x f named stored
  have hloc : a.dpaLoc none 0 (a.localDpa dpa) = s.dpaLoc none 0 d := rfl
  refine ⟨fun hd hl hf => ?_, fun hn4 hd hl hr => ?_, fun hnamed => ?_, fun hnamed => ?_,
    fun hl hc => ⟨fun hy => ?_, fun y ys hy => ?_⟩,
    fun hh hp hl => ?_, fun hh hal hp hl => ⟨?_, fun y hb => ?_⟩, fun va hva hal hs => ⟨fun ha => ?_, fun ha => ?_,
      fun w ha hc hl => ?_⟩,
    fun cfg hu hok => ?_⟩
  · intro t
    have hmem (k : HostAccess) (hk : hostDpa k = dpa) (hat : hostAtomic k = false)
        (hb : hostWrites k = true → t.rawBarred d l = false) : a.hostMemory h none k = t.hostAt h l d k := by
      have hm := hostMemory_performs (s := a) (who := h) (ctx := none) (k := k) (l :=
        l) (by rw [hk]; exact hloc.trans hl)
        (by rw [hat]; exact nofun)
      simp only [hk, hat, Bool.false_and, Bool.false_eq_true, if_false] at hm
      exact hm hf hb
    have hload (l' : Loc) (hv : t.hostView l (.load dpa n) = l') :
        x (.load dpa n) = answers t h (.bytes (bytesOfNat (t.readRaw l' n) n)) := by
      refine (applicationHartAccess_memory (k := .load dpa n) hd (hostOk_load hn hdvd) hl rfl).trans ?_
      rw [hmem (.load dpa n) rfl rfl nofun, hostAt_load hv]
      rfl
    refine ⟨fun hv => hload l (hostView_stored _ hv), fun y hc hy => hload _ (hostView_copied _ _ hc hy), fun hb => ?_⟩
    refine (applicationHartAccess_memory (k := .store dpa n _) hd (hostOk_store _ hn hdvd) hl rfl).trans ?_
    rw [hmem _ rfl rfl (fun _ => hb), hostAt_store]
    rfl
  · intro u t hf
    have hmem (k : HostAccess) (hk : hostDpa k = dpa) (hat : hostAtomic k = true)
        (hb : hostWrites k = true → t.rawBarred d l = false) : a.hostMemory h none k = t.hostAt h l d k := by
      have hm := hostMemory_performs (s := a) (who := h) (ctx := none) (k := k) (l :=
        l) (by rw [hk]; exact hloc.trans hl)
        (by rw [hk]; exact fun _ => hr)
      simp only [hk, hat, Bool.true_and] at hm
      exact hm hf hb
    refine ⟨fun hb op => ?_, ?_⟩
    · refine (applicationHartAccess_memory (k := .amo op dpa n _ _ _) hd ((hostOk_atomic hn4 hdvd).1 op _) hl
        rfl).trans ?_
      rw [hmem _ rfl rfl (fun _ => hb), hostAt_amo]
      dsimp only
      cases (amoNew (hostAmoOp op) n (t.readRaw l n) stored 0).1 <;> rfl
    · refine (applicationHartAccess_memory (k := .lr dpa n _ _) hd (hostOk_atomic hn4 hdvd).2 hl rfl).trans ?_
      rw [hmem (.lr dpa n _ _) rfl rfl nofun, hostAt_lr]
      rfl
  · rw [exec_applicationHartFence, execApplicationHartFence, foldl_hostAcquire, if_pos hnamed]
  · rw [exec_applicationHartFence, execApplicationHartFence, foldl_hostAcquire, if_neg hnamed]
  · simp only [exec_cxlBackInvalidation, execCxlBackInvalidation, hl, hc, hy, Bool.not_true, Bool.false_eq_true,
      if_false]
  · simp only [exec_cxlBackInvalidation, execCxlBackInvalidation, hl, hc, hy, Bool.not_true, Bool.false_eq_true,
      if_false]
  · intro t hf hc
    have hm := hostMemory_performs (s := s) (who := domainRequester who) (ctx := some ctx) (k := .load dpa n) (l :=
      l) hl
      nofun hf nofun
    simp only [exec_domainAccessArrival, execDomainAccessArrival, domainOk, domainDpa, hostDpa, hostOk_load hn hdvd,
      hh, hp,
      Bool.not_true, Bool.or_self, Bool.false_eq_true, if_false, State.domainDo, hm]
    rw [hostAt_load (hostView_stored _ (.inl hc))]
    rfl
  · simp only [exec_domainAccessArrival, execDomainAccessArrival, domainOk, domainDpa, hal, hh, hp, beq_self_eq_true,
      Bool.not_true, Bool.or_self, Bool.false_eq_true, if_false, State.domainDo, hl]
    rfl
  · simp only [exec_domainAccessArrival, execDomainAccessArrival, domainOk, domainDpa, hal, hh, hp, beq_self_eq_true,
      Bool.not_true, Bool.or_self, Bool.false_eq_true, if_false, State.domainDo, hl, hb]
    rfl
  · subst hva
    simp only [exec_deviceRead, execDeviceRead, ha]
    rfl
  · subst hva
    simp only [exec_deviceWrite, execDeviceWrite, ha]
    rfl
  · subst hva
    intro t hr
    refine ⟨fun hw => ?_, fun y ys hw hy => ?_⟩
    · subst hw; exact deviceRead_run hn hal hs ha hc hl hr
    · subst hw; exact deviceWrite_run hn hal hs ha hc hl hr hy
  · rw [exec_domainWindowConfig, execDomainWindowConfig, hok, decide_eq_true hu]
    rfl

end Sys2Proof.OutsideAccess
end

section
/-! PROOFS. Bring-up, power and the thermal trip (R425 to R432). -/

namespace Sys2Proof.Bringup

open Sys2Proof Sys2Proof.Machine Sys2Proof.Claim Sys2Proof.Laws

-- One proof is checked at a time: this keeps the check of the whole text within its memory.
set_option Elab.async false

/-! ## New keys (R428) -/

/-- After the first n indices, each of them has a new key and the others are as before. -/
theorem look_newKeys_upto (gen : Map Nat) (n i : Nat) :
    look ((List.range n).foldl (fun m i => put m i (lookD m i 0 + 1)) gen) i =
      if i < n then some (lookD gen i 0 + 1) else look gen i := by
  induction n with
  | zero => rfl
  | succ n ih =>
    rw [List.range_succ, List.foldl_append, List.foldl_cons, List.foldl_nil]
    by_cases hi : i = n
    · subst hi
      rw [look_put_same, if_pos (Nat.lt_succ_self i), lookD, ih, if_neg (Nat.lt_irrefl i)]
      rfl
    · rw [look_put_other _ _ hi, ih]
      by_cases hlt : i < n
      · rw [if_pos hlt, if_pos (Nat.lt_succ_of_lt hlt)]
      · rw [if_neg hlt, if_neg (by omega)]

theorem look_newKeys (gen : Map Nat) {i : Nat} (h : i < 64) : look (newKeys gen) i = some (lookD gen i 0 + 1) := by
  rw [newKeys, look_newKeys_upto, if_pos h]

/-! ## Tensor handles after a thermal trip (R381, R430) -/

theorem look_filter_none {α : Type} {m : Map α} {p : Nat × α → Bool} {k : Nat} (h : ∀ x, p (k, x) = false) :
    look (m.filter p) k = none := by
  refine look_eq_none (fun c hc he => ?_)
  obtain ⟨j, x⟩ := c
  rw [List.mem_filter] at hc
  rw [show j = k from he, h] at hc
  exact absurd hc.2 (by decide)

theorem natOfBytes_zeros {bs : List Byte} (h : ∀ b ∈ bs, b = 0) : natOfBytes bs = 0 := by
  induction bs with
  | nil => rfl
  | cons b bs ih =>
    rw [natOfBytes, h b List.mem_cons_self, ih (fun c hc => h c (List.mem_cons_of_mem _ hc))]
    rfl

theorem getBytes_unlisted {m : Memory} {a n : Nat} (h : ∀ k, a ≤ k → k < a + n → look m k = none) :
    ∀ b ∈ getBytes m a n, b = 0 := by
  induction n generalizing a with
  | zero => intro b hb; cases hb
  | succ n ih =>
    intro b hb
    rcases List.mem_cons.mp hb with rfl | hb
    · rw [getByte, lookD, h a (Nat.le_refl a) (by omega)]
      rfl
    · exact ih (fun k h1 h2 => h k (by omega) (by omega)) b hb

/-- Where no byte of the handles' block is listed, every handle reads zero. -/
theorem handle_unlisted {s : State} {n i : Nat} (hn : n < 12) (hi : i < 256)
    (h : ∀ k, handleBlock ≤ k → k < handleBlock + 12 * 65536 → look s.mem k = none) : s.handle n i = 0 := by
  refine natOfBytes_zeros (getBytes_unlisted (fun k h1 h2 => h k ?_ ?_)) <;>
    simp only [handleDpa, handleBlock] at * <;> omega

/-! ## Release (R425, R429) -/

/-- DIE_RELEASE of a verified record, in time and with the keys that the next die needs (R425). -/
theorem dieRelease_next {s : State} {r : BootRecord} (hv : s.trust.verified = true) (hf : s.trust.failure = false)
    (hr : s.trust.record = some r) (ht : s.trust.released = 0 ∨ s.now - s.trust.releasedAt < 94000000)
    (hk : s.trust.released < 3 ∨ s.trust.keysLoaded = true) :
    let tr := s.trust
    let k := tr.released
    let u := { tr with measured := put tr.measured (k + 2) (Config.measurement (k + 2) (recordSection r k)),
                       released := k + 1, ready := false, releasedAt := s.now }
    exec .dieRelease s =
      if k < 23 then
        goes (if k = 22 then (State.zeroPitOf { s with trust := u } k).startApps r.bootAddr
          else State.zeroPitOf { s with trust := u } k)
      else goes { s with trust := { tr with ready := true } } := by
  intro tr k u
  have hgo : (!tr.verified || tr.failure || !(decide (k = 0) || decide (s.now - tr.releasedAt < readyLimit)) ||
      (decide (3 ≤ k) && !tr.keysLoaded)) = false := by
    have hin : (decide (k = 0) || decide (s.now - tr.releasedAt < readyLimit)) = true := by
      rw [Bool.or_eq_true, decide_eq_true_eq, decide_eq_true_eq]; exact ht
    have hkeys : (decide (3 ≤ k) && !tr.keysLoaded) = false := by
      rcases hk with hk | hk
      · rw [decide_eq_false (Nat.not_le.mpr hk), Bool.false_and]
      · rw [show tr.keysLoaded = true from hk, Bool.not_true, Bool.and_false]
    rw [show tr.verified = true from hv, show tr.failure = false from hf, hin, hkeys]
    rfl
  rw [exec_dieRelease, execDieRelease]
  simp only [show (!s.trust.verified || s.trust.failure ||
    !(decide (s.trust.released = 0) || decide (s.now - s.trust.releasedAt < readyLimit)) ||
      (decide (3 ≤ s.trust.released) && !s.trust.keysLoaded)) = false from hgo, hr, Bool.false_eq_true, if_false, tr,
        k, u]

/-! ## Power (R430) -/

/-- POWER_TICK, once in each 10 µs. -/
theorem powerTick_due {s : State} (h : s.now % 9400 = 0) (hp : s.permitAt ≠ some s.now) :
    let a : State := { s with permitAt := some s.now }
    exec .powerTick s =
      if s.powerLimit < s.focus.val.toNat then goes a.lowerPermit
      else if 100 * s.focus.val.toNat < 95 * s.powerLimit then goes a.raisePermit
      else goes a := by
  have hdue : (decide (s.now % cyclesOf 10000 ≠ 0) || s.permitAt == some s.now) = false := by
    rw [show cyclesOf 10000 = 9400 from rfl, h, beq_eq_false_iff_ne.mpr hp]
    rfl
  rw [exec_powerTick, execPowerTick]
  simp only [hdue, Bool.false_eq_true, if_false]

/-- Settles O52. -/
theorem bringupResults : Obligations.BringupResults := by
  unfold Obligations.BringupResults
  intro s r tr answers algs fails w a
  refine ⟨fun hr hf => ?_, ⟨rfl, fun i hi => look_newKeys _ hi⟩, fun hv hf hr ht hk => ?_, fun hv h0 hn ht => ?_,
    ⟨_, rfl⟩, ⟨_, rfl⟩, ⟨_, rfl⟩, ⟨_, rfl⟩, ⟨_, rfl⟩, ⟨_, rfl⟩, ⟨_, rfl⟩, ⟨_, rfl⟩, fun hu => ?_, fun cfg hu hsub => ?_,
    fun hnow hat => ?_, ?_⟩
  · have hnew : (s.trust.record.isSome || s.trust.failure) = false := by
      rw [show s.trust.record = none from hr, show s.trust.failure = false from hf]; rfl
    refine ⟨fun hok => ?_, ?_, fun hok => ?_⟩
    · simp only [exec_tdBoot, execTdBoot, hnew, hok, Bool.not_true, Bool.or_self, Bool.false_eq_true, if_false]
      rfl
    · simp only [exec_tdBoot, execTdBoot, hnew, Bool.not_false, Bool.true_or, Bool.false_eq_true, if_false, if_true]
      rfl
    · simp only [exec_tdBoot, execTdBoot, hnew, hok, Bool.not_true, Bool.not_false, Bool.or_true, Bool.false_eq_true,
        if_false,
        if_true]
      rfl
  · intro k u
    have hnext := dieRelease_next hv hf hr ht hk
    refine ⟨fun (h : s.trust.released < 22) => ?_, fun (h : s.trust.released = 22) => ?_,
      fun (h : 23 ≤ s.trust.released) => ?_⟩
    · rw [hnext, if_pos (h.trans (by decide)), if_neg (Nat.ne_of_lt h)]
    · have hpit : ¬ (decide (3 ≤ s.trust.released) && decide (s.trust.released < 15)) = true := by
        rw [Bool.and_eq_true, decide_eq_true_eq, decide_eq_true_eq]; omega
      rw [hnext, if_pos (h ▸ by decide), if_pos h, State.zeroPitOf, if_neg hpit]
      rfl
    · rw [hnext, if_neg (Nat.not_lt.mpr h)]
  · have hc : (s.trust.verified && decide (0 < s.trust.released) && !s.trust.ready &&
        decide (readyLimit ≤ s.now - s.trust.releasedAt)) = true := by
      rw [show s.trust.verified = true from hv, show s.trust.ready = false from hn, decide_eq_true h0,
        decide_eq_true (show readyLimit ≤ s.now - s.trust.releasedAt from ht)]
      rfl
    rw [exec_dieReadyTimeout, execDieReadyTimeout]
    simp only [hc, if_true]
    rfl
  · rw [exec_rekeyRequest, execRekeyRequest, if_pos hu]
    rfl
  · rw [exec_watchSet, execWatchSet, decide_eq_true hu, decide_eq_true hsub]
    rfl
  · have hdue := powerTick_due hnow hat
    refine ⟨fun hw => ⟨fun hp => ?_, fun hp => ?_⟩, fun hlow hw => ⟨fun hp => ?_, fun hp => ?_⟩, fun hw hlow => ?_⟩
    · rw [hdue, if_pos hw, State.lowerPermit, if_pos hp]
    · rw [hdue, if_pos hw, State.lowerPermit, if_neg (Nat.not_lt.mpr hp)]
    · rw [hdue, if_neg (Nat.not_lt.mpr hw), if_pos hlow, State.raisePermit, if_pos hp]
    · rw [hdue, if_neg (Nat.not_lt.mpr hw), if_pos hlow, State.raisePermit, if_neg (Nat.not_lt.mpr hp)]
    · rw [hdue, if_neg (Nat.not_lt.mpr hw), if_neg (Nat.not_lt.mpr hlow)]
  · refine ⟨_, rfl, rfl, rfl, fun n i hn hi => handle_unlisted hn hi (fun k h1 h2 => look_filter_none (fun x => ?_)),
      rfl, rfl, rfl, rfl⟩
    rw [Bool.or_eq_false_iff, decide_eq_false_iff_not, decide_eq_false_iff_not]
    omega

end Sys2Proof.Bringup
end

section
/-! PROOFS. Commands that run, in one turn or one unit at a time (R88, R91, R93, R188). -/

namespace Sys2Proof.EngineTurns

open Sys2Proof Sys2Proof.Machine Sys2Proof.Claim Sys2Proof.Laws

-- One proof is checked at a time: this keeps the check of the whole text within its memory.
set_option Elab.async false

/-! ## A command at the head of its queue (R88, R93, R96) -/

/-- The operation of an engine's head command, by die rows. -/
theorem engineOp_of_head {s : State} {e : Eng} {hid : Nat} {h : Hart} {c : Command} (hd : Head s e hid h c)
    (f : State → Nat → Hart → Command → Turn) :
    engineOp e c.t s f = turnOut hid e s (f s hid h (c.atIssue s h)) := by
  obtain ⟨⟨rfl, hl, ⟨cs, hq⟩, hf, hdone, hm, hw, hv⟩, hrows⟩ := hd
  exact engineOp_runs hl hq hf hdone hm hw hv hrows f

@[simp] theorem atIssue_t (c : Command) (s : State) (h : Hart) : (c.atIssue s h).t = c.t := by
  unfold Command.atIssue
  split <;> rfl

@[simp] theorem atIssue_done (c : Command) (s : State) (h : Hart) : (c.atIssue s h).done = c.done := by
  unfold Command.atIssue
  split <;> rfl

@[simp] theorem atIssue_rows (c : Command) (s : State) (h g : Hart) : (c.atIssue s h).rows g = c.rows g := by
  unfold Command.atIssue
  split <;> rfl

@[simp] theorem atIssue_stride (c : Command) (s : State) (h : Hart) : (c.atIssue s h).stride = c.stride := by
  unfold Command.atIssue
  split <;> rfl

@[simp] theorem atIssue_issued (c : Command) (s : State) (h : Hart) : (c.atIssue s h).issued = c.issued := by
  unfold Command.atIssue
  split <;> rfl

/-- A head command has not run. -/
theorem head_done {s : State} {e : Eng} {hid : Nat} {h : Hart} {c : Command} (hd : Head s e hid h c) :
    (c.atIssue s h).done = none := by
  rw [atIssue_done]
  exact hd.1.2.2.2.2.1

/-- A turn that ends a command has run it. -/
theorem ran_turn (s t : State) (hid : Nat) (e : Eng) (c : Command) (fl : Flags) (ts us : List Touched) :
    Ran t hid e c fl (turnOut hid e s (.ran t { c with touched := ts } { Completion.plain fl with touched := us })) :=
  ⟨ts, us, rfl⟩

/-- A turn that ends a command with flags alone has run it. -/
theorem ran_plain (s t : State) (hid : Nat) (e : Eng) (c : Command) (fl : Flags) :
    Ran t hid e c fl (turnOut hid e s (.ran t c (Completion.plain fl))) := ran_turn s t hid e c fl c.touched []

/-! ## Commands of many units (R91, R187, R188) -/

theorem checkAll_ok {α : Type} {f : α → Except Stop Unit} {xs : List α} (h : ∀ x ∈ xs, f x = .ok ()) :
    checkAll f xs = .ok () := by
  induction xs with
  | nil => rfl
  | cons x xs ih =>
    simp only [checkAll, h x (List.mem_cons_self ..)]
    exact ih (fun y hy => h y (List.mem_cons_of_mem _ hy))

theorem checkRowsOf_ok {c : Command} {rows : List Nat} {f : Nat → Except Stop Unit} (h : ∀ j ∈ rows, f j = .ok ()) :
    checkRowsOf c rows f = .ok c := by
  rw [checkRowsOf, checkAll_ok h, Except.map]

/-- A command that has issued, or passes its checks, goes on. -/
theorem checked_of_passes {h : Hart} {c c1 : Command} {first check : Except Stop Command} {ok : Nat → Prop}
    (hp : Passes h c c1 first ok) (hc : first = .ok c1 → (∀ j ∈ c.rows h, ok j) → check = .ok c1) :
    (if c.issued then .ok c else check) = .ok c1 := by
  obtain ⟨hi, rfl⟩ | ⟨hi, hf, hok⟩ := hp
  · simp only [hi, if_true]
  · simp only [hi, Bool.false_eq_true, if_false]
    exact hc hf hok

/-- The rows before the first with a unit left have none, and that row's unit is the next. -/
theorem nextUnit_of_find {s u : State} {c d : Command} {count : Nat → Nat} {serial : Bool}
    {unit : State → Command → Nat → Nat → UnitRes} {j : Nat} {rows : List Nat}
    (hj : rows.find? (fun i => decide (c.doneOf i < count i)) = some j) (hu : unit s c j (c.doneOf j) = .ok u d) :
    nextUnit s c count serial unit rows = some (j, .ok u d) := by
  induction rows with
  | nil => cases hj
  | cons i is ih =>
    rw [nextUnit]
    rw [List.find?_cons] at hj
    by_cases hi : c.doneOf i < count i
    · simp only [hi, decide_true, Option.some.injEq] at hj
      subst hj
      rw [if_neg (Nat.not_le.mpr hi), hu]
    · simp only [hi, decide_false] at hj
      rw [if_pos (Nat.not_lt.mp hi)]
      exact ih hj

/-- The first row with a unit left takes its next one, and the command has run where none is left. -/
theorem unitRan_of_unit {s0 s u : State} {hid : Nat} {e : Eng} {h : Hart} {c c1 d : Command} {rows : List Nat}
    {count : Command → Nat → Nat} {check : Except Stop Command} {touch : Command → Nat → Nat → List Dword} {serial :
      Bool}
    {unit : State → Command → Nat → Nat → UnitRes} {j : Nat} {n : Nat → Nat}
    (hcheck : (if c.issued then .ok c else check) = .ok c1) (hrows : c1.rows h = rows) (hcount : count c1 = n)
    (hj : unitOf h c1 n j) (hu : unit s c1 j (c1.doneOf j) = .ok u d) (hdone : d.done = none) (hdrows : d.rows h = rows)
    (hplace : d.rowDone = c1.rowDone) (hn : ∀ ds ts, count { d with rowDone := ds, touched := ts } = n) :
    UnitRan u hid e h d j n (turnOut hid e s0 (unitTurn s h c rows count check touch serial unit)) := by
  subst hrows hcount
  have hleft : (c1.rows h).any (fun i => decide (c1.doneOf i < count c1 i)) = true := by
    refine List.any_eq_true.mpr ⟨j, List.mem_of_find?_eq_some hj, ?_⟩
    have := List.find?_some hj
    exact this
  have hsame : d.doneOf j = c1.doneOf j := by simp only [Command.doneOf, hplace]
  rw [unitTurn, hcheck]
  simp only [hleft, Bool.not_true, Bool.false_eq_true, if_false, nextUnit_of_find hj hu, Command.setDone, hn]
  simp only [UnitRan, Command.setDone, hsame, hdrows]
  set ts := (touch c1 j (c1.doneOf j)).foldl (fun ts a => touchRow ts j a) d.touched
  set ds := h.allRows.map (fun i => if i = j then c1.doneOf j + 1 else d.doneOf i)
  refine ⟨ts, traceRows h { d with rowDone := ds, touched := ts }, ?_⟩
  cases hl : (c1.rows h).any (fun i => decide (Command.doneOf { d with rowDone := ds, touched := ts } i < count c1 i))
    with
  | true =>
    simp only [turnOut, goes, hdone, if_true]
    rw [if_pos (by exact hl)]
  | false =>
    simp only [turnOut, goes, Bool.false_eq_true, if_false]
    rw [if_neg (by exact Bool.eq_false_iff.mp hl)]

/-- A command with no unit left has run. -/
theorem ran_of_noUnits {s : State} {hid : Nat} {e : Eng} {h : Hart} {c c1 : Command} {rows : List Nat}
    {count : Command → Nat → Nat} {check : Except Stop Command} {touch : Command → Nat → Nat → List Dword} {serial :
      Bool}
    {unit : State → Command → Nat → Nat → UnitRes} (hcheck : (if c.issued then .ok c else check) = .ok c1)
    (hnone : ∀ j ∈ rows, count c1 j ≤ c1.doneOf j) :
    Ran s hid e c1 c1.flags (turnOut hid e s (unitTurn s h c rows count check touch serial unit)) := by
  have hleft : rows.any (fun i => decide (c1.doneOf i < count c1 i)) = false := by
    simpa using hnone
  rw [unitTurn, hcheck]
  simp only [hleft, Bool.not_false, if_true]
  exact ran_turn s s hid e c1 c1.flags c1.touched (traceRows h c1)

end Sys2Proof.EngineTurns
end

section
/-! PROOFS. What keeps the step taken and the pair slots (R17, R222). -/

namespace Sys2Proof.ControlKept

open Sys2Proof Sys2Proof.Machine Sys2Proof.Claim Sys2Proof.Laws

-- One proof is checked at a time: this keeps the check of the whole text within its memory.
set_option Elab.async false

/-- Two states take the same step and have the same pair slots. -/
def SameControl (s t : State) : Prop := (t.focus, t.pairs) = (s.focus, s.pairs)

theorem SameControl.focus {s t : State} (h : SameControl s t) : t.focus = s.focus := (Prod.ext_iff.mp h).1

theorem SameControl.pairs {s t : State} (h : SameControl s t) : t.pairs = s.pairs := (Prod.ext_iff.mp h).2

theorem SameControl.trans {s t u : State} (h : SameControl s t) (h' : SameControl t u) : SameControl s u :=
    Eq.trans h' h

theorem SameControl.foldl {α : Type} {f : State → α → State} (hf : ∀ s x, SameControl s (f s x)) (xs : List α) (s :
    State) :
    SameControl s (xs.foldl f s) := by
  induction xs generalizing s with
  | nil => rfl
  | cons x xs ih => exact (hf s x).trans (ih _)

/-! ## Memory and caches -/

theorem sameControl_noteWrite (s : State) (k : Nat) : SameControl s (s.noteWrite k) := by
  unfold State.noteWrite
  split <;> rfl

theorem sameControl_writeSector (s : State) (l : Loc) (x : Sector) : SameControl s (s.writeSector l x) :=
  sameControl_noteWrite ..

theorem sameControl_writeRaw (s : State) (l : Loc) (n x : Nat) : SameControl s (s.writeRaw l n x) := by
  unfold State.writeRaw
  split_ifs
  · exact sameControl_writeSector ..
  · exact sameControl_noteWrite ..
  · exact sameControl_writeSector ..

theorem sameControl_sysWrite (s : State) (dpa n x : Nat) : SameControl s (s.sysWrite dpa n x) := by
  unfold State.sysWrite
  split
  · exact sameControl_writeRaw ..
  · rfl

theorem sameControl_sysWriteSector (s : State) (dpa : Nat) (x : Sector) : SameControl s (s.sysWriteSector dpa x) := by
  unfold State.sysWriteSector
  split
  · exact sameControl_writeSector ..
  · rfl

theorem sameControl_noteStore (s : State) (dpa : Nat) (l : Loc) : SameControl s (s.noteStore dpa l) := by
  unfold State.noteStore
  dsimp only
  split_ifs <;> rfl

theorem sameControl_storeRaw (s : State) (dpa : Nat) (l : Loc) (n x : Nat) : SameControl s (s.storeRaw dpa l n x) :=
  (sameControl_writeRaw s l n x).trans (sameControl_noteStore ..)

theorem sameControl_dropL1 (s : State) (cores : List Nat) (dpa : Nat) : SameControl s (s.dropL1 cores dpa) :=
  SameControl.foldl (fun s c => by split <;> rfl) cores s

theorem sameControl_writeFar (s : State) (cores : List Nat) (l : Loc) : SameControl s (s.writeFar cores l) := by
  unfold State.writeFar State.dropL2
  split
  · split
    · rfl
    · exact SameControl.foldl (by exact fun s c => rfl) cores s
  · rfl

theorem sameControl_countFound (s : State) (k : Nat) (u : Bool) : SameControl s (s.countFound k u) := by
  unfold State.countFound
  split <;> rfl

/-! ## Poison, recall and the page-service record (R361, R374) -/

theorem sameControl_psWriteOne (s : State) : SameControl s s.psWriteOne := by
  unfold State.psWriteOne
  split
  · next n r rest _ _ =>
    have hput : ∀ a n x, SameControl s (State.sysWrite { s with psWait := rest, psSeq := s.psSeq + 1 } a n x) :=
      fun a n x => sameControl_sysWrite { s with psWait := rest, psSeq := s.psSeq + 1 } a n x
    dsimp only
    split
    · split
      · exact hput _ _ _
      · exact hput _ _ _
    · rfl
  · rfl

theorem sameControl_psFlush (k : Nat) (s : State) : SameControl s (psFlush k s) := by
  induction k generalizing s with
  | zero => rfl
  | succ k ih => exact (sameControl_psWriteOne s).trans (ih _)

theorem sameControl_psRecord (s : State) (r : PsRecord) : SameControl s (s.psRecord r) :=
  sameControl_psFlush (s.psWait.length + 1) { s with psWait := s.psWait ++ [r] }

theorem sameControl_poisonSector (s : State) (k page : Nat) : SameControl s (s.poisonSector k page) :=
  sameControl_psRecord { s with
    sides := putD s.sides (k / 256) 0 ((s.side k).extractLsb' 24 128 ++ mkTag clsPoison
      (tagFmt ((s.side k).extractLsb' 0 24))
      (tagCw ((s.side k).extractLsb' 0 24)) (tagSexp ((s.side k).extractLsb' 0 24)))
    errors := del s.errors (k / 256) } _

theorem sameControl_correct (s : State) (k : Nat) : SameControl s (s.correct k) := by
  unfold State.correct
  dsimp only
  split
  · rfl
  · exact sameControl_writeSector ..

theorem sameControl_settle (s : State) (l : Loc) (dpa : Nat) : SameControl s (s.settle l dpa) := by
  unfold State.settle
  split
  · rfl
  split
  · exact (sameControl_countFound ..).trans (sameControl_poisonSector ..)
  · exact (sameControl_countFound ..).trans (sameControl_correct ..)
  · exact sameControl_correct ..

theorem sameControl_recall (s : State) (dpa : Nat) : SameControl s (s.recall dpa) := by
  unfold State.recall
  split
  · rfl
  refine SameControl.foldl (fun s a => ?_) (lineSectors dpa) { s with dirty := del s.dirty (dpa / 1024) }
  split
  · split
    · exact sameControl_settle ..
    · rfl
  · rfl

/-! ## A machine check (R262, R266) -/

theorem sameControl_suspend (s : State) (hid : Nat) (h : Hart) : SameControl s (s.suspend hid h) := by
  unfold State.suspend State.ctxMsi
  dsimp only
  split
  · exact sameControl_psRecord ..
  · exact sameControl_psRecord ..

theorem sameControl_writeRecord (s : State) (h : Hart) (x : Loc × Nat) (r : TrapRecord) :
    SameControl s (s.writeRecord h x r) :=
  (sameControl_dropL1 ..).trans
    ((sameControl_recall ..).trans ((sameControl_writeFar ..).trans (sameControl_storeRaw ..)))

theorem sameControl_inFrame (s : State) (h : Hart) (r : TrapRecord) (hid : Nat) (g : Hart) :
    SameControl s ((s.writeFrameRecord h r).suspend hid g) :=
  (sameControl_sysWrite ..).trans (sameControl_suspend ..)

theorem sameControl_takeTrap (s : State) (hid : Nat) (x : TrapInfo) : SameControl s (s.takeTrap hid x) := by
  unfold State.takeTrap
  split
  · rfl
  dsimp only
  split
  · exact sameControl_inFrame ..
  split
  · split_ifs
    · exact sameControl_writeRecord ..
    · exact (sameControl_writeRecord ..).trans (sameControl_suspend ..)
    · exact sameControl_inFrame ..
  · exact sameControl_inFrame ..

theorem sameControl_mcTrap (s : State) (hid : Nat) : SameControl s (s.mcTrap hid) := by
  unfold State.mcTrap
  split
  · rfl
  split
  · exact sameControl_takeTrap ..
  · rfl

theorem sameControl_mcContext (s : State) (ctx : Nat) : SameControl s (s.mcContext ctx) :=
  SameControl.foldl (fun s _ => sameControl_mcTrap s _) _ s

/-! ## A tile taken into use (R316) -/

theorem sameControl_setMarks (s : State) (ctx core : Nat) (f : Map Bool → Map Bool) :
    SameControl s (s.setMarks ctx core f) := by
  unfold State.setMarks
  dsimp only
  split
  · rfl
  · exact SameControl.trans (t := s.modCtx ctx (fun c => { c with spilled := f c.spilled })) rfl
      (sameControl_sysWrite ..)

theorem sameControl_spillTile (s : State) (core t : Nat) : SameControl s (s.spillTile core t) := by
  unfold State.spillTile
  split
  · rfl
  dsimp only
  split
  · rfl
  have hfree (u : State) : SameControl u ((u.zeroTile core t).modCore core
      (fun c => { c with tileOwner := del c.tileOwner t })) := rfl
  split_ifs
  · exact (sameControl_setMarks ..).trans (hfree _)
  · exact (sameControl_mcContext ..).trans (hfree _)
  · refine SameControl.trans ?_ (hfree _)
    refine SameControl.trans ?_ (sameControl_setMarks ..)
    exact SameControl.foldl (fun s k => sameControl_sysWriteSector ..) _ s

theorem sameControl_setTile (s : State) (core t : Nat) (tag : BitVec 24) (rows : List (List Nat)) :
    SameControl s (s.setTile core t tag rows) := rfl

theorem sameControl_fillTile (s : State) (ctx core t : Nat) : SameControl s (s.fillTile ctx core t) := by
  unfold State.fillTile
  split
  · rfl
  split
  · rfl
  dsimp only
  split_ifs
  · exact sameControl_setMarks ..
  · exact (sameControl_setMarks ..).trans (sameControl_mcContext ..)
  · generalize List.map _ (List.range 256) = rows
    exact (sameControl_setMarks ..).trans (sameControl_setTile ..)

theorem sameControl_useTile (s : State) (h : Hart) (core t : Nat) : SameControl s (s.useTile h core t) := by
  have hspill : SameControl s (match look (s.core core).tileOwner t with
      | some (ctx, _) => if ctx = h.ctx then s else s.spillTile core t
      | none => s) := by
    split
    · split
      · rfl
      · exact sameControl_spillTile ..
    · rfl
  have hfill (u : State) : SameControl u (match look (u.core core).tileOwner t with
      | some _ => u
      | none => u.fillTile h.ctx core t) := by
    split
    · rfl
    · exact sameControl_fillTile ..
  exact hspill.trans (hfill _)

theorem sameControl_useTiles (s : State) (h : Hart) (rows tiles : List Nat) : SameControl s (s.useTiles h rows tiles) :=
  SameControl.foldl (fun s j => SameControl.foldl (fun s t => sameControl_useTile s h (h.coreOf j) t) tiles s) rows s

end Sys2Proof.ControlKept
end

section
/-! PROOFS. Completion, faults of formation and machine checks (R88, R93 to R96, R265, R266). -/

namespace Sys2Proof.EngineEvents

open Sys2Proof Sys2Proof.Machine Sys2Proof.Claim Sys2Proof.Laws

-- One proof is checked at a time: this keeps the check of the whole text within its memory.
set_option Elab.async false

/-! ## The head command (R88, R93, R96) -/

theorem queue_of_head {h : Hart} {e : Eng} {c : Command} (hc : (h.queue e).head? = some c) :
    ∃ cs, h.queue e = c :: cs := List.head?_eq_some_iff.mp hc

/-- The head command that has run leaves its queue. -/
theorem leave_head {h : Hart} {e : Eng} {c : Command} {d : Completion} (hc : (h.queue e).head? = some c)
    (hd : c.done = some d) :
    h.leave e c.order =
      { h.setQueue e ((h.queue e).filter (fun x => x.order != c.order)) with timed := h.timed ++ [(e, c)] } := by
  obtain ⟨cs, hq⟩ := queue_of_head hc
  have hfind : (h.queue e).find? (fun x => x.order == c.order && x.done.isSome) = some c := by
    rw [hq, List.find?_cons, beq_self_eq_true, hd]
    rfl
  rw [Hart.leave, hfind]

/-- What the completion of the head command makes of the package, once its record is written (R218, R230, R266). -/
def headDone (s : State) (hid : Nat) (h : Hart) (e : Eng) (c : Command) (d : Completion) : State :=
  let t := d.pops.foldl (fun s p => s.modCore p.1 (fun k => k.setRing p.2 (k.ring p.2).pop)) (s.writeTiles h c)
  let u := (if e = .mx then t.touchLeases h c else t).traceAll h e c d
  u.modHart hid (fun g => g.completeHead u.now e c d)

/-- COMMAND_COMPLETION of the head command, which has nothing in flight and may complete. -/
theorem commandCompletion_head {s : State} {h : Hart} {c : Command} {d : Completion}
    (hl : look s.harts s.focus.hart = some h) (hlate : h.lateDone s.focus.eng = none)
    (hc : (h.queue s.focus.eng).head? = some c) (hd : c.done = some d) (hf : h.inFlight c = false)
    (hm : h.engineMay c = true) (hmc : h.mayComplete s.focus.eng c = true)
    (ht : ∀ r ∈ c.started, s.tileHeld h.ctx (h.coreOf r.row) c.t.d.toNat = false) :
    (d.tape = none → exec .commandCompletion s = goes (headDone s s.focus.hart h s.focus.eng c d)) ∧
    (∀ r s', d.tape = some r → s.writeTape s.focus.hart h c r = .ok s' →
      exec .commandCompletion s = goes (headDone s' s.focus.hart h s.focus.eng c d)) := by
  obtain ⟨cs, hq⟩ := queue_of_head hc
  have htiles : (c.started.any fun r => s.tileHeld h.ctx (h.coreOf r.row) c.t.d.toNat) = false := by
    simpa only [List.any_eq_false, Bool.not_eq_true] using ht
  rw [exec_commandCompletion, execCommandCompletion, withHart_some hl]
  simp only [hlate, hq, hd, hf, hm, hmc, htiles, Bool.not_true, Bool.or_self, Bool.false_eq_true, if_false]
  refine ⟨fun hn => ?_, fun r s' hr hw => ?_⟩
  · simp only [hn]
    rfl
  · simp only [hr, hw]
    rfl

/-! ## Traps that no instruction raises by itself (R95, R265) -/

theorem engineDeadlock_charged {s : State} {h : Hart} (hl : look s.harts s.focus.hart = some h) (hs :
    s.stopped h = false)
    (hm : s.mayTrap s.focus.hart h = true) (hi : s.idleFlight s.focus.hart h = true) (ht :
      2 ^ 20 ≤ s.now - h.lastProgress) :
    (∀ e c, h.oldestHead = some (e, c) → exec .engineDeadlock s =
      goes ((s.modHart s.focus.hart Hart.unissue).takeTrap s.focus.hart (engineInfo e c .engineDeadlock 0 none 0
        false))) ∧
    (h.oldestHead = none → exec .engineDeadlock s =
      goes ((s.modHart s.focus.hart Hart.unissue).takeTrap s.focus.hart (scalarInfo h 0 .engineDeadlock 0 none))) := by
  rw [exec_engineDeadlock, execEngineDeadlock, withHart_some hl]
  simp only [hs, hm, hi, decide_eq_false (Nat.not_lt.mpr ht), Bool.not_true, Bool.or_self, Bool.false_eq_true, if_false]
  refine ⟨fun e c h1 => ?_, fun h1 => ?_⟩ <;> simp only [h1]

/-- Settles O40. -/
theorem engineEventResults : Obligations.EngineEventResults := by
  unfold Obligations.EngineEventResults
  intro s s' hid h c d k hh hl e head retires completes
  subst hh
  refine ⟨fun hlate hd => ?_, fun hlate hc hd => ⟨fun hf => ?_, fun hf hm hmc ht => ?_⟩, fun hc hm hk hd ht => ?_,
    fun hs hm hi ht => engineDeadlock_charged hl hs hm hi ht, fun hs hm => ?_, fun hno => ?_⟩
  · rw [exec_commandCompletion, execCommandCompletion, withHart_some hl]
    simp only [show h.lateDone s.focus.eng = some c from hlate, completeLate, hd]
    rfl
  · obtain ⟨cs, hq⟩ := queue_of_head hc
    rw [exec_commandCompletion, execCommandCompletion, withHart_some hl]
    simp only [show h.lateDone s.focus.eng = none from hlate, show h.queue s.focus.eng = c :: cs from hq, hd, hf,
      if_true]
    rw [leave_head hc hd]
  · obtain ⟨hnone, hsome⟩ := commandCompletion_head hl hlate hc hd hf hm hmc ht
    exact ⟨hnone, fun r hr hw => hsome r s' hr hw⟩
  · obtain ⟨cs, hq⟩ := queue_of_head hc
    have hlast : h.timed.any (fun x => x.1 == s.focus.eng) = false := by
      simpa only [List.any_eq_false, beq_iff_eq] using ht
    rw [exec_formationFaultRaise, execFormationFaultRaise, withHart_some hl]
    simp only [show h.queue s.focus.eng = c :: cs from hq, hk, hm, hd, hlast, Option.isNone_none, Bool.not_false,
      Bool.and_self, if_true]
    rfl
  · rw [exec_mcUncorrectable, execMcUncorrectable, withHart_some hl, hs, hm]
    rfl
  · have hnot : (!s.stopped h && s.mayTrap s.focus.hart h) = false := by
      rcases hno with hno | hno <;> rw [hno]
      · rfl
      · rw [Bool.and_false]
    rw [exec_mcUncorrectable, execMcUncorrectable, withHart_some hl, hnot]
    rfl

end Sys2Proof.EngineEvents
end

section
/-! PROOFS. Accesses in flight, spills and the lease (R97, R131, R212, R214, R269). -/

namespace Sys2Proof.AccessEvents

open Sys2Proof Sys2Proof.Machine Sys2Proof.Claim Sys2Proof.Laws

-- One proof is checked at a time: this keeps the check of the whole text within its memory.
set_option Elab.async false

/-! ## The request that is granted (R214) -/

/-- A request comes no later than another by the age of the two, and on a tie by their slots. -/
def NoYounger (x y : Nat × Lease) : Prop := x.2.reqAt < y.2.reqAt ∨ (x.2.reqAt = y.2.reqAt ∧ x.1 ≤ y.1)

/-- A request comes no later than another by rank, and then by age. -/
def NoLater (s : State) (x y : Nat × Lease) : Prop :=
  s.leaseRank x < s.leaseRank y ∨ (s.leaseRank x = s.leaseRank y ∧ NoYounger x y)

theorem noYounger_of_not_older {x y : Nat × Lease} (h : olderRequest y x = false) : NoYounger x y := by
  simp only [olderRequest, Bool.or_eq_false_iff, Bool.and_eq_false_iff, decide_eq_false_iff_not] at h
  rw [NoYounger]
  omega

theorem noYounger_of_older {x y : Nat × Lease} (h : olderRequest x y = true) : NoYounger x y := by
  simp only [olderRequest, Bool.or_eq_true, Bool.and_eq_true, decide_eq_true_eq] at h
  rw [NoYounger]
  omega

theorem noYounger_trans {x y z : Nat × Lease} (h : NoYounger x y) (g : NoYounger y z) : NoYounger x z := by
  rw [NoYounger] at *
  omega

theorem noLater_of_not_before {s : State} {x y : Nat × Lease} (h : s.requestBefore y x = false) : NoLater s x y := by
  simp only [State.requestBefore, Bool.or_eq_false_iff, Bool.and_eq_false_iff, decide_eq_false_iff_not] at h
  obtain ⟨h1, h2⟩ := h
  rcases h2 with h2 | h2
  · exact .inl (by omega)
  · rcases Nat.lt_or_ge (s.leaseRank x) (s.leaseRank y) with hlt | hge
    · exact .inl hlt
    · exact .inr ⟨by omega, noYounger_of_not_older h2⟩

theorem noLater_of_before {s : State} {x y : Nat × Lease} (h : s.requestBefore x y = true) : NoLater s x y := by
  simp only [State.requestBefore, Bool.or_eq_true, Bool.and_eq_true, decide_eq_true_eq] at h
  exact h.imp id (And.imp id noYounger_of_older)

theorem noLater_trans {s : State} {x y z : Nat × Lease} (h : NoLater s x y) (g : NoLater s y z) : NoLater s x z := by
  rcases h with h | ⟨h, h'⟩ <;> rcases g with g | ⟨g, g'⟩
  · exact .inl (h.trans g)
  · exact .inl (g ▸ h)
  · exact .inl (h ▸ g)
  · exact .inr ⟨h.trans g, noYounger_trans h' g'⟩

theorem firstRequest_isSome (before : Nat × Lease → Nat × Lease → Bool) {rs : List (Nat × Lease)} (h : rs ≠ []) :
    (firstRequest before rs).isSome = true := by
  cases rs with
  | nil => exact absurd rfl h
  | cons x xs =>
    rw [firstRequest]
    split
    · rfl
    · split <;> rfl

/-- The first request by an order is one of them, and none comes before it. -/
theorem firstRequest_first {before : Nat × Lease → Nat × Lease → Bool} {le : Nat × Lease → Nat × Lease → Prop}
    (hn : ∀ {x y}, before y x = false → le x y) (hb : ∀ {x y}, before x y = true → le x y)
    (ht : ∀ {x y z}, le x y → le y z → le x z) {rs : List (Nat × Lease)} {m : Nat × Lease}
    (h : firstRequest before rs = some m) : m ∈ rs ∧ ∀ x ∈ rs, le m x := by
  have hrefl (x : Nat × Lease) : le x x := by
    cases hx : before x x
    · exact hn hx
    · exact hb hx
  induction rs generalizing m with
  | nil => cases h
  | cons x xs ih =>
    rw [firstRequest] at h
    split at h
    · next hnone =>
      cases h
      have hxs : xs = [] := by
        by_contra hne
        have := firstRequest_isSome before hne
        rw [hnone] at this
        cases this
      subst hxs
      exact ⟨List.mem_singleton.mpr rfl, fun z hz => List.mem_singleton.mp hz ▸ hrefl x⟩
    · next y hy =>
      obtain ⟨hmem, hle⟩ := ih hy
      split at h
      · next hyx =>
        cases h
        exact ⟨List.mem_cons_of_mem _ hmem, List.forall_mem_cons.mpr ⟨hb hyx, hle⟩⟩
      · next hyx =>
        cases h
        have hxy := hn (Bool.not_eq_true _ ▸ hyx)
        exact ⟨List.mem_cons_self, List.forall_mem_cons.mpr ⟨hrefl x, fun z hz => ht hxy (hle z hz)⟩⟩

theorem leaseWinner_isSome {s : State} {core : Nat} (h : (s.core core).requests ≠ []) :
    (s.leaseWinner core).isSome = true := by
  rw [State.leaseWinner]
  split
  · rfl
  · exact firstRequest_isSome _ h

/-- The request that wins where some were passed over three times is one of those, none of which is older. -/
theorem leaseWinner_bypassed {s : State} {core : Nat} {w : Nat × Lease} (hw : s.leaseWinner core = some w)
    (hb : ∃ x ∈ (s.core core).requests, 3 ≤ x.2.bypass) :
    w ∈ (s.core core).requests ∧ 3 ≤ w.2.bypass ∧ ∀ x ∈ (s.core core).requests, 3 ≤ x.2.bypass → NoYounger w x := by
  obtain ⟨x, hx, hx3⟩ := hb
  have hne : (s.core core).requests.filter (fun x => decide (3 ≤ x.2.bypass)) ≠ [] :=
    List.ne_nil_of_mem (List.mem_filter.mpr ⟨hx, decide_eq_true hx3⟩)
  obtain ⟨y, hy⟩ := Option.isSome_iff_exists.mp (firstRequest_isSome olderRequest hne)
  have hyw : y = w := by
    simp only [State.leaseWinner, hy, Option.some.injEq] at hw
    exact hw
  subst hyw
  obtain ⟨hmem, hle⟩ := firstRequest_first (before := olderRequest) noYounger_of_not_older noYounger_of_older
    noYounger_trans hy
  rw [List.mem_filter, decide_eq_true_eq] at hmem
  exact ⟨hmem.1, hmem.2, fun z hz hz3 => hle z (List.mem_filter.mpr ⟨hz, decide_eq_true hz3⟩)⟩

/-- The request that wins where none was passed over three times comes first by rank and then by age. -/
theorem leaseWinner_ranked {s : State} {core : Nat} {w : Nat × Lease} (hw : s.leaseWinner core = some w)
    (hb : ∀ x ∈ (s.core core).requests, x.2.bypass < 3) :
    w ∈ (s.core core).requests ∧ ∀ x ∈ (s.core core).requests, NoLater s w x := by
  have hnil : (s.core core).requests.filter (fun x => decide (3 ≤ x.2.bypass)) = [] := by
    rw [List.filter_eq_nil_iff]
    intro x hx
    rw [decide_eq_true_eq]
    exact Nat.not_le.mpr (hb x hx)
  have hfirst : firstRequest s.requestBefore (s.core core).requests = some w := by
    simpa only [State.leaseWinner, hnil, firstRequest] using hw
  exact firstRequest_first (before := s.requestBefore) noLater_of_not_before noLater_of_before noLater_trans hfirst

theorem leaseWinner_mem {s : State} {core : Nat} {w : Nat × Lease} (hw : s.leaseWinner core = some w) :
    w ∈ (s.core core).requests := by
  by_cases hb : ∃ x ∈ (s.core core).requests, 3 ≤ x.2.bypass
  · exact (leaseWinner_bypassed hw hb).1
  · exact (leaseWinner_ranked hw (fun x hx => Nat.lt_of_not_le (fun h3 => hb ⟨x, hx, h3⟩))).1

theorem leaseRank_eq (s : State) (x : Nat × Lease) :
    s.leaseRank x = (look s.harts x.2.hart).elim 4 (fun h => 3 - h.prio.toNat) := by
  rw [State.leaseRank]
  cases look s.harts x.2.hart <;> rfl

theorem leaseGrant_wins {s : State} {slot : Nat} {l : Lease} (hs : s.coreStopped s.focus.unit = false)
    (hn : ∀ x ∈ (s.core s.focus.unit).leases, x.2.state ≠ .held) (hw : s.leaseWinner s.focus.unit = some (slot, l)) :
    exec .leaseGrant s = goes (s.modCore s.focus.unit (fun c =>
      (c.requests.foldl (fun (c : Core) x => c.setLease x.1 { x.2 with bypass := x.2.bypass + 1 }) c).setLease slot
        { l with state := .held, grantAt := s.cycle s.focus.unit, usedAt := s.cycle s.focus.unit, bypass := 0 })) := by
  have hnone : (s.core s.focus.unit).leases.any (fun x => x.2.state == .held) = false := by
    simpa only [List.any_eq_false, beq_iff_eq] using hn
  rw [exec_leaseGrant, execLeaseGrant]
  simp only [hs, hnone, hw, Bool.or_self, Bool.false_eq_true, if_false]

/-! ## Accesses in flight (R97 to R99, R269, R285) -/

/-- ACCESS_PERFORMED of a store that nothing holds back. -/
theorem accessPerformed_goes {s : State} {h : Hart} {x : StoreEntry} (hl : look s.harts s.focus.hart = some h)
    (hx : h.stores[s.focus.unit]? = some x) (hw : h.storeWaits x = false) (hu : s.unreachable h x = false) :
    (∀ s' fl, s.madeStore h x = .ok (s', fl) →
      exec .accessPerformed s = goes (s'.modHart s.focus.hart (fun g => g.stored x fl s.now))) ∧
    (∀ c row addr, s.madeStore h x = .error (.cause c row addr) →
      exec .accessPerformed s = goes (s.refuseStore s.focus.hart h x c)) := by
  rw [exec_accessPerformed, execAccessPerformed]
  simp only [hl, hx, hw, hu, Bool.or_self, Bool.false_eq_true, if_false]
  refine ⟨fun s' fl hm => ?_, fun c row addr hm => ?_⟩ <;> simp only [hm]

/-! ## The Spatula (R232, R236) -/

/-- SPATULA_RECORD of a hart at work whose core and lease are ready, with its G map unchanged in memory. -/
theorem spatulaRecord_applies {s s' t u : State} {h : Hart} {va : Dword} {map : List (BitVec 256)} {r : Recorded}
    {fl : Flags} {y : Nat} (hl : look s.harts s.focus.hart = some h) (hwait : h.wait = .reverse va map)
    (hst : h.state = .running ∨ h.state = .sleeping) (hstop : s.stopped h = false) (hexp : s.expired h = false) :
    let j := (h.active (s.prefixesAt h)).headD 0
    let n := h.csr.revNext.toNat
    (s.leaseOf h (h.coreOf j)).state = .held → s.arrayBusy s.focus.hart (h.coreOf j) = false →
    s.rawStruct h j 32 32 32 va = .ok (u, y) → gMapOf y = map → s.record h j n = .ok (s', r) →
    applyRecord s' s.focus.hart h j map none r = .ok (t, fl) →
    exec .spatulaRecord s =
      if n ≤ h.csr.recMark.toNat then
        match look (t.passRecord s.focus.hart h j n fl).harts s.focus.hart with
        | some g => goes ((t.passRecord s.focus.hart h j n fl).reverseEnd s.focus.hart g (s.prefixesAt h) r.va)
        | none => goes (t.passRecord s.focus.hart h j n fl)
      else goes (t.passRecord s.focus.hart h j n fl) := by
  intro j n hlease hbusy hraw hmap hrec happ
  have hgo : ((decide (h.state ≠ .running) && decide (h.state ≠ .sleeping)) || s.stopped h || s.expired h) = false := by
    rw [hstop, hexp]
    rcases hst with hst | hst <;> rw [hst] <;> rfl
  rw [exec_spatulaRecord, execSpatulaRecord, withHart_some hl]
  simp only [j, n] at hlease hbusy hraw hrec happ ⊢
  simp only [hwait, hgo, hlease, hbusy, hraw, hmap, hrec, happ, Bool.false_eq_true, if_false, if_true] <;> rfl

/-- Settles O41. -/
theorem accessEventResults : Obligations.AccessEventResults := by
  unfold Obligations.AccessEventResults
  refine ⟨fun s s' hid h hh hl => ?_, fun s slot l => ?_⟩
  · subst hh
    refine ⟨?_, ?_, fun x hx hw hu => ⟨fun fl hm => ?_, fun c row addr e k hm hc ht htr => ?_⟩,
      fun a ha hp => ⟨fun hj => ?_, fun id j hj hjob => ?_⟩,
      fun va map r t fl hwait hst hstop hexp => ?_, fun hd ht => ?_⟩
    · intro part e x hfind hw harr g
      simp only [part] at hfind
      simp only [exec_loadDataArrival, execLoadDataArrival, hl, hfind, hw, harr, Bool.false_eq_true, if_false]
      rfl
    · simp only [exec_loadLanding, execLoadLanding, hl]
    · rw [(accessPerformed_goes hl hx hw hu).1 s' fl hm]
      rfl
    · rw [(accessPerformed_goes hl hx hw hu).2 c row addr hm, State.refuseStore]
      simp only [hc, ht, htr, List.isEmpty_nil, Bool.and_self, if_true]
    · simp only [exec_pageAbsentReply, execPageAbsentReply, ha, hp, hj, withHart_some hl, Bool.not_true, Bool.false_or,
        ne_eq, not_true_eq_false, decide_false, Bool.false_eq_true, if_false]
    · simp only [exec_pageAbsentReply, execPageAbsentReply, ha, hp, hj, hjob, Bool.not_true, Bool.false_or, ne_eq,
        not_true_eq_false, decide_false, Bool.false_eq_true, if_false]
    · intro j n u hlease hbusy ⟨v, y, hraw, hmap⟩ hrec happ
      have hs := spatulaRecord_applies hl hwait hst hstop hexp hlease hbusy hraw hmap hrec happ
      refine ⟨fun hn => ?_, fun hn g hg => ?_⟩
      · rw [hs, if_neg (Nat.not_le.mpr hn)]
      · rw [hs, if_pos hn, hg]
    · simp only [exec_tileSpill, execTileSpill, hd, ht, Bool.not_false, Bool.and_self, if_true]
  · intro core now rs rank older
    refine ⟨fun hs hn => ⟨leaseWinner_isSome, fun hw => ⟨leaseWinner_mem hw, fun hb => (leaseWinner_bypassed hw hb).2,
      fun hb x hx => ?_, leaseGrant_wins hs hn hw⟩⟩,
      fun hid h hl => ⟨fun ht => ?_, fun hu ha => ?_⟩⟩
    · have hle := (leaseWinner_ranked hw hb).2 x hx
      rw [NoLater, leaseRank_eq, leaseRank_eq] at hle
      exact hle
    · simp only [exec_leaseTimeout, execLeaseTimeout, show s.leaseHart s.focus.unit s.focus.sub = some (hid, h,
        l) from hl,
        show l.grantAt + 16384 ≤ s.cycle s.focus.unit from ht, if_true]
      rfl
    · simp only [exec_leaseIdleExpiry, execLeaseIdleExpiry, show s.leaseHart s.focus.unit s.focus.sub = some (hid, h,
        l) from hl,
        show l.usedAt + 512 ≤ s.cycle s.focus.unit from hu, show h.onArray s.focus.unit = false from ha, decide_true,
        Bool.not_false, Bool.and_self, if_true]
      rfl

end Sys2Proof.AccessEvents
end

section
/-! PROOFS. The events of jobs (R252, R260, R298 to R301). -/

namespace Sys2Proof.JobEvents

open Sys2Proof Sys2Proof.Machine Sys2Proof.Claim Sys2Proof.Laws

-- One proof is checked at a time: this keeps the check of the whole text within its memory.
set_option Elab.async false

/-- A change of a job is what it makes of the job that stands in the table. -/
theorem modJob_congr {s : State} {id : Nat} {j : Job} {f g : Job → Job} (hj : look s.jobs id = some j) (h : f j = g j) :
    s.modJob id f = s.modJob id g := by
  simp only [State.modJob, upd, hj, h]

/-! ## The end of a job (R252, R260, R405) -/

theorem broken_iff (j : Job) : (j.skip || j.outcome.any (fun o => decide (o.1 ≠ 0))) = true ↔
    ¬ (j.skip = false ∧ ∀ o, j.outcome = some o → o.1 = 0) := by
  cases j.skip <;> cases j.outcome <;> simp

theorem lastArrival_eq (j : Job) : j.lastArrival =
    { arra := 1, err := j.skip || decide (∃ o ∈ j.outcome, o.1 ≠ 0), arrb :=
        if j.skip = false ∧ ∃ o ∈ j.outcome, o.1 ≠ 0 then 256 * (j.total - j.done - j.ahead.length) else 0 } := by
  have hany : j.outcome.any (fun o => decide (o.1 ≠ 0)) = decide (∃ o ∈ j.outcome, o.1 ≠ 0) := by
    cases j.outcome <;> simp
  rw [Job.lastArrival]
  simp only [hany, Bool.and_eq_true, decide_eq_true_eq, Bool.not_eq_true', and_comm (a := ∃ o ∈ j.outcome, o.1 ≠ 0)]

theorem pick_some {j : Job} {n : Nat} (h1 : j.done + n < j.total) (h2 : j.done + n ∉ j.ahead)
    (h3 : j.opc = 0x04 → (j.done + n) / max 1 j.n0 = j.done / max 1 j.n0) : j.pick n = some (j.done + n) := by
  have hrow : (j.opc != 0x04 || (j.done + n) / Nat.max 1 j.n0 == j.done / Nat.max 1 j.n0) = true := by
    rw [Bool.or_eq_true, bne_iff_ne, beq_iff_eq]
    exact (Decidable.em (j.opc = 0x04)).elim (fun h => .inr (h3 h)) .inl
  simp only [Job.pick, decide_eq_true h1, List.contains_eq_mem, decide_eq_false h2, hrow, Bool.not_false, Bool.and_self,
    if_true]

/-- JOB_SECTOR_WRITE of a sector that can be written now, with what its barrier object answers (R299). -/
theorem jobSectorWrite_writes {s s' t : State} {j : Job} {b : Option (State × Nat × Loc)} {k : Nat} {c : Option Cause}
    (hj : look s.jobs s.focus.unit = some j) (hr : j.state = .running) (hb : s.jobBarrier j = .ok b)
    (hu : j.skip = false ∧ ∀ o, j.outcome = some o → o.1 = 0) (hk : j.pick s.focus.sub = some k)
    (hw : s.jobWrite s.focus.unit k j = .ok s') (ha : s'.jobArrive s.focus.unit j { arrb := 256 } = some (t, c)) :
    exec .jobSectorWrite s = goes (t.modJob s.focus.unit (fun j =>
      c.elim (j.wrote k) (fun c => { j.wrote k with state := .faulted c (some j.barVa) }))) := by
  have hno : (decide (j.state ≠ .running) || j.skip || j.outcome.any (fun o => decide (o.1 ≠ 0))) = false := by
    rw [Bool.or_assoc, Bool.or_eq_false_iff]
    refine ⟨decide_eq_false (not_not.mpr hr), ?_⟩
    rw [Bool.eq_false_iff, ne_eq, broken_iff, not_not]
    exact hu
  rw [exec_jobSectorWrite, execJobSectorWrite]
  simp only [hj, hno, hk, hb, hw, ha, Bool.false_eq_true, if_false]
  cases c <;> rfl

/-- JOB_COMPLETE of a job that has written all or has been given up, with its barrier object's answer (R252, R301). -/
theorem jobComplete_arrives {s s' t : State} {j : Job} {b : Option (State × Nat × Loc)} {c : Option Cause}
    (hj : look s.jobs s.focus.unit = some j) (hr : j.state = .running) (hb : s.jobBarrier j = .ok b)
    (he : j.total ≤ j.done ∨ ¬ (j.skip = false ∧ ∀ o, j.outcome = some o → o.1 = 0))
    (hw : if j.skip = true ∧ j.outcome = none then s' = s else s.writeOutcome j = .ok s')
    (ha : s'.jobArrive s.focus.unit j j.lastArrival = some (t, c)) (hh : c.isSome = true → j.hart.isSome = true) :
    exec .jobComplete s = goes (match c with
      | none => t.endJob s.focus.unit j
      | some c => t.modJob s.focus.unit (fun j => { j with
          bar := none, state := .faulted c (some j.barVa), outcome := none, done := j.total, ahead := [] })) := by
  have hended : (decide (j.state ≠ .running) ||
      !(decide (j.total ≤ j.done) || j.skip || j.outcome.any (fun o => decide (o.1 ≠ 0)))) = false := by
    rw [Bool.or_eq_false_iff, Bool.not_eq_false', Bool.or_assoc, Bool.or_eq_true, decide_eq_true_eq, broken_iff]
    exact ⟨decide_eq_false (not_not.mpr hr), he⟩
  have hwritten : (if j.skip && j.outcome.isNone then (.ok s : Except Stop State) else s.writeOutcome j) = .ok s' := by
    have hcond : (j.skip && j.outcome.isNone) = true ↔ j.skip = true ∧ j.outcome = none := by
      rw [Bool.and_eq_true, Option.isNone_iff_eq_none]
    by_cases hs : j.skip = true ∧ j.outcome = none
    · rw [if_pos hs] at hw
      rw [if_pos (hcond.mpr hs), hw]
    · rw [if_neg hs] at hw
      rw [if_neg (fun h => hs (hcond.mp h)), hw]
  rw [exec_jobComplete, execJobComplete]
  simp only [hj, hended, hb, hwritten, ha, Bool.false_eq_true, if_false]
  cases c with
  | none => rfl
  | some c =>
    obtain ⟨x, hx⟩ := Option.isSome_iff_exists.mp (hh rfl)
    simp only [hx, Option.isNone_some, Bool.false_and, Bool.false_eq_true, if_false]

theorem jobFaultRaise_raises {s : State} {j : Job} {c : Cause} {a : Option Dword} {hid : Nat} {h : Hart}
    (hj : look s.jobs s.focus.unit = some j) (hs : j.state = .faulted c a) (hh : j.hart = some hid)
    (hl : look s.harts hid = some h) (ht : h.traps = []) (hstop : s.stopped h = false) (hm : s.mayTrap hid h = true)
    (hq : ∀ k, (h.queue .jb).head? = some k → k.issued = false ∨ k.done.isSome = true) :
    exec .jobFaultRaise s = goes ((s.modJob s.focus.unit (fun j => { j with state := .trapped })).takeTrap hid
      { cause := c, eng := 5, row := j.row, addr := a, status := BitVec.ofNat 32 j.done, progress := true, pc := j.pc,
        cls := eclsOf .jb, tix := j.tix, idx := some j.idx }) := by
  rw [exec_jobFaultRaise, execJobFaultRaise]
  simp only [hj, hs, hh, hl, ht, hstop, hm, List.isEmpty_nil, Bool.not_true, Bool.or_false, Bool.false_or]
  cases hqq : h.queue .jb with
  | nil => rfl
  | cons k ks =>
    have hk : (!k.issued || k.done.isSome) = true := by
      rw [Bool.or_eq_true, Bool.not_eq_true']
      exact hq k (by rw [hqq]; rfl)
    simp only [hk, Bool.not_true, Bool.false_eq_true, if_false]

/-- Settles O42. -/
theorem jobEventResults : Obligations.JobEventResults := by
  unfold Obligations.JobEventResults
  intro s s' t j id hj state unbroken arrival
  have harrival : j.lastArrival = arrival := lastArrival_eq j
  refine ⟨fun hs hh => ?_, fun b hr hb => ⟨?_, fun he hw => ⟨fun ha => ?_, fun c ha hh => ?_⟩⟩,
    fun a => ⟨fun hn => ?_, fun u dpa l hb hm => ?_⟩, fun p hs hp => ?_,
    fun c a hid h hs hh hl ht hstop hm hq => jobFaultRaise_raises hj hs hh hl ht hstop hm hq⟩
  · simp only [exec_jobStart, execJobStart, show look s.jobs s.focus.unit = some j from hj, hs,
      show s.jobHeld s.focus.unit j = false from hh, decide_true, Bool.not_false, Bool.and_self, if_true]
    exact congrArg goes (modJob_congr hj rfl)
  · intro k h1 h2 h3 hu hw
    have hk := pick_some h1 h2 h3
    exact ⟨fun ha => jobSectorWrite_writes hj hr hb hu hk hw ha, fun c ha => jobSectorWrite_writes hj hr hb hu hk hw ha⟩
  · exact jobComplete_arrives (c := none) hj hr hb he hw (harrival ▸ ha) nofun
  · exact jobComplete_arrives (c := some c) hj hr hb he hw (harrival ▸ ha) (fun _ => hh)
  · simp only [State.jobArrive, State.jobBarrier, hn]
  · simp only [State.jobArrive, hb, hm, if_true]
  · simp only [exec_jobResume, execJobResume, show look s.jobs s.focus.unit = some j from hj, hs, if_neg hp,
      Bool.and_eq_true, Option.isNone_iff_eq_none]
    exact congrArg goes (modJob_congr hj rfl)

end Sys2Proof.JobEvents
end

section
/-! PROOFS. The events of the scheduler (R317, R320, R351 to R358). -/

namespace Sys2Proof.SchedulerEvents

open Sys2Proof Sys2Proof.Machine Sys2Proof.Claim Sys2Proof.Laws

-- One proof is checked at a time: this keeps the check of the whole text within its memory.
set_option Elab.async false

/-! ## CURSOR_WAKE (R352, R353) -/

/-- CURSOR of a hart that there is always goes on. -/
theorem cursor_goes {t : State} {g : Hart} (px : Px) (d : Reg) (hl : look t.harts t.focus.hart = some g) :
    ∃ u, execCursor px d t = goes u := by
  rw [execCursor, withRegs, withHart_some hl]
  split
  · exact ⟨_, rfl⟩
  · split
    · exact ⟨_, rfl⟩
    · split
      · exact ⟨_, rfl⟩
      · split
        · exact ⟨_, rfl⟩
        · split
          · exact ⟨_, rfl⟩
          · split
            · split <;> exact ⟨_, rfl⟩
            · exact ⟨_, rfl⟩

theorem focus_wakeHart {s t : State} {hid : Nat} {h : Hart} (hw : s.wakeHart hid h = some t) : t.focus = s.focus := by
  unfold State.wakeHart at hw
  split at hw
  · cases hw; rfl
  · split at hw
    · cases hw
    · obtain ⟨g, -, rfl⟩ := Option.map_eq_some_iff.mp hw
      rfl

/-- CURSOR_WAKE of a sleeping hart that has nothing more to wait for runs its CURSOR (R353). -/
theorem cursorWake_runs {s t u : State} {h g : Hart} {gr : Group} {px : Px} {d : Reg} {n : Nat}
    (hl : look s.harts s.focus.hart = some h) (hs : h.state = .sleeping) (hstop : s.stopped h = false)
    (hexp : s.expired h = false) (hmc : h.mcPending = false) (hw : s.wakeHart s.focus.hart h = some t)
    (hg : look t.harts s.focus.hart = some g) (hgr : look s.groups h.group = some gr)
    (hready : s.exhausted h gr = true ∨ (s.eligible h = true ∧ (s.nextEntry h).isSome = true))
    (hdec : decode (t.peekWords g g.pc 5) = .instr (.cursor px d) n) (hu : execCursor px d t = .next u) :
    exec .cursorWake s =
      if (t.clusterWaiters s.focus.hart g).isEmpty then
        goes (u.modHart s.focus.hart (fun k => { k with csr := { k.csr with xcl := g.csr.xcl, acl := g.csr.acl } }))
      else goes u := by
  have hno : (decide (h.state ≠ .sleeping) || s.stopped h || s.expired h) = false := by
    rw [hs, hstop, hexp]; rfl
  have hgo : (!s.exhausted h gr && !(s.eligible h && (s.nextEntry h).isSome)) = false := by
    rcases hready with he | ⟨he, hn⟩
    · rw [he]; rfl
    · rw [he, hn]; exact Bool.and_false _
  rw [exec_cursorWake, execCursorWake, withHart_some hl]
  simp only [hno, hgr, hmc, hgo, hw, Option.bind_some, hg, Option.map_some, hdec, hu, Bool.false_eq_true, if_false]

/-! ## Restoring (R356, R357) -/

/-- HART_RESTORE of a hart that may come back and whose cores serve. -/
theorem hartRestore_serves {s : State} {h : Hart} (hl : look s.harts s.focus.hart = some h)
    (hm : s.mayRestore s.focus.hart h = true) (hc : s.coresServe h = true) :
    (s.blockers s.focus.hart h ≠ [] → exec .hartRestore s = goes (s.askRoom s.focus.hart h)) ∧
    (s.blockers s.focus.hart h = [] → s.olderWaiter s.focus.hart h = false →
      (h.state = .saved → h.csr.xcl + h.csr.acl ≤ s.poolFor s.focus.hart h →
        exec .hartRestore s = goes (s.restoreHart s.focus.hart h h.csr.xcl h.csr.acl)) ∧
      (∀ x a, h.state = .parked ∨ h.state = .ready → s.grantAgain s.focus.hart h = some (x, a) →
        exec .hartRestore s = goes (s.restoreHart s.focus.hart h x a))) := by
  rw [exec_hartRestore, execHartRestore, withHart_some hl]
  simp only [hm, hc, Bool.not_true, Bool.or_self, Bool.false_eq_true, if_false]
  refine ⟨fun hb => ?_, fun hb ho => ⟨fun hs hp => ?_, fun x a hs hg => ?_⟩⟩
  · rw [if_pos (by rw [List.isEmpty_eq_false_iff.mpr hb]; rfl)]
  · simp only [hb, ho, hs, hp, List.isEmpty_nil, Bool.not_true, Bool.false_eq_true, if_false, if_true]
  · rcases hs with hs | hs <;>
      simp only [hb, ho, hs, hg, List.isEmpty_nil, Bool.not_true, Bool.false_eq_true, if_false]

/-- Settles O43. -/
theorem schedulerEventResults : Obligations.SchedulerEventResults := by
  unfold Obligations.SchedulerEventResults
  intro s hid h hh hl
  subst hh
  refine ⟨fun hs hstop hexp => ⟨fun hmc hm => ?_, fun t g gr px d n hmc hw hg hgr hready hdec => ?_⟩,
    fun t hp hpl ht => ?_,
    fun hm hc => ⟨(hartRestore_serves hl hm hc).2, fun hb => ?_⟩, ⟨fun hf => ?_, fun hf => ?_⟩, fun g hg hq => ?_⟩
  · simp only [exec_cursorWake, execCursorWake, withHart_some hl, hs, hstop, hexp, hmc, hm, ne_eq, not_true_eq_false,
      decide_false, Bool.or_self, Bool.false_eq_true, if_false, if_true]
  · have hfocus : look t.harts t.focus.hart = some g := by rw [focus_wakeHart hw]; exact hg
    obtain ⟨u, hu⟩ := cursor_goes px d hfocus
    have hruns := cursorWake_runs hl hs hstop hexp hmc hw hg hgr hready hdec hu
    refine ⟨u, hu, fun hne => ?_, fun he => ?_⟩
    · rw [hruns, if_neg (by rw [List.isEmpty_eq_false_iff.mpr hne]; decide)]
    · rw [hruns, if_pos (by rw [he]; rfl)]
  · have hexp : s.expired h = true := by
      rw [State.expired, hp]
      simp only [hpl, ht, decide_true, Bool.and_self]
    rw [exec_preemptionDeadline, execPreemptionDeadline, withHart_some hl, if_pos hexp]
  · intro hs old
    have hall_iff : hs.all old.contains = true ↔ ∀ x ∈ hs, x ∈ old := by
      simp only [List.all_eq_true, List.contains_iff_mem]
    have hask : s.askRoom s.focus.hart h = if hs.all old.contains then s
        else s.raiseRequest (.restore s.focus.hart) (old ++ hs.filter (fun x => !old.contains x)) := rfl
    rw [(hartRestore_serves hl hm hc).1 hb, hask]
    refine ⟨fun hall => ?_, fun ⟨x, hx, hnew⟩ => ?_⟩
    · rw [if_pos (hall_iff.mpr hall)]
    · rw [if_neg (fun h => hnew (hall_iff.mp h x hx))]
  · simp only [exec_dieRemapRequest, execDieRemapRequest, hf, Bool.not_true, Bool.false_eq_true, if_false]
    rfl
  · simp only [exec_dieRemapRequest, execDieRemapRequest, hf, Bool.not_false, if_true]
    rfl
  · simp only [exec_quiesceGateAck, execQuiesceGateAck, hg, hq, if_true]
    rfl

end Sys2Proof.SchedulerEvents
end

section
/-! PROOFS. Rings: a statement that RINGQRY of a high HEAD fails (R332). -/

namespace Sys2Proof.RingQuery

open Sys2Proof Sys2Proof.Machine Sys2Proof.Claim Sys2Proof.Laws

-- One proof is checked at a time: this keeps the check of the whole text within its memory.
set_option Elab.async false

/-- No word before the instruction. -/
def plainPx : Px := { diep := none, valx := none }

/-- RINGQRY of ring 1 into s8. -/
def queryTemplate : Template := { emptyTemplate with opc := 6, d := 8, a := 1 }

/-- The placed program's hart, as it dispatches RINGQRY. -/
def queryCommand : Command := Hart.program.command plainPx queryTemplate none 0 0 0

/-- The hart with that command at the head of its MX queue. -/
def queryHart : Hart := Hart.program.setQueue .mx [queryCommand]

/-- Ring 1 of core 0 with HEAD 256, which takes nine bits. -/
def queryCore : Core := Core.reset.setRing 1 { Ring.reset with slots := 2, head := 256 }

/-- The machine after reset with that hart and that core. -/
def queryState : State := { State.reset with harts := [(0, queryHart)], cores := [(0, queryCore)] }

/-- Register s8 of hart 0 in row 0, in the state that a step leaves. -/
def queriedAfter : Out → Option Dword
  | .next t => (look t.harts 0).map (fun g => (g.row 0).get false 8)
  | _ => none

theorem rows_takeWaits (h : Hart) (e : Eng) (c : Command) : (h.takeWaits e c).rows = h.rows := rfl

theorem rows_setHead (h : Hart) (e : Eng) (c : Command) : (h.setHead e c).rows = h.rows := by
  unfold Hart.setHead
  split <;> rfl

/-- A command that has issued leaves the registers as they are. -/
theorem queriedAfter_issue (s : State) (e : Eng) (c : Command) :
    queriedAfter (goes (s.issue 0 e c)) = (look s.harts 0).map (fun g => (g.row 0).get false 8) := by
  have hrows (h : Hart) : ((if c.consumed then h else h.takeWaits e c).setHead e
      { c with issued := true, consumed := true }).rows = h.rows := by
    rw [rows_setHead]
    split
    · rfl
    · exact rows_takeWaits h e c
  simp only [queriedAfter, State.issue, look_modHart, Option.map_map]
  congr 1
  funext h
  simp only [Function.comp_apply, Hart.row, hrows]

/-- RINGQRY packs HEAD as it is: the ninth bit stands in TAIL's field. -/
theorem queried_ringqry : queriedAfter (exec (.ringqry queryCommand.t) queryState) =
    some (BitVec.ofNat 64 (256 * 2 ^ 32 + 2 * 2 ^ 48)) := by
  decide +kernel

/-- Refutes O37: RINGQRY packs a HEAD of more than eight bits whole, where the statement takes its low eight bits. -/
theorem not_leaseRingResults : ¬ Obligations.LeaseRingResults := by
  unfold Obligations.LeaseRingResults
  intro hall
  have hhead : AtHead queryState .mx 0 queryHart queryCommand :=
    ⟨rfl, rfl, ⟨[], rfl⟩, rfl, rfl, by decide +kernel, .inr (by decide +kernel), nofun⟩
  obtain ⟨-, -, hrows⟩ := hall queryState queryState 0 queryHart queryCommand hhead
  obtain ⟨-, -, -, hquery⟩ := hrows (by decide +kernel)
  obtain ⟨ts, us, hran⟩ := hquery (by decide +kernel)
  have hq := queried_ringqry
  rw [hran, ranWith, queriedAfter_issue] at hq
  exact absurd hq (by decide +kernel)

end Sys2Proof.RingQuery
end

section
/-! PROOFS. JB commands (R255, R256, R258). -/

namespace Sys2Proof.JobIssue

open Sys2Proof Sys2Proof.Machine Sys2Proof.Claim Sys2Proof.Laws Sys2Proof.EngineTurns

-- One proof is checked at a time: this keeps the check of the whole text within its memory.
set_option Elab.async false

/-! ## Jobs of a JB command (R255, R256, R258) -/

/-- A JB command whose jobs are all checked and find room registers them in row order. -/
theorem ran_jobTurn {s s' : State} {hid : Nat} {h : Hart} {c : Command} {js : List Job} {i : Instr}
    {spec : Command → State → Issuer → Nat → Except Stop (State × JobSpec)} {reg : State → Job → State}
    (hd : Head s .jb hid h c) (hi : exec i s = jobTurn c.t s spec reg)
    (hr : issueRows hid h (c.atIssue s h) (spec (c.atIssue s h)) ((c.atIssue s h).rows h) s = .ok (some (s', js)))
    (ht : s'.trackerRoom js = true) :
    Ran ((js.foldl reg s').modHart hid Hart.markStored) hid .jb (c.atIssue s h) 0 (exec i s) := by
  rw [hi, jobTurn, engineOp_of_head hd]
  simp only [hr, ht, if_true]
  exact ran_plain _ _ _ _ _ _

/-- Settles O39. -/
theorem jobIssueResults : Obligations.JobIssueResults := by
  unfold Obligations.JobIssueResults
  intro s s' hid h c js hd k va spec issues card
  have hcard : ∀ i opc, exec i s = jobTurn c.t s (cardSpec opc) State.register → card i opc :=
    fun i opc hi hr ht => ran_jobTurn hd hi hr ht
  have hfill (i : Issuer) (x : JobSpec) (s : State) :
      (if k.t.fmt ≠ 0x1F ∧ fmtFits k.t.fmt k.t.cw = false then .error (.cause .containerMismatch i.row none)
        else countAligned s i x : Except Stop (State × JobSpec)) =
      if k.t.fmt != 0x1F && !fmtFits k.t.fmt k.t.cw then .error (.cause .containerMismatch i.row none)
        else countAligned s i x := by
    simp only [Bool.and_eq_true, bne_iff_ne, Bool.not_eq_true']
  refine ⟨fun hr ht => ?_, fun hr ht => ?_, fun hr ht => ?_, hcard _ _ rfl, hcard _ _ rfl, hcard _ _ rfl, hcard _ _ rfl,
    hcard _ _ rfl, hcard _ _ rfl, fun hr ht => ?_⟩
  · exact ran_jobTurn (spec := fun c s i j => countAligned s i (plainSpec c j 0x01)) hd rfl hr ht
  · simp only [hfill] at hr
    exact ran_jobTurn (spec := fun c s i j =>
      if c.t.fmt != 0x1F && !fmtFits c.t.fmt c.t.cw then .error (.cause .containerMismatch i.row none)
      else countAligned s i { plainSpec c j 0x05 with src := 0, aux1 := (c.capt j).a }) hd rfl hr ht
  · exact ran_jobTurn (spec := fun c s _ j =>
      let x := plainSpec c j 0x0A
      .ok (s, { x with dst := 0, src := BitVec.ofNat 64 (x.src.toNat / 256 * 256),
                       aux0 := if x.aux0 = 0 then 0 else x.aux0 + BitVec.ofNat 64 (x.src.toNat % 256) })) hd rfl hr ht
  · exact ran_jobTurn (spec := cardSpec 0x07) hd rfl hr ht

end Sys2Proof.JobIssue
end

section
/-! PROOFS. Transfers between registers, queues, memory and tiles (R182 to R184, R200 to R206). -/

namespace Sys2Proof.VectorTransfer

open Sys2Proof Sys2Proof.Machine Sys2Proof.Claim Sys2Proof.Laws Sys2Proof.EngineTurns Sys2Proof.ControlKept

-- One proof is checked at a time: this keeps the check of the whole text within its memory.
set_option Elab.async false

/-! ## VPOP and VPUSH (R202) -/

theorem queueCheck_of_mine {s : State} {h : Hart} {q j : Nat} {push : Bool}
    (ho : ((s.core (h.coreOf j)).queue q).owner = some h.group)
    (hs : (if push then ((s.core (h.coreOf j)).queue q).prod else ((s.core (h.coreOf j)).queue q).cons) = h.slot) :
    queueCheck s h q j push = .ok () := by
  simp only [queueCheck, ho, hs, beq_self_eq_true, decide_true, Bool.and_self, if_true]

/-- VPOP in rows whose queues it consumes and that hold enough strips pops and converts them. -/
theorem ran_vpop {s : State} {hid : Nat} {h g : Hart} {c : Command} {fl : Flags} {sr : BitVec 32}
    (hd : Head s .xv hid h c)
    (hq : ∀ j ∈ (c.atIssue s h).rows h, queueCheck s h c.t.a.toNat j false = .ok ())
    (hn : ∀ j ∈ (c.atIssue s h).rows h, h.csr.xcl ≤ ((s.core (h.coreOf j)).queue c.t.a.toNat).strips.length)
    (hp : popRows s h (c.atIssue s h) ((c.atIssue s h).rows h) h 0 h.csr.srseed = .ok (g, fl, sr)) :
    Ran ((((c.atIssue s h).rows h).foldl (fun s j =>
        (List.range h.csr.xcl).foldl (fun s _ => s.pop (h.coreOf j) c.t.a.toNat) s) s).setHart hid
          { g with csr := { g.csr with srseed := sr } }) hid .xv (c.atIssue s h) fl (exec (.vpop c.t) s) := by
  have hroom : ((c.atIssue s h).rows h).any
      (fun j => decide (((s.core (h.coreOf j)).queue c.t.a.toNat).strips.length < h.csr.xcl)) = false := by
    simpa using hn
  rw [show exec (.vpop c.t) s = execVpop c.t s from rfl, execVpop, engineOp_of_head hd]
  simp only [atIssue_t, checkAll_ok hq, hroom, Bool.false_eq_true, if_false, hp]
  exact ran_turn _ _ _ _ _ _ _ _

/-- An AUTO sink converts nothing, with no flag and no draw. -/
theorem popStrips_auto (c : Command) {q : StripQueue} (hq : q.sfmt = 0x1F) {xs : List Sector} (sr : BitVec 32)
    (hx : ∀ x ∈ xs, loadSectorFault x = none) : ∃ ys, popStrips c q xs sr = .ok (ys, 0, sr) := by
  induction xs with
  | nil => exact ⟨_, rfl⟩
  | cons x xs ih =>
    obtain ⟨ys, hys⟩ := ih (fun y hy => hx y (List.mem_cons_of_mem _ hy))
    refine ⟨x :: ys, ?_⟩
    simp only [popStrips, hq, hx x (List.mem_cons_self ..), convertStrip, beq_self_eq_true,
      Bool.true_or, if_true, bind, Except.bind, hys]
    rfl

theorem popRows_auto (s : State) (h : Hart) (c : Command) {rows : List Nat} (g : Hart) (fl : Flags) (sr : BitVec 32)
    (hx : ∀ j ∈ rows, ((s.core (h.coreOf j)).queue c.t.a.toNat).sfmt = 0x1F ∧
      ∀ x ∈ ((s.core (h.coreOf j)).queue c.t.a.toNat).strips.take h.csr.xcl, loadSectorFault x = none) :
    ∃ g', popRows s h c rows g fl sr = .ok (g', fl, sr) := by
  induction rows generalizing g with
  | nil => exact ⟨_, rfl⟩
  | cons j js ih =>
    obtain ⟨hf, hl⟩ := hx j (List.mem_cons_self ..)
    obtain ⟨ys, hys⟩ := popStrips_auto c hf sr hl
    simp only [popRows, hys]
    rw [show fl ||| (0 : Flags) = fl from BitVec.or_zero]
    exact ih _ (fun i hi => hx i (List.mem_cons_of_mem _ hi))

/-! ## VLDR and VSTR (R200, R204, R206) -/

theorem vstrAll_touched (h : Hart) (c : Command) (ts : List Touched) (as : List VecAccess) (s : State) :
    vstrAll h { c with touched := ts } as s = vstrAll h c as s := by
  induction as generalizing s with
  | nil => rfl
  | cons a as ih =>
    simp only [vstrAll, ih]
    rfl

/-- VLDR whose rows' sectors have passed their checks: its turn. -/
theorem vldr_turn {s : State} {hid : Nat} {h : Hart} {c : Command} {xs : List VecAccess} (hd : Head s .xv hid h c)
    (hx : vmRows s h (c.atIssue s h) .r (fun j => ((c.atIssue s h).capt j).a) (fun _ => vmSectors h (c.atIssue s h))
      ((c.atIssue s h).rows h) = .ok xs) :
    exec (.vldr c.t) s = turnOut hid .xv s
      (let land := c.t.land.toNat
       let c := { c.atIssue s h with touched := vmTouch xs }
       let es := vldrEntries h c (if land ≠ 0 then some (s.hartCycle h + land) else none) xs
       let fly := Turn.ran (s.modHart hid (fun g => { g with loads := g.loads ++ es })) c
         { Completion.plain 0 with touched := traceRows h c }
       if land ≠ 0 then (if 64 < h.trivetUsed + es.length then .wait else fly)
       else if s.defer then fly
       else if es.any (fun e => h.ahead e.stream e.dpas e.order) then hold s c
       else
         match arriveAll h es s with
         | .error x => .stop s c x 0 false
         | .ok (s, ys) =>
           .ran (s.modHart hid (fun g => g.landVecs ys)) c
             { Completion.plain (ys.foldl (fun f y => f ||| y.2.2) 0) with touched := traceRows h c }) := by
  rw [show exec (.vldr c.t) s = execVldr c.t s from rfl, execVldr, engineOp_of_head hd]
  dsimp only
  rw [hx]
  simp only [atIssue_t] <;> rfl

/-- An interlocked VLDR that the plan defers leaves its reads in flight. -/
theorem ran_vldr_deferred {s : State} {hid : Nat} {h : Hart} {c : Command} {xs : List VecAccess}
    (hd : Head s .xv hid h c)
    (hx : vmRows s h (c.atIssue s h) .r (fun j => ((c.atIssue s h).capt j).a) (fun _ => vmSectors h (c.atIssue s h))
      ((c.atIssue s h).rows h) = .ok xs) (hl : c.t.land = 0) (hdef : s.defer = true) :
    Ran (s.modHart hid (fun g => { g with loads := g.loads ++ vldrEntries h (c.atIssue s h) none xs })) hid .xv
      (c.atIssue s h) 0 (exec (.vldr c.t) s) := by
  rw [vldr_turn hd hx]
  simp only [hl, hdef, BitVec.ofNat_eq_ofNat, BitVec.toNat_zero, ne_eq, not_true_eq_false, if_false, if_true]
  exact ran_turn s _ hid .xv (c.atIssue s h) 0 (vmTouch xs) _

/-- An interlocked VLDR that no access in flight precedes reads at once. -/
theorem ran_vldr_now {s s' : State} {hid : Nat} {h : Hart} {c : Command} {xs : List VecAccess}
    {ys : List (LoadEntry × Sector × Flags)} (hd : Head s .xv hid h c)
    (hx : vmRows s h (c.atIssue s h) .r (fun j => ((c.atIssue s h).capt j).a) (fun _ => vmSectors h (c.atIssue s h))
      ((c.atIssue s h).rows h) = .ok xs) (hl : c.t.land = 0) (hdef : s.defer = false)
    (ha : ∀ e ∈ vldrEntries h (c.atIssue s h) none xs, h.ahead e.stream e.dpas e.order = false)
    (hys : arriveAll h (vldrEntries h (c.atIssue s h) none xs) s = .ok (s', ys)) :
    Ran (s'.modHart hid (fun g => g.landVecs ys)) hid .xv (c.atIssue s h) (ys.foldl (fun f y => f ||| y.2.2) 0)
      (exec (.vldr c.t) s) := by
  have hany : (vldrEntries h { c.atIssue s h with touched := vmTouch xs } none xs).any
      (fun e => h.ahead e.stream e.dpas e.order) = false := List.any_eq_false.mpr (fun e he => by simp [ha e he])
  have hys' : arriveAll h (vldrEntries h { c.atIssue s h with touched := vmTouch xs } none xs) s = .ok (s', ys) := hys
  rw [vldr_turn hd hx]
  simp only [hl, hdef, BitVec.ofNat_eq_ofNat, BitVec.toNat_zero, ne_eq, not_true_eq_false, if_false,
    Bool.false_eq_true, hany, hys']
  exact ran_turn s _ hid .xv (c.atIssue s h) _ (vmTouch xs) _

/-- A timed VLDR that finds room in the Trivet takes its entries. -/
theorem ran_vldr_timed {s : State} {hid : Nat} {h : Hart} {c : Command} {xs : List VecAccess}
    (hd : Head s .xv hid h c)
    (hx : vmRows s h (c.atIssue s h) .r (fun j => ((c.atIssue s h).capt j).a) (fun _ => vmSectors h (c.atIssue s h))
      ((c.atIssue s h).rows h) = .ok xs) (hl : c.t.land ≠ 0)
    (hroom : h.trivetUsed +
      (vldrEntries h (c.atIssue s h) (some (s.hartCycle h + c.t.land.toNat)) xs).length ≤ 64) :
    Ran (s.modHart hid (fun g =>
        { g with loads := g.loads ++ vldrEntries h (c.atIssue s h) (some (s.hartCycle h + c.t.land.toNat)) xs })) hid
          .xv
      (c.atIssue s h) 0 (exec (.vldr c.t) s) := by
  have hn : c.t.land.toNat ≠ 0 := fun hz => hl (BitVec.eq_of_toNat_eq hz)
  have hroom' : ¬ 64 < h.trivetUsed + (vldrEntries h { c.atIssue s h with touched := vmTouch xs }
      (some (s.hartCycle h + c.t.land.toNat)) xs).length := Nat.not_lt.mpr hroom
  rw [vldr_turn hd hx]
  simp only [hn, ne_eq, not_false_eq_true, if_true, hroom', if_false]
  exact ran_turn s _ hid .xv (c.atIssue s h) 0 (vmTouch xs) _

/-- VSTR whose rows' sectors have passed their checks and can be stored: its turn. -/
theorem vstr_turn {s s' : State} {hid : Nat} {h : Hart} {c : Command} {as : List VecAccess} {fl : Flags}
    (hd : Head s .xv hid h c)
    (hx : vmRows s h (c.atIssue s h) .w (fun j => ((c.atIssue s h).capt j).b) (vstrSectors h (c.atIssue s h))
      ((c.atIssue s h).rows h) = .ok as) (hs : vstrAll h (c.atIssue s h) as s = .ok (s', fl)) :
    exec (.vstr c.t) s = turnOut hid .xv s
      (let c := { c.atIssue s h with touched := vmTouch as }
       let d := { Completion.plain 0 with touched := traceRows h c }
       let es := vstrEntries h c as
       if !s.defer && es.any (fun e => h.ahead e.stream [e.dpa] e.order) then hold s c
       else if s.defer then .ran ((s.modHart hid (fun g => { g with stores := g.stores ++ es })).markTask hid) c d
       else .ran (s'.markTask hid) c { d with flags := fl }) := by
  rw [show exec (.vstr c.t) s = execVstr c.t s from rfl, execVstr, engineOp_of_head hd]
  dsimp only
  rw [hx]
  simp only [vstrAll_touched, hs]

/-- VSTR that no access in flight precedes stores at once. -/
theorem ran_vstr_now {s s' : State} {hid : Nat} {h : Hart} {c : Command} {as : List VecAccess} {fl : Flags}
    (hd : Head s .xv hid h c)
    (hx : vmRows s h (c.atIssue s h) .w (fun j => ((c.atIssue s h).capt j).b) (vstrSectors h (c.atIssue s h))
      ((c.atIssue s h).rows h) = .ok as) (hs : vstrAll h (c.atIssue s h) as s = .ok (s', fl)) (hdef : s.defer = false)
    (ha : ∀ e ∈ vstrEntries h (c.atIssue s h) as, h.ahead e.stream [e.dpa] e.order = false) :
    Ran (s'.markTask hid) hid .xv (c.atIssue s h) fl (exec (.vstr c.t) s) := by
  have hany : (vstrEntries h { c.atIssue s h with touched := vmTouch as } as).any
      (fun e => h.ahead e.stream [e.dpa] e.order) = false := List.any_eq_false.mpr (fun e he => by simp [ha e he])
  rw [vstr_turn hd hx hs]
  simp only [hdef, hany, Bool.and_false, Bool.false_eq_true, if_false]
  exact ran_turn s _ hid .xv (c.atIssue s h) fl (vmTouch as) _

/-- VSTR that the plan defers leaves its stores in flight. -/
theorem ran_vstr_deferred {s s' : State} {hid : Nat} {h : Hart} {c : Command} {as : List VecAccess} {fl : Flags}
    (hd : Head s .xv hid h c)
    (hx : vmRows s h (c.atIssue s h) .w (fun j => ((c.atIssue s h).capt j).b) (vstrSectors h (c.atIssue s h))
      ((c.atIssue s h).rows h) = .ok as) (hs : vstrAll h (c.atIssue s h) as s = .ok (s', fl)) (hdef : s.defer = true) :
    Ran ((s.modHart hid (fun g => { g with stores := g.stores ++ vstrEntries h (c.atIssue s h) as })).markTask hid) hid
      .xv (c.atIssue s h) 0 (exec (.vstr c.t) s) := by
  rw [vstr_turn hd hx hs]
  simp only [hdef, Bool.not_true, Bool.false_and, Bool.false_eq_true, if_false, if_true]
  exact ran_turn s _ hid .xv (c.atIssue s h) 0 (vmTouch as) _

/-! ## VRDA and VWRA (R182 to R184) -/

/-- VRDA or VWRA of one row, whose tile no spill holds, runs by its function of the row. -/
theorem ran_tileVec {s s' : State} {hid : Nat} {h : Hart} {c : Command} {j : Nat} {fl : Flags}
    {tile : Command → Nat} {f : State → Hart → Command → Nat → Except Cause (State × Flags)} {i : Instr}
    (hd : Head s .xv hid h c) (hi : exec i s = tileVecOp c.t s tile f) (hr : (c.atIssue s h).rows h = [j])
    (hh : s.tileHeld h.ctx (h.coreOf j) (tile (c.atIssue s h)) = false)
    (hl : look (s.useTile h (h.coreOf j) (tile (c.atIssue s h))).harts hid = some h)
    (hf : f (s.useTile h (h.coreOf j) (tile (c.atIssue s h))) h (c.atIssue s h) j = .ok (s', fl)) :
    Ran s' hid .xv (c.atIssue s h) fl (exec i s) := by
  rw [hi, tileVecOp, engineOp_of_head hd]
  simp only [hr, List.any_cons, hh, List.any_nil, Bool.or_self, Bool.false_eq_true, if_false, List.foldl_cons,
    List.foldl_nil, bind, Except.bind, hl, hf, pure, Except.pure]
  rw [show (0 : Flags) ||| fl = fl from BitVec.zero_or]
  exact ran_turn s s' hid .xv (c.atIssue s h) fl (c.atIssue s h).touched _

/-- VRDA of one row, whose tile no spill holds, writes the row of the tile. -/
theorem ran_vrda {s : State} {hid : Nat} {h : Hart} {c : Command} {j : Nat} (hd : Head s .xv hid h c)
    (hr : (c.atIssue s h).rows h = [j]) (hh : s.tileHeld h.ctx (h.coreOf j) c.t.a.toNat = false)
    (hl : look (s.useTile h (h.coreOf j) c.t.a.toNat).harts hid = some h) {u : State} {fl : Flags}
    (hu : vrdaRow hid (s.useTile h (h.coreOf j) c.t.a.toNat) h (c.atIssue s h) j = .ok (u, fl)) :
    Ran u hid .xv (c.atIssue s h) fl (exec (.vrda c.t) s) := by
  refine ran_tileVec (tile := fun c => c.t.a.toNat) (f := fun s h c j => vrdaRow s.focus.hart s h c j) hd rfl hr ?_ ?_
    ?_
  · rw [atIssue_t]
    exact hh
  · rw [atIssue_t]
    exact hl
  · rw [atIssue_t, (sameControl_useTile s h (h.coreOf j) c.t.a.toNat).focus, hd.1.1]
    exact hu

/-- VWRA of one row, whose tile no spill holds, writes its row of the tile. -/
theorem ran_vwra {s : State} {hid : Nat} {h : Hart} {c : Command} {j : Nat} (hd : Head s .xv hid h c)
    (hr : (c.atIssue s h).rows h = [j]) (hh : s.tileHeld h.ctx (h.coreOf j) c.t.d.toNat = false)
    (hl : look (s.useTile h (h.coreOf j) c.t.d.toNat).harts hid = some h) {u : State} {fl : Flags}
    (hu : vwraRow (s.useTile h (h.coreOf j) c.t.d.toNat) h (c.atIssue s h) j = .ok (u, fl)) :
    Ran u hid .xv (c.atIssue s h) fl (exec (.vwra c.t) s) := by
  refine ran_tileVec (tile := fun c => c.t.d.toNat) (f := vwraRow) hd rfl hr ?_ ?_ ?_
  · rw [atIssue_t]
    exact hh
  · rw [atIssue_t]
    exact hl
  · rw [atIssue_t]
    exact hu

/-- The register sectors that read so, opened. -/
def AllRead (f : BitVec 5) (w : BitVec 3) (os : List Opened) : Prop := ∀ o ∈ os, o.zero = false ∧ o.fmt = f ∧ o.cw = w

theorem openSeq_readsAs {c : Command} {f : BitVec 5} {w : BitVec 3} {xs : List Sector} (hx : ∀ x ∈ xs, ReadsAs c f w x)
    {st : Option (BitVec 5) × Option (BitVec 3)} (hst : st = (none, none) ∨ st = (some f, some w)) :
    ∃ os, openSeq c vwraCheck st xs = .ok os ∧ AllRead f w os := by
  induction xs generalizing st with
  | nil => exact ⟨[], rfl, fun o ho => by cases ho⟩
  | cons x xs ih =>
    obtain ⟨o, ho, hz, hf, hw⟩ := hx x (List.mem_cons_self ..)
    obtain ⟨os, hos, hall⟩ := ih (fun y hy => hx y (List.mem_cons_of_mem _ hy)) (Or.inr rfl)
    have hchk : vwraCheck st o = .ok (some f, some w) := by
      obtain rfl | rfl := hst <;> simp [vwraCheck, hz, hf, hw, pure, Except.pure]
    refine ⟨o :: os, ?_, ?_⟩
    · simp only [openSeq, ho, hchk, hos, bind, Except.bind, pure, Except.pure]
    · intro p hp
      obtain rfl | hp := List.mem_cons.mp hp
      · exact ⟨hz, hf, hw⟩
      · exact hall p hp

/-- Sectors of one container share it. -/
theorem sharedCw_allRead {f : BitVec 5} {w : BitVec 3} {os : List Opened} (h : AllRead f w os) (v : BitVec 3) :
    ∃ u, sharedCw none v os = .ok u := by
  cases os with
  | nil => exact ⟨_, rfl⟩
  | cons o os =>
    obtain ⟨hz, -, hw⟩ := h o (List.mem_cons_self ..)
    have hany : (o :: os).any (fun p => !p.zero && p.cw != o.cw) = false :=
      List.any_eq_false.mpr (fun p hp => by simp [(h p hp).2.2, hw])
    refine ⟨o.cw, ?_⟩
    simp only [sharedCw, List.find?_cons, hz, Bool.not_false, hany, Bool.false_eq_true, if_false]

theorem sharedKind_replicate (b : Bool) (n : Nat) :
    (List.replicate n (some b)).foldlM (fun acc k =>
      match acc, k with
      | none, k => .ok k
      | a, none => .ok a
      | some x, some y => if x == y then .ok (some x) else .error .forbiddenFormatPair) (some b) =
        (.ok (some b) : Except Cause (Option Bool)) := by
  induction n with
  | zero => rfl
  | succ n ih => simpa [List.replicate_succ, bind, Except.bind] using ih

/-- VWRA's source sectors of one format have its kind, or there are none. -/
theorem vwraKind_allRead {f : BitVec 5} {w : BitVec 3} {os : List Opened} (h : AllRead f w os) :
    vwraKind os = .ok none ∨ vwraKind os = .ok (some (fmtInt f)) := by
  cases os with
  | nil => exact Or.inl rfl
  | cons o os =>
    right
    have hmap : (o :: os).map (fun o => if o.zero then none else some (fmtInt o.fmt)) =
        List.replicate (os.length + 1) (some (fmtInt f)) :=
      List.eq_replicate_iff.mpr ⟨by simp, fun y hy => by
        obtain ⟨p, hp, rfl⟩ := List.mem_map.mp hy
        simp [(h p hp).1, (h p hp).2.1]⟩
    have hk : sharedKind (List.replicate (os.length + 1) (some (fmtInt f))) = .ok (some (fmtInt f)) := by
      exact sharedKind_replicate (fmtInt f) os.length
    simp only [vwraKind, hmap, hk, bind, Except.bind, pure, Except.pure]

/-- VWRA's source in one format and container, of the tile's kind, is written or nothing is. -/
theorem vwraRow_runs {t : State} {h : Hart} {c : Command} {j : Nat} {f : BitVec 5} {w : BitVec 3}
    (hj : j ∈ c.rows h) (ho : OperandIs h c f w c.t.a.toNat)
    (hk : tagCls (t.tileTag (h.coreOf j) c.t.d.toNat) = 0 ∨
      fmtInt (tagFmt (t.tileTag (h.coreOf j) c.t.d.toNat)) = fmtInt f)
    (hc : t.tileClobber h (h.coreOf j) c.t.d.toNat = false) : ∃ u fl, vwraRow t h c j = .ok (u, fl) := by
  have hsec : ∀ x ∈ (sectorsOf h).filter (fun x => c.inRange (c.rowCw none
      ((c.vlSectors h).map (fun x => (x, (h.row j).vec c.t.a.toNat x)))) x), x < h.csr.xcl :=
    fun x hx => List.mem_range.mp (List.mem_filter.mp hx).1
  obtain ⟨os, hos, hall⟩ := openSeq_readsAs (c := c) (f := f) (w := w) (st := (none, none))
    (xs := ((sectorsOf h).filter (fun x => c.inRange (c.rowCw none
      ((c.vlSectors h).map (fun x => (x, (h.row j).vec c.t.a.toNat x)))) x)).map
        (fun x => (h.row j).vec c.t.a.toNat x))
    (fun x hx => by
      obtain ⟨y, hy, rfl⟩ := List.mem_map.mp hx
      exact ho j hj y (hsec y hy)) (Or.inl rfl)
  obtain ⟨v, hv⟩ := sharedCw_allRead hall c.vlcw
  have hkind : tileKind (t.tileTag (h.coreOf j) c.t.d.toNat) = none ∨
      tileKind (t.tileTag (h.coreOf j) c.t.d.toNat) = some (fmtInt f) := by
    unfold tileKind
    split
    · exact Or.inl rfl
    · next hn => exact Or.inr (congrArg some (hk.resolve_left hn))
  have hrun {k : Option Bool} (hw : vwraKind os = .ok k) (hk : k = none ∨ k = some (fmtInt f)) :
      ∃ u fl, vwraRow t h c j = .ok (u, fl) := by
    simp only [vwraRow, hos, hv, hw, hc, bind, Except.bind, pure, Except.pure, Bool.false_eq_true, if_false]
    obtain rfl | rfl := hk <;> obtain hz | hz := hkind <;>
      simp only [hz, beq_self_eq_true, if_true] <;> split <;> exact ⟨_, _, rfl⟩
  exact (vwraKind_allRead hall).elim (fun hw => hrun hw (Or.inl rfl)) (fun hw => hrun hw (Or.inr rfl))

/-- Settles O33. -/
theorem vectorTransfers : Obligations.VectorTransfers := by
  unfold Obligations.VectorTransfers
  intro s s' hid h g c fl sr hd k rows q mine
  refine ⟨fun hq => ⟨?_, ?_⟩, ?_, ?_, ?_, ?_, ?_⟩
  · intro hp t
    exact ran_vpop hd (fun j hj => queueCheck_of_mine (hq j hj).1.1 (hq j hj).1.2) (fun j hj => (hq j hj).2) hp
  · intro hx
    obtain ⟨g', hg⟩ := popRows_auto s h k h 0 h.csr.srseed (rows := rows)
      (by rw [atIssue_t]; exact hx)
    exact ⟨_, ran_vpop hd (fun j hj => queueCheck_of_mine (hq j hj).1.1 (hq j hj).1.2) (fun j hj => (hq j hj).2) hg⟩
  · intro j hm hj hroom
    rw [show exec (.vpush c.t) s = execVpush c.t s from rfl, execVpush, engineOp_of_head hd]
    simp only [atIssue_t]
    refine unitRan_of_unit (c1 := k) ?_ rfl rfl hj ?_ (head_done hd) rfl rfl (fun _ _ => rfl)
    · obtain hi | hm := hm
      · exact if_pos ((atIssue_issued ..).trans hi)
      · split
        · rfl
        · exact checkRowsOf_ok (fun i hi => queueCheck_of_mine (hm i hi).1 (hm i hi).2)
    · have hr : s.hasRoom (h.coreOf j) c.t.d.toNat = true := decide_eq_true hroom
      simp only [hr, Bool.not_true, Bool.false_eq_true, if_false, k, atIssue_t]
  · intro xs hx
    exact ⟨fun ys => ⟨fun hl hdef => ran_vldr_deferred hd hx hl hdef,
      fun hl hdef ha hys => ran_vldr_now hd hx hl hdef ha hys⟩, fun hl hroom => ran_vldr_timed hd hx hl hroom⟩
  · intro as hx hs
    exact ⟨fun hdef ha => ran_vstr_now hd hx hs hdef ha, fun hdef => ran_vstr_deferred hd hx hs hdef⟩
  · intro j hr hh t tag xs r hl
    exact ran_vrda hd hr hh hl (by simp only [vrdaRow, atIssue_t]; rfl)
  · intro j f w hr hh t hl
    refine ⟨fun hu => ran_vwra hd hr hh hl hu, fun ho hk hc => ?_⟩
    obtain ⟨u, fl', hu⟩ := vwraRow_runs (t := t) (c := k) (h := h) (j := j) (f := f) (w := w)
      (by rw [show k.rows h = [j] from hr]; exact List.mem_singleton_self j) (by rw [atIssue_t]; exact ho)
        (by rw [atIssue_t]; exact hk)
      (by rw [atIssue_t]; exact hc)
    exact ⟨u, fl', ran_vwra hd hr hh hl hu⟩

end Sys2Proof.VectorTransfer
end

section
/-! PROOFS. Streaming loads (R186 to R194). -/

namespace Sys2Proof.StreamLoad

open Sys2Proof Sys2Proof.Machine Sys2Proof.Claim Sys2Proof.Laws Sys2Proof.EngineTurns

-- One proof is checked at a time: this keeps the check of the whole text within its memory.
set_option Elab.async false

/-! ## Offsets read at the first issue (R194) -/

/-- A command as it goes on: with what it reads at its first issue as its offsets. -/
def WithSomeOffsets (c c1 : Command) : Prop := ∃ o, c1 = { c with offs := o }

theorem withOffsets_shape {h : Hart} {c c1 : Command} {rows : List Nat} (hc : withOffsets h c rows = .ok c1) :
    WithSomeOffsets c c1 := by
  unfold withOffsets at hc
  split at hc
  · cases ho : readOffsets h c rows h.allRows with
    | error e => rw [ho] at hc; cases hc
    | ok o => rw [ho] at hc; cases hc; exact ⟨o, rfl⟩
  · cases hc; exact ⟨c.offs, rfl⟩

theorem noPrep_shape {c c1 : Command} (hc : (.ok c : Except Stop Command) = .ok c1) : WithSomeOffsets c c1 := by
  cases hc
  exact ⟨c.offs, rfl⟩

theorem passes_shape {h : Hart} {c c1 : Command} {first : Except Stop Command} {ok : Nat → Prop}
    (hp : Passes h c c1 first ok) (hf : first = .ok c1 → WithSomeOffsets c c1) : WithSomeOffsets c c1 := by
  obtain ⟨-, rfl⟩ | ⟨-, hc, -⟩ := hp
  · exact ⟨_, rfl⟩
  · exact hf hc

/-- With no offsets to read a command goes on as it stands. -/
theorem passes_noPrep {h : Hart} {c c1 : Command} {ok : Nat → Prop} (hp : Passes h c c1 (.ok c) ok) : c1 = c := by
  obtain ⟨-, rfl⟩ | ⟨-, hc, -⟩ := hp
  · rfl
  · cases hc
    rfl

theorem countCheck_ok {j n : Nat} (hn : n ≤ 2 ^ 24) : countCheck j n = .ok () := if_neg (Nat.not_lt.mpr hn)

/-! ## Streaming loads (R186 to R194) -/

/-- What O34 says of one form, whose sectors are x and whose run-time counts `limits`. -/
theorem streamLoad_moves {s : State} {hid : Nat} {h : Hart} {c c1 : Command} {i : Instr}
    {prep : Hart → Command → List Nat → Except Stop Command} {counts : Command → Nat → List Nat}
    {src : Command → Sectors} {limits : Nat → List Nat} {x : Sectors} (hd : Head s .ld hid h c)
    (hi : exec i s = streamLoad c.t s prep counts src) (hdef : s.defer = false)
    (hp : Passes h (c.atIssue s h) c1 (prep h (c.atIssue s h) ((c.atIssue s h).rows h)) (fun j =>
      (∀ n ∈ limits j, n ≤ 2 ^ 24) ∧ x.check s h .r j = .ok () ∧ destCheck s h c1 x.count j = .ok ()))
    (hshape : WithSomeOffsets (c.atIssue s h) c1) (hx : src c1 = x) (hlim : counts c1 = limits)
    (hcount : ∀ ds ts, (src { c1 with rowDone := ds, touched := ts }).count = (src c1).count) :
    ((∀ j ∈ c1.rows h, x.count j ≤ c1.doneOf j) → Ran s hid .ld c1 c1.flags (exec i s)) ∧
    (∀ s' j y, unitOf h c1 x.count j → destRoom s h c1 j = true →
      c1.readUnit s h x j (c1.doneOf j) = .ok (s', y) →
      UnitRan (deliver s' h c1 j (c1.doneOf j) y) hid .ld h c1 j x.count (exec i s)) := by
  subst hx hlim
  obtain ⟨o, ho⟩ := hshape
  have hrows : c1.rows h = (c.atIssue s h).rows h := by rw [ho]; rfl
  have hcheck := checked_of_passes hp (check := do
      let c2 ← prep h (c.atIssue s h) ((c.atIssue s h).rows h)
      checkRowsOf c2 ((c.atIssue s h).rows h) (fun j => do
        checkAll (countCheck j) (counts c2 j)
        (src c2).check s h .r j
        destCheck s h c2 (src c2).count j)) (fun hf hok => by
    rw [hf]
    exact checkRowsOf_ok (fun j hj => by
      obtain ⟨hn, hx, hdest⟩ := hok j hj
      rw [checkAll_ok (fun n hm => countCheck_ok (hn n hm)), hx, hdest]
      rfl))
  rw [hi, streamLoad, engineOp_of_head hd]
  simp only [hdef, Bool.false_eq_true, if_false]
  refine ⟨fun hnone => ?_, fun s' j y hj hroom hy => ?_⟩
  · exact ran_of_noUnits hcheck (by rw [← hrows]; exact hnone)
  · refine unitRan_of_unit hcheck hrows rfl hj ?_ (by rw [ho]; exact head_done hd) hrows rfl hcount
    simp only [hroom, Bool.not_true, Bool.false_eq_true, if_false, hy]

/-- The same of a form that reads nothing before its checks. -/
theorem plainLoad_moves {s s' : State} {hid : Nat} {h : Hart} {c c1 : Command} {i : Instr}
    {counts : Command → Nat → List Nat} {src : Command → Sectors} {limits : Nat → List Nat} {x : Sectors}
    (hd : Head s .ld hid h c) (hi : exec i s = streamLoad c.t s noPrep counts src) (hx : src (c.atIssue s h) = x)
    (hlim : counts (c.atIssue s h) = limits)
    (hcount : ∀ ds ts, (src { c.atIssue s h with rowDone := ds, touched := ts }).count = (src (c.atIssue s h)).count)
    (hdef : s.defer = false)
    (hp : Passes h (c.atIssue s h) c1 (.ok (c.atIssue s h)) (fun j =>
      (∀ n ∈ limits j, n ≤ 2 ^ 24) ∧ x.check s h .r j = .ok () ∧ destCheck s h c1 x.count j = .ok ())) :
    ((∀ j ∈ c1.rows h, x.count j ≤ c1.doneOf j) → Ran s hid .ld c1 c1.flags (exec i s)) ∧
    (∀ j y, unitOf h c1 x.count j → destRoom s h c1 j = true →
      c1.readUnit s h x j (c1.doneOf j) = .ok (s', y) →
      UnitRan (deliver s' h c1 j (c1.doneOf j) y) hid .ld h c1 j x.count (exec i s)) := by
  obtain rfl : c1 = c.atIssue s h := passes_noPrep hp
  have hm := streamLoad_moves hd hi hdef hp ⟨_, rfl⟩ hx hlim hcount
  exact ⟨hm.1, hm.2 s'⟩

/-- Settles O34. -/
theorem streamLoads : Obligations.StreamLoads := by
  unfold Obligations.StreamLoads
  intro s s' hid h c c1 hd c0 die n moves
  refine ⟨?_, ?_, ?_, ?_, ?_⟩
  · exact plainLoad_moves (i := .ald c.t) (src := aldSectors) hd rfl
      (by simp only [aldSectors, Command.va, c0, atIssue_t, atIssue_stride]; rfl) rfl (fun _ _ => rfl)
  · exact plainLoad_moves (i := .alds c.t) (src := aldsSectors) hd rfl
      (by simp only [aldsSectors, Command.va, c0, atIssue_stride]; rfl) rfl (fun _ _ => rfl)
  · exact plainLoad_moves (i := .ald2 c.t) (src := ald2Sectors) hd rfl
      (by simp only [ald2Sectors, Command.va, c0, atIssue_t, atIssue_stride]; rfl) rfl (fun _ _ => rfl)
  · intro hdef hp
    obtain ⟨o, rfl⟩ := passes_shape hp withOffsets_shape
    have hm := streamLoad_moves (i := .agath c.t) (src := agathSectors) (counts := fun _ _ => []) hd rfl hdef hp ⟨o,
      rfl⟩
      (by simp only [agathSectors, Command.va, c0, atIssue_stride]; rfl) rfl (fun _ _ => rfl)
    exact ⟨hm.1, hm.2 s'⟩
  · exact plainLoad_moves (i := .aspx c.t) (src := aspxSectors) hd rfl rfl rfl (fun _ _ => rfl)

end Sys2Proof.StreamLoad
end

section
/-! PROOFS. ALDT, ARING, AQCFG and APREF (R195 to R199). -/

namespace Sys2Proof.RingLoad

open Sys2Proof Sys2Proof.Machine Sys2Proof.Claim Sys2Proof.Laws Sys2Proof.EngineTurns

-- One proof is checked at a time: this keeps the check of the whole text within its memory.
set_option Elab.async false

/-- The checks of a command in its rows pass, where it has not issued before. -/
theorem rows_checked {h : Hart} {c : Command} {f : Nat → Except Stop Unit}
    (hp : Passes h c c (.ok c) (fun j => f j = .ok ())) :
    (if c.issued then .ok c else checkRowsOf c (c.rows h) f) = .ok c :=
  checked_of_passes hp (fun _ hok => checkRowsOf_ok hok)

/-! ## ALDT (R195) -/

/-- A unit of ALDT, whose output sectors are carried or read now. -/
theorem unitRan_aldt {s t : State} {hid : Nat} {h : Hart} {c : Command} {j : Nat} {xs : List Sector} {fl : Flags}
    (hd : Head s .ld hid h c) (hj : unitOf h (c.atIssue s h) (fun _ => aldtTotal (c.atIssue s h)) j)
    (hp : Passes h (c.atIssue s h) (c.atIssue s h) (.ok (c.atIssue s h)) (fun j => aldtCheck s h (c.atIssue s h) j =
      .ok ()))
    (hread : (if (c.atIssue s h).carried.isEmpty then aldtRead h (c.atIssue s h) ((c.atIssue s h).rows h) s
      else .ok (s, (c.atIssue s h).carried, (c.atIssue s h).flags)) = .ok (t, xs, fl))
    (hroom : destRoom t h (c.atIssue s h) j = true) :
    UnitRan (deliver t h (c.atIssue s h) j ((c.atIssue s h).doneOf j)
        (xs.getD (placeOf ((c.atIssue s h).rows h) j * aldtTotal (c.atIssue s h) + (c.atIssue s h).doneOf j)
          zeroSector))
      hid .ld h { c.atIssue s h with carried := xs, flags := fl } j (fun _ => aldtTotal (c.atIssue s h))
      (exec (.aldt c.t) s) := by
  rw [show exec (.aldt c.t) s = execAldt c.t s from rfl, execAldt, engineOp_of_head hd]
  refine unitRan_of_unit (rows_checked hp) rfl rfl hj ?_ (head_done hd) rfl rfl (fun _ _ => rfl)
  dsimp only
  rw [hread]
  have hr : destRoom t h { c.atIssue s h with carried := xs, flags := fl } j = true := hroom
  simp only [hr, Bool.not_true, Bool.false_eq_true, if_false]
  rfl

/-! ## ARING (R197) -/

/-- A unit of ARING. -/
theorem unitRan_aring {s u : State} {hid : Nat} {h : Hart} {c d : Command} {j : Nat} (hd : Head s .ld hid h c)
    (hj : unitOf h (c.atIssue s h) (fun j => (aringList s h (c.atIssue s h) j).length + 1) j)
    (hp : Passes h (c.atIssue s h) (c.atIssue s h) (.ok (c.atIssue s h)) (fun j => aringCheck s h (c.atIssue s h) j =
      .ok ()))
    (hu : aringUnit hid h ((c.atIssue s h).rows h) s (c.atIssue s h) j ((c.atIssue s h).doneOf j) = .ok u d)
    (hshape : ∃ ys fl, d = { c.atIssue s h with carried := ys, flags := fl }) :
    UnitRan u hid .ld h d j (fun j => (aringList s h (c.atIssue s h) j).length + 1) (exec (.aring c.t) s) := by
  obtain ⟨ys, fl, rfl⟩ := hshape
  rw [show exec (.aring c.t) s = execAring c.t s from rfl, execAring, engineOp_of_head hd]
  exact unitRan_of_unit (rows_checked hp) rfl rfl hj hu (head_done hd) rfl rfl (fun _ _ => rfl)

/-- A unit of ARING that reads a source sector carries it on. -/
theorem aringUnit_read {s t : State} {hid : Nat} {h : Hart} {c : Command} {rows : List Nat} {j k : Nat} {o : Opened}
    (hk : k < (aringList s h c j).length)
    (ho : openSource s h c j (fun o => if !o.zero && o.cw != aringCw c (aringRing s h c j) then some .containerMismatch
      else none) ((aringList s h c j).getD k 0) = .ok (t, o)) :
    aringUnit hid h rows s c j k = .ok t { c with carried := c.carried ++ [o.src] } := by
  unfold aringList at hk ho
  simp only [aringUnit, hk, if_true, ho]

/-- The last unit of ARING in a row fills the tail slot of its ring. -/
theorem aringUnit_fill {s : State} {hid : Nat} {h : Hart} {c : Command} {rows : List Nat} {j k : Nat}
    {tile : List Sector} {fl : Flags} {sr : BitVec 32} (hk : (aringList s h c j).length ≤ k)
    (hfree : (aringRing s h c j).full.getLsbD (aringRing s h c j).tail = false)
    (ht : aringTile s c j (aringRing s h c j) (aringList s h c j)
      (carriedMap c (aringList s h c j) (c.carried.drop (aringBase s h c rows j))) h.csr.srseed = .ok (tile, fl, sr)) :
    aringUnit hid h rows s c j k = .ok ((fillSlot { s with draws := s.draws + 256 } h c j tile).modHart hid
      (fun g => { g with csr := { g.csr with srseed := sr } })) { c with flags := c.flags ||| fl } := by
  unfold aringList at hk ht
  simp only [aringUnit, Nat.not_lt.mpr hk, if_false, ht, hfree, Bool.false_eq_true]

/-! ## AQCFG and APREF (R198, R199) -/

/-- AQCFG of empty queues that the hart's group owns and no command uses. -/
theorem ran_aqcfg {s : State} {hid : Nat} {h : Hart} {c : Command} (hd : Head s .ld hid h c)
    (hown : ∀ j ∈ (c.atIssue s h).rows h, ((s.core (h.coreOf j)).queue c.t.d.toNat).owner = some h.group)
    (hfree : ∀ j ∈ (c.atIssue s h).rows h, ((s.core (h.coreOf j)).queue c.t.d.toNat).strips = [] ∧
      s.queueBusy (h.coreOf j) c.t.d.toNat = false) :
    Ran (((c.atIssue s h).rows h).foldl (fun s j => s.modCore (h.coreOf j)
      (fun k => k.setQueue c.t.d.toNat ((k.queue c.t.d.toNat).config c.t))) s) hid .ld (c.atIssue s h) 0
      (exec (.aqcfg c.t) s) := by
  have hfind : ((c.atIssue s h).rows h).find?
      (fun j => ((s.core (h.coreOf j)).queue c.t.d.toNat).owner != some h.group) = none :=
    List.find?_eq_none.mpr (fun j hj => by simp [hown j hj])
  have hany : ((c.atIssue s h).rows h).any (fun j => !((s.core (h.coreOf j)).queue c.t.d.toNat).strips.isEmpty ||
      s.queueBusy (h.coreOf j) c.t.d.toNat) = false :=
    List.any_eq_false.mpr (fun j hj => by simp [hfree j hj])
  rw [show exec (.aqcfg c.t) s = execAqcfg c.t s from rfl, execAqcfg, engineOp_of_head hd]
  simp only [atIssue_t, hfind, hany, Bool.false_eq_true, if_false]
  exact ran_turn _ _ _ _ _ _ (c.atIssue s h).touched _

/-- Settles O35. -/
theorem queueRingLoads : Obligations.QueueRingLoads := by
  unfold Obligations.QueueRingLoads
  intro s s' hid h c fl sr j hd c0 rows core n xs k parts
  refine ⟨fun hj => ⟨fun xs hp hnil hread hroom => ?_, fun hi hcar hroom => ?_⟩, fun hj hp => ⟨fun o hk ho => ?_,
    fun tile hk hfree ht => ?_⟩, fun hq => ?_, ?_⟩
  · exact unitRan_aldt hd hj hp (by rw [show (c.atIssue s h).carried = [] from hnil]; exact hread) hroom
  · exact unitRan_aldt hd hj (Or.inl ⟨hi, rfl⟩) (if_neg (by simpa using hcar)) hroom
  · exact unitRan_aring hd hj hp (aringUnit_read hk ho) ⟨_, _, rfl⟩
  · exact unitRan_aring hd hj hp (aringUnit_fill hk hfree ht) ⟨_, _, rfl⟩
  · exact ran_aqcfg hd (fun j hj => (hq j hj).1) (fun j hj => (hq j hj).2)
  · rw [show exec (.apref c.t) s = execApref c.t s from rfl, execApref, engineOp_of_head hd]
    exact ran_turn _ _ _ _ _ _ c0.touched _

end Sys2Proof.RingLoad
end

section
/-! PROOFS. Strip stores, SACC, STAG and FESET (R205, R207 to R209). -/

namespace Sys2Proof.StreamStore

open Sys2Proof Sys2Proof.Machine Sys2Proof.Claim Sys2Proof.Laws Sys2Proof.EngineTurns Sys2Proof.StreamLoad
  Sys2Proof.RingLoad

-- One proof is checked at a time: this keeps the check of the whole text within its memory.
set_option Elab.async false

/-! ## Storing what a turn has made ready (R267, R269) -/

/-- Storing changes of a command its flags alone. -/
theorem storeAll_shape (s : State) (hid : Nat) (h : Hart) (c : Command) (ps : List Pending) :
    ∃ fl, (s.storeAll hid h c ps).2 = { c with flags := fl } := by
  unfold State.storeAll
  split
  · exact ⟨c.flags, rfl⟩
  · exact ⟨_, rfl⟩

/-! ## Strip stores (R205) -/

/-- What O36 says of one strip store, whose sectors are x and whose run-time counts `limits`. -/
theorem stripStore_stores {s : State} {hid : Nat} {h : Hart} {c c1 : Command} {i : Instr}
    {prep : Hart → Command → List Nat → Except Stop Command} {counts : Command → Nat → List Nat}
    {src : Command → Sectors} {limits : Nat → List Nat} {x : Sectors} (hd : Head s .st hid h c)
    (hi : exec i s = stripStore c.t s prep counts src)
    (hp : Passes h (c.atIssue s h) c1 (prep h (c.atIssue s h) ((c.atIssue s h).rows h)) (fun j =>
      (∀ n ∈ limits j, n ≤ 2 ^ 24) ∧ x.check s h .w j = .ok () ∧ queueCheck s h c.t.a.toNat j false = .ok ()))
    (hshape : WithSomeOffsets (c.atIssue s h) c1) (hx : src c1 = x) (hlim : counts c1 = limits)
    (hcount : ∀ ds ts fl, (src { c1 with rowDone := ds, touched := ts, flags := fl }).count = (src c1).count) :
    ((∀ j ∈ c1.rows h, x.count j ≤ c1.doneOf j) → Ran s hid .st c1 c1.flags (exec i s)) ∧
    (∀ s' j p e, unitOf h c1 x.count j → ((s.core (h.coreOf j)).queue c.t.a.toNat).strips ≠ [] →
      stripUnit h c1 x j (c1.doneOf j) s = .ok (s', p, e) → s'.storeBarred h c1 [p] = false →
      UnitRan (((((s'.storeAll hid h c1 [p]).1.pop (h.coreOf j) c.t.a.toNat).modHart hid
          (fun g => { g with csr := { g.csr with srseed := e.sr } })).markTask hid)) hid .st h
        { (s'.storeAll hid h c1 [p]).2 with flags := (s'.storeAll hid h c1 [p]).2.flags ||| e.flags } j x.count
        (exec i s)) := by
  subst hx hlim
  obtain ⟨o, ho⟩ := hshape
  have hrows : c1.rows h = (c.atIssue s h).rows h := by rw [ho]; rfl
  have hcheck := checked_of_passes hp (check := do
      let c2 ← prep h (c.atIssue s h) ((c.atIssue s h).rows h)
      checkRowsOf c2 ((c.atIssue s h).rows h) (fun j => do
        checkAll (countCheck j) (counts c2 j)
        (src c2).check s h .w j
        queueCheck s h c.t.a.toNat j false)) (fun hf hok => by
    rw [hf]
    exact checkRowsOf_ok (fun j hj => by
      obtain ⟨hn, hx, hq⟩ := hok j hj
      rw [checkAll_ok (fun n hm => countCheck_ok (hn n hm)), hx, hq]
      rfl))
  rw [hi, stripStore, engineOp_of_head hd]
  simp only [atIssue_t]
  refine ⟨fun hnone => ?_, fun s' j p e hj hne hu hbar => ?_⟩
  · exact ran_of_noUnits hcheck (by rw [← hrows]; exact hnone)
  · obtain ⟨fl, hfl⟩ := storeAll_shape s' hid h c1 [p]
    have hne' : ((s.core (h.coreOf j)).queue c.t.a.toNat).strips.isEmpty = false := by simpa using hne
    rw [hfl]
    refine unitRan_of_unit hcheck hrows rfl hj ?_ (by rw [ho]; exact head_done hd) hrows rfl
      (fun ds ts => hcount ds ts _)
    simp only [hne', Bool.false_eq_true, if_false, hu, hbar, hfl]

/-- The same of a form that reads nothing before its checks. -/
theorem plainStore_stores {s s' : State} {hid : Nat} {h : Hart} {c c1 : Command} {i : Instr} {j : Nat}
    {counts : Command → Nat → List Nat} {src : Command → Sectors} {limits : Nat → List Nat} {x : Sectors}
    (hd : Head s .st hid h c) (hi : exec i s = stripStore c.t s noPrep counts src) (hx : src (c.atIssue s h) = x)
    (hlim : counts (c.atIssue s h) = limits)
    (hcount : ∀ ds ts fl, (src { c.atIssue s h with rowDone := ds, touched := ts, flags := fl }).count =
      (src (c.atIssue s h)).count)
    (hp : Passes h (c.atIssue s h) c1 (.ok (c.atIssue s h)) (fun j =>
      (∀ n ∈ limits j, n ≤ 2 ^ 24) ∧ x.check s h .w j = .ok () ∧ queueCheck s h c.t.a.toNat j false = .ok ())) :
    ((∀ j ∈ c1.rows h, x.count j ≤ c1.doneOf j) → Ran s hid .st c1 c1.flags (exec i s)) ∧
    (∀ p e, unitOf h c1 x.count j → ((s.core (h.coreOf j)).queue c.t.a.toNat).strips ≠ [] →
      stripUnit h c1 x j (c1.doneOf j) s = .ok (s', p, e) → s'.storeBarred h c1 [p] = false →
      UnitRan (((((s'.storeAll hid h c1 [p]).1.pop (h.coreOf j) c.t.a.toNat).modHart hid
          (fun g => { g with csr := { g.csr with srseed := e.sr } })).markTask hid)) hid .st h
        { (s'.storeAll hid h c1 [p]).2 with flags := (s'.storeAll hid h c1 [p]).2.flags ||| e.flags } j x.count
        (exec i s)) := by
  obtain rfl : c1 = c.atIssue s h := passes_noPrep hp
  have hm := stripStore_stores hd hi hp ⟨_, rfl⟩ hx hlim hcount
  exact ⟨hm.1, hm.2 s' j⟩

/-! ## SACC (R207) -/

/-- A unit of SACC, its tiles taken into use, stores its sectors. -/
theorem unitRan_sacc {s s' : State} {hid : Nat} {h : Hart} {c : Command} {j : Nat} {ps : List Pending} {fl : Flags}
    {sr : BitVec 32} (hd : Head s .st hid h c)
    (hheld : ∀ i ∈ (c.atIssue s h).rows h, s.tileHeld h.ctx (h.coreOf i) c.t.a.toNat = false)
    (hp : Passes h (c.atIssue s h) (c.atIssue s h) (.ok (c.atIssue s h)) (fun j =>
      saccCheck (((c.atIssue s h).rows h).foldl (fun s j => s.useTile h (h.coreOf j) c.t.a.toNat) s) h (c.atIssue s h)
        j =
        .ok ()))
    (hj : unitOf h (c.atIssue s h) (fun _ => c.t.len.toNat) j)
    (hu : saccUnit h (c.atIssue s h) j ((c.atIssue s h).doneOf j)
      (((c.atIssue s h).rows h).foldl (fun s j => s.useTile h (h.coreOf j) c.t.a.toNat) s) = .ok (s', ps, fl, sr))
    (hbar : s'.storeBarred h (c.atIssue s h) ps = false) :
    UnitRan (((s'.storeAll hid h (c.atIssue s h) ps).1.modHart hid
        (fun g => { g with csr := { g.csr with srseed := sr } })).markTask hid) hid .st h
      { (s'.storeAll hid h (c.atIssue s h) ps).2 with flags := (s'.storeAll hid h (c.atIssue s h) ps).2.flags ||| fl } j
      (fun _ => c.t.len.toNat) (exec (.sacc c.t) s) := by
  obtain ⟨f, hf⟩ := storeAll_shape s' hid h (c.atIssue s h) ps
  have hany : ((c.atIssue s h).rows h).any (fun j => s.tileHeld h.ctx (h.coreOf j) c.t.a.toNat) = false :=
    List.any_eq_false.mpr (fun i hi => by simp [hheld i hi])
  rw [show exec (.sacc c.t) s = execSacc c.t s from rfl, execSacc, engineOp_of_head hd]
  simp only [atIssue_t, hany, Bool.false_eq_true, if_false]
  rw [hf]
  refine unitRan_of_unit (rows_checked hp) rfl (by simp only [atIssue_t]) hj ?_ (head_done hd) rfl rfl
    (fun _ _ => by simp only [atIssue_t])
  rw [hu]
  simp only [hbar, Bool.false_eq_true, if_false, hf]

/-! ## STAG and FESET (R208, R209) -/

/-- A unit of STAG or FESET stores what it makes of its sector. -/
theorem unitRan_retag {s s' u : State} {hid : Nat} {h : Hart} {c : Command} {i : Instr} {j dpa : Nat} {l : Loc}
    {pre : Command → Nat → Except Stop Unit} {store : State → Hart → Command → Nat → Nat → Loc → Except Cause State}
    (hd : Head s .st hid h c) (hi : exec i s = retagStore c.t s pre store)
    (hp : Passes h (c.atIssue s h) (c.atIssue s h) (.ok (c.atIssue s h)) (fun j =>
      pre (c.atIssue s h) j = .ok () ∧ (sstSectors (c.atIssue s h)).check s h .w j = .ok ()))
    (hj : unitOf h (c.atIssue s h) (fun _ => c.t.len.toNat) j)
    (hl : s.unitLoc h j .w ((sstSectors (c.atIssue s h)).addr j ((c.atIssue s h).doneOf j)) = .ok (s', dpa, l))
    (hw : h.engineWaits .st j dpa (c.atIssue s h).order = false)
    (hs : store s' h (c.atIssue s h) j dpa l = .ok u) :
    UnitRan (u.markTask hid) hid .st h (c.atIssue s h) j (fun _ => c.t.len.toNat) (exec i s) := by
  have hcheck := checked_of_passes hp (check := checkRowsOf (c.atIssue s h) ((c.atIssue s h).rows h) (fun j => do
      pre (c.atIssue s h) j
      (sstSectors (c.atIssue s h)).check s h .w j)) (fun _ hok =>
    checkRowsOf_ok (fun j hj => by rw [(hok j hj).1, (hok j hj).2]; rfl))
  rw [hi, retagStore, engineOp_of_head hd]
  refine unitRan_of_unit hcheck rfl (by simp only [sstSectors, atIssue_t]) hj ?_ (head_done hd) rfl rfl
    (fun _ _ => by simp only [sstSectors, atIssue_t])
  simp only [hl, hw, Bool.false_eq_true, if_false, hs]

theorem sstSectors_atIssue (s : State) (h : Hart) (c : Command) : sstSectors (c.atIssue s h) =
    { spad := false, count := fun _ => c.t.len.toNat,
      addr := fun j k => ((c.atIssue s h).capt j).d + BitVec.ofNat 64 (256 * k) + BitVec.ofNat 64 j * c.stride } := by
  simp only [sstSectors, Command.va, atIssue_t, atIssue_stride]

/-- What FESET makes of a sector. -/
def fesetStore (s : State) (h : Hart) (c : Command) (j dpa : Nat) (l : Loc) : Except Cause State :=
  if c.t.mod.getLsbD 0 then
    .ok (s.putSector h j dpa l { s.readSector l with tag := mkTag clsFfull 7 4 0, bmeta := 0 })
  else .ok (s.storeSector h j dpa l { tag := mkTag clsFempty 7 4 0, bmeta := 0, data := 0 })

/-- FESET, which checks its sectors alone. -/
theorem unitRan_feset {s s' u : State} {hid : Nat} {h : Hart} {c : Command} {j dpa : Nat} {l : Loc}
    (hd : Head s .st hid h c)
    (hp : Passes h (c.atIssue s h) (c.atIssue s h) (.ok (c.atIssue s h)) (fun j =>
      (sstSectors (c.atIssue s h)).check s h .w j = .ok ()))
    (hj : unitOf h (c.atIssue s h) (fun _ => c.t.len.toNat) j)
    (hl : s.unitLoc h j .w ((sstSectors (c.atIssue s h)).addr j ((c.atIssue s h).doneOf j)) = .ok (s', dpa, l))
    (hw : h.engineWaits .st j dpa (c.atIssue s h).order = false)
    (hs : fesetStore s' h (c.atIssue s h) j dpa l = .ok u) :
    UnitRan (u.markTask hid) hid .st h (c.atIssue s h) j (fun _ => c.t.len.toNat) (exec (.feset c.t) s) :=
  unitRan_retag (pre := fun _ _ => .ok ()) (store := fesetStore) hd rfl
    (hp.imp_right (fun ⟨hi, hc, hok⟩ => ⟨hi, hc, fun j hj => ⟨rfl, hok j hj⟩⟩)) hj hl hw hs

/-- Settles O36. -/
theorem streamStores : Obligations.StreamStores := by
  unfold Obligations.StreamStores
  intro s s' hid h c c1 j ps fl sr hd c0 q die n end_ stores sst
  have hsst : sstSectors c0 = sst := sstSectors_atIssue s h c
  refine ⟨?_, ?_, ?_, fun hp => ?_, ?_, ?_, rfl, ?_⟩
  · exact plainStore_stores (i := .sst c.t) (src := sstSectors) (counts := fun _ _ => []) hd rfl hsst rfl
      (fun _ _ _ => rfl)
  · exact plainStore_stores (i := .ssts c.t) (src := sstsSectors) (counts := fun _ _ => []) hd rfl
      (by simp only [sstsSectors, Command.va, atIssue_t, atIssue_stride]; rfl) rfl (fun _ _ _ => rfl)
  · exact plainStore_stores (i := .sst2 c.t) (src := sst2Sectors) hd rfl
      (by simp only [sst2Sectors, Command.va, atIssue_t, atIssue_stride]; rfl) rfl (fun _ _ _ => rfl)
  · obtain ⟨o, rfl⟩ := passes_shape hp withOffsets_shape
    have hm := stripStore_stores (i := .sscat c.t) (src := sscatSectors) (counts := fun _ _ => []) hd rfl hp ⟨o, rfl⟩
      (by simp only [sscatSectors, Command.va, c0, atIssue_stride]; rfl) rfl (fun _ _ _ => rfl)
    exact ⟨hm.1, hm.2 s' j⟩
  · exact plainStore_stores (i := .sspx c.t) (src := sspxSectors) (counts := fun _ _ => []) hd rfl
      (by simp only [sspxSectors, atIssue_t]; rfl) rfl (fun _ _ _ => rfl)
  · intro hheld t hp hj hu hbar y
    exact unitRan_sacc hd hheld hp hj hu hbar
  · intro dpa l hj hl hw ran
    have hl' : s.unitLoc h j .w ((sstSectors c0).addr j (c0.doneOf j)) = .ok (s', dpa, l) := by rw [hsst]; exact hl
    refine ⟨?_, fun hp => ⟨fun hm => ?_, fun hm => ?_⟩⟩
    · intro hp y hy
      refine unitRan_retag (i := .stag c.t) (pre := stagCheck) hd rfl (by rw [hsst]; exact hp) hj hl' hw ?_
      rw [storable, if_neg (by rw [hy]; nofun)]
    · exact unitRan_feset hd (by rw [hsst]; exact hp) hj hl' hw (if_neg (by rw [atIssue_t, hm]; nofun))
    · exact unitRan_feset hd (by rw [hsst]; exact hp) hj hl' hw (if_pos (by rw [atIssue_t, hm]))

end Sys2Proof.StreamStore
end

section
/-! PROOFS. Array commands in their rows (R212, R218 to R225, R228). -/

namespace Sys2Proof.ArrayStart

open Sys2Proof Sys2Proof.Machine Sys2Proof.Claim Sys2Proof.Laws Sys2Proof.EngineTurns Sys2Proof.VectorTransfer

-- One proof is checked at a time: this keeps the check of the whole text within its memory.
set_option Elab.async false

@[simp] theorem atIssue_recording (c : Command) (s : State) (h : Hart) :
    (c.atIssue s h).recording = c.recording := by
  unfold Command.atIssue
  split <;> rfl

/-! ## A row of an array command starts (R212, R218, R220, R230) -/

/-- A started row: the turn that its start ends, with what is left to the command's completion where it was the last. -/
def startedTurn (u : State) (h : Hart) (c : Command) (rings : List Nat) (tape : Option TapeRecord) : Turn :=
  if c.rowsLeft h = [] then .ran u c (c.arrayEnd h rings tape) else .more u c

theorem startRow_made {s t : State} {h : Hart} {c : Command} {j : Nat} {rings : List Nat} {r : ArrayRes}
    {tape : Option TapeRecord} {f : State → Nat → Except Stop (State × ArrayRes)} (hf : f s j = .ok (t, r))
    (ht : t.tileCheck h c = .ok ()) (hr : t.makeRecord h c (c.rows h) r.res.tag r.srcs = .ok tape) :
    startRow s h c j rings f = startedTurn (t.startArray h (h.coreOf j)) h (c.start j r.res) rings tape := by
  simp only [startRow, hf, ht, hr, bind, Except.bind, pure, Except.pure, List.isEmpty_iff, startedTurn]

/-- The first row that may start does, where no row lacks its lease or a good ring. -/
theorem arrayTurn_starts {s : State} {hid : Nat} {h : Hart} {c : Command} {j : Nat} {rings tiles : List Nat}
    {check : Except Stop Unit} {f : State → Nat → Except Stop (State × ArrayRes)}
    (hlease : ∀ i ∈ c.rowsLeft h, (s.leaseOf h (h.coreOf i)).state ≠ .none)
    (hrings : ∀ g ∈ rings, ∀ i ∈ c.rowsLeft h, ringCheck s h i g = none)
    (hfind : (c.rowsLeft h).find? (fun i => s.mayStart hid h i && s.headsFull h rings i
      && !tiles.any (s.tileHeld h.ctx (h.coreOf i))) = some j)
    (hcheck : (if c.issued then .ok () else check) = .ok ()) :
    arrayTurn s hid h c rings tiles check f = startRow (s.useTiles h [j] tiles) h c j rings f := by
  have hl : s.leaseFault h (c.rowsLeft h) = none :=
    List.find?_eq_none.mpr (fun i hi => by simpa using hlease i hi)
  have hg : rings.findSome? (fun g => ringFault s h g (c.rowsLeft h)) = none :=
    List.findSome?_eq_none_iff.mpr (fun g hg => List.findSome?_eq_none_iff.mpr (fun i hi => by
      rw [hrings g hg i hi, Option.map_none]))
  simp only [arrayTurn, hl, hg, hcheck, hfind]

/-- The outcome of a turn in which a row has started. -/
theorem turnOut_started (s u : State) (hid : Nat) (h : Hart) (c : Command) (rings : List Nat)
    (tape : Option TapeRecord) :
    turnOut hid .mx s (startedTurn u h c rings tape) =
      if c.rowsLeft h = [] then ranWith u hid .mx c (c.arrayEnd h rings tape) else goes (u.issue hid .mx c) := by
  unfold startedTurn
  split <;> rfl

/-- What is asked of a turn of an array command with its rings and tiles for row j to start (R212, R218). -/
def StartsIn (s : State) (hid : Nat) (h : Hart) (c : Command) (j : Nat) (rings tiles : List Nat) : Prop :=
  (∀ g ∈ rings, ∀ i ∈ c.rowsLeft h, ringCheck s h i g = none) ∧
    (c.rowsLeft h).find? (fun i => s.mayStart hid h i && s.headsFull h rings i
      && !tiles.any (s.tileHeld h.ctx (h.coreOf i))) = some j

/-- The outcome of a start of row j in state t with result r. -/
def StartOut (t : State) (hid : Nat) (h : Hart) (c : Command) (j : Nat) (rings : List Nat) (r : ArrayRes)
    (tape : Option TapeRecord) (o : Out) : Prop :=
  o = if (c.start j r.res).rowsLeft h = [] then
      ranWith (t.startArray h (h.coreOf j)) hid .mx (c.start j r.res) ((c.start j r.res).arrayEnd h rings tape)
    else goes ((t.startArray h (h.coreOf j)).issue hid .mx (c.start j r.res))

section
variable {s t : State} {hid : Nat} {h : Hart} {c : Command} {j : Nat} {tape : Option TapeRecord} {i : Instr} {r :
  ArrayRes}

/-- An array command whose row's function gives r starts the row. -/
theorem starts_of_row {rings tiles : List Nat} {ringsOf tilesOf : Command → List Nat}
    {f : Hart → Command → State → Nat → Except Stop ArrayRes} (hd : Head s .mx hid h c)
    (hlease : ∀ i ∈ (c.atIssue s h).rowsLeft h, (s.leaseOf h (h.coreOf i)).state ≠ .none)
    (hi : exec i s = arrayOp c.t s ringsOf tilesOf f)
    (hrings : ringsOf (c.atIssue s h) = rings) (htiles : tilesOf (c.atIssue s h) = tiles)
    (hturn : StartsIn s hid h (c.atIssue s h) j rings tiles)
    (hf : f h (c.atIssue s h) (s.useTiles h [j] tiles) j = .ok r)
    (ht : (s.useTiles h [j] tiles).tileCheck h (c.atIssue s h) = .ok ())
    (hr : (s.useTiles h [j] tiles).makeRecord h (c.atIssue s h) ((c.atIssue s h).rows h) r.res.tag r.srcs = .ok tape) :
    StartOut (s.useTiles h [j] tiles) hid h (c.atIssue s h) j rings r tape (exec i s) := by
  subst hrings htiles
  obtain ⟨hg, hfind⟩ := hturn
  rw [StartOut, hi, arrayOp, engineOp_of_head hd]
  rw [arrayTurn_starts hlease hg hfind (by split <;> rfl),
    startRow_made (t := s.useTiles h [j] (tilesOf (c.atIssue s h))) (r := r) (by rw [hf]; rfl) ht hr, turnOut_started]

/-- TLOADA, whose rows have passed their checks, starts the row whose sources it reads. -/
theorem tloada_starts (hd : Head s .mx hid h c)
    (hlease : ∀ i ∈ (c.atIssue s h).rowsLeft h, (s.leaseOf h (h.coreOf i)).state ≠ .none)
    (hturn : StartsIn s hid h (c.atIssue s h) j [] [c.t.d.toNat])
    (hcheck : (c.atIssue s h).issued = true ∨
      ∀ i ∈ (c.atIssue s h).rowsLeft h, tloadaCheck s h (c.atIssue s h) i = .ok ())
    (hf : tloadaTile (s.useTiles h [j] [c.t.d.toNat]) h (c.atIssue s h) j = .ok (t, r))
    (ht : t.tileCheck h (c.atIssue s h) = .ok ())
    (hr : t.makeRecord h (c.atIssue s h) ((c.atIssue s h).rows h) r.res.tag r.srcs = .ok tape) :
    StartOut t hid h (c.atIssue s h) j [] r tape (exec (.tloada c.t) s) := by
  obtain ⟨hg, hfind⟩ := hturn
  have hpass : (if (c.atIssue s h).issued then .ok ()
      else checkAll (tloadaCheck s h (c.atIssue s h)) ((c.atIssue s h).rowsLeft h)) = .ok () := by
    split
    · rfl
    · next hi => exact checkAll_ok (hcheck.resolve_left hi)
  rw [StartOut, show exec (.tloada c.t) s = execTloada c.t s from rfl, execTloada, engineOp_of_head hd]
  rw [atIssue_t, arrayTurn_starts hlease hg hfind hpass, startRow_made hf ht hr, turnOut_started]
end

/-! ## The functions of a row (R219, R223, R224) -/

theorem tileKind_none {tag : BitVec 24} : tileKind tag = none ↔ tagCls tag = 0 := by
  unfold tileKind
  split <;> simp [*]

/-- Kinds that go together. -/
theorem sharedKind_pair {x y : Option Bool} (h : x = none ∨ y = none ∨ x = y) : sharedKind [x, y] = .ok (x.or y) := by
  obtain rfl | rfl | rfl := h
  · rfl
  · cases x <;> rfl
  · cases x with
    | none => rfl
    | some b => simp [sharedKind, bind, Except.bind, pure, Except.pure]

theorem tmmaRow_ok {t : State} {h : Hart} {c : Command} {j : Nat} {x y : HeadTile} {r : TileRes}
    (hx : t.operandTile h c j c.t.a.toNat = .ok x) (hy : t.operandTile h c j c.t.b.toNat = .ok y)
    (hr : t.matrixSum h c j x y = .ok r) :
    tmmaRow h c t j = .ok { res := r, srcs := [ringSource h c.t.a.toNat x, ringSource h c.t.b.toNat y] } := by
  simp only [tmmaRow, hx, hy, hr, atRow, bind, Except.bind, pure, Except.pure]

theorem binRow_ok {t : State} {h : Hart} {c : Command} {j : Nat} (f : Exact → Exact → Exact × Flags)
    (g : Int → Int → Int)
    (hk : tileKind (t.tileTag (h.coreOf j) c.t.a.toNat) = none ∨ tileKind (t.tileTag (h.coreOf j) c.t.b.toNat) = none ∨
      tileKind (t.tileTag (h.coreOf j) c.t.a.toNat) = tileKind (t.tileTag (h.coreOf j) c.t.b.toNat)) :
    binRow f g h c t j = .ok
      { srcs := [t.tileSource h (h.coreOf j) c.t.a.toNat (c.t.a.toNat == c.t.d.toNat),
          t.tileSource h (h.coreOf j) c.t.b.toNat (c.t.b.toNat == c.t.d.toNat)],
        res := match (tileKind (t.tileTag (h.coreOf j) c.t.a.toNat)).or
            (tileKind (t.tileTag (h.coreOf j) c.t.b.toNat)) with
          | none => TileRes.zero
          | some int => zipTiles int f g (t.tileVals (h.coreOf j) c.t.a.toNat) (t.tileVals (h.coreOf j) c.t.b.toNat) }
            := by
  simp only [binRow, sharedKind_pair hk, atRow, bind, Except.bind, pure, Except.pure] <;> rfl

theorem unaryRow_ok {t : State} {h : Hart} {c : Command} {j : Nat} (floats keepZero : Bool)
    (f : Bool → BitVec 24 → List (List Exact) → TileRes) (more : Command → State → Nat → TileRes → List Source)
    (hk : floats = true → tileKind (t.tileTag (h.coreOf j) c.t.a.toNat) ≠ some true) :
    let tag := t.tileTag (h.coreOf j) c.t.a.toNat
    let r := if tileKind tag = none ∧ keepZero = true then TileRes.zero
      else f (tileKind tag == some true) tag (t.tileVals (h.coreOf j) c.t.a.toNat)
    unaryRow floats keepZero f more h c t j = .ok
      { res := r, srcs := t.tileSource h (h.coreOf j) c.t.a.toNat (c.t.a.toNat == c.t.d.toNat) :: more c t j r } := by
  intro tag r
  have hno : (floats && tileKind tag == some true) = false := by
    cases floats with
    | false => rfl
    | true => simpa using hk rfl
  have hz : (decide (tagCls tag = 0) && keepZero) = decide (tileKind tag = none ∧ keepZero = true) := by
    simp [tileKind_none]
  simp only [unaryRow, bind, Except.bind, pure, Except.pure]
  rw [if_neg (by rw [show _ = false from hno]; nofun)]
  rw [show (decide (tagCls (t.tileTag (h.coreOf j) c.t.a.toNat) = 0) && keepZero) = _ from hz]
  simp only [decide_eq_true_eq] <;> rfl

theorem codeRow_ok (t : State) (h : Hart) (c : Command) (j : Nat) (f : BitVec 24 → List (List Nat) → TileRes) :
    codeRow f h c t j = .ok
      { res := if tileKind (t.tileTag (h.coreOf j) c.t.a.toNat) = none then TileRes.zero
          else f (t.tileTag (h.coreOf j) c.t.a.toNat) (t.tileRows (h.coreOf j) c.t.a.toNat),
        srcs := [t.tileSource h (h.coreOf j) c.t.a.toNat (c.t.a.toNat == c.t.d.toNat)] } := by
  simp only [codeRow, tileKind_none]

/-- TCOPY of a row. -/
def copyRow (h : Hart) (c : Command) (s : State) (j : Nat) : Except Stop ArrayRes :=
  .ok { res := { tag := s.tileTag (h.coreOf j) c.t.a.toNat, rows := s.tileRows (h.coreOf j) c.t.a.toNat, fl := 0 },
        srcs := [s.tileSource h (h.coreOf j) c.t.a.toNat (c.t.a.toNat == c.t.d.toNat)] }

/-- A product of one format, with the tile's kind, is summed. -/
theorem matrixSum_ok {t : State} {h : Hart} {c : Command} {j : Nat} {x y : HeadTile}
    (hxy : x.fmt.map (·.1) = y.fmt.map (·.1))
    (hk : tileKind (t.tileTag (h.coreOf j) c.t.d.toNat) = none ∨ x.fmt = none ∨
      tileKind (t.tileTag (h.coreOf j) c.t.d.toNat) = x.fmt.map (fun z => fmtInt z.1)) :
    ∃ r, t.matrixSum h c j x y = .ok r := by
  cases hx : x.fmt with
  | none =>
    have hy : y.fmt.map (fun z => z.1) = none := by rw [← hxy, hx]; rfl
    simp only [State.matrixSum, hx, hy, Option.map_none, bind, Except.bind, pure, Except.pure, Option.toList_none,
      List.append_nil, List.head?_nil]
    split
    · exact ⟨_, rfl⟩
    · split <;> exact ⟨_, rfl⟩
  | some z =>
    have hy : y.fmt.map (fun z => z.1) = some z.1 := by rw [← hxy, hx]; rfl
    have hp : promote c.prt z.1 z.1 = .ok (z.1, 0) := if_pos (beq_self_eq_true _)
    have hno : (!(tagCls (t.tileTag (h.coreOf j) c.t.d.toNat) == 0) &&
        fmtInt (tagFmt (t.tileTag (h.coreOf j) c.t.d.toNat)) != fmtInt z.1) = false := by
      rw [hx] at hk
      obtain hn | hn | hn := hk
      · simp [tileKind_none.mp hn]
      · cases hn
      · unfold tileKind at hn
        split at hn
        · cases hn
        · simpa using fun _ => Option.some.inj hn
    simp only [State.matrixSum, hx, hy, Option.map_some, hp, Except.map, bind, Except.bind, pure, Except.pure, hno,
      Bool.false_eq_true, if_false]
    exact ⟨_, rfl⟩

/-- Sectors that read so open one after the other. -/
theorem mapM_readsAs {c : Command} {f : BitVec 5} {w : BitVec 3} {xs : List Sector}
    (hx : ∀ x ∈ xs, ReadsAs c f w x) : ∃ os, xs.mapM (openScaled c.reader) = .ok os ∧ AllRead f w os := by
  induction xs with
  | nil => exact ⟨[], rfl, fun o ho => by cases ho⟩
  | cons x xs ih =>
    obtain ⟨o, ho, hz, hf, hw⟩ := hx x (List.mem_cons_self ..)
    obtain ⟨os, hos, hall⟩ := ih (fun y hy => hx y (List.mem_cons_of_mem _ hy))
    refine ⟨o :: os, ?_, fun p hp => ?_⟩
    · simp only [List.mapM_cons, ho, hos, bind, Except.bind, pure, Except.pure]
    · obtain rfl | hp := List.mem_cons.mp hp
      · exact ⟨hz, hf, hw⟩
      · exact hall p hp

theorem sharedKind_allRead {f : BitVec 5} {w : BitVec 3} {os : List Opened} (h : AllRead f w os) :
    sharedKind (os.map (fun o => if o.zero then none else some (fmtInt o.fmt))) = .ok none ∨
    sharedKind (os.map (fun o => if o.zero then none else some (fmtInt o.fmt))) = .ok (some (fmtInt f)) := by
  cases os with
  | nil => exact Or.inl rfl
  | cons o os =>
    right
    have hmap : (o :: os).map (fun o => if o.zero then none else some (fmtInt o.fmt)) =
        List.replicate (os.length + 1) (some (fmtInt f)) :=
      List.eq_replicate_iff.mpr ⟨by simp, fun y hy => by
        obtain ⟨p, hp, rfl⟩ := List.mem_map.mp hy
        simp [(h p hp).1, (h p hp).2.1]⟩
    rw [hmap]
    exact sharedKind_replicate (fmtInt f) os.length

/-- A bias register of one format is taken with its kind. -/
theorem biasOf_ok (t : State) {h : Hart} {c : Command} {j : Nat} {f : BitVec 5} {w : BitVec 3}
    (ho : OperandIs h c f w c.t.b.toNat) (hj : j ∈ c.rows h) :
    ∃ xs b, biasOf t h c j = .ok (xs, b) ∧ (b = none ∨ b = some (fmtInt f)) := by
  obtain ⟨os, hos, hall⟩ := mapM_readsAs (c := c) (f := f) (w := w)
    (xs := (sectorsOf h).map (fun x => (h.row j).vec c.t.b.toNat x)) (fun x hx => by
      obtain ⟨y, hy, rfl⟩ := List.mem_map.mp hx
      exact ho j hj y (List.mem_range.mp hy))
  obtain ⟨b, hb, hbk⟩ : ∃ b, sharedKind (os.map (fun o => if o.zero then none else some (fmtInt o.fmt))) = .ok b ∧
      (b = none ∨ b = some (fmtInt f)) :=
    (sharedKind_allRead hall).elim (fun he => ⟨_, he, Or.inl rfl⟩) (fun he => ⟨_, he, Or.inr rfl⟩)
  simp only [biasOf, hos, hb, bind, Except.bind, pure, Except.pure]
  split
  · exact ⟨_, _, rfl, Or.inl rfl⟩
  · next o ho =>
    have hcw : ∀ p ∈ os, p.cw = o.cw := fun p hp =>
      (hall p hp).2.2.trans (hall o (List.mem_of_find?_eq_some ho)).2.2.symm
    rw [if_neg (by simpa using fun p hp _ => hcw p hp)]
    exact ⟨_, _, rfl, hbk⟩

theorem tbiasRow_ok {t : State} {h : Hart} {c : Command} {j : Nat} {f : BitVec 5} {w : BitVec 3}
    (ho : OperandIs h c f w c.t.b.toNat) (hj : j ∈ c.rows h)
    (hk : tileKind (t.tileTag (h.coreOf j) c.t.a.toNat) = none ∨
      tileKind (t.tileTag (h.coreOf j) c.t.a.toNat) = some (fmtInt f)) : ∃ r, tbiasRow h c t j = .ok r := by
  obtain ⟨xs, b, hb, hbk⟩ := biasOf_ok t ho hj
  have hpair : tileKind (t.tileTag (h.coreOf j) c.t.a.toNat) = none ∨ b = none ∨
      tileKind (t.tileTag (h.coreOf j) c.t.a.toNat) = b := by
    obtain hz | hz := hk
    · exact Or.inl hz
    · exact Or.inr (hbk.imp_right (fun hb => hz.trans hb.symm))
  simp only [tbiasRow, hb, sharedKind_pair hpair, atRow, bind, Except.bind, pure, Except.pure]
  exact ⟨_, rfl⟩

/-- Settles O38. -/
theorem arrayResults : Obligations.ArrayResults := by
  unfold Obligations.ArrayResults
  intro s s' hid h c j tape hd k hlease core a b d turn starts makes kind two one codes each m
  have hstart {i : Instr} {rings tiles : List Nat} {ringsOf tilesOf : Command → List Nat}
      {f : Hart → Command → State → Nat → Except Stop ArrayRes} (hi : exec i s = arrayOp c.t s ringsOf tilesOf f)
      (hr : ringsOf k = rings) (hts : tilesOf k = tiles) (hturn : turn rings tiles) {r : ArrayRes}
      (hf : f h k (s.useTiles h [j] tiles) j = .ok r) : starts i rings (s.useTiles h [j] tiles) r :=
    fun hc hm => starts_of_row hd hlease hi hr hts hturn hf hc hm
  have htwo {i : Instr} (f : Exact → Exact → Exact × Flags) (g : Int → Int → Int)
      (hi : exec i s = tileOp2 c.t s (binRow f g)) : two i f g := by
    intro hturn hok
    have hf := binRow_ok (t := s.useTiles h [j] [a, b, d]) (h := h) (c := k) (j := j) f g
      (by rw [atIssue_t]; exact hok)
    rw [atIssue_t] at hf
    exact hstart hi rfl (by rw [atIssue_t]) hturn hf
  have hone {i : Instr} {floats keepZero : Bool} {more : TileRes → List Source}
      {more' : Command → State → Nat → TileRes → List Source} {f : Bool → List (List Exact) → TileRes}
      {f' : Hart → Command → State → Nat → Except Stop ArrayRes} (hi : exec i s = tileOp c.t s f')
      (hf' : ∀ t, f' h k t j = unaryRow floats keepZero (fun int _ v => f int v) more' h k t j)
      (hm : ∀ t r, more' k t j r = more r) : one i floats keepZero more f := by
    intro hturn hok
    have hf := unaryRow_ok (t := s.useTiles h [j] [a, d]) (h := h) (c := k) (j := j) floats keepZero
      (fun int _ v => f int v) more' (by rw [atIssue_t]; exact hok)
    rw [← hf', atIssue_t] at hf
    simp only [hm] at hf
    exact hstart hi rfl (by rw [atIssue_t]) hturn hf
  have hcodes {i : Instr} {f : BitVec 24 → List (List Nat) → TileRes}
      {f' : Hart → Command → State → Nat → Except Stop ArrayRes} (hi : exec i s = tileOp c.t s f')
      (hf' : ∀ t, f' h k t j = codeRow f h k t j) : codes i f := by
    intro hturn _
    have hf := codeRow_ok (s.useTiles h [j] [a, d]) h k j f
    rw [← hf', atIssue_t] at hf
    exact hstart hi rfl (by rw [atIssue_t]) hturn hf
  refine ⟨?_, ?_, htwo _ _ rfl, htwo _ _ rfl, htwo _ _ rfl, ?_, ?_, ?_, ?_, ?_, ?_, ?_, ?_, ?_, ?_, ?_, ?_, ?_⟩
  · intro x y r hturn t hx hy
    refine ⟨fun hr => ?_, fun ⟨hfmt, hkind⟩ => ?_⟩
    · have hf := tmmaRow_ok (c := k) (j := j) (t := t) (x := x) (y := y) (r := r) (by rw [atIssue_t]; exact hx)
        (by rw [atIssue_t]; exact hy) hr
      rw [atIssue_t] at hf
      exact hstart (i := .tmma c.t) (ringsOf := fun c => [c.t.a.toNat, c.t.b.toNat]) (tilesOf := fun c => [c.t.d.toNat])
        (f := tmmaRow) rfl (by rw [atIssue_t]) (by rw [atIssue_t]) hturn hf
    · have hkind' := hkind
      simp only [kind, core, d] at hkind'
      exact matrixSum_ok (t := t) (h := h) (c := k) (j := j) hfmt (by rw [atIssue_t]; exact hkind')
  · intro hturn _
    exact hstart (i := .tzero c.t) (ringsOf := fun _ => []) (tilesOf := fun c => [c.t.d.toNat])
      (f := fun _ _ _ _ => .ok { res := TileRes.zero, srcs := [] }) rfl rfl
      (by rw [atIssue_t]) hturn rfl
  · refine hone (i := .tscl c.t) (floats := true) (keepZero := true)
      (more := fun _ =>
        [{ kind := 5, loc := tsclScalar k j, ref := 0, tag := 0, mode := 3, own := false, payload := [] }])
      (f := fun _ v => each (fun e => mulE e (fp32.decode (tsclScalar k j))) v)
      (more' := fun c _ j _ =>
        [{ kind := 5, loc := tsclScalar c j, ref := 0, tag := 0, mode := 3, own := false, payload := [] }]) (f' :=
          fun h c s j =>
      unaryRow true true (fun _ _ a => joinRows tagFp32 (a.map (fun r => r.map (fun e =>
          floatElem (mulE e (fp32.decode (tsclScalar c j)))))))
        (fun c _ j _ => [{ kind := 5, loc := tsclScalar c j, ref := 0, tag := 0, mode := 3, own := false, payload :=
          [] }])
        h c s j) ?_ (fun _ => rfl) (fun _ _ => rfl)
    rfl
  · intro r hturn hf
    exact hstart (i := .tbias c.t) (ringsOf := fun _ => []) (tilesOf := fun c => [c.t.a.toNat, c.t.d.toNat])
      (f := tbiasRow) rfl rfl (by rw [atIssue_t]) hturn hf
  · intro f w ho hj hk
    exact tbiasRow_ok (by rw [atIssue_t]; exact ho) hj (by rw [atIssue_t]; exact hk)
  · refine hone (i := .tact c.t) (floats := true) (keepZero := decide (m < 4))
      (more := fun r => if 3 ≤ m then [resultSource h d r] else []) (f := fun _ v => each (tactE m) v)
      (more' := fun c _ _ r => if 3 ≤ m then [resultSource h c.t.d.toNat r] else []) (f' := fun h c s j =>
        let m := c.t.mod.toNat % 8
        unaryRow true (m < 4) (fun _ _ a => joinRows tagFp32 (a.map (fun r => r.map (fun e => floatElem (tactE m e)))))
          (fun c _ _ r => if 3 ≤ m then [resultSource h c.t.d.toNat r] else []) h c s j) ?_ (fun _ => ?_)
            (fun _ _ => ?_)
    · rfl
    · dsimp only
      rw [atIssue_t]
    · rw [atIssue_t]
  · exact hone (i := .trsum c.t) (floats := false) (keepZero := true) (more := fun _ => []) (more' := noMore)
      (f := fun int v => inColumn int (lineSum int) v) (f' :=
        unaryRow false true (fun int _ a => inColumn int (lineSum int) a) noMore) rfl
      (fun _ => rfl) (fun _ _ => rfl)
  · exact hone (i := .tcsum c.t) (floats := false) (keepZero := true) (more := fun _ => []) (more' := noMore)
      (f := fun int v => inRow int (lineSum int) v) (f' :=
        unaryRow false true (fun int _ a => inRow int (lineSum int) a) noMore) rfl
      (fun _ => rfl) (fun _ _ => rfl)
  · exact hone (i := .trmax c.t) (floats := false) (keepZero := true) (more := fun _ => []) (more' := noMore)
      (f := fun int v => inColumn int (lineMax int) v) (f' :=
        unaryRow false true (fun int _ a => inColumn int (lineMax int) a) noMore) rfl
      (fun _ => rfl) (fun _ _ => rfl)
  · exact hcodes (i := .ttrans c.t) (f := fun tag v => { tag := tag, rows := transposeRows 0 v, fl := 0 })
      (f' := codeRow (fun tag a => { tag := tag, rows := transposeRows 0 a, fl := 0 })) rfl (fun _ => rfl)
  · exact hcodes (i := .tcvt c.t) (f' := fun h c s j => codeRow (tcvtRows c.t.fmt) h c s j) rfl
      (fun _ => by rw [atIssue_t])
  · intro hturn _
    have hf : copyRow h k (s.useTiles h [j] [a, d]) j = .ok _ := rfl
    rw [atIssue_t] at hf
    exact hstart (i := .tcopy c.t) (ringsOf := fun _ => []) (tilesOf := fun c => [c.t.a.toNat, c.t.d.toNat])
      (f := copyRow) rfl rfl (by rw [atIssue_t]) hturn hf
  · intro r hturn hcheck hf hc hm
    exact tloada_starts hd hlease hturn hcheck hf hc hm
  · intro hrec tag xs
    have hno : (c.atIssue s h).recording = false := (atIssue_recording c s h).trans hrec
    simp only [State.makeRecord, show k.recording = false from hno] <;> rfl
  · intro hclob
    have hfind : (k.rows h).find? (fun i => s'.tileClobber h (h.coreOf i) k.t.d.toNat) = none :=
      List.find?_eq_none.mpr (fun i hi => by rw [atIssue_t, hclob i hi]; nofun)
    simp only [State.tileCheck, hfind]

end Sys2Proof.ArrayStart
end

section
/-! PROOFS. Pairs of rows of TMMAP (R221, R222). -/

namespace Sys2Proof.TilePair

open Sys2Proof Sys2Proof.Machine Sys2Proof.Claim Sys2Proof.Laws Sys2Proof.EngineTurns Sys2Proof.ControlKept

-- One proof is checked at a time: this keeps the check of the whole text within its memory.
set_option Elab.async false

/-! ## A turn of TMMAP (R221, R222) -/

/-- What a turn of TMMAP makes of its rows' pairing. -/
def pairTurn (s : State) (hid : Nat) (c : Command) (u : State) (k : Command) : Out :=
  match k.done with
  | some d => ranWith u hid .mx k d
  | none =>
    if k.started ≠ c.started then goes (u.issue hid .mx k)
    else goes (if k = c ∧ u.pairs = s.pairs then s else u.modHart hid (fun g => g.setHead .mx k))

/-- A TMMAP that has run stands in its queue with its completion. -/
theorem pairTurn_done {s u : State} {hid : Nat} {c k : Command} {d : Completion} (hd : k.done = some d) :
    pairTurn s hid c u k = goes (u.issue hid .mx k) := by
  have hk : { k with done := some d } = k := by rw [← hd]
  rw [pairTurn, hd]
  exact congrArg (fun k => goes (u.issue hid .mx k)) hk

/-- A TMMAP whose rows have their leases, their rings and no spilled tile pairs row by row. -/
theorem tmmap_turn {s u : State} {hid : Nat} {h : Hart} {c k : Command} (hd : Head s .mx hid h c)
    (hok : ∀ i ∈ (c.atIssue s h).rowsLeft h, (s.leaseOf h (h.coreOf i)).state ≠ .none ∧
      s.tileHeld h.ctx (h.coreOf i) c.t.d.toNat = false ∧
      ∀ g, g = c.t.a.toNat ∨ g = c.t.b.toNat → ringCheck s h i g = none)
    (hrec : c.recording = true → ((c.atIssue s h).rows h).length ≤ 1)
    (hp : pairRows hid h ((c.atIssue s h).rowsLeft h) (s.useTiles h ((c.atIssue s h).rows h) [c.t.d.toNat])
      (c.atIssue s h) = .ok u k) :
    exec (.tmmap c.t) s = pairTurn s hid (c.atIssue s h) u k := by
  have hl : s.leaseFault h ((c.atIssue s h).rowsLeft h) = none :=
    List.find?_eq_none.mpr (fun i hi => by simpa using (hok i hi).1)
  have hring (g : Nat) (hg : g = c.t.a.toNat ∨ g = c.t.b.toNat) :
      ringFault s h g ((c.atIssue s h).rowsLeft h) = none :=
    List.findSome?_eq_none_iff.mpr (fun i hi => by rw [(hok i hi).2.2 g hg, Option.map_none])
  have hmany : ((c.atIssue s h).recording && decide (1 < ((c.atIssue s h).rows h).length)) = false := by
    cases hr : (c.atIssue s h).recording with
    | false => rfl
    | true =>
      have := hrec (by rw [← hr]; unfold Command.atIssue; split <;> rfl)
      simpa using this
  have hheld : ((c.atIssue s h).rowsLeft h).any (fun j => s.tileHeld h.ctx (h.coreOf j) c.t.d.toNat) = false :=
    List.any_eq_false.mpr (fun i hi => by simp [(hok i hi).2.1])
  rw [show exec (.tmmap c.t) s = execTmmap c.t s from rfl, execTmmap, engineOp_of_head hd]
  dsimp only
  rw [hl, atIssue_t, hring _ (Or.inl rfl), hring _ (Or.inr rfl)]
  dsimp only
  rw [hmany, hheld, hp]
  unfold pairTurn
  simp only [Bool.false_eq_true, if_false]
  cases hk : k.done with
  | some d => rfl
  | none =>
    by_cases hs : k.started = (c.atIssue s h).started
    · by_cases hkc : k = c.atIssue s h ∧ u.pairs = s.pairs
      · have hb : (k == c.atIssue s h && u.pairs == s.pairs) = true := by simp [hkc]
        simp only [hs, bne_self_eq_false, Bool.false_eq_true, if_false, hb, if_true, ne_eq, not_true_eq_false]
        rw [if_pos hkc] <;> rfl
      · have hb : (k == c.atIssue s h && u.pairs == s.pairs) = false := by
          rw [Bool.eq_false_iff]
          simpa using hkc
        simp only [hs, bne_self_eq_false, Bool.false_eq_true, if_false, hb, ne_eq, not_true_eq_false]
        rw [if_neg hkc] <;> rfl
    · have hb : (k.started != (c.atIssue s h).started) = true := by simpa using hs
      simp only [hb, if_true, ne_eq, hs, not_false_eq_true] <;> rfl

/-! ## One row (R222) -/

/-- A command with one row left, which has its lease and its heads, pairs in that row. -/
theorem pairRows_single {t u : State} {hid : Nat} {h : Hart} {c k : Command} {j : Nat} (hj : c.rowsLeft h = [j])
    (hm : t.mayStart hid h j = true) (hh : t.headsFull h [c.t.a.toNat, c.t.b.toNat] j = true)
    (hp : pairRow t hid h c j = .ok u k) : pairRows hid h [j] t c = .ok u k := by
  have hs : c.startedIn j = false := by
    have := (List.mem_filter.mp (show j ∈ c.rowsLeft h by rw [hj]; exact List.mem_singleton_self j)).2
    simpa using this
  simp only [pairRows, hs, hm, hh, Bool.not_true, Bool.or_self, Bool.false_eq_true, if_false, hp]

theorem pairRow_idle {t : State} {hid : Nat} {h : Hart} {c : Command} {j : Nat} {a b : HeadTile} {g : Group}
    (hg : look t.groups h.group = some g) (hcore : g.hasCore j (h.coreOf j ^^^ 1) = true)
    (ha : t.operandTile h c j c.t.a.toNat = .ok a) (hb : t.operandTile h c j c.t.b.toNat = .ok b)
    (hp : t.pair h (h.coreOf j) = .idle) :
    pairRow t hid h c j = .ok (t.setPair h (h.coreOf j) (.half (h.coreOf j))) (c.arrive j) := by
  simp only [pairRow, hg, hcore, Bool.not_true, Bool.false_eq_true, if_false, ha, hb, hp]

/-- A pair slot that is no longer idle shows in the slots. -/
theorem pairs_setPair_ne {t s : State} {h : Hart} {core : Nat} {p : PairState} (hp : t.pair h core = .idle)
    (hn : p ≠ .idle) (hs : t.pairs = s.pairs) : (t.setPair h core p).pairs ≠ s.pairs := by
  intro he
  have hget : (t.setPair h core p).pair h core = p := by
    simp only [State.pair, State.setPair, putD, if_neg hn, lookD, look_put_same, Option.getD_some]
  have hold : t.pair h core = p := by
    rw [← hget]
    unfold State.pair
    rw [he, hs]
  exact hn (hold.symm.trans hp)

/-- A row that finds its partner's half tries to start both sides. -/
theorem pairRow_half {t : State} {hid yid n row : Nat} {h y : Hart} {c d : Command} {j : Nat} {a b : HeadTile} {g :
    Group}
    (hg : look t.groups h.group = some g) (hcore : g.hasCore j (h.coreOf j ^^^ 1) = true)
    (ha : t.operandTile h c j c.t.a.toNat = .ok a) (hb : t.operandTile h c j c.t.b.toNat = .ok b)
    (hp : t.pair h (h.coreOf j) = .half n) (hn : n ≠ h.coreOf j) (hy : t.partner h j = some (yid, y))
    (hs : t.stopped y = false) (he : t.expired y = false) (hw : y.waitingPair n = some (d, row))
    (hd : d.consumed = true ∨ y.waitsMet .mx d = true) :
    pairRow t hid h c j = pairStart t hid h c j a b yid y d := by
  have hmay : (d.consumed || y.waitsMet .mx d) = true := by simpa using hd
  simp only [pairRow, hg, hcore, Bool.not_true, Bool.false_eq_true, if_false, ha, hb, hp, hn, hy, Option.filter_some,
    hs,
    he, Bool.not_false, Bool.and_self, if_true, Option.bind_some, hw, Option.map_some, hmay]

/-- Both sides of a pair start where both have good operands, one B and their records (R221, R222). -/
theorem pairStart_ok {s : State} {hid yid : Nat} {h y : Hart} {c d : Command} {j : Nat} {a b a' b' x : HeadTile}
    {r1 r2 : TileRes} {t1 t2 : Option TapeRecord}
    (ha : (s.setPair h (h.coreOf j) .idle).operandTile y (d.atIssue s y) j (d.atIssue s y).t.a.toNat = .ok a')
    (hb : (s.setPair h (h.coreOf j) .idle).operandTile y (d.atIssue s y) j (d.atIssue s y).t.b.toNat = .ok b')
    (hx : combineB (if h.coreOf j % 2 = 0 then b else b') (if h.coreOf j % 2 = 0 then b' else b) = .ok x)
    (h1 : pairSide (s.setPair h (h.coreOf j) .idle) h c j a b b' (if h.coreOf j % 2 = 0 then b else b')
      (if h.coreOf j % 2 = 0 then b' else b) = .ok (r1, t1))
    (h2 : pairSide (s.setPair h (h.coreOf j) .idle) y (d.atIssue s y) j a' b' b (if h.coreOf j % 2 = 0 then b else b')
      (if h.coreOf j % 2 = 0 then b' else b) = .ok (r2, t2)) :
    pairStart s hid h c j a b yid y d =
      let v := startSide (s.setPair h (h.coreOf j) .idle) yid y (d.atIssue s y) j r2 t2
      let w := startSide v.1 hid h c j r1 t1
      .ok w.1 w.2 := by
  simp only [pairStart, ha, hb, hx, h1, h2]

/-- A side whose last row has started has run, with its rings' heads, flags and record left to its completion. -/
theorem startSide_done {v : State} {hid : Nat} {h : Hart} {c : Command} {j : Nat} {r : TileRes} {tape :
    Option TapeRecord}
    (hj : c.rowsLeft h = [j]) :
    (startSide v hid h c j r tape).2.done =
      some ((startSide v hid h c j r tape).2.arrayEnd h [c.t.a.toNat, c.t.b.toNat] tape) := by
  have hnone : (c.start j r).rowsLeft h = [] := by
    refine List.filter_eq_nil_iff.mpr (fun i hi => ?_)
    by_cases hs : c.startedIn i = true
    · have hs' : (c.start j r).startedIn i = true := by
        simp only [Command.startedIn, Command.start, List.any_append] at hs ⊢
        rw [hs, Bool.true_or]
      rw [hs']
      nofun
    · have hij : i = j := by
        have hm : i ∈ c.rowsLeft h := List.mem_filter.mpr ⟨hi, by simpa using hs⟩
        rw [hj] at hm
        exact List.mem_singleton.mp hm
      have hs' : (c.start j r).startedIn i = true := by
        simp only [Command.startedIn, Command.start, List.any_append, hij, List.any_cons, beq_self_eq_true,
          Bool.true_or,
          Bool.or_true]
      rw [hs']
      nofun
  have hempty : (Command.rowsLeft { c.start j r with arrived := c.arrived.filter (· != j) } h).isEmpty = true :=
    List.isEmpty_iff.mpr hnone
  simp only [startSide, hempty, if_true] <;> rfl

/-- Settles O60. -/
theorem pairResults : Obligations.PairResults := by
  unfold Obligations.PairResults
  intro s hid h c hd k left t hok hrec
  have hturn {u : State} {k1 : Command} (hp : pairRows hid h left t k = .ok u k1) :
      exec (.tmmap c.t) s = pairTurn s hid k u k1 := tmmap_turn hd hok hrec hp
  refine ⟨fun u k1 hp => ⟨fun d hdone => ?_, fun hdone hs => ?_, fun hdone hs => ?_⟩, ?_⟩
  · rw [hturn hp, pairTurn, hdone]
  · rw [hturn hp, pairTurn, hdone]
    exact if_pos hs
  · rw [hturn hp, pairTurn, hdone]
    exact if_neg (not_not.mpr hs)
  · intro j a b hj core hmay hheads ⟨g, hg, hcore⟩ ha hb
    have hrow {u : State} {k1 : Command} (hp : pairRow t hid h k j = .ok u k1) :
      pairRows hid h left t k = .ok u k1 := by
      rw [hj]
      exact pairRows_single hj hmay (by rw [atIssue_t]; exact hheads) hp
    have ha' : t.operandTile h k j k.t.a.toNat = .ok a := by rw [atIssue_t]; exact ha
    have hb' : t.operandTile h k j k.t.b.toNat = .ok b := by rw [atIssue_t]; exact hb
    refine ⟨fun hp => ?_, ?_⟩
    · have hdone : (k.arrive j).done = none := by
        unfold Command.arrive
        split <;> exact head_done hd
      have hstarted : (k.arrive j).started = k.started := by
        unfold Command.arrive
        split <;> rfl
      rw [hturn (hrow (pairRow_idle hg hcore ha' hb' hp)), pairTurn, hdone]
      have hne := pairs_setPair_ne (p := .half core) hp (by nofun)
        (sameControl_useTiles s h (k.rows h) [c.t.d.toNat]).pairs
      simp only [hstarted, ne_eq, not_true_eq_false, if_false]
      rw [if_neg (fun he => hne he.2)]
    · intro n row yid y d0 a' b' r1 r2 t1 t2 hp hn hy hs he hw hd0 d u hya hyb e o ⟨x, hx⟩ h1 h2 v w
      have hrun := hturn (hrow ((pairRow_half (hid := hid) hg hcore ha' hb' hp hn hy hs he hw hd0).trans
        (pairStart_ok hya hyb hx h1 h2)))
      have hdone : w.2.done = some (w.2.arrayEnd h [c.t.a.toNat, c.t.b.toNat] t1) := by
        have := startSide_done (v := v.1) (hid := hid) (r := r1) (tape := t1) hj
        rw [atIssue_t] at this
        exact this
      exact ⟨hdone, hrun.trans (pairTurn_done hdone)⟩

end Sys2Proof.TilePair
end

section
/-! PROOFS. Vector commands: a statement that a reduction of a hart with no sectors fails (R175). -/

namespace Sys2Proof.VectorCompletionFails

open Sys2Proof Sys2Proof.Machine Sys2Proof.Claim Sys2Proof.Laws Sys2Proof.RingQuery

-- One proof is checked at a time: this keeps the check of the whole text within its memory.
set_option Elab.async false

/-- VREDSUM of vector register 1 into register 2, with the named format INT32 in the named 8-bit container. -/
def sumTemplate : Template := { emptyTemplate with opc := 0x30, fmt := 5, cw := 1, d := 2, a := 1 }

/-- The placed program's hart, as it dispatches VREDSUM. -/
def sumCommand : Command := Hart.program.command plainPx sumTemplate none 0 0 0

/-- The hart with that command at the head of its XV queue, and no cluster. -/
def sumHart : Hart := { Hart.program.setQueue .xv [sumCommand] with csr := { Hart.program.csr with xcl := 0 } }

/-- The machine after reset with that hart. -/
def sumState : State := { State.reset with harts := [(0, sumHart)] }

/-- The page-service records that wait in the state that a step leaves. -/
def recordsWaiting : Out → Option Nat
  | .next t => some t.psWait.length
  | _ => none

/-- A command that has run on a changed hart leaves no record behind. -/
theorem recordsWaiting_ran {s : State} {g : Hart} {hid : Nat} {e : Eng} {c : Command} {fl : Flags} {o : Out}
    (h : Ran (s.setHart hid g) hid e c fl o) : recordsWaiting o = some s.psWait.length := by
  obtain ⟨ts, us, rfl⟩ := h
  rfl

/-- VREDSUM finds no sector to take its container from, takes the named one, and traps: the hart is suspended, with a
record (R154, R175). -/
theorem recordsWaiting_sum : recordsWaiting (exec (.vredsum sumCommand.t) sumState) = some 1 := by
  decide +kernel

/-- Refutes O59: with XCL 0 the conditions on a register's sectors ask for nothing, and a reduction whose named format
does not fit its named container traps. -/
theorem not_vectorCompletion : ¬ Obligations.VectorCompletion := by
  unfold Obligations.VectorCompletion
  intro hall
  have hhead : Head sumState .xv 0 sumHart sumCommand :=
    ⟨⟨rfl, rfl, ⟨[], rfl⟩, rfl, rfl, by decide +kernel, .inr (by decide +kernel), fun _ => by decide +kernel⟩,
      by decide +kernel⟩
  obtain ⟨hnamed, -⟩ := hall sumState 0 sumHart sumCommand 5 1 hhead
  obtain ⟨-, -, -, -, -, hred⟩ := hnamed ⟨.inr rfl, .inr rfl⟩
  obtain ⟨⟨g, fl, hran⟩, -⟩ := hred (fun _ _ _ hx => absurd hx (Nat.not_lt_zero _)) (by decide)
    (.inr (.inl (by decide)))
  have hsum := recordsWaiting_sum
  rw [recordsWaiting_ran hran] at hsum
  exact absurd hsum (by decide +kernel)

end Sys2Proof.VectorCompletionFails
end

section
/-! PROOFS. What a vector instruction on registers leaves unchanged (R151, R157). -/

namespace Sys2Proof.VectorFrame

open Sys2Proof Sys2Proof.Machine Sys2Proof.Claim Sys2Proof.Laws Sys2Proof.EngineTurns Sys2Proof.VectorMask
  Sys2Proof.HartsKept

-- One proof is checked at a time: this keeps the check of the whole text within its memory.
set_option Elab.async false

/-! ## What a row function leaves of a row (R157) -/

/-- Of a row's registers a step changes at most register d of its kind, a vector register in its first n sectors. -/
structure RowFrame (w : VecDest) (d n : Nat) (r r' : RowRegs) : Prop where
  regs : ∀ p m, r'.get p m = r.get p m ∨ (w = .scalar ∧ m = d)
  masks : ∀ m, r'.mask m = r.mask m ∨ (w = .mask ∧ m = d)
  secs : ∀ k, lookD r'.v k zeroSector = lookD r.v k zeroSector ∨ (w = .vector ∧ ∃ x < n, k = 8 * d + x)

theorem RowFrame.refl (w : VecDest) (d n : Nat) (r : RowRegs) : RowFrame w d n r r :=
  ⟨fun _ _ => .inl rfl, fun _ => .inl rfl, fun _ => .inl rfl⟩

theorem RowFrame.trans {w : VecDest} {d n : Nat} {r r' r'' : RowRegs} (h : RowFrame w d n r r')
    (h' : RowFrame w d n r' r'') : RowFrame w d n r r'' :=
  ⟨fun p m => (h'.regs p m).elim (fun e => (h.regs p m).imp_left e.trans) .inr,
    fun m => (h'.masks m).elim (fun e => (h.masks m).imp_left e.trans) .inr,
    fun k => (h'.secs k).elim (fun e => (h.secs k).imp_left e.trans) .inr⟩

theorem lookD_putD_other {m : Map Sector} {k n : Nat} (y : Sector) (hn : n ≠ k) :
    lookD (putD m k zeroSector y) n zeroSector = lookD m n zeroSector := by
  unfold putD lookD
  split
  · rw [look_del_other m hn]
  · rw [look_put_other m y hn]

theorem rowFrame_setVec {d n x : Nat} (r : RowRegs) (y : Sector) (hx : x < n) :
    RowFrame .vector d n r (r.setVec d x y) := by
  refine ⟨fun _ _ => .inl rfl, fun _ => .inl rfl, fun k => ?_⟩
  by_cases hk : k = 8 * d + x
  · exact .inr ⟨rfl, x, hx, hk⟩
  · exact .inl (lookD_putD_other y hk)

theorem rowFrame_setMask (d n : Nat) (r : RowRegs) (y : BitVec 4096) : RowFrame .mask d n r (r.setMask d y) := by
  unfold RowRegs.setMask
  split
  · exact .refl ..
  · refine ⟨fun _ _ => .inl rfl, fun m => ?_, fun _ => .inl rfl⟩
    by_cases hm : m = d
    · exact .inr ⟨rfl, hm⟩
    · left
      unfold RowRegs.mask
      rw [Vector.getElem?_setIfInBounds_ne (fun h => hm h.symm)]

theorem rowFrame_set (d n : Nat) (r : RowRegs) (y : Dword) : RowFrame .scalar d n r (r.set false d y) := by
  unfold RowRegs.set
  split
  · exact .refl ..
  · rw [if_neg (by nofun)]
    refine ⟨fun p m => ?_, fun _ => .inl rfl, fun _ => .inl rfl⟩
    by_cases hm : m = d
    · exact .inr ⟨rfl, hm⟩
    · left
      unfold RowRegs.get
      rw [Vector.getElem?_setIfInBounds_ne (fun h => hm h.symm)]

/-- A row function changes at most register D of its kind. -/
def Frames (w : VecDest) (f : RowFn) : Prop :=
  ∀ h c j a b, f h c j a = .ok b → RowFrame w c.t.d.toNat (max 1 h.csr.xcl) a.row b.row

/-- A sector's function writes at most that sector of vector register d. -/
def SectorFrames (d : Nat) (f : Nat → Acc → Except Cause Acc) : Prop :=
  ∀ x a b, f x a = .ok b → b.row = a.row ∨ ∃ y, b.row = a.row.setVec d x y

theorem runSectors_frame {d n : Nat} {f : Nat → Acc → Except Cause Acc} (hf : SectorFrames d f) {xs : List Nat}
    (hx : ∀ x ∈ xs, x < n) {a b : Acc} (hab : runSectors f xs a = .ok b) : RowFrame .vector d n a.row b.row := by
  induction xs generalizing a with
  | nil =>
    cases hab
    exact .refl ..
  | cons x xs ih =>
    obtain ⟨u, hu, hub⟩ := bind_eq_ok.mp hab
    refine RowFrame.trans ?_ (ih (fun y hy => hx y (List.mem_cons_of_mem _ hy)) hub)
    obtain he | ⟨y, he⟩ := hf x a u hu
    · rw [he]
      exact .refl ..
    · rw [he]
      exact rowFrame_setVec _ _ (hx x (List.mem_cons_self ..))

/-- A row function that goes sector by sector changes at most register D. -/
theorem frames_of_sectors {f : Hart → Command → Nat → Nat → Acc → Except Cause Acc}
    (hf : ∀ h c j, SectorFrames c.t.d.toNat (f h c j)) :
    Frames .vector (fun h c j a => runSectors (f h c j) (sectorsOf h) a) :=
  fun h c j _ _ hab => runSectors_frame (hf h c j)
    (fun _ hx => lt_of_lt_of_le (List.mem_range.mp hx) (le_max_right ..)) hab

/-! ## The instructions sector by sector -/

theorem ite_eq_ok {ε α : Type} {p : Prop} [Decidable p] {x y : Except ε α} {b : α} :
    (if p then x else y) = .ok b ↔ p ∧ x = .ok b ∨ ¬p ∧ y = .ok b := by
  split <;> simp [*]

/-- A sector that is out of range is left as it is. -/
theorem eq_of_pure {a b : Acc} (h : (pure a : Except Cause Acc) = .ok b) : b = a := (Except.ok.inj h).symm

theorem elemSector_frames (s : State) (h : Hart) (c : Command) (src : RowRegs) (e : ElemSpec) :
    SectorFrames c.t.d.toNat (elemSector s h c src e) := by
  intro x a b hab
  obtain ⟨-, hab⟩ | ⟨-, hab⟩ := ite_eq_ok.mp hab
  · exact .inl (eq_of_pure hab ▸ rfl)
  obtain ⟨os, -, hab⟩ := bind_eq_ok.mp hab
  obtain ⟨⟨tg, fl⟩, -, hab⟩ := bind_eq_ok.mp hab
  cases tg with
  | none =>
    obtain ⟨w, -, hab⟩ := bind_eq_ok.mp hab
    cases hab
    exact .inr ⟨_, rfl⟩
  | some t =>
    cases hab
    exact .inr ⟨_, rfl⟩

theorem elemRow_frames (e : Command → ElemSpec) (s : State) : Frames .vector (elemRow e s) :=
  frames_of_sectors (f := fun h c j x a => elemSector s h c (h.row j) (e c) x a)
    (fun h c j => elemSector_frames s h c (h.row j) (e c))

/-- VSEL at one sector (R167). -/
def selSector (s : State) (h : Hart) (c : Command) (src : RowRegs) (x : Nat) (a : Acc) : Except Cause Acc := do
  if !c.inRange (guessCw c none (operands c src x)) x then return a
  let os ← openAll c (operands c src x)
  let (tg, fl) ← resultTarget (s.prtOf h) .any none none c.vlcw os
  match tg with
  | none => return { a with row := a.row.setVec c.t.d.toNat x zeroSector, fl := a.fl ||| fl }
  | some t =>
    let act := activity (vlBits c.vl c.vlcw) t.cw x 0 0
    let sel := (List.range (elemCount t.cw)).map (fun i =>
      maskBit c.t.cmask.toNat (src.mask c.t.cmask.toNat) (x * elemCount t.cw + i))
    let vs := os.map (fun o => o.values t.cw)
    let xs := ((vs.getD 0 []).zip (vs.getD 1 [])).zip sel |>.map (fun v => if v.2 then v.1.1 else v.1.2)
    let out := encodeSector t.fmt t.cw (if t.fmt == fE2m1 then none else some 0) .wrap 0 false a.sr (xs.zip act)
    return { row := a.row.setVec c.t.d.toNat x out.sector, sr := out.sr, fl := a.fl ||| fl ||| out.flags }

theorem selRow_eq (s : State) : selRow s = fun h c j a => runSectors (selSector s h c (h.row j)) (sectorsOf h) a := rfl

theorem selSector_frames (s : State) (h : Hart) (c : Command) (src : RowRegs) :
    SectorFrames c.t.d.toNat (selSector s h c src) := by
  intro x a b hab
  obtain ⟨-, hab⟩ | ⟨-, hab⟩ := ite_eq_ok.mp hab
  · exact .inl (eq_of_pure hab ▸ rfl)
  obtain ⟨os, -, hab⟩ := bind_eq_ok.mp hab
  obtain ⟨⟨tg, fl⟩, -, hab⟩ := bind_eq_ok.mp hab
  cases tg with
  | none =>
    cases hab
    exact .inr ⟨_, rfl⟩
  | some t =>
    cases hab
    exact .inr ⟨_, rfl⟩

theorem selRow_frames (s : State) : Frames .vector (selRow s) :=
  frames_of_sectors (fun h c j => selSector_frames s h c (h.row j))

/-- VCLASS at one sector (R168). -/
def classSector (c : Command) (src : RowRegs) (x : Nat) (a : Acc) : Except Cause Acc := do
  if !c.inRange (guessCw c none [src.vec c.t.a.toNat x]) x then return a
  let os ← openAll c [src.vec c.t.a.toNat x]
  let w ← sharedCw none c.vlcw os
  match classFmt w, os with
  | some f, o :: _ =>
    let codes := if o.zero then List.replicate (elemCount w) 5 else o.codes.map (classIndex o.fmt)
    let xs := (codes.zip (c.acts src w x)).map (fun y => if y.2 then y.1 else 0)
    let out : Sector := { tag := mkTag clsTyped f w 0, bmeta := 0, data := packSlots (cwBits w) xs }
    return { a with row := a.row.setVec c.t.d.toNat x out }
  | _, _ => throw .containerMismatch

theorem classRow_eq : classRow = fun h c j a => runSectors (classSector c (h.row j)) (sectorsOf h) a := rfl

theorem classSector_frames (c : Command) (src : RowRegs) : SectorFrames c.t.d.toNat (classSector c src) := by
  intro x a b hab
  obtain ⟨-, hab⟩ | ⟨-, hab⟩ := ite_eq_ok.mp hab
  · exact .inl (eq_of_pure hab ▸ rfl)
  obtain ⟨os, -, hab⟩ := bind_eq_ok.mp hab
  obtain ⟨w, -, hab⟩ := bind_eq_ok.mp hab
  split at hab
  · cases hab
    exact .inr ⟨_, rfl⟩
  · cases hab

theorem classRow_frames : Frames .vector classRow :=
  frames_of_sectors (f := fun h c j => classSector c (h.row j)) (fun h c j => classSector_frames c (h.row j))

theorem dotSector_frames (s : State) (h : Hart) (c : Command) (m : Nat) (src : RowRegs) :
    SectorFrames c.t.d.toNat (dotSector s h c m src) := by
  intro x a b hab
  obtain ⟨-, hab⟩ | ⟨-, hab⟩ := ite_eq_ok.mp hab
  · exact .inl (eq_of_pure hab ▸ rfl)
  obtain ⟨os, -, hab⟩ := bind_eq_ok.mp hab
  split at hab
  · obtain ⟨⟨p, fl⟩, -, hab⟩ := bind_eq_ok.mp hab
    obtain ⟨-, hab⟩ | ⟨-, hab⟩ := ite_eq_ok.mp hab
    · cases hab
    dsimp only at hab
    split at hab
    · obtain ⟨w, -, hab⟩ := bind_eq_ok.mp hab
      split at hab
      · obtain ⟨-, hab⟩ | ⟨-, hab⟩ := ite_eq_ok.mp hab
        · cases hab
        obtain ⟨-, hab⟩ | ⟨-, hab⟩ := ite_eq_ok.mp hab
        · cases hab
        · cases hab
          exact .inr ⟨_, rfl⟩
      · cases hab
    · obtain ⟨-, hab⟩ | ⟨-, hab⟩ := ite_eq_ok.mp hab
      · cases hab
        exact .inr ⟨_, rfl⟩
      obtain ⟨-, hab⟩ | ⟨-, hab⟩ := ite_eq_ok.mp hab
      · cases hab
      · cases hab
        exact .inr ⟨_, rfl⟩
  · exact .inl (eq_of_pure hab ▸ rfl)

theorem dotRow_frames (m : Nat) (s : State) : Frames .vector (dotRow m s) :=
  frames_of_sectors (f := fun h c j => dotSector s h c m (h.row j)) (fun h c j => dotSector_frames s h c m (h.row j))

theorem sexpSector_frames (c : Command) (src : RowRegs) : SectorFrames c.t.d.toNat (sexpSector c src) := by
  intro x a b hab
  obtain ⟨-, hab⟩ | ⟨-, hab⟩ := ite_eq_ok.mp hab
  · exact .inl (eq_of_pure hab ▸ rfl)
  obtain ⟨os, -, hab⟩ := bind_eq_ok.mp hab
  split at hab
  · obtain ⟨-, hab⟩ | ⟨-, hab⟩ := ite_eq_ok.mp hab
    · cases hab
      exact .inr ⟨_, rfl⟩
    obtain ⟨-, hab⟩ | ⟨-, hab⟩ := ite_eq_ok.mp hab
    · cases hab
    · cases hab
      exact .inr ⟨_, rfl⟩
  · exact .inl (eq_of_pure hab ▸ rfl)

theorem movSector_frames (c : Command) (src : RowRegs) : SectorFrames c.t.d.toNat (movSector c src) := by
  intro x a b hab
  obtain ⟨-, hab⟩ | ⟨-, hab⟩ := ite_eq_ok.mp hab
  · exact .inl (eq_of_pure hab ▸ rfl)
  obtain ⟨-, hab⟩ | ⟨-, hab⟩ := ite_eq_ok.mp hab
  · cases hab
    exact .inr ⟨_, rfl⟩
  obtain ⟨os, -, hab⟩ := bind_eq_ok.mp hab
  split at hab
  · cases hab
    exact .inr ⟨_, rfl⟩
  · exact .inl (eq_of_pure hab ▸ rfl)

/-- VBCAST, VID and VSETI at one sector (R173). -/
def buildSector (code : Nat → Nat) (masked : Bool) (c : Command) (src : RowRegs) (x : Nat) (a : Acc) :
    Except Cause Acc :=
  let f := c.t.fmt
  let w := c.t.cw
  if !c.inRange w x then .ok a
  else if !fmtFits f w then .error .containerMismatch
  else
    let act := if masked then c.acts src w x else activity (vlBits c.vl c.vlcw) w x 0 0
    let xs := act.zipIdx.map (fun y => if y.1 then writtenCode f (code (x * elemCount w + y.2)) else 0)
    let md := if f == fE2m1 then (List.range (blocksUsed w)).foldl (fun m k => m + 0x38 * 2 ^ (16 * k)) 0 else 0
    let out : Sector := { tag := mkTag clsTyped f w 0, bmeta := BitVec.ofNat 128 md, data := packSlots (cwBits w) xs }
    .ok { a with row := a.row.setVec c.t.d.toNat x out }

theorem buildRow_eq (code : Nat → Nat) (masked : Bool) : buildRow code masked =
    fun h c j a => runSectors (buildSector code masked c (h.row j)) (sectorsOf h) a := rfl

theorem buildSector_frames (code : Nat → Nat) (masked : Bool) (c : Command) (src : RowRegs) :
    SectorFrames c.t.d.toNat (buildSector code masked c src) := by
  intro x a b hab
  obtain ⟨-, hab⟩ | ⟨-, hab⟩ := ite_eq_ok.mp hab
  · exact .inl (eq_of_pure hab ▸ rfl)
  obtain ⟨-, hab⟩ | ⟨-, hab⟩ := ite_eq_ok.mp hab
  · cases hab
  · cases hab
    exact .inr ⟨_, rfl⟩

theorem buildRow_frames (code : Command → Nat → Nat → Nat) (masked : Bool) :
    Frames .vector (fun h c j a => buildRow (code c j) masked h c j a) :=
  frames_of_sectors (f := fun h c j => buildSector (code c j) masked c (h.row j))
    (fun h c j => buildSector_frames (code c j) masked c (h.row j))

/-! ## The instructions that go over a whole row -/

/-- A fold that writes sectors of a register frames it. -/
theorem foldl_rowFrame {α : Type} {d n : Nat} {f : RowRegs → α → RowRegs} {xs : List α}
    (hf : ∀ r, ∀ y ∈ xs, RowFrame .vector d n r (f r y)) (r : RowRegs) : RowFrame .vector d n r (xs.foldl f r) := by
  induction xs generalizing r with
  | nil => exact .refl ..
  | cons y ys ih =>
    exact (hf r y (List.mem_cons_self ..)).trans (ih (fun r z hz => hf r z (List.mem_cons_of_mem _ hz)) _)

/-- The same of what has been made of a row so far. -/
theorem foldl_accFrame {α : Type} {d n : Nat} {f : Acc → α → Acc} {xs : List α}
    (hf : ∀ a, ∀ y ∈ xs, RowFrame .vector d n a.row (f a y).row) (a : Acc) :
    RowFrame .vector d n a.row (xs.foldl f a).row := by
  induction xs generalizing a with
  | nil => exact .refl ..
  | cons y ys ih =>
    exact (hf a y (List.mem_cons_self ..)).trans (ih (fun a z hz => hf a z (List.mem_cons_of_mem _ hz)) _)

theorem mem_cells {m : Move} {h : Hart} {c : Command} {w : BitVec 3} {y : Nat × List (Option From)}
    (hy : y ∈ m.cells h c w) : y.1 < max 1 h.csr.xcl := by
  obtain ⟨x, hx, rfl⟩ := List.mem_map.mp hy
  exact lt_of_lt_of_le (List.mem_range.mp (List.mem_filter.mp hx).1) (le_max_right ..)

theorem rearrange_frame {m : Move} {s : State} {h : Hart} {c : Command} {src : RowRegs} {a b : Acc}
    (hab : rearrange m s h c src a = .ok b) : RowFrame .vector c.t.d.toNat (max 1 h.csr.xcl) a.row b.row := by
  obtain ⟨-, -, hab⟩ := bind_eq_ok.mp hab
  obtain ⟨os, -, hab⟩ := bind_eq_ok.mp hab
  obtain ⟨⟨tg, fl⟩, -, hab⟩ := bind_eq_ok.mp hab
  cases tg with
  | none =>
    cases hab
    exact foldl_rowFrame (fun r y hy => rowFrame_setVec r _ (mem_cells hy)) _
  | some t =>
    obtain ⟨-, hab⟩ | ⟨-, hab⟩ := ite_eq_ok.mp hab
    · cases hab
      exact foldl_rowFrame (fun r y hy => rowFrame_setVec r _ (mem_cells hy)) _
    · cases hab
      refine foldl_accFrame (fun a y hy => ?_) ⟨a.row, a.sr, a.fl ||| fl⟩
      exact rowFrame_setVec a.row _ (mem_cells hy)

theorem redRow_frames (op : RedOp) (s : State) : Frames .vector (redRow op s) := by
  intro h c j a b hab
  obtain ⟨os, -, hab⟩ := bind_eq_ok.mp hab
  obtain ⟨⟨tg, fl⟩, -, hab⟩ := bind_eq_ok.mp hab
  cases tg with
  | none =>
    obtain ⟨w, -, hab⟩ := bind_eq_ok.mp hab
    cases hab
    exact rowFrame_setVec _ _ (lt_of_lt_of_le Nat.zero_lt_one (le_max_left ..))
  | some t =>
    obtain ⟨-, hab⟩ | ⟨-, hab⟩ := ite_eq_ok.mp hab
    · cases hab
    · cases hab
      exact rowFrame_setVec _ _ (lt_of_lt_of_le Nat.zero_lt_one (le_max_left ..))

theorem cvtRow_frames : Frames .vector cvtRow := by
  intro h c j a b hab
  obtain ⟨os, -, hab⟩ := bind_eq_ok.mp hab
  obtain ⟨ca, -, hab⟩ := bind_eq_ok.mp hab
  obtain ⟨-, hab⟩ | ⟨-, hab⟩ := ite_eq_ok.mp hab
  · cases hab
  · cases hab
    refine foldl_accFrame (fun a x hx => ?_) _
    dsimp only
    split
    · exact rowFrame_setVec _ _ (lt_of_lt_of_le (List.mem_range.mp hx) (le_max_right ..))
    · exact .refl ..

theorem tagwRow_frames : Frames .vector tagwRow := by
  intro h c j a b hab
  obtain ⟨-, hab⟩ | ⟨hi, hab⟩ := ite_eq_ok.mp hab
  · cases hab
  obtain ⟨-, hab⟩ | ⟨-, hab⟩ := ite_eq_ok.mp hab
  · cases hab
  obtain ⟨-, hab⟩ | ⟨-, hab⟩ := ite_eq_ok.mp hab
  · cases hab
  · cases hab
    exact rowFrame_setVec _ _ (lt_of_lt_of_le (Nat.not_le.mp hi) (le_max_right ..))

theorem tagrRow_frames : Frames .scalar tagrRow := by
  intro h c j a b hab
  obtain ⟨-, hab⟩ | ⟨-, hab⟩ := ite_eq_ok.mp hab
  · cases hab
  · cases hab
    exact rowFrame_set ..

theorem extrRow_frames : Frames .scalar extrRow := by
  intro h c j a b hab
  obtain ⟨-, hab⟩ | ⟨-, hab⟩ := ite_eq_ok.mp hab
  · cases hab
  split at hab
  · cases hab
  obtain ⟨-, hab⟩ | ⟨-, hab⟩ := ite_eq_ok.mp hab
  · cases hab
  · cases hab
    exact rowFrame_set ..

theorem cmpRow_frames (s : State) : Frames .mask (cmpRow s) := by
  intro h c j a b hab
  obtain ⟨m, hb, -⟩ := cmpRow_sets hab
  rw [hb]
  exact rowFrame_setMask ..

theorem maskRow_frames (f : BitVec 4096 → BitVec 4096 → BitVec 4096) : Frames .mask (maskRow f) := by
  intro h c j a b hab
  cases hab
  exact rowFrame_setMask ..

theorem countRow_frames (f : BitVec 4096 → Nat) : Frames .scalar (countRow f) := by
  intro h c j a b hab
  cases hab
  exact rowFrame_set ..

/-! ## The row function of each instruction -/

/-- The instruction runs an XV row function that changes at most register D of its kind. -/
def RunsFramed (w : VecDest) (i : Instr) (t : Template) : Prop :=
  ∃ f : State → RowFn, (∀ s, Frames w (f s)) ∧ ∀ s, exec i s = xvOp t s f

theorem runsFramed_of_vectorOnly {i : Instr} {t : Template} {w : VecDest} (h : vectorOnly i = some (t, w)) :
    RunsFramed w i t := by
  cases i
  case vadd | vsub | vmul | vfma | vfms | vmin | vmax | vabs | vneg | vdiv | vsqrt | vrsq | vexp | vlog | vtanh
      | vsigm | vand | vor | vxor | vnot | vshl | vshr | vshrr | vsadd | vssub | vmulh | vqnt =>
    cases h
    exact ⟨elemRow _, elemRow_frames _, fun _ => rfl⟩
  case vdot2 | vdot4 =>
    cases h
    exact ⟨dotRow _, dotRow_frames _, fun _ => rfl⟩
  case vslide | vperm | vzip | vunzip =>
    cases h
    exact ⟨_, fun _ _ _ _ _ _ => rearrange_frame, fun _ => rfl⟩
  case vredsum | vredsumo | vredmax | vredmin =>
    cases h
    exact ⟨redRow _, redRow_frames _, fun _ => rfl⟩
  case vbcast =>
    cases h
    exact ⟨fun _ => _, fun _ => buildRow_frames (fun c j _ => (c.capt j).c.toNat) false, fun _ => rfl⟩
  case vid =>
    cases h
    exact ⟨fun _ => _, fun _ => buildRow_frames (fun _ _ e => e) true, fun _ => rfl⟩
  case vseti =>
    cases h
    exact ⟨fun _ => _, fun _ => buildRow_frames (fun c _ _ => c.t.imm.toNat) true, fun _ => rfl⟩
  case vsel =>
    cases h
    exact ⟨selRow, selRow_frames, fun _ => rfl⟩
  case vclass =>
    cases h
    exact ⟨fun _ => classRow, fun _ => classRow_frames, fun _ => rfl⟩
  case vcvt =>
    cases h
    exact ⟨fun _ => cvtRow, fun _ => cvtRow_frames, fun _ => rfl⟩
  case vsexp =>
    cases h
    exact ⟨fun _ => _, fun _ => frames_of_sectors (fun h c j => sexpSector_frames c (h.row j)), fun _ => rfl⟩
  case vmov =>
    cases h
    exact ⟨fun _ => _, fun _ => frames_of_sectors (fun h c j => movSector_frames c (h.row j)), fun _ => rfl⟩
  case vtagw =>
    cases h
    exact ⟨fun _ => tagwRow, fun _ => tagwRow_frames, fun _ => rfl⟩
  case vtagr =>
    cases h
    exact ⟨fun _ => tagrRow, fun _ => tagrRow_frames, fun _ => rfl⟩
  case vextr =>
    cases h
    exact ⟨fun _ => extrRow, fun _ => extrRow_frames, fun _ => rfl⟩
  case kpopc =>
    cases h
    exact ⟨_, fun _ => countRow_frames _, exec_kpopc_eq_countRow t⟩
  case kfirst =>
    cases h
    exact ⟨_, fun _ => countRow_frames _, exec_kfirst_eq_countRow t⟩
  case vcmp =>
    cases h
    exact ⟨cmpRow, cmpRow_frames, fun _ => rfl⟩
  case kand | kor | knot =>
    cases h
    exact ⟨fun _ => maskRow _, fun _ => maskRow_frames _, fun _ => rfl⟩
  all_goals cases h

/-! ## The hart that the rows leave, and the command's issue (R93, R157) -/

/-- A hart whose rows `js` alone, in register d of kind w, and whose SRSEED may have changed. -/
structure HartFrame (w : VecDest) (d : Nat) (h : Hart) (js : List Nat) (g : Hart) : Prop where
  rest : g = { h with rows := g.rows, csr := { h.csr with srseed := g.csr.srseed } }
  rows : ∀ j, g.row j = h.row j ∨ (j ∈ js ∧ RowFrame w d (max 1 h.csr.xcl) (h.row j) (g.row j))

theorem HartFrame.refl (w : VecDest) (d : Nat) (h : Hart) (js : List Nat) : HartFrame w d h js h :=
  ⟨rfl, fun _ => .inl rfl⟩

theorem row_setRow (g : Hart) (i j : Nat) (r : RowRegs) :
    (g.setRow i r).row j = g.row j ∨ (j = i ∧ (g.setRow i r).row j = r) := by
  unfold Hart.setRow Hart.row
  simp only [List.getD_eq_getElem?_getD, List.getElem?_set]
  split
  · next hij =>
    split
    · exact .inr ⟨hij.symm, rfl⟩
    · next hlen =>
      left
      rw [← hij, List.getElem?_eq_none (Nat.not_lt.mp hlen)]
  · exact .inl rfl

/-- One more row run by a function that frames it. -/
theorem HartFrame.setRow {w : VecDest} {d j : Nat} {h g : Hart} {js : List Nat} (hg : HartFrame w d h js g) (hj :
    j ∈ js)
    {r : RowRegs} (hr : RowFrame w d (max 1 h.csr.xcl) (h.row j) r) (x : BitVec 32) :
    HartFrame w d h js { g.setRow j r with csr := { g.csr with srseed := x } } := by
  refine ⟨?_, fun k => ?_⟩
  · conv_lhs => rw [hg.rest]
    rfl
  · obtain he | ⟨rfl, he⟩ := row_setRow g j k r
    · exact (hg.rows k).imp (Eq.trans he) (fun hf => ⟨hf.1, he.symm ▸ hf.2⟩)
    · exact .inr ⟨hj, he.symm ▸ hr⟩

/-- Rows that all run leave the others, and what the function leaves of each. -/
theorem runRows_frame {w : VecDest} {f : RowFn} (hf : Frames w f) {h : Hart} {c : Command} {rows js :
    List Nat} {g g' : Hart}
    {fl fl' : Flags} (hjs : ∀ j ∈ js, j ∈ rows) (hg : HartFrame w c.t.d.toNat h rows g)
    (hr : runRows f h c js g fl = .ok (g', fl')) : HartFrame w c.t.d.toNat h rows g' := by
  induction js generalizing g fl with
  | nil =>
    cases hr
    exact hg
  | cons j js ih =>
    rw [runRows] at hr
    split at hr
    · cases hr
    · next a ha =>
      exact ih (fun k hk => hjs k (List.mem_cons_of_mem _ hk))
        (hg.setRow (hjs j (List.mem_cons_self ..)) (hf h c j _ a ha) a.sr) hr

/-- What an issue changes of a hart (R93, R95). -/
theorem look_issue {s : State} {hid : Nat} {g : Hart} (hl : look s.harts hid = some g) (e : Eng) (c : Command) :
    ∃ qs ts sl lp, look (s.issue hid e c).harts hid =
      some { g with queues := qs, tokens := ts, slots := sl, lastProgress := lp } := by
  have hhead : ∀ g' : Hart, ∀ c', ∃ qs, g'.setHead e c' = { g' with queues := qs } := by
    intro g' c'
    unfold Hart.setHead
    split
    · exact ⟨_, rfl⟩
    · exact ⟨g'.queues, rfl⟩
  rw [State.issue, look_modHart, hl]
  split
  · obtain ⟨qs, hq⟩ := hhead g { c with issued := true, consumed := true }
    refine ⟨qs, g.tokens, g.slots, s.now, ?_⟩
    rw [Option.map_some]
    dsimp only
    rw [hq]
  · obtain ⟨qs, hq⟩ := hhead (g.takeWaits e c) { c with issued := true, consumed := true }
    refine ⟨qs, (g.takeWaits e c).tokens, (g.takeWaits e c).slots, s.now, ?_⟩
    rw [Option.map_some]
    dsimp only
    rw [hq] <;> rfl

/-! ## A trap adds a level of traps (R262) -/

theorem sameHarts_writeRecord (s : State) (h : Hart) (x : Loc × Nat) (r : TrapRecord) :
    SameHarts s (s.writeRecord h x r) :=
  (sameHarts_dropL1 ..).trans ((sameHarts_recall ..).trans ((sameHarts_writeFar ..).trans (sameHarts_storeRaw ..)))

theorem harts_suspend (s : State) (hid : Nat) (h : Hart) :
    (s.suspend hid h).harts = put s.harts hid { h with state := .suspended } := by
  have hmsi : ∀ t : State, ∀ n, SameHarts t (t.ctxMsi n) := by
    intro t n
    unfold State.ctxMsi
    split <;> rfl
  exact (hmsi (s.setHart hid { h with state := .suspended }) h.ctx).trans (sameHarts_psRecord _ _)

theorem traps_takeTrap {s : State} {hid : Nat} {h g : Hart} {t : TrapInfo} (hl : look s.harts hid = some h)
    (hg : look (s.takeTrap hid t).harts hid = some g) : g.traps.length = h.traps.length + 1 := by
  rw [State.takeTrap, hl] at hg
  dsimp only at hg
  by_cases hp : h.priv = true
  · rw [if_pos hp, harts_suspend, look_put_same] at hg
    cases hg
    rfl
  rw [if_neg hp] at hg
  split at hg
  · split_ifs at hg
    · rw [setHart_harts, look_put_same] at hg
      cases hg
      rfl
    · rw [harts_suspend, look_put_same] at hg
      cases hg
      rfl
    · rw [harts_suspend, look_put_same] at hg
      cases hg
      rfl
  · rw [harts_suspend, look_put_same] at hg
    cases hg
    rfl

/-- A command that raises a cause with no address takes its trap. -/
theorem stopCommand_cause (s : State) (hid : Nat) (e : Eng) (c : Command) (k : Cause) (j : Nat) (st : BitVec 32) (p :
    Bool) :
    s.stopCommand hid e c (.cause k j none) st p =
      (s.modHart hid (fun h => h.setHead e { c with issued := false, arrived := [], fetched := [] })).takeTrap hid
        (engineInfo e c k j none st p) := by
  have hsettle : ∀ t : State, ∀ u, t.settleStop u (.cause k j none) = t := fun t u => by
    unfold State.settleStop
    split
    · next heq => cases heq
    · rfl
  rw [State.stopCommand]
  split
  · rw [hsettle]
  · rfl

/-- It leaves its hart at one more trap. -/
theorem traps_stopCommand {s : State} {hid : Nat} {h g : Hart} (hl : look s.harts hid = some h) {e : Eng} {c : Command}
    {k : Cause} {j : Nat} {st : BitVec 32} {p : Bool}
    (hg : look (s.stopCommand hid e c (.cause k j none) st p).harts hid = some g) :
    g.traps.length = h.traps.length + 1 := by
  have htraps : ∀ c', (h.setHead e c').traps = h.traps := fun c' => by
    unfold Hart.setHead
    split <;> rfl
  have hlook : ∀ f : Hart → Hart, look (s.modHart hid f).harts hid = some (f h) := fun f => by
    rw [look_modHart, hl]
    rfl
  rw [stopCommand_cause] at hg
  rw [traps_takeTrap (hlook _) hg, htraps]

/-! ## The command's step -/

/-- Settles O32. -/
theorem vectorFrame : Obligations.VectorFrame := by
  unfold Obligations.VectorFrame
  rintro i t w s u hid h g c hv rfl hd hu hg htr
  obtain ⟨f, hf, hi⟩ := runsFramed_of_vectorOnly hv
  have hl : look s.harts hid = some h := hd.1.2.1
  rw [hi, xvOp, engineOp_of_head hd] at hu
  cases hr : runRows (f s) h (c.atIssue s h) ((c.atIssue s h).rows h) h 0 with
  | error x =>
    rw [hr] at hu
    cases hu
    have := traps_stopCommand hl hg
    omega
  | ok y =>
    rw [hr] at hu
    cases hu
    have hfr := runRows_frame (hf s) (fun j hj => hj) (.refl _ _ h ((c.atIssue s h).rows h)) hr
    rw [atIssue_rows, atIssue_t] at hfr
    obtain ⟨qs, ts, sl, lp, hlook⟩ := look_issue (s := s.setHart hid y.1) (look_put_same _ _ _) .xv
      { c.atIssue s h with done := some { Completion.plain y.2 with touched := h.touchedRows (c.atIssue s h) } }
    cases hlook.symm.trans hg
    refine ⟨rfl, fun k hk => ?_, fun _ => rfl, fun j p n => ?_, fun j n => ?_, fun j k => ?_, ?_, ?_⟩
    · exact (look_upd_other _ _ hk).trans (look_put_other _ _ hk)
    · obtain he | ⟨hj, he⟩ := hfr.rows j
      · exact .inl (congrArg (fun r => RowRegs.get r p n) he)
      · exact (he.regs p n).imp_right (fun hn => ⟨hn.1, hn.2, hj⟩)
    · obtain he | ⟨hj, he⟩ := hfr.rows j
      · exact .inl (congrArg (fun r => RowRegs.mask r n) he)
      · exact (he.masks n).imp_right (fun hn => ⟨hn.1, hn.2, hj⟩)
    · obtain he | ⟨hj, he⟩ := hfr.rows j
      · exact .inl (congrArg (fun r => lookD (RowRegs.v r) k zeroSector) he)
      · exact (he.secs k).imp_right (fun hn => ⟨hn.1, hj, hn.2⟩)
    · conv_lhs => rw [hfr.rest]
    · conv_lhs => rw [hfr.rest]

end Sys2Proof.VectorFrame
end

section
/-! PROOFS. What each vector instruction makes of one register sector (R165 to R168, R173, R174, R178, R179, R185). -/

namespace Sys2Proof.VectorSectors

open Sys2Proof Sys2Proof.Machine Sys2Proof.Claim Sys2Proof.Laws Sys2Proof.VectorMask Sys2Proof.VectorFrame

-- One proof is checked at a time: this keeps the check of the whole text within its memory.
set_option Elab.async false

/-! ## Sectors of a vector register (R151) -/

theorem vec_setVec_same (r : RowRegs) (d x : Nat) {y : Sector} (hy : y ≠ zeroSector) :
    (r.setVec d x y).vec d x = y := by
  unfold RowRegs.setVec RowRegs.vec putD lookD
  rw [if_neg hy, look_put_same, Option.getD_some]

theorem ne_zeroSector {y : Sector} (hy : tagCls y.tag ≠ clsZero) : y ≠ zeroSector := by
  rintro rfl
  exact hy rfl

@[simp] theorem tagCls_mkTag (f : BitVec 5) (w : BitVec 3) (e : BitVec 8) :
    tagCls (mkTag clsTyped f w e) = clsTyped := by
  have : (mkTag clsTyped f w e).extractLsb' 21 3 = 2#3 := by
    unfold mkTag
    ext i hi
    rw [BitVec.getElem_extractLsb']
    simp only [BitVec.getLsbD_append]
    rw [if_neg (by omega), if_neg (by omega), if_neg (by omega), if_neg (by omega),
      show 21 + i - 8 - 5 - 3 - 5 = i by omega]
    rfl
  rw [tagCls, this]
  rfl

/-- A sector that has a TYPED tag is read as it was written. -/
theorem vec_setVec_typed (r : RowRegs) (d x : Nat) {y : Sector} (hy : tagCls y.tag = clsTyped) :
    (r.setVec d x y).vec d x = y := vec_setVec_same r d x (ne_zeroSector (by rw [hy]; decide))

theorem vec_setVec_mkTag (r : RowRegs) (d x : Nat) (f : BitVec 5) (w : BitVec 3) (e : BitVec 8) (m : BitVec 128)
    (y : BitVec 2048) : (r.setVec d x { tag := mkTag clsTyped f w e, bmeta := m, data := y }).vec d x =
      { tag := mkTag clsTyped f w e, bmeta := m, data := y } := vec_setVec_typed r d x (tagCls_mkTag f w e)

theorem vec_setVec_other (r : RowRegs) (d : Nat) {x z : Nat} (y : Sector) (hx : x ≠ z) :
    (r.setVec d z y).vec d x = r.vec d x := lookD_putD_other y (by omega)

theorem vec_other_of_frames {d x z : Nat} {f : Nat → Acc → Except Cause Acc} (hf : SectorFrames d f) (hx : x ≠ z)
    {a b : Acc} (hab : f z a = .ok b) : b.row.vec d x = a.row.vec d x := by
  obtain he | ⟨y, he⟩ := hf z a b hab
  · rw [he]
  · rw [he, vec_setVec_other _ _ _ hx]

/-- Sectors that do not go by x leave register sector x. -/
theorem runSectors_other {d x : Nat} {f : Nat → Acc → Except Cause Acc} (hf : SectorFrames d f) {xs : List Nat}
    (hx : x ∉ xs) {a b : Acc} (hab : runSectors f xs a = .ok b) : b.row.vec d x = a.row.vec d x := by
  induction xs generalizing a with
  | nil =>
    cases hab
    rfl
  | cons z xs ih =>
    obtain ⟨u, hu, hub⟩ := bind_eq_ok.mp hab
    obtain ⟨hz, hxs⟩ := not_or.mp (fun h => hx (List.mem_cons.mpr h))
    exact (ih hxs hub).trans (vec_other_of_frames hf hz hu)

/-- Register sector x is what the sector's own turn has left in it. -/
theorem runSectors_at {d x : Nat} {f : Nat → Acc → Except Cause Acc} (hf : SectorFrames d f) {xs : List Nat}
    (hx : x ∈ xs) (hnd : xs.Nodup) {a b : Acc} (hab : runSectors f xs a = .ok b) :
    ∃ a' b', f x a' = .ok b' ∧ b.row.vec d x = b'.row.vec d x := by
  induction xs generalizing a with
  | nil => cases hx
  | cons z xs ih =>
    obtain ⟨u, hu, hub⟩ := bind_eq_ok.mp hab
    obtain ⟨hz, hnd⟩ := List.nodup_cons.mp hnd
    obtain rfl | hx := List.mem_cons.mp hx
    · exact ⟨a, u, hu, runSectors_other hf hz hub⟩
    · exact ih hx hnd hub

/-- The same of all sectors of a hart. -/
theorem runSectors_sector {d x : Nat} {h : Hart} {f : Nat → Acc → Except Cause Acc} (hf : SectorFrames d f)
    (hx : x < h.csr.xcl) {a b : Acc} (hab : runSectors f (sectorsOf h) a = .ok b) :
    ∃ a' b', f x a' = .ok b' ∧ b.row.vec d x = b'.row.vec d x :=
  runSectors_at hf (List.mem_range.mpr hx) List.nodup_range hab

/-! ## Codes in a sector's slots (R35) -/

/-- The number that slots of w bits pack into. -/
def slotSum (w : Nat) (xs : List Nat) : Nat := xs.foldr (fun x acc => x % 2 ^ w + 2 ^ w * acc) 0

theorem slotSum_slot (w : Nat) (xs : List Nat) (i : Nat) :
    slotSum w xs / 2 ^ (w * i) % 2 ^ w = xs.getD i 0 % 2 ^ w := by
  induction xs generalizing i with
  | nil => simp [slotSum]
  | cons x xs ih =>
    have hcons : slotSum w (x :: xs) = x % 2 ^ w + 2 ^ w * slotSum w xs := rfl
    have hlt : x % 2 ^ w < 2 ^ w := Nat.mod_lt _ (Nat.two_pow_pos w)
    rw [hcons]
    cases i with
    | zero => simp
    | succ i =>
      rw [Nat.mul_succ, Nat.add_comm (w * i), Nat.pow_add, ← Nat.div_div_eq_div_mul,
        Nat.add_mul_div_left _ _ (Nat.two_pow_pos w), Nat.div_eq_of_lt hlt, Nat.zero_add, ih, List.getD_cons_succ]

theorem mod_div_mod_slot {N w k n : Nat} (h : k + w ≤ n) : N % 2 ^ n / 2 ^ k % 2 ^ w = N / 2 ^ k % 2 ^ w := by
  obtain ⟨m, rfl⟩ := Nat.exists_eq_add_of_le h
  rw [Nat.add_assoc, Nat.pow_add, Nat.mod_mul_right_div_self, Nat.pow_add, Nat.mod_mul_right_mod]

theorem elemCount_pos {w : BitVec 3} {i : Nat} (hi : i < elemCount w) : w.toNat ≤ 4 := by
  unfold elemCount at hi
  split at hi
  · assumption
  · omega

/-- A slot that is read holds what has been slotSum into it. -/
theorem slotOf_packSlots {w : BitVec 3} {i : Nat} (hi : i < elemCount w) (t : BitVec 24) (m : BitVec 128) (xs :
    List Nat) :
    slotOf { tag := t, bmeta := m, data := packSlots (cwBits w) xs } w i = xs.getD i 0 % 2 ^ cwBits w := by
  have hn := elemCount_mul_cwBits (elemCount_pos hi)
  have hfit : cwBits w * i + cwBits w ≤ 2048 := by
    rw [← hn, ← Nat.mul_succ, Nat.mul_comm]
    exact Nat.mul_le_mul_right _ hi
  have hdata : (packSlots (cwBits w) xs).toNat = slotSum (cwBits w) xs % 2 ^ 2048 := BitVec.toNat_ofNat ..
  rw [slotOf, secSlots]
  simp only [List.getD_eq_getElem?_getD, List.getElem?_map, List.getElem?_range hi, Option.map_some, Option.getD_some,
    hdata]
  rw [mod_div_mod_slot hfit, slotSum_slot, List.getD_eq_getElem?_getD]

/-- Codes that fit their slots are read as they are. -/
theorem slotOf_packSlots_of_lt {w : BitVec 3} {i : Nat} (hi : i < elemCount w) (t : BitVec 24) (m : BitVec 128)
    {xs : List Nat} (hx : xs.getD i 0 < 2 ^ cwBits w) :
    slotOf { tag := t, bmeta := m, data := packSlots (cwBits w) xs } w i = xs.getD i 0 := by
  rw [slotOf_packSlots hi, Nat.mod_eq_of_lt hx]

theorem two_pow_fmtWidth_le {f : BitVec 5} {w : BitVec 3} (h : fmtFits f w = true) : 2 ^ fmtWidth f ≤ 2 ^ cwBits w := by
  rw [fmtFits, Bool.and_eq_true, decide_eq_true_eq] at h
  exact Nat.pow_le_pow_right Nat.two_pos h.1

/-! ## Activity (R152, R180) -/

theorem getD_map_range {α : Type} {n i : Nat} (hi : i < n) (g : Nat → α) (z : α) :
    ((List.range n).map g).getD i z = g i := by
  rw [List.getD_eq_getElem?_getD, List.getElem?_map, List.getElem?_range hi]
  rfl

theorem acts_eq (h : Hart) (c : Command) (j x : Nat) (w : BitVec 3) :
    c.acts (h.row j) w x = (List.range (elemCount w)).map (fun i => Active h c j w (x * elemCount w + i)) := rfl

theorem values_length {o : Opened} {w : BitVec 3} (hw : o.cw = w) : (o.values w).length = elemCount w := by
  subst hw
  unfold Opened.values Opened.codes secSlots
  split <;> simp

theorem codes_length (o : Opened) : o.codes.length = elemCount o.cw := by
  unfold Opened.codes secSlots
  simp

/-- A list of n items is its items by number. -/
theorem eq_map_range_getD {α : Type} {xs : List α} {n : Nat} (hn : xs.length = n) (z : α) :
    xs = (List.range n).map (fun i => xs.getD i z) := by
  subst hn
  refine List.ext_getElem (by simp) (fun i h1 h2 => ?_)
  simp [h1]

theorem openAll_one {h : Hart} {c : Command} {j v x : Nat} {f : BitVec 5} {w : BitVec 3} {o : Opened}
    (ho : Opens h c j v x f w o) : openAll c [(h.row j).vec v x] = .ok [o] := by
  obtain ⟨htyped, hbad, -⟩ := opens_wf ho
  simp [openAll, htyped, hbad, bind, Except.bind, pure, Except.pure]

theorem guessCw_one {h : Hart} {c : Command} {j v x : Nat} {f : BitVec 5} {w : BitVec 3} {o : Opened}
    (ho : Opens h c j v x f w o) : guessCw c none [(h.row j).vec v x] = w := by
  obtain ⟨-, -, hcls, hcw, -⟩ := opens_wf ho
  simp [guessCw, hcls, hcw]

/-- An encoded sector is TYPED. -/
theorem tagCls_encodeEach (f : BitVec 5) (w : BitVec 3) (t : Option Int) (mode : Nat) (satf : Bool) (s : BitVec 32)
    (xs : List (Exact × Bool × IntFit)) : tagCls (encodeEach f w t mode satf s xs).sector.tag = clsTyped := by
  unfold encodeEach quantSector
  split
  · exact tagCls_mkTag ..
  · exact tagCls_mkTag ..

theorem tagCls_encodeSector (f : BitVec 5) (w : BitVec 3) (t : Option Int) (fit : IntFit) (mode : Nat) (satf : Bool)
    (s : BitVec 32) (xs : List (Exact × Bool)) : tagCls (encodeSector f w t fit mode satf s xs).sector.tag = clsTyped :=
  tagCls_encodeEach ..

/-! ## VSEL (R167) -/

theorem selSector_sector {s : State} {h : Hart} {c : Command} {j x : Nat} {a b : Acc} {f : BitVec 5} {w : BitVec 3}
    {oa ob : Opened} (hoa : Opens h c j c.t.a.toNat x f w oa) (hob : Opens h c j c.t.b.toNat x f w ob)
    (hin : c.inRange w x = true) (hab : selSector s h c (h.row j) x a = .ok b) :
    b.row.vec c.t.d.toNat x = (encodeSector f w (if f = fE2m1 then none else some 0) .wrap 0 false a.sr
      ((List.range (elemCount w)).map (fun i =>
        (((if Enabled h c j (x * elemCount w + i) then oa else ob).values w).getD i (zeroOf false),
          inVl (vlBits c.vl c.vlcw) w (x * elemCount w + i))))).sector := by
  unfold selSector at hab
  simp only [guessCw_operands hoa, hin, Bool.not_true, Bool.false_eq_true, if_false, openAll_operands hoa hob,
    resultTarget_operands hoa hob, bind, Except.bind, pure, Except.pure, Except.ok.injEq] at hab
  subst hab
  refine (vec_setVec_typed _ _ _ (tagCls_encodeSector ..)).trans ?_
  simp only [beq_iff_eq]
  congr 2
  have hla := values_length hoa.2.2.2
  have hlb := values_length hob.2.2.2
  refine List.ext_getElem (by simp [activity, hla, hlb]) (fun i h1 h2 => ?_)
  have hi : i < elemCount w := by simpa using h2
  simp only [List.getElem_zip, List.getElem_map, List.map_cons, List.map_nil, List.getD_cons_zero, List.getD_cons_succ,
    List.getElem_range, activity, maskBit, beq_self_eq_true, Bool.true_or, Bool.and_true, Enabled]
  split
  · simp [*]
  · simp [*]

/-! ## VCLASS (R168) -/

/-- The code of each active element, 0 for the others. -/
theorem getD_zip_active {n i : Nat} (hi : i < n) {xs : List Nat} (hx : xs.length = n) (act : Nat → Bool) :
    ((xs.zip ((List.range n).map act)).map (fun y => if y.2 then y.1 else 0)).getD i 0 =
      if act i then xs.getD i 0 else 0 := by
  simp [List.getD_eq_getElem?_getD, hx, hi]

theorem classIndex_lt (f : BitVec 5) (k : Nat) : classIndex f k < 2 ^ 8 := by
  unfold classIndex
  dsimp only
  repeat' split
  all_goals decide

theorem cwBits_of_classFmt {w : BitVec 3} {u : BitVec 5} (hu : classFmt w = some u) : 2 ^ 8 ≤ 2 ^ cwBits w := by
  revert w u
  decide

theorem classSector_sector {h : Hart} {c : Command} {j x : Nat} {a b : Acc} {f : BitVec 5} {w : BitVec 3} {o : Opened}
    (ho : Opens h c j c.t.a.toNat x f w o) (hin : c.inRange w x = true)
    (hab : classSector c (h.row j) x a = .ok b) : ∃ u, classFmt w = some u ∧
      ∀ i, i < elemCount w → slotOf (b.row.vec c.t.d.toNat x) w i =
        if Active h c j w (x * elemCount w + i) then classIndex f (o.codes.getD i 0) else 0 := by
  have hshared : sharedCw none c.vlcw [o] = .ok w := by
    simp [sharedCw, ho.2.1, ho.2.2.2]
  unfold classSector at hab
  simp only [guessCw_one ho, hin, Bool.not_true, Bool.false_eq_true, if_false, openAll_one ho, hshared, 
    bind, Except.bind, pure, Except.pure] at hab
  cases hu : classFmt w with
  | none =>
    rw [hu] at hab
    cases hab
  | some u =>
    rw [hu] at hab
    cases hab
    refine ⟨u, rfl, fun i hi => ?_⟩
    have hlen : (o.codes.map (classIndex f)).length = elemCount w := by
      rw [List.length_map, codes_length, ho.2.2.2]
    have hcode : (o.codes.map (classIndex f)).getD i 0 = classIndex f (o.codes.getD i 0) := by
      rw [List.length_map] at hlen
      simp [List.getD_eq_getElem?_getD, hlen, hi]
    rw [vec_setVec_mkTag, ho.2.1, ho.2.2.1, acts_eq, if_neg Bool.false_ne_true]
    rw [slotOf_packSlots_of_lt hi, getD_zip_active hi hlen, hcode]
    rw [getD_zip_active hi hlen]
    split
    · rw [hcode]
      exact (classIndex_lt f _).trans_le (cwBits_of_classFmt hu)
    · exact Nat.two_pow_pos _

/-! ## VSEXP and VMOV (R179, R185) -/

theorem sexpSector_sector {h : Hart} {c : Command} {j x : Nat} {a b : Acc} {f : BitVec 5} {w : BitVec 3} {o : Opened}
    (ho : Opens h c j c.t.a.toNat x f w o) (hin : c.inRange w x = true)
    (hab : sexpSector c (h.row j) x a = .ok b) :
    b.row.vec c.t.d.toNat x = { (h.row j).vec c.t.a.toNat x with
      tag := mkTag clsTyped f w (BitVec.ofInt 8 (o.sexp.toInt + (c.t.imm.extractLsb' 0 8).toInt)) } := by
  obtain ⟨-, hz, rfl, rfl⟩ := id ho
  unfold sexpSector at hab
  simp only [guessCw_one ho, hin, Bool.not_true, Bool.false_eq_true, if_false, openAll_one ho, hz,
    bind, Except.bind, pure, Except.pure] at hab
  obtain ⟨-, hab⟩ | ⟨-, hab⟩ := ite_eq_ok.mp hab
  · cases hab
  · cases hab
    exact vec_setVec_mkTag ..

theorem codes_lt {o : Opened} {w : BitVec 3} (hw : o.cw = w) (hfit : fmtFits o.fmt w = true) (i : Nat) :
    o.codes.getD i 0 < 2 ^ cwBits w := by
  subst hw
  unfold Opened.codes
  rw [List.getD_eq_getElem?_getD, List.getElem?_map]
  cases (secSlots o.src o.cw)[i]? with
  | none => exact Nat.two_pow_pos _
  | some k =>
    rw [Option.map_some, Option.getD_some]
    split
    · exact Nat.two_pow_pos _
    · exact (Nat.mod_lt _ (Nat.two_pow_pos _)).trans_le (two_pow_fmtWidth_le hfit)

theorem secVisible_typed {y : Sector} (hy : tagCls y.tag = clsTyped) : secVisible y = y := by
  rw [secVisible, if_neg (by rw [hy]; decide)]

/-- What VMOV of a TYPED sector leaves: the sector where every element is active, else its tag, metadata and active
elements. -/
theorem movSector_sector {h : Hart} {c : Command} {j x : Nat} {a b : Acc} {f : BitVec 5} {w : BitVec 3} {o : Opened}
    (ho : Opens h c j c.t.a.toNat x f w o) (hin : c.inRange w x = true) (hab : movSector c (h.row j) x a = .ok b)
    (ht : tagCls ((h.row j).vec c.t.a.toNat x).tag = clsTyped) :
    let y := b.row.vec c.t.d.toNat x
    ((∀ i, i < elemCount w → Active h c j w (x * elemCount w + i) = true) → y = (h.row j).vec c.t.a.toNat x) ∧
    ((∃ i, i < elemCount w ∧ Active h c j w (x * elemCount w + i) = false) →
      y.tag = ((h.row j).vec c.t.a.toNat x).tag ∧ y.bmeta = ((h.row j).vec c.t.a.toNat x).bmeta ∧
      ∀ i, i < elemCount w → slotOf y w i =
        if Active h c j w (x * elemCount w + i) then o.codes.getD i 0 else 0) := by
  intro y
  have hfit : fmtFits o.fmt w = true := by
    obtain ⟨-, -, -, -, -, hfit⟩ := opens_wf ho
    rw [ho.2.2.1]
    exact hfit
  have hall : (c.acts (h.row j) w x).all id = true ↔
      ∀ i, i < elemCount w → Active h c j w (x * elemCount w + i) = true := by
    simp [acts_eq]
  unfold movSector at hab
  simp only [guessCw_one ho, hin, Bool.not_true, Bool.false_eq_true, if_false] at hab
  obtain ⟨hact, hab⟩ | ⟨hact, hab⟩ := ite_eq_ok.mp hab
  · cases hab
    refine ⟨fun _ => vec_setVec_typed _ _ _ ht, ?_⟩
    rintro ⟨i, hi, hno⟩
    rw [hall.mp hact i hi] at hno
    cases hno
  · rw [hall] at hact
    simp only [openAll_one ho, ho.2.1, ho.2.2.2, ht, secVisible_typed ht, bind, Except.bind, pure, Except.pure] at hab
    cases hab
    have hy : y = { (h.row j).vec c.t.a.toNat x with
        data := packSlots (cwBits w) ((o.codes.zip (c.acts (h.row j) w x)).map (fun z => if z.2 then z.1 else 0)) } :=
      vec_setVec_typed _ _ _ ht
    refine ⟨fun hact' => absurd hact' hact, fun _ => ?_⟩
    rw [hy]
    refine ⟨rfl, rfl, fun i hi => ?_⟩
    have hlen : o.codes.length = elemCount w := by rw [codes_length, ho.2.2.2]
    rw [acts_eq, slotOf_packSlots_of_lt hi, getD_zip_active hi hlen]
    rw [getD_zip_active hi hlen]
    split
    · exact codes_lt ho.2.2.2 hfit i
    · exact Nat.two_pow_pos _

/-! ## VBCAST, VID and VSETI (R173) -/

theorem writtenCode_lt (f : BitVec 5) (k : Nat) : writtenCode f k < 2 ^ fmtWidth f := by
  unfold writtenCode
  dsimp only
  split
  · next hf =>
    rw [Bool.and_eq_true, beq_iff_eq] at hf
    rw [hf.1]
    decide
  · exact Nat.mod_lt _ (Nat.two_pow_pos _)

theorem buildSector_sector {h : Hart} {c : Command} {j x i : Nat} {a b : Acc} {code : Nat → Nat} {masked : Bool}
    (hin : c.inRange c.t.cw x = true) (hab : buildSector code masked c (h.row j) x a = .ok b) :
    let w := c.t.cw
    let e := x * elemCount w + i
    (b.row.vec c.t.d.toNat x).tag = mkTag clsTyped c.t.fmt w 0 ∧ (i < elemCount w →
    slotOf (b.row.vec c.t.d.toNat x) w i =
      if inVl (vlBits c.vl c.vlcw) w e && (!masked || Enabled h c j e) then writtenCode c.t.fmt (code e) else 0) := by
  intro w e
  unfold buildSector at hab
  simp only [hin, Bool.not_true, Bool.false_eq_true, if_false] at hab
  obtain ⟨-, hab⟩ | ⟨hfit, hab⟩ := ite_eq_ok.mp hab
  · cases hab
  rw [Bool.not_eq_true, Bool.not_eq_false'] at hfit
  cases hab
  rw [vec_setVec_mkTag]
  refine ⟨rfl, fun hi => ?_⟩
  have hact : (if masked then c.acts (h.row j) w x else activity (vlBits c.vl c.vlcw) w x 0 0) =
      (List.range (elemCount w)).map (fun i => inVl (vlBits c.vl c.vlcw) w (x * elemCount w + i) &&
        (!masked || Enabled h c j (x * elemCount w + i))) := by
    cases masked with
    | true => rfl
    | false => simp [activity, maskBit]
  have hslot : ((List.map (fun y => if y.1 then writtenCode c.t.fmt (code (x * elemCount w + y.2)) else 0)
      (if masked then c.acts (h.row j) w x else activity (vlBits c.vl c.vlcw) w x 0 0).zipIdx).getD i 0) =
      if inVl (vlBits c.vl c.vlcw) w e && (!masked || Enabled h c j e) then writtenCode c.t.fmt (code e) else 0 := by
    rw [hact]
    simp [List.getD_eq_getElem?_getD, hi, e]
  rw [slotOf_packSlots_of_lt hi, hslot]
  rw [hslot]
  split
  · exact (writtenCode_lt _ _).trans_le (two_pow_fmtWidth_le hfit)
  · exact Nat.two_pow_pos _

/-! ## VEXTR, VTAGR and VTAGW (R174, R178) -/

theorem get_set (r : RowRegs) {d : Nat} (x : Dword) (h0 : 0 < d) (hd : d < 32) : (r.set false d x).get false d = x := by
  unfold RowRegs.set RowRegs.get
  simp [Nat.ne_of_gt h0, hd]

theorem slotOf_zero (t : BitVec 24) (m : BitVec 128) (w : BitVec 3) (i : Nat) :
    slotOf { tag := t, bmeta := m, data := 0 } w i = 0 := by
  rw [slotOf, secSlots, List.getD_eq_getElem?_getD, List.getElem?_map]
  cases (List.range (elemCount w))[i]? <;> simp

/-- A ZERO sector is read as zeros (R40). -/
theorem slotOf_secVisible (x : Sector) (w : BitVec 3) (i : Nat) :
    slotOf (secVisible x) w i = if tagCls x.tag = clsZero then 0 else slotOf x w i := by
  by_cases hz : tagCls x.tag = clsZero
  · rw [if_pos hz, secVisible, if_pos (by exact hz), slotOf_zero]
  · rw [if_neg hz, secVisible, if_neg (by exact hz)]

theorem extrRow_get {h : Hart} {c : Command} {j : Nat} {a b : Acc} (hab : extrRow h c j a = .ok b)
    (h0 : 0 < c.t.d.toNat) (hd : c.t.d.toNat < 32) :
    let n := elemCount c.vlcw
    let x := (h.row j).vec c.t.a.toNat (c.t.imm.toNat / n)
    b.row.get false c.t.d.toNat =
      BitVec.ofNat 64 (if tagCls x.tag = clsZero then 0 else slotOf x c.vlcw (c.t.imm.toNat % n)) := by
  intro n x
  obtain ⟨-, hab⟩ | ⟨-, hab⟩ := ite_eq_ok.mp hab
  · cases hab
  split at hab
  · cases hab
  obtain ⟨-, hab⟩ | ⟨-, hab⟩ := ite_eq_ok.mp hab
  · cases hab
  cases hab
  refine (get_set _ _ h0 hd).trans ?_
  congr 1
  exact slotOf_secVisible x c.vlcw (c.t.imm.toNat % n)

theorem tagrRow_get {h : Hart} {c : Command} {j : Nat} {a b : Acc} (hab : tagrRow h c j a = .ok b)
    (h0 : 0 < c.t.d.toNat) (hd : c.t.d.toNat < 32) :
    b.row.get false c.t.d.toNat = BitVec.ofNat 64 ((h.row j).vec c.t.a.toNat c.t.imm.toNat).tag.toNat := by
  obtain ⟨-, hab⟩ | ⟨-, hab⟩ := ite_eq_ok.mp hab
  · cases hab
  cases hab
  exact get_set _ _ h0 hd

theorem tagwRow_vec {h : Hart} {c : Command} {j : Nat} {a b : Acc} (hab : tagwRow h c j a = .ok b) :
    let y := secRetag ((h.row j).vec c.t.d.toNat c.t.imm.toNat) ((c.capt j).a.extractLsb' 0 24)
    y ≠ zeroSector → b.row.vec c.t.d.toNat c.t.imm.toNat = y := by
  intro y hy
  obtain ⟨-, hab⟩ | ⟨-, hab⟩ := ite_eq_ok.mp hab
  · cases hab
  obtain ⟨-, hab⟩ | ⟨-, hab⟩ := ite_eq_ok.mp hab
  · cases hab
  obtain ⟨-, hab⟩ | ⟨-, hab⟩ := ite_eq_ok.mp hab
  · cases hab
  cases hab
  exact vec_setVec_same _ _ _ hy

theorem secRetag_tag (s : Sector) (t : BitVec 24) : (secRetag s t).tag = normTag t := by
  unfold secRetag
  split <;> rfl

theorem secRetag_kept {s : Sector} (t : BitVec 24) (hs : tagCls s.tag ≠ clsZero) :
    (secRetag s t).data = s.data ∧ (secRetag s t).bmeta = s.bmeta := by
  have : (decide (tagCls s.tag = 0) && tagCls t != 0) = false := by
    rw [decide_eq_false (by exact hs), Bool.false_and]
  rw [secRetag, if_neg (by rw [this]; nofun)]
  exact ⟨rfl, rfl⟩

/-! ## Integers written exactly (R154, R165) -/

/-- The codes of elements each of which is written as `g` says, whatever the generator's state. -/
theorem encodeList_codes {f : BitVec 5} {mode : Nat} {satf : Bool} {g : Exact → Nat} {xs : List (Exact × Bool × IntFit)}
    (hg : ∀ y ∈ xs, ∀ s, (encodeElem f y.2.2 mode satf s y.1).1 = g y.1) (s : BitVec 32) :
    (encodeList f mode satf s xs).1 = xs.map (fun y => if y.2.1 then g y.1 else 0) := by
  induction xs generalizing s with
  | nil => rfl
  | cons y xs ih =>
    have hxs := fun s => ih (fun z hz => hg z (List.mem_cons_of_mem _ hz)) s
    have hy := hg y (List.mem_cons_self ..)
    obtain ⟨x, act, fit⟩ := y
    cases act with
    | true =>
      rw [List.map_cons, ← hxs (if fit.rounds f then srDraw mode s else s), if_pos rfl,
        ← hy (if fit.rounds f then srDraw mode s else s)]
      rfl
    | false =>
      rw [List.map_cons, ← hxs s]
      rfl

theorem roundToInt_exactOfInt (i : Int) : (roundToInt 1 0 ((exactOfInt i).scale (-0))).1 = i := by
  have hq : (cutAt ((exactOfInt i).scale (-0)) 0).q = i.natAbs := by
    simp [exactOfInt, Exact.scale, cutAt]
  have hup : ∀ neg c, roundsUp 1 neg 0 c = false := by
    intro neg c
    unfold roundsUp
    split <;> rfl
  have hsign : ((exactOfInt i).scale (-0)).sign = decide (i < 0) := rfl
  simp only [roundToInt, hq, hup, hsign, Bool.false_eq_true, if_false, decide_eq_true_eq]
  split <;> omega

theorem wrapNat_lt (n : Nat) (i : Int) : wrapNat n i < 2 ^ n := by
  have hpos : (0 : Int) < 2 ^ n := by positivity
  have h1 := Int.emod_lt_of_pos i hpos
  have h0 := Int.emod_nonneg i (Int.ne_of_gt hpos)
  rw [wrapNat, Int.toNat_lt h0]
  push_cast
  exact h1

theorem fitInt_lt (n : Nat) (signed sat : Bool) (i : Int) : (fitInt n signed sat i).1 < 2 ^ n := by
  unfold fitInt
  split
  · exact wrapNat_lt ..
  · exact wrapNat_lt ..

/-! ## VDOT (R165) -/

theorem signedFmt_spec {n : Nat} {g : BitVec 5} (hg : signedFmt n = some g) :
    fmtWidth g = n ∧ fmtSigned g = true ∧ fmtInt g = true ∧ (g == fE2m1) = false := by
  unfold signedFmt at hg
  split at hg
  all_goals cases hg
  all_goals exact ⟨rfl, rfl, rfl, rfl⟩

theorem cwBits_wideCw {w v : BitVec 3} {m : Nat} (hm : m = 2 ∨ m = 4) (hv : wideCw w m = some v) :
    cwBits v = m * cwBits w := by
  obtain rfl | rfl := hm
  · revert w v
    decide
  · revert w v
    decide

section
variable {h : Hart} {c : Command} {j x m : Nat} {f u : BitVec 5} {w v : BitVec 3} {oa ob od : Opened}
  (hoa : Opens h c j c.t.a.toNat x f w oa) (hob : Opens h c j c.t.b.toNat x f w ob)

include hoa in
theorem openAll_three (hob : Opens h c j c.t.b.toNat x f w ob) (hod : Opens h c j c.t.d.toNat x u v od) :
    openAll c [(h.row j).vec c.t.a.toNat x, (h.row j).vec c.t.b.toNat x, (h.row j).vec c.t.d.toNat x] =
      .ok [oa, ob, od] := by
  obtain ⟨ha, hbada, -⟩ := opens_wf hoa
  obtain ⟨hb, hbadb, -⟩ := opens_wf hob
  obtain ⟨hd, hbadd, -⟩ := opens_wf hod
  simp [openAll, ha, hb, hd, hbada, hbadb, hbadd, bind, Except.bind, pure, Except.pure]

/-- Element i of D and the products of its elements of A and B (R165). -/
def dotSum (m : Nat) (w v : BitVec 3) (oa ob od : Opened) (i : Nat) : Int :=
  intOf ((od.values v).getD i (zeroOf false)) + ((List.range m).map (fun k =>
    intOf ((oa.values w).getD (m * i + k) (zeroOf false)) * intOf ((ob.values w).getD (m * i + k) (zeroOf false)))).sum

theorem foldl_add_sum (g : Nat → Int) (xs : List Nat) (z : Int) :
    xs.foldl (fun acc k => acc + g k) z = z + (xs.map g).sum := by
  induction xs generalizing z with
  | nil => simp
  | cons x xs ih => rw [List.foldl_cons, ih, List.map_cons, List.sum_cons, Int.add_assoc]

include hoa hob in
/-- What VDOT makes of a sector whose operands are of integer formats. -/
theorem dotSector_eq {s : State} {a b : Acc} {g : BitVec 5} (hod : Opens h c j c.t.d.toNat x u v od)
    (hf : fmtInt f = true) (hu : fmtInt u = true) (hg : signedFmt (m * fmtWidth f) = some g)
    (hv : wideCw w m = some v) (hin : c.inRange v x = true) (hab : dotSector s h c m (h.row j) x a = .ok b) :
    b.row.vec c.t.d.toNat x = (encodeSector g v (some 0) (if c.satf then .sat else .wrap) 0 false a.sr
      ((((List.range (elemCount v)).map (dotSum m w v oa ob od)).map exactOfInt).zip (c.acts (h.row j) v x))).sector
        := by
  obtain ⟨-, -, hclsa, hcwa, -⟩ := opens_wf hoa
  have hopen := openAll_three hoa hob hod
  obtain ⟨-, haz, haf, haw⟩ := hoa
  obtain ⟨-, hbz, hbf, hbw⟩ := hob
  obtain ⟨-, hdz, hdf, hdw⟩ := hod
  have hprom : promoteAll (s.prtOf h) [oa, ob] = .ok (some f, 0) := by
    simp [promoteAll, haz, hbz, haf, hbf, promote, bind, Except.bind, pure, Except.pure]
  have hshared : sharedCw none c.vlcw [oa, ob] = .ok w := by
    simp [sharedCw, haz, hbz, haw, hbw]
  have hcls : (tagCls ((h.row j).vec c.t.a.toNat x).tag != clsZero) = true := bne_iff_ne.mpr hclsa
  unfold dotSector at hab
  simp only [List.filter_cons, hcls, if_true, List.findSome?_cons, hcwa, hv, Option.getD_some, hin, Bool.not_true,
    Bool.false_eq_true, if_false, hopen, hprom, hshared, hf, hg, hdz, hdf, hdw, hu, Option.any_some, bind, Except.bind,
    pure, Except.pure, Bool.not_false, bne_self_eq_false, Bool.and_false] at hab
  cases hab
  refine (vec_setVec_typed _ _ _ (tagCls_encodeSector ..)).trans ?_
  have hsum : dotSum m w v oa ob od = fun i => (List.range m).foldl (fun acc k => acc +
      intOf ((if oa.zero then [] else oa.values oa.cw).getD (m * i + k) (zeroOf false)) *
        intOf ((if ob.zero then [] else ob.values ob.cw).getD (m * i + k) (zeroOf false)))
      (intOf ((od.values v).getD i (zeroOf false))) := by
    funext i
    rw [haz, hbz, haw, hbw, foldl_add_sum]
    rfl
  rw [hsum]

/-- A slot of integers that are written exactly holds the integer fitted to its format, and 0 where it is not active. -/
theorem slotOf_encodeInts {g : BitVec 5} {v : BitVec 3} (hg : fmtInt g = true) (hfit : fmtFits g v = true) (sat : Bool)
    (sr : BitVec 32) {i : Nat} (hi : i < elemCount v) (z : Nat → Int) (act : Nat → Bool) :
    slotOf (encodeSector g v (some 0) (if sat then .sat else .wrap) 0 false sr
      ((((List.range (elemCount v)).map z).map exactOfInt).zip ((List.range (elemCount v)).map act))).sector v i =
      if act i then (fitInt (fmtWidth g) (fmtSigned g) sat (z i)).1 else 0 := by
  have hne : (g == fE2m1) = false := by
    rw [beq_eq_false_iff_ne]
    rintro rfl
    cases hg
  set fit : IntFit := if sat then .sat else .wrap with hfitdef
  have hcode : ∀ s x, (encodeElem g fit 0 false s x).1 =
      (fitInt (fmtWidth g) (fmtSigned g) sat (roundToInt 1 0 x).1).1 := by
    intro s x
    unfold encodeElem
    rw [if_pos hg, hfitdef]
    cases sat <;> rfl
  unfold encodeSector encodeEach
  simp only [hne, Bool.false_eq_true, if_false, Option.getD_some]
  have hcodes : ∀ ys : List (Exact × Bool),
    (encodeList g 0 false sr ((ys.map (fun y => (y.1, y.2, fit))).map (fun y => (y.1.scale (-0), y.2)))).1 =
      ys.map (fun y => if y.2 then (fitInt (fmtWidth g) (fmtSigned g) sat (roundToInt 1 0 (y.1.scale (-0))).1).1 else
        0) := by
    intro ys
    rw [encodeList_codes (g := fun x => (fitInt (fmtWidth g) (fmtSigned g) sat (roundToInt 1 0 x).1).1)]
    · simp [Function.comp_def]
    · intro y hy s
      simp only [List.map_map, List.mem_map] at hy
      obtain ⟨z, -, rfl⟩ := hy
      exact hcode s _
  have hslot : (encodeList g 0 false sr ((((((List.range (elemCount v)).map z).map exactOfInt).zip
      ((List.range (elemCount v)).map act)).map (fun y => (y.1, y.2, fit))).map (fun y => (y.1.scale (-0),
        y.2)))).1.getD i 0 =
      if act i then (fitInt (fmtWidth g) (fmtSigned g) sat (z i)).1 else 0 := by
    rw [hcodes]
    simp only [List.getD_eq_getElem?_getD, List.getElem?_map, List.map_map, List.zip_map', List.getElem?_range hi,
      Option.map_some, Option.getD_some, Function.comp_apply, roundToInt_exactOfInt]
  rw [slotOf_packSlots_of_lt hi]
  · exact hslot
  · refine lt_of_eq_of_lt hslot ?_
    split
    · exact (fitInt_lt ..).trans_le (two_pow_fmtWidth_le hfit)
    · exact Nat.two_pow_pos _
end

end Sys2Proof.VectorSectors
end

section
/-! PROOFS. Rearrangements of elements (R169 to R172). -/

namespace Sys2Proof.VectorMoves

open Sys2Proof Sys2Proof.Machine Sys2Proof.Claim Sys2Proof.Laws Sys2Proof.VectorMask Sys2Proof.VectorFrame
  Sys2Proof.VectorSectors

-- One proof is checked at a time: this keeps the check of the whole text within its memory.
set_option Elab.async false

/-! ## The sectors that a rearrangement reads (R169) -/

theorem mem_readSectors {n k y : Nat} {xs : List From} :
    (k, y) ∈ readSectors n xs ↔ k < 2 ∧ y < 8 ∧ ∃ q, .elem k q ∈ xs ∧ q / n = y := by
  unfold readSectors
  simp only [List.mem_flatMap, List.mem_filterMap, List.mem_range, List.any_eq_true]
  constructor
  · rintro ⟨k', hk, y', hy, hsome⟩
    split at hsome
    · next hany =>
      cases hsome
      obtain ⟨e, he, hm⟩ := hany
      cases e with
      | fill => cases hm
      | elem k' q =>
        simp only [Bool.and_eq_true, beq_iff_eq] at hm
        obtain ⟨rfl, hq⟩ := hm
        exact ⟨hk, hy, q, he, hq⟩
    · cases hsome
  · rintro ⟨hk, hy, q, he, hq⟩
    refine ⟨k, hk, y, hy, ?_⟩
    rw [if_pos ⟨.elem k q, he, by simp [hq]⟩]

/-- An element whose sector is among those read is taken from it. -/
theorem takeFrom_elem {α : Type} {n k q : Nat} {keys : List (Nat × Nat)} {g : Nat × Nat → List α} (z : α)
    (hk : (k, q / n) ∈ keys) : takeFrom n keys (keys.map g) z (.elem k q) = (g (k, q / n)).getD (q % n) z := by
  have hfind : ∀ ks : List (Nat × Nat), (k, q / n) ∈ ks →
      (ks.zip (ks.map g)).find? (fun p => p.1 == (k, q / n)) = some ((k, q / n), g (k, q / n)) := by
    intro ks hks
    induction ks with
    | nil => cases hks
    | cons y ks ih =>
      rw [List.map_cons, List.zip_cons_cons, List.find?_cons]
      by_cases hy : y = (k, q / n)
      · subst hy
        simp
      · rw [beq_false_of_ne hy]
        exact ih (List.mem_of_ne_of_mem (fun h => hy h.symm) hks)
  rw [takeFrom, hfind keys hk]

/-! ## A register sector that a fold writes -/

theorem foldl_vec_other {β : Type} {d x : Nat} {g : β → Sector} {p : β → Nat} {ys : List β} (hx : ∀ y ∈ ys, p y ≠ x)
    (r : RowRegs) : (ys.foldl (fun r y => r.setVec d (p y) (g y)) r).vec d x = r.vec d x := by
  induction ys generalizing r with
  | nil => rfl
  | cons y ys ih =>
    rw [List.foldl_cons, ih (fun z hz => hx z (List.mem_cons_of_mem _ hz)),
      vec_setVec_other _ _ _ (fun h => hx y (List.mem_cons_self ..) h.symm)]

/-- A fold that writes distinct sectors leaves in sector x what x's own item gives. -/
theorem foldl_vec_at {β : Type} {d : Nat} {g : β → Sector} {p : β → Nat} {ys : List β} {y : β} (hy : y ∈ ys)
    (hnd : (ys.map p).Nodup) (hg : tagCls (g y).tag = clsTyped) (r : RowRegs) :
    (ys.foldl (fun r y => r.setVec d (p y) (g y)) r).vec d (p y) = g y := by
  induction ys generalizing r with
  | nil => cases hy
  | cons z ys ih =>
    rw [List.map_cons, List.nodup_cons] at hnd
    obtain ⟨hz, hnd⟩ := hnd
    rw [List.foldl_cons]
    obtain rfl | hy := List.mem_cons.mp hy
    · rw [foldl_vec_other (fun u hu h => hz (List.mem_map.mpr ⟨u, hu, h⟩)), vec_setVec_typed _ _ _ hg]
    · exact ih hy hnd _

/-! ## Sectors of one TYPED tag (R169) -/

section
variable {c : Command} {t : BitVec 24} (hok : tagOk t = true) (hcls : tagCls t = clsTyped)
include hok hcls

theorem openTyped_typed {y : Sector} (hy : y.tag = t) :
    openTyped c.reader y = .ok ⟨false, tagFmt t, tagCw t, tagSexp t, y⟩ := by
  unfold openTyped
  rw [hy, hok, hcls]
  rfl

theorem mapM_openTyped {ss : List Sector} (hs : ∀ y ∈ ss, y.tag = t) :
    ss.mapM (openTyped c.reader) = .ok (ss.map (fun y => ⟨false, tagFmt t, tagCw t, tagSexp t, y⟩)) := by
  induction ss with
  | nil => rfl
  | cons y ss ih =>
    rw [List.mapM_cons, openTyped_typed hok hcls (hs y (List.mem_cons_self ..)),
      ih (fun z hz => hs z (List.mem_cons_of_mem _ hz))]
    rfl

end

/-- Operands of one format and container, none ZERO. -/
def Alike (f : BitVec 5) (w : BitVec 3) (os : List Opened) : Prop := ∀ o ∈ os, o.zero = false ∧ o.fmt = f ∧ o.cw = w

theorem promoteAll_alike {prt : Option (List Byte)} {f : BitVec 5} {w : BitVec 3} {os : List Opened} (h : Alike f w os)
    (hne : os ≠ []) : promoteAll prt os = .ok (some f, 0) := by
  have hrest : ∀ os : List Opened, Alike f w os → os.foldlM (fun acc (o : Opened) =>
      if o.zero then .ok acc
      else
        match acc.1 with
        | none => .ok (some o.fmt, acc.2)
        | some f => do
          let (g, fl) ← promote prt f o.fmt
          pure (some g, acc.2 ||| fl)) ((some f, 0) : Option (BitVec 5) × Flags) = (.ok (some f, 0) :
            Except Cause _) := by
    intro os h
    induction os with
    | nil => rfl
    | cons o os ih =>
      obtain ⟨hz, hf, -⟩ := h o (List.mem_cons_self ..)
      rw [List.foldlM_cons, hz, hf]
      simp only [Bool.false_eq_true, if_false, promote, beq_self_eq_true, if_true, bind, Except.bind, pure, Except.pure]
      exact ih (fun p hp => h p (List.mem_cons_of_mem _ hp))
  cases os with
  | nil => exact absurd rfl hne
  | cons o os =>
    obtain ⟨hz, hf, -⟩ := h o (List.mem_cons_self ..)
    unfold promoteAll
    rw [List.foldlM_cons, hz, hf]
    exact hrest os (fun p hp => h p (List.mem_cons_of_mem _ hp))

theorem Alike.tail {f : BitVec 5} {w : BitVec 3} {o : Opened} {os : List Opened} (h : Alike f w (o :: os)) :
    Alike f w os := fun p hp => h p (List.mem_cons_of_mem _ hp)

theorem sharedCw_alike {f : BitVec 5} {w vlcw : BitVec 3} {n : Option (BitVec 3)} {os : List Opened} (h : Alike f w os)
    (hne : os ≠ []) (hn : n = none ∨ n = some w) : sharedCw n vlcw os = .ok w := by
  cases os with
  | nil => exact absurd rfl hne
  | cons o os =>
    obtain ⟨hz, -, hw⟩ := h o (List.mem_cons_self ..)
    have hall : (o :: os).any (fun p => !p.zero && p.cw != o.cw) = false := by
      rw [List.any_eq_false]
      intro p hp
      obtain ⟨hpz, -, hpw⟩ := h p hp
      simp [hpz, hpw, hw]
    have hfind : (o :: os).find? (fun p => !p.zero) = some o := by
      rw [List.find?_cons, hz]
      rfl
    unfold sharedCw
    rw [hfind]
    simp only [hall, Bool.false_eq_true, if_false]
    obtain rfl | rfl := hn
    · rw [hw]
    · simp only [hw, if_true]

/-- Operands of one format and container give a result of the same, which the named fields may repeat (R57, R154). -/
theorem resultTarget_alike {prt : Option (List Byte)} {f : BitVec 5} {w vlcw : BitVec 3} {m : Option (BitVec 5)}
    {n : Option (BitVec 3)} {os : List Opened} (h : Alike f w os) (hne : os ≠ []) (hfit : fmtFits f w = true)
    (hm : m = none ∨ m = some f) (hn : n = none ∨ n = some w) :
    resultTarget prt .any m n vlcw os = .ok (some ⟨f, w⟩, 0) := by
  have hkind : os.any (fun o => !o.zero && !Kind.any.accepts o.fmt) = false := by
    rw [List.any_eq_false]
    intro o ho
    simp [Kind.accepts]
  have hint : os.any (fun o => !o.zero && fmtInt o.fmt != fmtInt f) = false := by
    rw [List.any_eq_false]
    intro o ho
    obtain ⟨-, hf, -⟩ := h o ho
    simp [hf]
  unfold resultTarget
  simp only [promoteAll_alike h hne, sharedCw_alike h hne hn, hkind, Bool.false_eq_true, if_false, bind, Except.bind]
  obtain rfl | rfl := hm
  · simp only [Kind.accepts, hint, hfit, Bool.not_true, Bool.false_eq_true, if_false, pure, Except.pure]
  · simp only [Kind.accepts, hint, hfit, Bool.not_true, Bool.false_eq_true, if_false, pure, Except.pure]

/-! ## A rearrangement of sectors of one TYPED tag (R169) -/

/-- The sources of sector x's elements, none where the element is not active. -/
def Move.sources (m : Move) (c : Command) (w : BitVec 3) (x : Nat) : List (Option From) :=
  (List.range (elemCount w)).map (fun i =>
    if inVl (vlBits c.vl c.vlcw) w (x * elemCount w + i) && m.act (x * elemCount w + i)
    then some (m.source w (x * elemCount w + i)) else none)

theorem cells_eq (m : Move) (h : Hart) (c : Command) (w : BitVec 3) : m.cells h c w =
    ((sectorsOf h).filter (fun x => c.inRange w x)).map (fun x => (x, Move.sources m c w x)) := rfl

theorem mem_cells_of_inRange {m : Move} {h : Hart} {c : Command} {w : BitVec 3} {x : Nat} (hx : x < h.csr.xcl)
    (hin : c.inRange w x = true) : (x, Move.sources m c w x) ∈ m.cells h c w :=
  List.mem_map.mpr ⟨x, List.mem_filter.mpr ⟨List.mem_range.mpr hx, hin⟩, rfl⟩

theorem nodup_cells (m : Move) (h : Hart) (c : Command) (w : BitVec 3) : ((m.cells h c w).map (·.1)).Nodup := by
  rw [cells_eq, List.map_map]
  exact (List.map_id _).symm ▸ List.nodup_range.filter _

/-- The sector that an active element's source lies in is read. -/
theorem mem_keys {m : Move} {h : Hart} {c : Command} {w : BitVec 3} {x i k q : Nat} (hx : x < h.csr.xcl)
    (hin : c.inRange w x = true) (hi : i < elemCount w)
    (hact : (inVl (vlBits c.vl c.vlcw) w (x * elemCount w + i) && m.act (x * elemCount w + i)) = true)
    (hsrc : m.source w (x * elemCount w + i) = .elem k q) (hk : k < 2) (hq : q / elemCount w < 8) :
    (k, q / elemCount w) ∈ m.keys h c w := by
  refine mem_readSectors.mpr ⟨hk, hq, q, ?_, rfl⟩
  refine List.mem_flatMap.mpr ⟨_, mem_cells_of_inRange hx hin, List.mem_filterMap.mpr ⟨some (.elem k q), ?_, rfl⟩⟩
  exact List.mem_map.mpr ⟨i, List.mem_range.mpr hi, by rw [if_pos hact, hsrc]⟩

/-- Every sector that is read is that of an active element's source. -/
theorem source_of_mem_keys {m : Move} {h : Hart} {c : Command} {w : BitVec 3} {k y : Nat} (hk : (k, y) ∈ m.keys h c w) :
    ∃ e q, (inVl (vlBits c.vl c.vlcw) w e && m.act e) = true ∧ m.source w e = .elem k q ∧ q / elemCount w = y := by
  obtain ⟨-, -, q, hq, hy⟩ := mem_readSectors.mp hk
  obtain ⟨cell, hcell, hq⟩ := List.mem_flatMap.mp hq
  obtain ⟨x, -, rfl⟩ := List.mem_map.mp hcell
  obtain ⟨e, he, hid⟩ := List.mem_filterMap.mp hq
  obtain ⟨i, -, rfl⟩ := List.mem_map.mp he
  dsimp only at hid
  split at hid
  · next hact => exact ⟨_, q, hact, Option.some.inj hid, hy⟩
  · cases hid

section
variable {s : State} {h : Hart} {c : Command} {j : Nat} {a b : Acc} {m : Move} {t : BitVec 24}

/-- The sector that a source register's sector is. -/
def Move.src (m : Move) (h : Hart) (j : Nat) (k : Nat × Nat) : Sector := (h.row j).vec (m.regs.getD k.1 0) k.2

/-- The codes that a rearrangement takes from sectors of tag t. -/
def movedCodes (t : BitVec 24) (y : Sector) : List Nat := (Opened.mk false (tagFmt t) (tagCw t) (tagSexp t) y).codes

theorem movedCodes_getD (t : BitVec 24) (y : Sector) (i : Nat) :
    (movedCodes t y).getD i 0 = slotOf y (tagCw t) i % 2 ^ fmtWidth (tagFmt t) := by
  unfold movedCodes Opened.codes slotOf
  rw [List.getD_eq_getElem?_getD, List.getD_eq_getElem?_getD, List.getElem?_map]
  cases (secSlots y (tagCw t))[i]? with
  | none => exact (Nat.zero_mod _).symm
  | some k => rfl

/-- A sector that a rearrangement of codes writes. -/
def movedSector (m : Move) (h : Hart) (c : Command) (j : Nat) (t : BitVec 24) (es : List (Option From)) : Sector :=
  { tag := t, bmeta := 0, data := packSlots (cwBits (tagCw t)) (es.map (fun e => match e with
      | some q => takeFrom (elemCount (tagCw t)) (m.keys h c (tagCw t))
          ((m.keys h c (tagCw t)).map (fun k => movedCodes t (Move.src m h j k))) 0 q
      | none => 0)) }

theorem rearrange_codes (hab : rearrange m s h c (h.row j) a = .ok b) (hw : m.cw h c (h.row j) = tagCw t)
    (hne : m.keys h c (tagCw t) ≠ []) (hok : tagOk t = true) (hcls : tagCls t = clsTyped) (hfmt : tagFmt t ≠ fE2m1)
    (htag : ∀ k ∈ m.keys h c (tagCw t), (Move.src m h j k).tag = t) :
    b.row = (m.cells h c (tagCw t)).foldl (fun r y => r.setVec c.t.d.toNat y.1 (movedSector m h c j t y.2)) a.row := by
  have hfit : fmtFits (tagFmt t) (tagCw t) = true := by
    have h2 : tagCls t = 2 := hcls
    simp only [tagOk, h2, Bool.and_eq_true] at hok
    exact (fits_of_tripleOk hok.2).2
  have hss : ∀ y ∈ (m.keys h c (tagCw t)).map (Move.src m h j), y.tag = t := by
    intro y hy
    obtain ⟨k, hk, rfl⟩ := List.mem_map.mp hy
    exact htag k hk
  have hopen := mapM_openTyped (c := c) hok hcls hss
  have halike : Alike (tagFmt t) (tagCw t) (((m.keys h c (tagCw t)).map (Move.src m h j)).map
      (fun y => ⟨false, tagFmt t, tagCw t, tagSexp t, y⟩)) := by
    intro o ho
    obtain ⟨y, -, rfl⟩ := List.mem_map.mp ho
    exact ⟨rfl, rfl, rfl⟩
  have htarget := resultTarget_alike (prt := s.prtOf h) (vlcw := tagCw t) (m := none) (n := none) halike
    (by simpa using hne) hfit (.inl rfl) (.inl rfl)
  obtain ⟨-, -, hab⟩ := bind_eq_ok.mp hab
  obtain ⟨os, hos, hab⟩ := bind_eq_ok.mp hab
  obtain ⟨⟨tg, fl⟩, htg, hab⟩ := bind_eq_ok.mp hab
  rw [hw] at hos htg hab
  obtain rfl := Except.ok.inj (hopen.symm.trans hos)
  obtain ⟨rfl, rfl⟩ := Prod.mk.inj (Except.ok.inj (htarget.symm.trans htg))
  cases hkeys : m.keys h c (tagCw t) with
  | nil => exact absurd hkeys hne
  | cons k0 ks =>
    have hall : ((k0 :: ks).map (Move.src m h j)).all
        (fun y => tagCls y.tag == clsTyped && y.tag == (Move.src m h j k0).tag) = true := by
      rw [List.all_eq_true]
      intro y hy
      obtain ⟨k, hk, rfl⟩ := List.mem_map.mp hy
      rw [htag k (hkeys ▸ hk), htag k0 (hkeys ▸ List.mem_cons_self ..), hcls]
      simp
    rw [hkeys] at hab
    obtain ⟨-, hab⟩ | ⟨hdiff, -⟩ := ite_eq_ok.mp hab
    · cases hab
      have hhead : (Move.src m h j k0).tag = t := htag k0 (hkeys ▸ List.mem_cons_self ..)
      have htagged : movedSector m h c j t =
          fun es => { movedSector m h c j t es with tag := (Move.src m h j k0).tag } := by
        rw [hhead]
        rfl
      rw [htagged]
      unfold movedSector movedCodes
      rw [hkeys, List.map_map, List.map_map] <;> rfl
    · exact absurd (Bool.and_eq_true_iff.mpr ⟨bne_iff_ne.mpr hfmt, hall⟩) hdiff

/-- A slot that a rearrangement of sectors of one TYPED tag writes (R169). -/
theorem rearrange_slot {x i : Nat} (hab : rearrange m s h c (h.row j) a = .ok b) (hw : m.cw h c (h.row j) = tagCw t)
    (hne : m.keys h c (tagCw t) ≠ []) (hregs : m.regs.length ≤ 2) (hxcl : h.csr.xcl ≤ 8) (hok : tagOk t = true)
    (hcls : tagCls t = clsTyped) (hfmt : tagFmt t ≠ fE2m1)
    (htag : ∀ v ∈ m.regs, ∀ y, y < h.csr.xcl → ((h.row j).vec v y).tag = t)
    (hsrc : ∀ e k q, (inVl (vlBits c.vl c.vlcw) (tagCw t) e && m.act e) = true → m.source (tagCw t) e = .elem k q →
      k < m.regs.length ∧ q < elemCount (tagCw t) * h.csr.xcl)
    (hx : x < h.csr.xcl) (hin : c.inRange (tagCw t) x = true) (hi : i < elemCount (tagCw t)) :
    slotOf (b.row.vec c.t.d.toNat x) (tagCw t) i =
      if inVl (vlBits c.vl c.vlcw) (tagCw t) (x * elemCount (tagCw t) + i) && m.act (x * elemCount (tagCw t) + i) then
        match m.source (tagCw t) (x * elemCount (tagCw t) + i) with
        | .elem k q => slotOf (Move.src m h j (k, q / elemCount (tagCw t))) (tagCw t) (q % elemCount (tagCw t)) %
            2 ^ fmtWidth (tagFmt t)
        | .fill => 0
      else 0 := by
  have hin_reg : ∀ k q, k < m.regs.length → q < elemCount (tagCw t) * h.csr.xcl →
      m.regs.getD k 0 ∈ m.regs ∧ q / elemCount (tagCw t) < h.csr.xcl := fun k q hk hq =>
    ⟨by rw [List.getD_eq_getElem _ _ hk]; exact List.getElem_mem hk, Nat.div_lt_of_lt_mul hq⟩
  have htags : ∀ k ∈ m.keys h c (tagCw t), (Move.src m h j k).tag = t := by
    rintro ⟨k, y⟩ hk
    obtain ⟨e, q, hact, hel, rfl⟩ := source_of_mem_keys hk
    obtain ⟨hkl, hql⟩ := hsrc e k q hact hel
    obtain ⟨hreg, hsec⟩ := hin_reg k q hkl hql
    exact htag _ hreg _ hsec
  have hvec : b.row.vec c.t.d.toNat x = movedSector m h c j t (Move.sources m c (tagCw t) x) := by
    rw [rearrange_codes hab hw hne hok hcls hfmt htags]
    exact foldl_vec_at (p := Prod.fst) (g := fun y => movedSector m h c j t y.2) (mem_cells_of_inRange hx hin)
      (nodup_cells m h c (tagCw t)) hcls a.row
  have hfit : fmtFits (tagFmt t) (tagCw t) = true := by
    have h2 : tagCls t = 2 := hcls
    simp only [tagOk, h2, Bool.and_eq_true] at hok
    exact (fits_of_tripleOk hok.2).2
  rw [hvec, movedSector, slotOf_packSlots hi, Move.sources, List.map_map, getD_map_range hi, Function.comp_apply]
  by_cases hact : (inVl (vlBits c.vl c.vlcw) (tagCw t) (x * elemCount (tagCw t) + i) &&
      m.act (x * elemCount (tagCw t) + i)) = true
  · rw [if_pos hact, if_pos hact]
    cases hel : m.source (tagCw t) (x * elemCount (tagCw t) + i) with
    | fill => exact Nat.zero_mod _
    | elem k q =>
      obtain ⟨hkl, hql⟩ := hsrc _ k q hact hel
      obtain ⟨-, hsec⟩ := hin_reg k q hkl hql
      dsimp only
      rw [takeFrom_elem 0 (mem_keys hx hin hi hact hel (hkl.trans_le hregs) (hsec.trans_le hxcl)), movedCodes_getD,
        Nat.mod_eq_of_lt ((Nat.mod_lt _ (Nat.two_pow_pos _)).trans_le (two_pow_fmtWidth_le hfit))]
  · rw [if_neg hact, if_neg hact]
    exact Nat.zero_mod _
end

/-! ## Where the elements of a rearrangement come from (R170 to R172) -/

theorem slideMove_inside {c : Command} {w : BitVec 3} {i : Nat} (h0 : 0 ≤ (i : Int) - c.t.imm.toInt)
    (hv : (i : Int) - c.t.imm.toInt < vlAt c w) :
    (slideMove c).source w i = .elem 0 ((i : Int) - c.t.imm.toInt).toNat := by
  change slideFrom _ _ _ _ = _
  unfold slideFrom
  simp only [h0, hv, decide_true, Bool.and_self, if_true]

/-- An element that VSLIDE takes from outside A is filled by MOD[1:0] (R170). -/
theorem slideFrom_outside {vl i : Nat} {off : Int} (hout : ¬(0 ≤ (i : Int) - off ∧ (i : Int) - off < vl)) :
    slideFrom 0 vl off i = .fill ∧
    (let k := if (vl : Int) ≤ (i : Int) - off then (i : Int) - off - vl else vl + ((i : Int) - off)
     slideFrom 1 vl off i = if 0 ≤ k ∧ k < vl then .elem 1 k.toNat else .fill) ∧
    ∀ fill, 2 ≤ fill → slideFrom fill vl off i = if (i : Int) - off < 0 then .elem 0 0 else .elem 0 (vl - 1) := by
  have hno : (decide (0 ≤ (i : Int) - off) && decide ((i : Int) - off < vl)) = false := by
    rw [Bool.eq_false_iff, ne_eq, Bool.and_eq_true, decide_eq_true_eq, decide_eq_true_eq]
    exact hout
  refine ⟨?_, ?_, fun fill hf => ?_⟩
  · simp only [slideFrom, hno, Bool.false_eq_true, if_false]
  · simp only [slideFrom, hno, Bool.false_eq_true, if_false, Bool.and_eq_true, decide_eq_true_eq]
  · unfold slideFrom
    simp only [hno, Bool.false_eq_true, if_false]
    split
    · omega
    · omega
    · rfl

theorem slideMove_outside {c : Command} {w : BitVec 3} {i : Nat}
    (hout : ¬(0 ≤ (i : Int) - c.t.imm.toInt ∧ (i : Int) - c.t.imm.toInt < vlAt c w)) :
    let back := (i : Int) - c.t.imm.toInt
    let fill := c.t.mod.toNat % 4
    let slide := (slideMove c).source w i
    (fill = 0 → slide = .fill) ∧
    (fill = 1 →
      let k := if (vlAt c w : Int) ≤ back then back - vlAt c w else vlAt c w + back
      slide = if 0 ≤ k ∧ k < vlAt c w then .elem 1 k.toNat else .fill) ∧
    (2 ≤ fill → slide = if back < 0 then .elem 0 0 else .elem 0 (vlAt c w - 1)) := by
  intro back fill slide
  obtain ⟨h0, h1, h2⟩ := slideFrom_outside hout
  have hslide : slide = slideFrom fill (vlAt c w) c.t.imm.toInt i := rfl
  rw [hslide]
  exact ⟨fun hf => hf ▸ h0, fun hf => hf ▸ h1, h2 fill⟩

theorem permMove_source {h : Hart} {c : Command} {j i : Nat} {w : BitVec 3} {u : BitVec 5} {o : Opened}
    (hu : fmtInt u = true) (ho : Opens h c j c.t.b.toNat (i / elemCount w) u w o) :
    let k := intOf ((o.values w).getD (i % elemCount w) (zeroOf false))
    (permMove c (h.row j)).source w i = if k < 0 ∨ (vlAt c w : Int) ≤ k then .fill else .elem 0 k.toNat := by
  obtain ⟨hopen, hz, rfl, rfl⟩ := ho
  intro k
  have hidx : permIndex c (h.row j) o.cw i = some k := by
    unfold permIndex
    simp only [hopen, hz, hu, Bool.false_eq_true, if_false, beq_self_eq_true, Bool.and_self, if_true] <;> rfl
  unfold permMove
  simp only [hidx, Bool.or_eq_true, decide_eq_true_eq]

end Sys2Proof.VectorMoves
end

section
/-! PROOFS. Reductions (R72, R175). -/

namespace Sys2Proof.VectorReductions

open Sys2Proof Sys2Proof.Machine Sys2Proof.Claim Sys2Proof.Laws Sys2Proof.VectorMask Sys2Proof.VectorFrame
  Sys2Proof.VectorSectors Sys2Proof.VectorMoves

-- One proof is checked at a time: this keeps the check of the whole text within its memory.
set_option Elab.async false

/-! ## Rounding without the generator (R60, R61) -/

theorem roundsUp_state {mode : Nat} (hm : mode ≠ 5) (neg : Bool) (s s' : Nat) (k : Cut) :
    roundsUp mode neg s k = roundsUp mode neg s' k := by
  unfold roundsUp
  split
  · rfl
  · dsimp only
    split
    · rfl
    · rfl
    · rfl
    · rfl
    · exact absurd rfl hm
    · rfl

theorem roundMag_state {mode : Nat} (hm : mode ≠ 5) (q : FSpec) (s s' : Nat) (x : Exact) :
    roundMag q mode s x = roundMag q mode s' x := by
  unfold roundMag
  simp only [roundsUp_state hm x.sign s s']

/-- Only stochastic rounding reads the generator. -/
theorem roundF_state {mode : Nat} (hm : mode ≠ 5) (q : FSpec) (satf : Bool) (s s' : Nat) (x : Exact) :
    roundF q mode satf s x = roundF q mode satf s' x := by
  unfold roundF
  simp only [hm, decide_false, Bool.false_and, Bool.false_eq_true, if_false,
    roundMag_state (mode := 1) (by decide) q s s',
    roundMag_state hm q s s']

/-! ## Codes that rounding gives -/

/-- The codes of a format lie in its width. -/
def Coded (q : FSpec) : Prop :=
  0 < q.width ∧ q.maxc < 2 ^ (q.width - 1) ∧ q.infc.getD 0 < 2 ^ (q.width - 1) ∧ q.nanc < 2 ^ q.width

theorem coded_fspec (f : BitVec 5) : Coded (fspec f) := by
  have hall : ∀ q ∈ [e4m3, e5m2, e4m3u, fp16, bf16, fp32], Coded q := by
    unfold Coded
    decide
  refine hall _ ?_
  unfold fspec
  split <;> simp

theorem code_lt {q : FSpec} (hw : 0 < q.width) (neg : Bool) {g : Nat} (hg : g < 2 ^ (q.width - 1)) :
    q.code neg g < 2 ^ q.width := by
  have h2 : 2 ^ q.width = 2 ^ (q.width - 1) + 2 ^ (q.width - 1) := by
    rw [← Nat.two_mul, ← Nat.pow_succ', Nat.succ_eq_add_one, Nat.sub_add_cancel hw]
  unfold FSpec.code
  split <;> omega

theorem roundF_lt {q : FSpec} (hq : Coded q) (mode : Nat) (satf : Bool) (s : Nat) (x : Exact) :
    (roundF q mode satf s x).1 < 2 ^ q.width := by
  obtain ⟨hw, hmax, hinf, hnan⟩ := hq
  have hmaxc : ∀ neg, q.code neg q.maxc < 2 ^ q.width := fun neg => code_lt hw neg hmax
  have hinfc : ∀ neg c, q.infc = some c → q.code neg c < 2 ^ q.width := fun neg c hc =>
    code_lt hw neg (by rw [hc] at hinf; exact hinf)
  have hzero : 0 < 2 ^ q.width := Nat.two_pow_pos _
  unfold roundF
  split
  · exact hnan
  · split
    · next c hc => exact hinfc _ c hc
    · split
      · exact hzero
      · exact hmaxc _
  split
  · dsimp only
    split
    · exact hzero
    · exact code_lt hw _ (Nat.two_pow_pos _)
  dsimp only
  generalize roundMag q (if (decide (mode = 5) && (decide (q.maxc < (roundMag q 1 s x).1) ||
    (roundMag q 1 s x).1 == q.maxc && !(roundMag q 1 s x).2)) = true then 0 else mode) s x = r
  split
  · split
    · exact hzero
    · exact hzero
  split
  · next hle => exact code_lt hw _ (Nat.lt_of_le_of_lt hle hmax)
  split
  · exact hmaxc _
  · next c hc =>
    split
    · exact hmaxc _
    · split
      · exact hmaxc _
      · exact hinfc _ c hc

theorem fspec_width {f : BitVec 5} (hd : fmtDefined f = true) (hi : fmtInt f = false) (h4 : f ≠ fE2m1) :
    (fspec f).width = fmtWidth f := by
  revert f
  decide

theorem roundF_zero (q : FSpec) (mode : Nat) (satf : Bool) (s : Nat) : (roundF q mode satf s (zeroOf false)).1 = 0 := by
  cases hu : q.unsigned <;> simp [roundF, zeroOf, Exact.isZero, Exact.sign, FSpec.code, hu]

/-! ## The order of a reduction (R72) -/

/-- A value rounded into a format, and read back. -/
def rounded (q : FSpec) (mode : Nat) (x : Exact) : Exact := q.decode (roundF q mode false 0 x).1

/-- A sum rounded into a format, and read back. -/
def addRounded (q : FSpec) (mode : Nat) (x y : Exact) : Exact := rounded q mode (addE (mode == 2) x y).1

theorem redRound_v {mode : Nat} (hm : mode ≠ 5) (q : FSpec) (sr : BitVec 32) (fl : Flags) (x : Exact × Flags) :
    (redRound q mode sr fl x).v = rounded q mode x.1 := by
  unfold redRound rounded
  dsimp only
  rw [roundF_state hm q false _ 0]

theorem pairRound_cons (add : Exact → Exact → Exact) (x y : Exact) (xs : List Exact) :
    pairRound add (x :: y :: xs) = add x y :: pairRound add xs := by
  have hlen : ((x :: y :: xs).length + 1) / 2 = (xs.length + 1) / 2 + 1 := by
    rw [List.length_cons, List.length_cons]
    omega
  unfold pairRound
  rw [hlen, List.range_succ_eq_map, List.map_cons, List.map_map]
  refine congrArg₂ _ ?_ (List.map_congr_left (fun i hi => ?_))
  · simp
  · have h2 : 2 * (i + 1) = 2 * i + 1 + 1 := by ring
    simp only [Function.comp_apply, Nat.succ_eq_add_one, h2, List.getD_cons_succ, List.length_cons,
      Nat.add_lt_add_iff_right]

theorem pairRound_one (add : Exact → Exact → Exact) (x : Exact) : pairRound add [x] = [x] := by
  simp [pairRound]

theorem treeLevel_eq {mode : Nat} (hm : mode ≠ 5) (q : FSpec) (xs : List Exact) (fl : Flags) (sr : BitVec 32) :
    (treeLevel q mode xs fl sr).1 = pairRound (addRounded q mode) xs := by
  induction xs using List.twoStepInduction generalizing fl sr with
  | nil => rfl
  | singleton x => exact (pairRound_one _ x).symm
  | cons_cons x y xs ih _ =>
    rw [pairRound_cons, treeLevel]
    dsimp only
    rw [ih, redRound_v hm]
    rfl

theorem pairRound_length (add : Exact → Exact → Exact) (xs : List Exact) :
    (pairRound add xs).length = (xs.length + 1) / 2 := by
  simp [pairRound]

theorem iterate_pairRound_one (add : Exact → Exact → Exact) (k : Nat) (x : Exact) : (pairRound add)^[k] [x] = [x] :=
  Function.iterate_fixed (pairRound_one add x) k

/-- VREDSUM's tree halves its elements level by level, and rounds what is left (R72). -/
theorem treeSum_v {mode : Nat} (hm : mode ≠ 5) (q : FSpec) {k : Nat} {xs : List Exact} (hne : xs ≠ [])
    (hlen : xs.length ≤ 2 ^ k) (fl : Flags) (sr : BitVec 32) :
    (treeSum q mode k xs fl sr).v =
      rounded q mode (((pairRound (addRounded q mode))^[k] xs).headD (zeroOf false)) := by
  induction k generalizing xs fl sr with
  | zero => exact redRound_v hm ..
  | succ k ih =>
    match xs with
    | [] => exact absurd rfl hne
    | [x] =>
      rw [iterate_pairRound_one]
      exact redRound_v hm ..
    | x :: y :: xs =>
      rw [treeSum]
      · rw [Function.iterate_succ_apply, ← treeLevel_eq hm q _ fl sr]
        have hne' : (treeLevel q mode (x :: y :: xs) fl sr).1 ≠ [] := by
          rw [treeLevel_eq hm, pairRound_cons]
          exact List.cons_ne_nil _ _
        have hlen' : (treeLevel q mode (x :: y :: xs) fl sr).1.length ≤ 2 ^ k := by
          rw [treeLevel_eq hm, pairRound_length]
          rw [Nat.pow_succ] at hlen
          omega
        exact ih hne' hlen' _ _
      · nofun
      · nofun

theorem orderedSum_v {mode : Nat} (hm : mode ≠ 5) (q : FSpec) (x : Exact) (xs : List Exact) (sr : BitVec 32) :
    (orderedSum q mode (x :: xs) sr).v = xs.foldl (addRounded q mode) (rounded q mode x) := by
  have hfold : ∀ r : Red, (xs.foldl (fun (r : Red) y => redRound q mode r.sr r.fl (addE (mode == 2) r.v y)) r).v =
      xs.foldl (addRounded q mode) r.v := by
    induction xs with
    | nil => exact fun _ => rfl
    | cons y xs ih =>
      intro r
      rw [List.foldl_cons, List.foldl_cons, ih, redRound_v hm]
      rfl
  rw [orderedSum, hfold, redRound_v hm]

theorem extreme_v {mode : Nat} (hm : mode ≠ 5) (smaller : Bool) (q : FSpec) (x : Exact) (xs : List Exact)
    (sr : BitVec 32) : (extreme smaller q mode (x :: xs) sr).v = rounded q mode (xs.foldl (pickE smaller) x) :=
  redRound_v hm q sr 0 (xs.foldl (pickE smaller) x, 0)

/-! ## The elements within VL (R35, R175) -/

theorem flatMap_filter {α β : Type} {p : α → Bool} {f : α → List β} {xs : List α} (h : ∀ x ∈ xs, p x = false →
    f x = []) :
    (xs.filter p).flatMap f = xs.flatMap f := by
  induction xs with
  | nil => rfl
  | cons x xs ih =>
    have hxs := ih (fun y hy => h y (List.mem_cons_of_mem _ hy))
    cases hp : p x with
    | true => rw [List.filter_cons_of_pos hp, List.flatMap_cons, List.flatMap_cons, hxs]
    | false =>
      rw [List.filter_cons_of_neg (by rw [hp]; nofun), List.flatMap_cons, h x (List.mem_cons_self ..) hp, hxs,
        List.nil_append]

theorem flatMap_range (a n : Nat) : (List.range a).flatMap (fun x => (List.range n).map (fun i => x * n + i)) =
    List.range (a * n) := by
  induction a with
  | zero => simp
  | succ a ih =>
    rw [List.range_succ, List.flatMap_append, ih, List.flatMap_singleton, Nat.succ_mul, List.range_add]

theorem filter_range_lt (n k : Nat) : (List.range n).filter (fun e => decide (e < k)) = List.range (min k n) := by
  induction n with
  | zero => simp
  | succ n ih =>
    rw [List.range_succ, List.filter_append, ih]
    by_cases h : n < k
    · simp only [List.filter_cons, List.filter_nil, h, decide_true, if_true]
      rw [Nat.min_eq_right h.le, Nat.min_eq_right h, List.range_succ]
    · simp only [List.filter_cons, List.filter_nil, h, decide_false, Bool.false_eq_true, if_false, List.append_nil]
      rw [Nat.min_eq_left (Nat.not_lt.mp h), Nat.min_eq_left ((Nat.not_lt.mp h).trans (Nat.le_succ n))]

theorem cwBits_pos {w : BitVec 3} (hw : w.toNat ≤ 4) : 0 < cwBits w := by
  revert w
  decide

theorem inVl_eq {c : Command} {w : BitVec 3} (hw : w.toNat ≤ 4) (e : Nat) :
    inVl (vlBits c.vl c.vlcw) w e = decide (e < vlAt c w) := by
  unfold inVl vlAt
  rw [decide_eq_decide, ← Nat.le_div_iff_mul_le (cwBits_pos hw), Nat.succ_le_iff]

/-- The numbers of the elements of register sectors, in order. -/
def elementsOf (w : BitVec 3) (xs : List Nat) : List Nat :=
  xs.flatMap (fun x => (List.range (elemCount w)).map (fun i => x * elemCount w + i))

theorem map_elementsOf {α : Type} (w : BitVec 3) (g : Nat → α) (xs : List Nat) :
    xs.flatMap (fun x => (List.range (elemCount w)).map (fun i => g (x * elemCount w + i))) =
      (elementsOf w xs).map g := by
  unfold elementsOf
  rw [List.map_flatMap]
  simp [Function.comp_def]

/-- The elements within VL of a row's sectors in range are those below VL. -/
theorem elementsOf_inRange (h : Hart) (c : Command) {w : BitVec 3} (hw : w.toNat ≤ 4) :
    (elementsOf w ((sectorsOf h).filter (fun x => c.inRange w x))).filter (inVl (vlBits c.vl c.vlcw) w) =
      List.range (min (vlAt c w) (elemCount w * h.csr.xcl)) := by
  unfold elementsOf
  rw [List.filter_flatMap, flatMap_filter]
  · rw [← List.filter_flatMap]
    unfold sectorsOf
    rw [flatMap_range, Nat.mul_comm, ← filter_range_lt]
    exact List.filter_congr (fun e _ => inVl_eq hw e)
  · intro x _ hout
    rw [List.filter_eq_nil_iff]
    intro e he hvl
    obtain ⟨i, -, rfl⟩ := List.mem_map.mp he
    rw [inRange_of_inVl hw hvl] at hout
    cases hout

/-! ## The operand row of a reduction or a conversion (R154, R157) -/

theorem findSome?_all {α β : Type} {f : α → Option β} {z : β} {xs : List α} (hne : xs ≠ [])
    (h : ∀ x ∈ xs, f x = some z) : xs.findSome? f = some z := by
  cases xs with
  | nil => exact absurd rfl hne
  | cons x xs => rw [List.findSome?_cons, h x (List.mem_cons_self ..)]

/-- Sectors of one container, none ZERO, are counted in it. -/
theorem guessCw_all {c : Command} {n : Option (BitVec 3)} {w : BitVec 3} {ss : List Sector} (hne : ss ≠ [])
    (h : ∀ y ∈ ss, tagCls y.tag ≠ 0 ∧ tagContainer c y = some w) (hn : n = none ∨ n = some w) : guessCw c n ss = w := by
  have hself : ss.filter (fun y => tagCls y.tag != 0) = ss :=
    List.filter_eq_self.mpr (fun y hy => bne_iff_ne.mpr (h y hy).1)
  unfold guessCw
  simp only [hself, findSome?_all hne (fun y hy => (h y hy).2)]
  obtain rfl | rfl := hn <;> rfl

/-- The sectors of a row that are in range at a container. -/
def sectorsIn (h : Hart) (c : Command) (w : BitVec 3) : List Nat := (sectorsOf h).filter (fun x => c.inRange w x)

theorem mem_sectorsIn {h : Hart} {c : Command} {w : BitVec 3} {x : Nat} :
    x ∈ sectorsIn h c w ↔ x < h.csr.xcl ∧ c.inRange w x = true := by
  rw [sectorsIn, List.mem_filter, sectorsOf, List.mem_range]

section
variable {h : Hart} {c : Command} {j v : Nat} {f : BitVec 5} {w : BitVec 3} {o : Nat → Opened}
  (ho : AllOpen h c j v f w o)
include ho

omit ho in
/-- A sector in range starts below VL. -/
theorem sector_below {x : Nat} (hw : w.toNat ≤ 4) (hin : c.inRange w x = true) : x * 2048 < vlBits c.vl c.vlcw := by
  have hpos := cwBits_pos hw
  simp only [Command.inRange, sectorInRange, Bool.and_eq_true, decide_eq_true_eq] at hin
  exact Nat.lt_of_lt_of_le (Nat.lt_add_of_pos_right hpos) hin.2

/-- A row whose sectors read in one container is counted in it. -/
theorem rowCw_allOpen {n : Option (BitVec 3)} {x : Nat} (hx : x ∈ sectorsIn h c w) (hn : n = none ∨ n = some w) :
    c.rowCw n ((c.vlSectors h).map (fun x => (x, (h.row j).vec v x))) = w := by
  obtain ⟨hxcl, hin⟩ := mem_sectorsIn.mp hx
  obtain ⟨-, -, -, hcw, hw, -⟩ := opens_wf (ho x hxcl)
  have hlow : x * 2048 < vlBits c.vl c.vlcw := sector_below hw hin
  have hmem : (x, (h.row j).vec v x) ∈ (c.vlSectors h).map (fun x => (x, (h.row j).vec v x)) :=
    List.mem_map.mpr ⟨x, List.mem_filter.mpr ⟨List.mem_range.mpr hxcl, decide_eq_true hlow⟩, rfl⟩
  have hall : (tagContainer c ((h.row j).vec v x)).all (fun w => c.inRange w x) = true := by
    rw [hcw]
    exact hin
  refine guessCw_all (List.ne_nil_of_mem (List.mem_map.mpr ⟨_, List.mem_filter.mpr ⟨hmem, hall⟩, rfl⟩)) ?_ hn
  intro y hy
  obtain ⟨p, hp, rfl⟩ := List.mem_map.mp hy
  obtain ⟨z, hz, rfl⟩ := List.mem_map.mp (List.mem_filter.mp hp).1
  obtain ⟨-, -, hcls, hcw, -⟩ := opens_wf (ho z (List.mem_range.mp (List.mem_filter.mp hz).1))
  exact ⟨hcls, hcw⟩

/-- The sectors opened in order are those that each reads as. -/
theorem openSeq_allOpen {chk : Option (BitVec 5) × Option (BitVec 3) → Opened →
      Except Cause (Option (BitVec 5) × Option (BitVec 3))} {st : Option (BitVec 5) × Option (BitVec 3)} {xs : List Nat}
    {os : List Opened} (hx : ∀ x ∈ xs, x < h.csr.xcl)
    (hos : openSeq c chk st (xs.map (fun x => (h.row j).vec v x)) = .ok os) : os = xs.map o := by
  induction xs generalizing st os with
  | nil =>
    cases hos
    rfl
  | cons x xs ih =>
    obtain ⟨p, hp, hos⟩ := bind_eq_ok.mp hos
    obtain ⟨st', -, hos⟩ := bind_eq_ok.mp hos
    obtain ⟨ps, hps, hos⟩ := bind_eq_ok.mp hos
    cases hos
    rw [List.map_cons, ← ih (fun y hy => hx y (List.mem_cons_of_mem _ hy)) hps]
    congr 1
    exact Except.ok.inj (hp.symm.trans (ho x (hx x (List.mem_cons_self ..))).1)

theorem alike_allOpen {xs : List Nat} (hx : ∀ x ∈ xs, x < h.csr.xcl) : Alike f w (xs.map o) := by
  intro p hp
  obtain ⟨x, hxs, rfl⟩ := List.mem_map.mp hp
  exact (ho x (hx x hxs)).2

omit ho in
theorem valueOf_at {x i : Nat} (hi : i < elemCount w) :
    valueOf o w (x * elemCount w + i) = ((o x).values w).getD i (zeroOf false) := by
  rw [valueOf, Nat.mul_comm, Nat.mul_add_div (by omega), Nat.div_eq_of_lt hi, Nat.add_zero, Nat.mul_add_mod,
    Nat.mod_eq_of_lt hi]

theorem values_eq {x : Nat} (hx : x < h.csr.xcl) :
    (o x).values w = (List.range (elemCount w)).map (fun i => valueOf o w (x * elemCount w + i)) := by
  rw [eq_map_range_getD (values_length (ho x hx).2.2.2) (zeroOf false)]
  exact List.map_congr_left (fun i hi => (valueOf_at (List.mem_range.mp hi)).symm)

end

/-! ## A reduction of a row whose sectors read in one format and container (R175) -/

/-- The integer that a reduction of an integer format gives before it is fitted. -/
def redInt (op : RedOp) (all live : List Exact) : Int :=
  match op with
  | .sum | .sumOrdered => all.foldl (fun acc v => acc + intOf v) 0
  | .max => intOf (match live with | [] => zeroOf false | y :: ys => ys.foldl (pickE false) y)
  | .min => intOf (match live with | [] => zeroOf false | y :: ys => ys.foldl (pickE true) y)

/-- What a reduction of a float format gives before it is written. -/
def redFloat (op : RedOp) (q : FSpec) (mode : Nat) (sr : BitVec 32) (all live : List Exact) : Red :=
  match op with
  | .sum => treeSum q mode 13 all 0 sr
  | .sumOrdered => orderedSum q mode all sr
  | .max => extreme false q mode live sr
  | .min => extreme true q mode live sr

/-- The code that a reduction writes. -/
def redCode (op : RedOp) (f : BitVec 5) (mode : Nat) (sr : BitVec 32) (all live : List Exact) : Nat :=
  if fmtInt f then
    (fitInt (fmtWidth f) (fmtSigned f) (op == .sum || op == .sumOrdered) (redInt op all live)).1
  else (roundF (fspec f) 0 false 0 (redFloat op (fspec f) mode sr all live).v).1

section
variable {s : State} {h : Hart} {c : Command} {j : Nat} {a b : Acc} {f : BitVec 5} {w : BitVec 3} {o : Nat → Opened}

/-- The elements that a reduction takes, +0 for one that its mask does not enable. -/
def allElements (h : Hart) (c : Command) (j : Nat) (w : BitVec 3) (o : Nat → Opened) : List Exact :=
  (List.range (min (vlAt c w) (elemCount w * h.csr.xcl))).map
    (fun e => if Enabled h c j e then valueOf o w e else zeroOf false)

/-- The active elements. -/
def liveElements (h : Hart) (c : Command) (j : Nat) (w : BitVec 3) (o : Nat → Opened) : List Exact :=
  ((List.range (min (vlAt c w) (elemCount w * h.csr.xcl))).filter (Enabled h c j)).map (valueOf o w)

/-- The elements of the sectors in range, with their activity, and those of them that VL counts. -/
theorem countedElements (ho : AllOpen h c j c.t.a.toNat f w o) (hw : w.toNat ≤ 4) :
    ((((sectorsIn h c w).map o).flatMap (fun p => p.values w)).zip
      (((sectorsIn h c w).flatMap (fun x => c.acts (h.row j) w x)).zip
        ((sectorsIn h c w).flatMap (fun x => (List.range (elemCount w)).map
          (fun i => inVl (vlBits c.vl c.vlcw) w (x * elemCount w + i)))))).filter (fun y => y.2.2) =
      (List.range (min (vlAt c w) (elemCount w * h.csr.xcl))).map
        (fun e => (valueOf o w e, Active h c j w e, inVl (vlBits c.vl c.vlcw) w e)) := by
  have hvals : ((sectorsIn h c w).map o).flatMap (fun p => p.values w) =
      (elementsOf w (sectorsIn h c w)).map (valueOf o w) := by
    rw [List.flatMap_map, ← map_elementsOf]
    exact List.flatMap_congr (fun x hx => values_eq ho (mem_sectorsIn.mp hx).1)
  have hacts : (sectorsIn h c w).flatMap (fun x => c.acts (h.row j) w x) =
      (elementsOf w (sectorsIn h c w)).map (Active h c j w) := (map_elementsOf w (Active h c j w) _)
  rw [hvals, hacts, map_elementsOf w (inVl (vlBits c.vl c.vlcw) w), List.zip_map', List.zip_map', List.filter_map,
    ← elementsOf_inRange h c hw]
  rfl

theorem active_of_lt (hw : w.toNat ≤ 4) {e : Nat} (he : e ∈ List.range (min (vlAt c w) (elemCount w * h.csr.xcl))) :
    Active h c j w e = Enabled h c j e := by
  have hvl : e < vlAt c w := Nat.lt_of_lt_of_le (List.mem_range.mp he) (Nat.min_le_left ..)
  rw [Active, inVl_eq hw, decide_eq_true hvl, Bool.true_and]

theorem redRow_vec {op : RedOp} (ho : AllOpen h c j c.t.a.toNat f w o) (hn : namesNone c f w) (h4 : f ≠ fE2m1)
    (hx : 0 < h.csr.xcl) (hin : c.inRange w 0 = true) (hab : redRow op s h c j a = .ok b) :
    b.row.vec c.t.d.toNat 0 = { tag := mkTag clsTyped f w 0, bmeta := 0,
                                data := packSlots (cwBits w)
                                  [redCode op f c.mode a.sr (allElements h c j w o) (liveElements h c j w o)] } := by
  obtain ⟨-, -, -, -, hw, hfit⟩ := opens_wf (ho 0 hx)
  have h0 : 0 ∈ sectorsIn h c w := mem_sectorsIn.mpr ⟨hx, hin⟩
  have hcw : namedCw c.t.cw = none ∨ namedCw c.t.cw = some w := by
    refine hn.2.imp_right (fun he => ?_)
    rw [he, namedCw, if_pos hw]
  have hfm : namedFmt c.t.fmt = none ∨ namedFmt c.t.fmt = some f := by
    obtain he | he := hn.1
    · exact .inl he
    · rw [he]
      unfold namedFmt
      split
      · exact .inr rfl
      · exact .inl rfl
  have hsec : ∀ x ∈ sectorsIn h c w, x < h.csr.xcl := fun x hx => (mem_sectorsIn.mp hx).1
  have htarget := resultTarget_alike (prt := s.prtOf h) (vlcw := c.vlcw) (alike_allOpen ho hsec)
    (by simpa using List.ne_nil_of_mem h0) hfit hfm hcw
  obtain ⟨os, hos, hab⟩ := bind_eq_ok.mp hab
  rw [rowCw_allOpen ho h0 hcw] at hos hab
  obtain rfl := openSeq_allOpen ho hsec hos
  obtain ⟨⟨tg, fl⟩, htg, hab⟩ := bind_eq_ok.mp hab
  obtain ⟨rfl, rfl⟩ := Prod.mk.inj (Except.ok.inj (htarget.symm.trans htg))
  obtain ⟨he, -⟩ | ⟨-, hab⟩ := ite_eq_ok.mp hab
  · exact absurd (beq_iff_eq.mp he) h4
  cases hab
  refine (vec_setVec_mkTag ..).trans ?_
  have hcount := countedElements ho hw
  have hall : ((List.range (min (vlAt c w) (elemCount w * h.csr.xcl))).map
      (fun e => (valueOf o w e, Active h c j w e, inVl (vlBits c.vl c.vlcw) w e))).map
        (fun y => if y.2.1 then y.1 else zeroOf false) = allElements h c j w o := by
    rw [List.map_map]
    refine List.map_congr_left (fun e he => ?_)
    rw [Function.comp_apply, active_of_lt hw he]
  have hlive : (((List.range (min (vlAt c w) (elemCount w * h.csr.xcl))).map
      (fun e => (valueOf o w e, Active h c j w e, inVl (vlBits c.vl c.vlcw) w e))).filter (fun y => y.2.1)).map (·.1) =
        liveElements h c j w o := by
    rw [List.filter_map, List.map_map, liveElements, ← List.filter_congr (fun e he => active_of_lt hw he)]
    rfl
  have hcode : ∀ p q : Nat, p = q → (Sector.mk (mkTag clsTyped f w 0) 0 (packSlots (cwBits w) [p])) =
      Sector.mk (mkTag clsTyped f w 0) 0 (packSlots (cwBits w) [q]) := fun p q hpq => by rw [hpq]
  refine hcode _ _ ?_
  rw [show (sectorsOf h).filter (fun x => c.inRange w x) = sectorsIn h c w from rfl]
  rw [hcount, hall, hlive]
  unfold redCode
  dsimp only
  split
  · cases op <;> rfl
  · cases op <;> rfl

theorem redCode_lt {op : RedOp} (ho : AllOpen h c j c.t.a.toNat f w o) (h4 : f ≠ fE2m1) (hx : 0 < h.csr.xcl) (mode :
    Nat)
    (sr : BitVec 32) (all live : List Exact) : redCode op f mode sr all live < 2 ^ cwBits w := by
  obtain ⟨htyped, -, -, -, -, hfit⟩ := opens_wf (ho 0 hx)
  obtain ⟨-, htriple, -⟩ := openTyped_wf htyped (ho 0 hx).2.1
  rw [(ho 0 hx).2.2.1] at htriple
  have hdef : fmtDefined f = true := by
    simp only [tripleOk, Bool.and_eq_true] at htriple
    exact htriple.1.1.1.1
  refine Nat.lt_of_lt_of_le ?_ (two_pow_fmtWidth_le hfit)
  unfold redCode
  split
  · exact fitInt_lt ..
  · next hi =>
    rw [← fspec_width hdef (Bool.eq_false_iff.mpr hi) h4]
    exact roundF_lt (coded_fspec f) ..

/-- A reduction writes its code into element 0 of a TYPED sector, and 0 into the others (R175). -/
theorem redRow_slots {op : RedOp} (ho : AllOpen h c j c.t.a.toNat f w o) (hn : namesNone c f w) (h4 : f ≠ fE2m1)
    (hx : 0 < h.csr.xcl) (hin : c.inRange w 0 = true) {z : Nat}
    (hz : redCode op f c.mode a.sr (allElements h c j w o) (liveElements h c j w o) = z)
    (hab : redRow op s h c j a = .ok b) :
    (b.row.vec c.t.d.toNat 0).tag = mkTag clsTyped f w 0 ∧ slotOf (b.row.vec c.t.d.toNat 0) w 0 = z ∧
      ∀ i, 0 < i → i < elemCount w → slotOf (b.row.vec c.t.d.toNat 0) w i = 0 := by
  obtain ⟨-, -, -, -, hw, -⟩ := opens_wf (ho 0 hx)
  have hpos : 0 < elemCount w := by
    have := elemCount_mul_cwBits hw
    exact Nat.pos_of_ne_zero (fun h0 => by rw [h0, Nat.zero_mul] at this; cases this)
  rw [redRow_vec ho hn h4 hx hin hab, hz]
  refine ⟨rfl, ?_, fun i hi0 hi => ?_⟩
  · exact slotOf_packSlots_of_lt hpos _ _ (hz ▸ redCode_lt ho h4 hx ..)
  · obtain ⟨k, rfl⟩ : ∃ k, i = k + 1 := ⟨i - 1, by omega⟩
    exact (slotOf_packSlots hi ..).trans (Nat.zero_mod _)

theorem allElements_length : (allElements h c j w o).length = min (vlAt c w) (elemCount w * h.csr.xcl) := by
  simp [allElements]

/-- The elements of a row are some, and at most 2¹³, so the tree's thirteen levels leave one (R72). -/
theorem allElements_bounds (hw : w.toNat ≤ 4) (hx : 0 < h.csr.xcl) (h8 : h.csr.xcl ≤ 8) (hin : c.inRange w 0 = true) :
    allElements h c j w o ≠ [] ∧ (allElements h c j w o).length ≤ 2 ^ 13 := by
  have hvl : 0 < vlAt c w := by
    simp only [Command.inRange, sectorInRange, Bool.and_eq_true, decide_eq_true_eq, Nat.zero_mul, Nat.zero_add] at hin
    exact Nat.div_pos hin.2 (cwBits_pos hw)
  have hcount : 0 < elemCount w ∧ elemCount w ≤ 512 := by
    clear hin hvl
    revert w
    decide
  have hn : 0 < elemCount w * h.csr.xcl := Nat.mul_pos hcount.1 hx
  have hbound : elemCount w * h.csr.xcl ≤ 512 * 8 := Nat.mul_le_mul hcount.2 h8
  refine ⟨fun h0 => ?_, ?_⟩
  · have hlen := allElements_length (h := h) (c := c) (j := j) (w := w) (o := o)
    rw [h0, List.length_nil] at hlen
    omega
  · rw [allElements_length]
    omega

end

/-! ## The codes of the reductions (R72, R175) -/

section
variable {f : BitVec 5} {mode : Nat} (sr : BitVec 32) {all live : List Exact}

theorem redCode_sum (hi : fmtInt f = false) (hm : mode ≠ 5) (hne : all ≠ []) (hlen : all.length ≤ 2 ^ 13) :
    redCode .sum f mode sr all live = (roundF (fspec f) 0 false 0 (rounded (fspec f) mode
      (((pairRound (addRounded (fspec f) mode))^[13] all).headD (zeroOf false)))).1 := by
  rw [redCode, if_neg (by rw [hi]; nofun), redFloat, treeSum_v hm _ hne hlen]

theorem redCode_sumOrdered (hi : fmtInt f = false) (hm : mode ≠ 5) (hne : all ≠ []) :
    redCode .sumOrdered f mode sr all live = (roundF (fspec f) 0 false 0
      (all.tail.foldl (addRounded (fspec f) mode) (rounded (fspec f) mode (all.headD (zeroOf false))))).1 := by
  obtain ⟨x, xs, rfl⟩ := List.exists_cons_of_ne_nil hne
  rw [redCode, if_neg (by rw [hi]; nofun), redFloat, orderedSum_v hm]
  rfl

theorem redCode_max (hi : fmtInt f = false) (hm : mode ≠ 5) (hne : live ≠ []) :
    redCode .max f mode sr all live = (roundF (fspec f) 0 false 0 (rounded (fspec f) mode
      (live.tail.foldl (pickE false) (live.headD (zeroOf false))))).1 := by
  obtain ⟨x, xs, rfl⟩ := List.exists_cons_of_ne_nil hne
  rw [redCode, if_neg (by rw [hi]; nofun), redFloat, extreme_v hm]
  rfl

theorem redCode_min (hi : fmtInt f = false) (hm : mode ≠ 5) (hne : live ≠ []) :
    redCode .min f mode sr all live = (roundF (fspec f) 0 false 0 (rounded (fspec f) mode
      (live.tail.foldl (pickE true) (live.headD (zeroOf false))))).1 := by
  obtain ⟨x, xs, rfl⟩ := List.exists_cons_of_ne_nil hne
  rw [redCode, if_neg (by rw [hi]; nofun), redFloat, extreme_v hm]
  rfl

theorem redCode_extreme_none (hi : fmtInt f = false) :
    redCode .max f mode sr all [] = 0 ∧ redCode .min f mode sr all [] = 0 := by
  constructor
  · rw [redCode, if_neg (by rw [hi]; nofun)]
    exact roundF_zero ..
  · rw [redCode, if_neg (by rw [hi]; nofun)]
    exact roundF_zero ..

theorem redCode_int (hi : fmtInt f = true) :
    redCode .sum f mode sr all live = (fitInt (fmtWidth f) (fmtSigned f) true (all.map intOf).sum).1 ∧
    redCode .sumOrdered f mode sr all live = (fitInt (fmtWidth f) (fmtSigned f) true (all.map intOf).sum).1 := by
  have hsum : all.foldl (fun acc v => acc + intOf v) 0 = (all.map intOf).sum := by
    rw [← List.foldl_map (f := intOf) (g := fun acc k => acc + k), ← List.sum_eq_foldl]
  constructor
  · rw [redCode, if_pos hi, redInt, hsum]
    rfl
  · rw [redCode, if_pos hi, redInt, hsum]
    rfl

end

end Sys2Proof.VectorReductions
end

section
/-! PROOFS. Conversions (R176). -/

namespace Sys2Proof.VectorConversions

open Sys2Proof Sys2Proof.Machine Sys2Proof.Claim Sys2Proof.Laws Sys2Proof.VectorMask Sys2Proof.VectorFrame
  Sys2Proof.VectorSectors Sys2Proof.VectorMoves Sys2Proof.VectorReductions

-- One proof is checked at a time: this keeps the check of the whole text within its memory.
set_option Elab.async false

/-! ## Elements that are not active are written as zeros (R154, R180) -/

/-- An element as it is written: where it is not active its value and its fit do not matter. -/
def asWritten (y : Exact × Bool × IntFit) : Exact × Bool × IntFit := if y.2.1 then y else (zeroOf false, false, .conv)

theorem encodeList_asWritten (f : BitVec 5) (mode : Nat) (satf : Bool) (k : Int) (xs : List (Exact × Bool × IntFit))
    (s : BitVec 32) : encodeList f mode satf s ((xs.map asWritten).map (fun x => (x.1.scale k, x.2))) =
      encodeList f mode satf s (xs.map (fun x => (x.1.scale k, x.2))) := by
  induction xs generalizing s with
  | nil => rfl
  | cons y xs ih =>
    obtain ⟨x, act, fit⟩ := y
    cases act with
    | true => simp only [List.map_cons, asWritten, encodeList, if_true, ih]
    | false => simp only [List.map_cons, asWritten, encodeList, Bool.false_eq_true, if_false, ih]

theorem encodeEach_asWritten (f : BitVec 5) (w : BitVec 3) (t : Option Int) (mode : Nat) (satf : Bool) (s : BitVec 32)
    (xs : List (Exact × Bool × IntFit)) :
    encodeEach f w t mode satf s (xs.map asWritten) = encodeEach f w t mode satf s xs := by
  have hvals : (xs.map asWritten).map (fun x => if x.2.1 then x.1 else zeroOf false) =
      xs.map (fun x => if x.2.1 then x.1 else zeroOf false) := by
    rw [List.map_map]
    refine List.map_congr_left (fun y _ => ?_)
    obtain ⟨x, act, fit⟩ := y
    cases act <;> rfl
  unfold encodeEach
  simp only [hvals, encodeList_asWritten]

/-! ## The elements of a row by their numbers -/

theorem find?_number {α : Type} {g : Nat → Nat × α} (hg : ∀ e, (g e).1 = e) (ys : List Nat) (e : Nat) :
    (ys.map g).find? (fun y => y.1 == e) = if e ∈ ys then some (g e) else none := by
  induction ys with
  | nil => rfl
  | cons y ys ih =>
    rw [List.map_cons, List.find?_cons, hg]
    by_cases hy : y = e
    · subst hy
      simp
    · rw [beq_false_of_ne hy]
      dsimp only
      rw [ih]
      simp [Ne.symm hy]

section
variable {h : Hart} {c : Command} {j v : Nat} {f : BitVec 5} {w : BitVec 3} {o : Nat → Opened}

/-- Element e of a source row, with its number, its activity and how it is fitted. -/
def sourceElement (h : Hart) (c : Command) (j : Nat) (f : BitVec 5) (w : BitVec 3) (o : Nat → Opened) (e : Nat) :
    Nat × Exact × Bool × IntFit := (e, valueOf o w e, Active h c j w e, fitFrom (fmtInt f))

/-- The elements of the sectors in range, in order (R176). -/
theorem sourceElements (ho : AllOpen h c j v f w o) :
    ((sectorsIn h c w).zip ((sectorsIn h c w).map o)).flatMap (fun y =>
      ((y.2.values w).zip (c.acts (h.row j) w y.1)).zipIdx.map (fun z =>
        (y.1 * elemCount w + z.2, z.1.1, z.1.2, fitFrom (fmtInt y.2.fmt || y.2.zero)))) =
      (elementsOf w (sectorsIn h c w)).map (sourceElement h c j f w o) := by
  rw [← map_elementsOf, ← List.map_id (sectorsIn h c w), List.map_map, List.zip_map', List.flatMap_map, List.map_id]
  refine List.flatMap_congr (fun x hx => ?_)
  have hxcl := (mem_sectorsIn.mp hx).1
  obtain ⟨-, hz, hf, -⟩ := ho x hxcl
  simp only [id, Function.comp_apply, values_eq ho hxcl, acts_eq, List.zip_map', hz, hf, Bool.or_false]
  refine List.ext_getElem (by simp) (fun i h1 h2 => ?_)
  simp [sourceElement]

theorem mem_elementsOf (hw : w.toNat ≤ 4) {xs : List Nat} {e : Nat} :
    e ∈ elementsOf w xs ↔ e / elemCount w ∈ xs := by
  have hpos : 0 < elemCount w := by
    have := elemCount_mul_cwBits hw
    exact Nat.pos_of_ne_zero (fun h0 => by rw [h0, Nat.zero_mul] at this; cases this)
  simp only [elementsOf, List.mem_flatMap, List.mem_map, List.mem_range]
  constructor
  · rintro ⟨x, hx, i, hi, rfl⟩
    rwa [Nat.mul_comm, Nat.mul_add_div hpos, Nat.div_eq_of_lt hi, Nat.add_zero]
  · intro he
    exact ⟨_, he, e % elemCount w, Nat.mod_lt _ hpos, Nat.div_add_mod' e _⟩

/-- An active element of a row lies in a sector in range. -/
theorem mem_elementsOf_of_active (hw : w.toNat ≤ 4) {e : Nat} (he : e < elemCount w * h.csr.xcl)
    (hact : Active h c j w e = true) : e ∈ elementsOf w (sectorsIn h c w) := by
  rw [Active, Bool.and_eq_true] at hact
  rw [mem_elementsOf hw, mem_sectorsIn]
  refine ⟨Nat.div_lt_of_lt_mul he, inRange_of_inVl hw (i := e % elemCount w) ?_⟩
  rw [Nat.div_add_mod']
  exact hact.1

theorem lt_of_mem_elementsOf (hw : w.toNat ≤ 4) {e : Nat} (he : e ∈ elementsOf w (sectorsIn h c w)) :
    e < elemCount w * h.csr.xcl := by
  rw [mem_elementsOf hw, mem_sectorsIn] at he
  have hpos : 0 < elemCount w := by
    have := elemCount_mul_cwBits hw
    exact Nat.pos_of_ne_zero (fun h0 => by rw [h0, Nat.zero_mul] at this; cases this)
  rw [Nat.mul_comm]
  exact (Nat.div_lt_iff_lt_mul hpos).mp he.1

end

/-! ## VCVT (R176) -/

/-- A fold whose steps each leave the other sectors leaves in sector x what x's own step leaves there. -/
theorem foldl_acc_at {d x : Nat} {g : Acc → Nat → Acc} (hg : ∀ a z, z ≠ x → (g a z).row.vec d x = a.row.vec d x)
    {xs : List Nat} (hx : x ∈ xs) (hnd : xs.Nodup) (a : Acc) :
    ∃ a', (xs.foldl g a).row.vec d x = (g a' x).row.vec d x := by
  have hrest : ∀ (ys : List Nat) (a : Acc), x ∉ ys → (ys.foldl g a).row.vec d x = a.row.vec d x := by
    intro ys
    induction ys with
    | nil => exact fun _ _ => rfl
    | cons y ys ih =>
      intro a hy
      obtain ⟨hxy, hys⟩ := not_or.mp (fun h => hy (List.mem_cons.mpr h))
      rw [List.foldl_cons, ih _ hys, hg _ _ (Ne.symm hxy)]
  induction xs generalizing a with
  | nil => cases hx
  | cons z xs ih =>
    obtain ⟨hz, hnd⟩ := List.nodup_cons.mp hnd
    rw [List.foldl_cons]
    obtain rfl | hx := List.mem_cons.mp hx
    · exact ⟨a, hrest xs _ hz⟩
    · exact ih hx hnd _

/-- The elements that VCVT writes into sector x, of those of the source row. -/
def convertedSector (vals : List (Nat × Exact × Bool × IntFit)) (n x : Nat) : List (Exact × Bool × IntFit) :=
  (List.range n).map (fun i =>
    match (vals.filter (fun y => y.1 / n == x)).find? (fun y => y.1 == x * n + i) with
    | some y => (y.2.1, y.2.2.1, y.2.2.2)
    | none => (zeroOf false, false, .conv))

/-- VCVT at sector x of its result. -/
def convertSector (c : Command) (t : Int) (vals : List (Nat × Exact × Bool × IntFit)) (a : Acc) (x : Nat) : Acc :=
  if (vals.filter (fun y => y.1 / elemCount c.t.cw == x)).any (fun y => y.2.2.1) then
    let enc := encodeEach c.t.fmt c.t.cw (some t) c.mode c.satf a.sr (convertedSector vals (elemCount c.t.cw) x)
    { row := a.row.setVec c.t.d.toNat x enc.sector, sr := enc.sr, fl := a.fl ||| enc.flags }
  else a

theorem convertSector_other (c : Command) (t : Int) (vals : List (Nat × Exact × Bool × IntFit)) {x : Nat} (a : Acc)
    (z : Nat) (hz : z ≠ x) : (convertSector c t vals a z).row.vec c.t.d.toNat x = a.row.vec c.t.d.toNat x := by
  unfold convertSector
  split
  · exact vec_setVec_other _ _ _ hz.symm
  · rfl

section
variable {h : Hart} {c : Command} {j : Nat} {a b : Acc} {f : BitVec 5} {v : BitVec 3} {o : Nat → Opened}

/-- VCVT of a row whose sectors read in one format and container. -/
theorem cvtRow_eq (ho : AllOpen h c j c.t.a.toNat f v o) {x : Nat} (hx : x ∈ sectorsIn h c v)
    (hab : cvtRow h c j a = .ok b) : b = (sectorsOf h).foldl (convertSector c ((namedSexp c).getD 0)
      ((elementsOf v (sectorsIn h c v)).map (sourceElement h c j f v o))) a := by
  have hsec : ∀ x ∈ sectorsIn h c v, x < h.csr.xcl := fun x hx => (mem_sectorsIn.mp hx).1
  have hshared : sharedCw none c.vlcw ((sectorsIn h c v).map o) = .ok v :=
    sharedCw_alike (alike_allOpen ho hsec) (by simpa using List.ne_nil_of_mem hx) (.inl rfl)
  obtain ⟨os, hos, hab⟩ := bind_eq_ok.mp hab
  rw [rowCw_allOpen ho hx (.inl rfl)] at hos hab
  obtain rfl := openSeq_allOpen ho hsec hos
  obtain ⟨ca, hca, hab⟩ := bind_eq_ok.mp hab
  obtain rfl := Except.ok.inj (hshared.symm.trans hca)
  obtain ⟨-, hab⟩ | ⟨-, hab⟩ := ite_eq_ok.mp hab
  · cases hab
  cases hab
  rw [← sourceElements ho] <;> rfl

/-- The elements of sector x of a conversion, as they are written: those of the source row that lie in it. -/
theorem convertedSector_asWritten (hv : v.toNat ≤ 4) {n x : Nat} :
    (convertedSector ((elementsOf v (sectorsIn h c v)).map (sourceElement h c j f v o)) n x).map asWritten =
      ((List.range n).map (fun i => (valueOf o v (x * n + i),
        decide (x * n + i < elemCount v * h.csr.xcl) && Active h c j v (x * n + i), fitFrom (fmtInt f)))).map
          asWritten := by
  unfold convertedSector
  rw [List.map_map, List.map_map]
  refine List.map_congr_left (fun i hi => ?_)
  have hin : i < n := List.mem_range.mp hi
  have hdiv : (x * n + i) / n = x := by
    rw [Nat.mul_comm, Nat.mul_add_div (by omega), Nat.div_eq_of_lt hin, Nat.add_zero]
  have hmem : x * n + i ∈ (elementsOf v (sectorsIn h c v)).filter (fun e => e / n == x) ↔
      x * n + i ∈ elementsOf v (sectorsIn h c v) := by
    rw [List.mem_filter, hdiv, beq_self_eq_true, and_iff_left rfl]
  rw [Function.comp_apply, Function.comp_apply, List.filter_map]
  rw [show ((fun y : Nat × Exact × Bool × IntFit => y.1 / n == x) ∘ sourceElement h c j f v o) = (fun e => e / n == x)
    from rfl, find?_number (g := sourceElement h c j f v o) (fun _ => rfl)]
  by_cases he : x * n + i ∈ elementsOf v (sectorsIn h c v)
  · rw [if_pos (hmem.mpr he), decide_eq_true (lt_of_mem_elementsOf hv he), Bool.true_and]
    rfl
  · have hoff : (decide (x * n + i < elemCount v * h.csr.xcl) && Active h c j v (x * n + i)) = false := by
      rw [Bool.eq_false_iff, ne_eq, Bool.and_eq_true, decide_eq_true_eq]
      exact fun hon => he (mem_elementsOf_of_active hv hon.1 hon.2)
    rw [if_neg (fun h => he (hmem.mp h)), hoff]
    rfl

/-- VCVT rounds the elements that a sector of its result takes once, each from its number in the source row (R176). -/
theorem cvtRow_sector (ho : AllOpen h c j c.t.a.toNat f v o) {x i : Nat} (hab : cvtRow h c j a = .ok b)
    (hx : x < h.csr.xcl) (hi : i < elemCount c.t.cw)
    (hlt : x * elemCount c.t.cw + i < elemCount v * h.csr.xcl)
    (hact : Active h c j v (x * elemCount c.t.cw + i) = true) :
    ∃ sr, b.row.vec c.t.d.toNat x = (encodeEach c.t.fmt c.t.cw (some ((namedSexp c).getD 0)) c.mode c.satf sr
      ((List.range (elemCount c.t.cw)).map (fun i => (valueOf o v (x * elemCount c.t.cw + i),
        decide (x * elemCount c.t.cw + i < elemCount v * h.csr.xcl) && Active h c j v (x * elemCount c.t.cw + i),
        fitFrom (fmtInt f))))).sector := by
  obtain ⟨-, -, -, -, hv, -⟩ := opens_wf (ho 0 (Nat.zero_lt_of_lt hx))
  have hmem := mem_elementsOf_of_active hv hlt hact
  rw [cvtRow_eq ho ((mem_elementsOf hv).mp hmem) hab]
  obtain ⟨a', ha'⟩ := foldl_acc_at (g := convertSector c ((namedSexp c).getD 0)
    ((elementsOf v (sectorsIn h c v)).map (sourceElement h c j f v o))) (convertSector_other c _ _)
    (List.mem_range.mpr hx) List.nodup_range a
  have hdiv : (x * elemCount c.t.cw + i) / elemCount c.t.cw = x := by
    rw [Nat.mul_comm, Nat.mul_add_div (by omega), Nat.div_eq_of_lt hi, Nat.add_zero]
  have hany : ((((elementsOf v (sectorsIn h c v)).map (sourceElement h c j f v o)).filter
      (fun y => y.1 / elemCount c.t.cw == x)).any (fun y => y.2.2.1)) = true := by
    refine List.any_eq_true.mpr ⟨sourceElement h c j f v o (x * elemCount c.t.cw + i), ?_, hact⟩
    exact List.mem_filter.mpr ⟨List.mem_map.mpr ⟨_, hmem, rfl⟩, beq_iff_eq.mpr hdiv⟩
  refine ⟨a'.sr, ha'.trans ?_⟩
  rw [convertSector, if_pos hany]
  refine (vec_setVec_typed _ _ _ (tagCls_encodeEach ..)).trans ?_
  rw [← encodeEach_asWritten, convertedSector_asWritten hv, encodeEach_asWritten]
end

end Sys2Proof.VectorConversions
end

section
/-! PROOFS. What each vector instruction makes of its row. -/

namespace Sys2Proof.VectorRows

open Sys2Proof Sys2Proof.Machine Sys2Proof.Claim Sys2Proof.Laws Sys2Proof.VectorMask Sys2Proof.VectorFrame
  Sys2Proof.VectorSectors Sys2Proof.VectorMoves Sys2Proof.VectorReductions Sys2Proof.VectorConversions

-- One proof is checked at a time: this keeps the check of the whole text within its memory.
set_option Elab.async false

/-! ## A register sector after its row (R165 to R185) -/

section
variable {s : State} {h : Hart} {c : Command} {j x : Nat} {a b : Acc} {f : BitVec 5} {w : BitVec 3} {oa ob : Opened}

theorem dotRow_slot {i m : Nat} {g u : BitVec 5} {v : BitVec 3} {od : Opened} (hm : m = 2 ∨ m = 4)
    (hab : dotRow m s h c j a = .ok b) (hx : x < h.csr.xcl) (hoa : Opens h c j c.t.a.toNat x f w oa)
    (hob : Opens h c j c.t.b.toNat x f w ob) (hod : Opens h c j c.t.d.toNat x u v od) (hf : fmtInt f = true)
    (hu : fmtInt u = true) (hg : signedFmt (m * fmtWidth f) = some g) (hv : wideCw w m = some v)
    (hin : c.inRange v x = true) (hi : i < elemCount v) :
    slotOf (b.row.vec c.t.d.toNat x) v i = if Active h c j v (x * elemCount v + i) then
      (fitInt (fmtWidth g) true c.satf (dotSum m w v oa ob od i)).1 else 0 := by
  obtain ⟨a', b', hb', hvec⟩ := runSectors_sector (dotSector_frames s h c m (h.row j)) hx hab
  obtain ⟨hwidth, hsigned, hint, -⟩ := signedFmt_spec hg
  have hfit : fmtFits g v = true := by
    obtain ⟨-, -, -, -, -, hfw⟩ := opens_wf hoa
    rw [fmtFits, Bool.and_eq_true, decide_eq_true_eq] at hfw
    have hle : fmtWidth g ≤ cwBits v := by
      rw [hwidth, cwBits_wideCw hm hv]
      exact Nat.mul_le_mul_left _ hfw.1
    have h8 : (g.toNat == 8 && v.toNat == 4) = false := by
      rw [Bool.and_eq_false_iff]
      left
      revert hint
      clear hwidth hsigned hle hg
      revert g
      decide
    rw [fmtFits, h8, decide_eq_true hle]
    rfl
  rw [hvec, dotSector_eq hoa hob hod hf hu hg hv hin hb', acts_eq, slotOf_encodeInts hint hfit c.satf _ hi, hsigned]

theorem selRow_sector (hab : selRow s h c j a = .ok b) (hx : x < h.csr.xcl) (hoa : Opens h c j c.t.a.toNat x f w oa)
    (hob : Opens h c j c.t.b.toNat x f w ob) (hin : c.inRange w x = true) :
    ∃ sr, b.row.vec c.t.d.toNat x = (encodeSector f w (if f = fE2m1 then none else some 0) .wrap 0 false sr
      ((List.range (elemCount w)).map (fun i =>
        (((if Enabled h c j (x * elemCount w + i) then oa else ob).values w).getD i (zeroOf false),
          inVl (vlBits c.vl c.vlcw) w (x * elemCount w + i))))).sector := by
  rw [selRow_eq] at hab
  obtain ⟨a', b', hb', hvec⟩ := runSectors_sector (selSector_frames s h c (h.row j)) hx hab
  exact ⟨a'.sr, hvec.trans (selSector_sector hoa hob hin hb')⟩

theorem classRow_slot (hab : classRow h c j a = .ok b) (hx : x < h.csr.xcl) (hoa : Opens h c j c.t.a.toNat x f w oa)
    (hin : c.inRange w x = true) : ∃ u, classFmt w = some u ∧ ∀ i, i < elemCount w →
      slotOf (b.row.vec c.t.d.toNat x) w i =
        if Active h c j w (x * elemCount w + i) then classIndex f (oa.codes.getD i 0) else 0 := by
  rw [classRow_eq] at hab
  obtain ⟨a', b', hb', hvec⟩ := runSectors_sector (classSector_frames c (h.row j)) hx hab
  rw [hvec]
  exact classSector_sector hoa hin hb'

end

/-- Settles O30: each row function goes sector by sector, over a rearrangement's sources, or over the row's elements. -/
theorem vectorRowResults : Obligations.VectorRowResults := by
  unfold Obligations.VectorRowResults
  refine ⟨?_, ?_, ?_, ?_, ?_, ?_, ?_, ?_, ?_⟩
  · intro s hid h c g fl hd k runs
    exact ⟨ran_xvOp hd (exec_vdot2 ..), ran_xvOp hd (exec_vdot4 ..), ran_xvOp hd (exec_vcmp ..),
      ran_xvOp hd (exec_vsel ..), ran_xvOp hd (exec_vclass ..), ran_xvOp hd (exec_vslide ..),
      ran_xvOp hd (exec_vperm ..), ran_xvOp hd (exec_vzip ..), ran_xvOp hd (exec_vunzip ..),
      ran_xvOp hd (exec_vbcast ..), ran_xvOp hd (exec_vid ..), ran_xvOp hd (exec_vseti ..),
      ran_xvOp hd (exec_vextr ..), ran_xvOp hd (exec_vtagr ..), ran_xvOp hd (exec_vtagw ..),
      ran_xvOp hd (exec_vsexp ..), ran_xvOp hd (exec_vredsum ..), ran_xvOp hd (exec_vredsumo ..),
      ran_xvOp hd (exec_vredmax ..), ran_xvOp hd (exec_vredmin ..), ran_xvOp hd (exec_vcvt ..),
      ran_xvOp hd (exec_vmov ..)⟩
  · intro s h c j x i m a b f g u w v oa ob od hm hab hx hoa hob hod hf hu hg hv hin hi
    exact dotRow_slot hm hab hx hoa hob hod hf hu hg hv hin hi
  · intro s h c j x a b f w oa ob hx hoa hin n inside
    refine ⟨fun hab hob => selRow_sector hab hx hoa hob hin, fun hab => classRow_slot hab hx hoa hin, fun hab => ?_,
      fun hab ht => ?_⟩
    · obtain ⟨a', b', hb', hvec⟩ := runSectors_sector (sexpSector_frames c (h.row j)) hx hab
      rw [hvec]
      exact sexpSector_sector hoa hin hb'
    · obtain ⟨a', b', hb', hvec⟩ := runSectors_sector (movSector_frames c (h.row j)) hx hab
      rw [hvec]
      exact movSector_sector hoa hin hb' ht
  · intro s h c j a b m t x i w n inside src hab hw hne hregs h8 hok hcls hfmt htag hsrc hx hin hi
    exact rearrange_slot hab hw hne hregs h8 hok hcls hfmt htag hsrc hx hin hi
  · intro s h c j i a w vl back fill slide
    exact ⟨rfl, rfl, rfl, rfl, rfl, rfl, rfl, rfl, fun hb => slideMove_inside hb.1 hb.2, fun hb => slideMove_outside hb,
      rfl, rfl, fun u o hu ho => permMove_source hu ho⟩
  · intro h c j x i a b code masked w e hab hx hin hi
    rw [buildRow_eq] at hab
    obtain ⟨a', b', hb', hvec⟩ := runSectors_sector (buildSector_frames code masked c (h.row j)) hx hab
    obtain ⟨htag, hslot⟩ := buildSector_sector hin hb'
    rw [hvec]
    exact ⟨htag, hslot hi⟩
  · intro h c j a b d imm n x t y
    exact ⟨extrRow_get, tagrRow_get, tagwRow_vec, secRetag_tag _ _, secRetag_kept _⟩
  · intro s h c j a b f w o ho hn h4 hx h8 hin hm vl all live rnd add head gives float
    obtain ⟨-, -, -, -, hw, -⟩ := opens_wf (ho 0 hx)
    obtain ⟨hne, hlen⟩ := allElements_bounds (o := o) (j := j) hw hx h8 hin
    have hgives : ∀ op z, redCode op f c.mode a.sr all live = z → gives op z := fun op z hz hab =>
      redRow_slots ho hn h4 hx hin hz hab
    refine ⟨fun hi => ⟨hgives _ _ (redCode_sum _ hi hm hne hlen), hgives _ _ (redCode_sumOrdered _ hi hm hne),
      fun hl => ⟨hgives _ _ (redCode_max _ hi hm hl), hgives _ _ (redCode_min _ hi hm hl)⟩, fun hl => ?_⟩, fun hi => ?_⟩
    · obtain ⟨hmax, hmin⟩ := redCode_extreme_none (f := f) (mode := c.mode) a.sr (all := all) hi
      exact ⟨hgives _ _ (hl ▸ hmax), hgives _ _ (hl ▸ hmin)⟩
    · obtain ⟨hsum, hord⟩ := redCode_int (f := f) (mode := c.mode) a.sr (all := all) (live := live) hi
      exact ⟨hgives _ _ hsum, hgives _ _ hord⟩
  · intro h c j x a b f v o w n on ho hab hx hon t
    obtain ⟨i, hi, hact⟩ := hon
    obtain ⟨hlt, hact⟩ := Bool.and_eq_true_iff.mp hact
    obtain ⟨sr, hsr⟩ := cvtRow_sector ho hab hx hi (of_decide_eq_true hlt) hact
    refine ⟨sr, hsr.trans ?_⟩
    have ht : (namedSexp c).getD 0 = t := by
      unfold namedSexp
      simp only [t]
      split <;> rfl
    rw [ht]

end Sys2Proof.VectorRows
end
